-- ==== Sys2Proof/Word.lean ====
section
/-! DEFINITION. The word types of the CKG-9128 model and their plainest arithmetic. -/

namespace Sys2Proof

/-- One byte of a packet, image or memory. -/
abbrev Byte := BitVec 8

/-- One 32-bit parameter word (R4). -/
abbrev Word := BitVec 32

/-- A belt position: 48 bits of count in [63:16], 16 bits of fraction in [15:0] (R42). -/
abbrev Pos64 := BitVec 64

/-- Status codes of replies and refusals (R362). -/
inductive Status where
  | ok | busyBooting | badOpcode | badLength | badCrc | badParam | noResource | resourceHeld
  | wrongState | locked | authFail | refused | pending | timeout | notPresent | capacity
  | degradedOk | internal
  deriving DecidableEq, Repr

/-- The code a status carries on the wire (R362). -/
def Status.code : Status → Nat
  | .ok => 0x00 | .busyBooting => 0x01 | .badOpcode => 0x02 | .badLength => 0x03
  | .badCrc => 0x04 | .badParam => 0x05 | .noResource => 0x06 | .resourceHeld => 0x07
  | .wrongState => 0x08 | .locked => 0x09 | .authFail => 0x0A | .refused => 0x0B
  | .pending => 0x0C | .timeout => 0x0D | .notPresent => 0x0E | .capacity => 0x0F
  | .degradedOk => 0x10 | .internal => 0xFF

/-- The status a wire code names, none for a code R362 does not use. -/
def Status.ofCode : Nat → Option Status
  | 0x00 => some .ok | 0x01 => some .busyBooting | 0x02 => some .badOpcode | 0x03 => some .badLength
  | 0x04 => some .badCrc | 0x05 => some .badParam | 0x06 => some .noResource | 0x07 => some .resourceHeld
  | 0x08 => some .wrongState | 0x09 => some .locked | 0x0A => some .authFail | 0x0B => some .refused
  | 0x0C => some .pending | 0x0D => some .timeout | 0x0E => some .notPresent | 0x0F => some .capacity
  | 0x10 => some .degradedOk | 0xFF => some .internal
  | _ => none

end Sys2Proof
end

