-- ==== Sys2Proof/Syntax.lean ====
section
/-!
DEFINITION. The commands of the CKG-9128 block: one constructor of `Instr` per row of spec/opcode_table.json, and the
plain data their operands carry. The table gives the rows no operands and no bits (assumption 1): an operand here is the
stimulus the world gives that step, or the index of the unit that takes it.
-/

namespace Sys2Proof

/-! ### Operand types -/

/-- How the ECC check of a CSI-2 packet header came out (R94). -/
inductive HeaderCheck where
  | good | corrected | bad
  deriving DecidableEq, Repr

/-- Which pointer fault, if any, an access to a queue meets (R304). -/
inductive PtrCheck where
  | good | corrected | mismatch
  deriving DecidableEq, Repr

/-- A CSI-2 packet as a camera port receives it (R92 to R96). -/
structure CsiPacket where
  /-- virtual channel, 0 to 15 -/
  vc : Nat
  /-- data type, 0x00 to 0x3F -/
  dt : Nat
  /-- long packet; a short packet carries synchronisation only -/
  isLong : Bool
  header : HeaderCheck
  /-- the payload CRC checked -/
  crcOk : Bool
  payload : List Byte
  /-- both packet buffers of the port were full when the packet started (R95) -/
  buffersFull : Bool
  /-- the packet was already in progress when the receiver was enabled (R93) -/
  begunBefore : Bool
  /-- what a write of its embedded data meets at the diagnostic queue (R96, R304) -/
  pointers : PtrCheck
  deriving DecidableEq, Repr

/-- The dataset an Announce message carries (R71, R79). -/
structure PtpDataset where
  priority1 : Nat
  clockClass : Nat
  accuracy : Nat
  variance : Nat
  priority2 : Nat
  gmId : BitVec 64
  stepsRemoved : Nat
  /-- currentUtcOffset in s, signed (R67) -/
  utcOffset : Int
  utcValid : Bool
  /-- logAnnounceInterval the master advertises -/
  logInterval : Int
  deriving DecidableEq, Repr

/-- An edge on a capture source, and for how many ns its new level has been stable (R37, R83). -/
structure PinEdge where
  falling : Bool
  stable : Nat
  deriving DecidableEq, Repr

/-- A received PTP message, less what only some kinds carry (R79). -/
structure PtpMsg where
  domain : Nat
  seq : Nat
  /-- sourcePortIdentity: clockIdentity and port number -/
  clockId : BitVec 64
  portNo : Nat
  /-- UDP over IPv4 rather than Ethernet -/
  udp : Bool
  /-- majorSdoId of the header: 1 for 802.1AS, 0 for the 1588 profiles (R79) -/
  sdoId : Nat
  /-- the timestamp in the body: 48-bit seconds and ns (R67) -/
  sec : Nat
  ns : Nat
  /-- requestingPortIdentity of an answer is this port of this module (R79) -/
  toUs : Bool
  /-- cumulativeScaledRateOffset of the 802.1AS Follow_Up information, in 2^-41 (R73) -/
  rateOffset : Int
  /-- correctionField in 2^-16 ns -/
  correction : Int
  twoStep : Bool
  /-- logMessageInterval -/
  logInterval : Int
  deriving DecidableEq, Repr

/-- Which of the two messages of a peer delay answer arrived (R79). -/
inductive PdelayPart where
  | resp | followUp
  deriving DecidableEq, Repr

/-- A 128-byte spoke flit, field by field (R322). -/
structure SpokeFlit where
  vc : Nat
  mtype : Nat
  last : Bool
  abort : Bool
  bcast : Bool
  dest : Byte
  src : Byte
  seq : BitVec 10
  ack : BitVec 10
  ackValid : Bool
  credVc : Nat
  credN : Nat
  hops : Nat
  /-- payload bytes 8 to 123 of the flit, 116 of them -/
  payload : List Byte
  /-- check value, bytes 124 to 127 (R323) -/
  check : Word
  deriving DecidableEq, Repr

/-- What a partner announces in TS2 (R317, R326). -/
structure Ts2 where
  epoch : Nat
  hostAttached : Bool
  addrValid : Bool
  addr : Byte
  /-- dedicated credits of VC0 to VC3 -/
  dedicated : List Nat
  shared : Nat
  deriving DecidableEq, Repr

/-- One self-test slice record (R453). -/
structure SliceResult where
  code : Nat
  /-- 0 PASS, 1 FAIL, 2 TIMEOUT -/
  result : Nat
  timeUs : Nat
  /-- [7:0] failing lane mask, [31:8] error count -/
  detail : Word
  deriving DecidableEq, Repr

/-- A command packet that was accepted for execution: its tag, sender and payload (R353, R356). -/
structure Req where
  tag : BitVec 12
  /-- chain address at which the command entered the system -/
  src : Byte
  bcast : Bool
  payload : List Byte
  deriving DecidableEq, Repr

/-- What the ECC of one accessed word found (R23, R24). -/
inductive EccCheck where
  | clean | corrected | uncorrectable
  deriving DecidableEq, Repr

/-- A QUEUE_WRITE or QUEUE_READ, with what its access meets at the queue's pointers and what SECDED finds in the data words
read, in order (R23, R304). -/
structure QueueReq where
  req : Req
  pointers : PtrCheck
  ecc : List EccCheck
  deriving DecidableEq, Repr

/-- A detection region whose post unit has decoded its first request, and what the write of the box records meets at the box
queue (R257, R304). -/
structure BoxDone where
  region : Nat
  pointers : PtrCheck
  deriving DecidableEq, Repr

/-- The hardware and firmware producers of a queue (R301). -/
inductive Producer where
  | headraceDiag | postBox | firmware
  deriving DecidableEq, Repr

/-- Causes of a Miller warm restart (R424). -/
inductive RestartCause where
  | memoryError | exception
  deriving DecidableEq, Repr

/-- An error a block reports to its manager (R24, R434, R435). -/
structure ErrorReport where
  /-- block code of R5 -/
  block : Nat
  inst : Nat
  /-- error code of R435 -/
  code : Nat
  /-- word, address or index concerned -/
  detail : BitVec 64
  deriving DecidableEq, Repr

/-- How a command that finishes later ends: the world's part of the result (R369, R472, R451). -/
inductive Completion where
  /-- the work ended as the module's state decides -/
  | done
  /-- CAM_I2C: the bytes read -/
  | i2cBytes (data : List Byte)
  /-- CAM_I2C: a NACK on this byte, 0 for the address -/
  | i2cNack (index : Nat)
  /-- the bus did not finish in time -/
  | timedOut
  /-- CAM_SUPPLY: mask of the ports that tripped in soft start -/
  | tripped (mask : BitVec 4)
  /-- BIST_RUN: one record per slice -/
  | slices (results : List SliceResult)
  /-- QUEUE_WRITE: there is room, and what the access meets at the queue's pointers (R304) -/
  | queueAccess (pointers : PtrCheck)
  deriving DecidableEq, Repr

/-! ### The commands -/

/-- The rows of spec/opcode_table.json, in the table's order. (log 1, DESIGN CHOICE) -/
inductive Instr where
  /-- level of COMPAT_SEL sampled at power-good (R466) -/
  | powerGood (compatSel : Bool)
  | vinQualified
  | vinOutOfRange
  | presentNOpen
  | overcurrentTrip
  | overcurrentRetry
  /-- the preferred copy verified, and the other copy verified (R445) -/
  | firmwareVerified (preferredOk otherOk : Bool)
  | bootSliceSetDone (results : List SliceResult)
  | startupReady
  | modelStoreCopyDone
  /-- levels of A and B after the edge, and the ns for which they have been stable (R36, R37) -/
  | encoderCountEdge (levels : Bool × Bool) (stable : Nat)
  | encZEdge
  | lineFault
  | synthCountEdge
  | speedWindowAge
  | countSetWrite (value : Word)
  | positionCountRead
  | backstopClose
  | replayPaceTimer
  | fabricStepStart
  | blockInputComplete (region block : Nat)
  /-- the `index`-th waiting synaptic update of the block is handled (R132) -/
  | asyncSynapticUpdate (region block index : Nat)
  | blockStepFinished (region block : Nat)
  | decoderRecordRelease (region : Nat)
  /-- repair of a state word (`synapse` false) or a synapse word (R151) -/
  | stateWordRepair (region block : Nat) (synapse : Bool) (index : Nat)
  /-- the node at ring position `node` receives the flit its neighbour sends: from position node - 1 when `up`, else from
  node + 1; what SECDED found in the header and in each of the seven other words (R157 to R160) -/
  | flitEventsRx (node : Nat) (up : Bool) (header : EccCheck) (words : List EccCheck)
  | flitCloseRx (node : Nat) (up : Bool) (header : EccCheck) (words : List EccCheck)
  /-- what SECDED found in the two words of the first copy, in those of the second, and in the four words behind (R160) -/
  | flitStepEndRx (node : Nat) (up : Bool) (first second behind : List EccCheck)
  /-- `hop`: the node, and whether the flit comes up; `own`: the neighbour's own CONTROL flit, with its destination; none for
  one that passes through it -/
  | flitControlRx (hop : Nat × Bool) (ecc : List EccCheck) (own : Option Nat)
  | spillReadback (region : Nat)
  | csi2PacketRx (port : Nat) (packet : CsiPacket)
  | refractSweep (port cell : Nat)
  | camSyncPulse (port : Nat)
  | replayWord
  | fmtDescriptorWrite (port descriptor word : Nat) (value : Word)
  | ptpSyncRx (port : Nat) (msg : PtpMsg)
  | ptpFollowUpRx (port : Nat) (msg : PtpMsg)
  | ptpAnnounceRx (port : Nat) (msg : PtpMsg) (data : PtpDataset)
  | ptpDelayRespRx (port : Nat) (msg : PtpMsg)
  | ptpPdelayReqRx (port : Nat) (msg : PtpMsg)
  | ptpPdelayRespRx (port : Nat) (part : PdelayPart) (msg : PtpMsg)
  | ptpMessageIgnored (port : Nat)
  | ptpDelayReqSend (port domain : Nat)
  /-- `announce`: announce receipt rather than sync receipt (R71) -/
  | ptpReceiptTimeout (domain : Nat) (announce : Bool)
  | domainSwitchDone
  | timeSwitchWrite (value : Word)
  | domainRelockWrite (domain : Nat) (value : Word)
  /-- `localCount`: TIME.LOCAL rather than TIME.NOW (R88) -/
  | timeNowRead (localCount : Bool)
  | ppsPulse
  | tcuCapture (unit : Nat) (edge : PinEdge)
  | tcuCapRead (unit : Nat)
  | frameLaunch (port : Nat)
  | trackerStepProcess (region : Nat)
  /-- `late`: the copy missed its deadline (R183) -/
  | mirrorCopy (region : Nat) (late : Bool)
  | pairWaitEnd (object : Word)
  | fusionVote (region : Nat) (object : Word)
  | fusionForceWrite (region sensor : Nat) (value : Word)
  /-- ports whose reduction did not finish in idle slots (R207) -/
  | refineApply (unfinished : BitVec 4)
  | tileBuildStart (region : Nat)
  | tileReady (region tile : Nat)
  | tileUe (region tile : Nat)
  | quernModeSwitch (region mode : Nat)
  | stripeStart (region sub : Nat)
  | stripeDone (region sub : Nat)
  /-- `planeBad`: the error lies in an activation plane the stripe reads (R247) -/
  | stripeAbort (region sub : Nat) (planeBad : Bool)
  | edgeLayerGroupDone (region : Nat)
  | fcBatchStream (region : Nat)
  | postClassify (region : Nat) (object : Word)
  | boxRequest (region : Nat) (object : Word)
  | boxDecodeDone (box : BoxDone)
  | verdictDeadline (object : Word)
  | frameBuild (group : Nat)
  /-- bits sampled since the last command for the channel, oldest first; stage whose ROM word meets a parity error (R281) -/
  | auxSampleOutput (channel : Nat) (bits : List Bool) (rom : Option Nat)
  | auxStuck (channel : Nat) (bits : List Bool)
  | auxStuckRecover (channel : Nat) (bit : Bool)
  | auxfiltSyncWrite (value : Word)
  /-- a channel CFG word (`instance` below 16) or the MCLK word (`instance` 16) -/
  | auxfiltCfgWrite (unit : Nat) (value : Word)
  | auxfiltLastRead (channel : Nat)
  | queueEnableWrite (queue : Nat) (value : Word)
  | qflushWrite (queue : Nat) (value : Word)
  /-- the last word is marked as the packet's end when `eop` (R299) -/
  | queueHwWrite (queue : Nat) (producer : Producer) (words : List (BitVec 64)) (eop : Bool) (pointers : PtrCheck)
  | queueWriteTimeout (tag : BitVec 12)
  | syncobjRead (object : Nat)
  | syncobjWrite (object : Nat) (operand : Word)
  | syncobjAdd (object : Nat) (operand : Word)
  | syncobjCas (object : Nat) (new expected : Word)
  | syncobjSet (object : Nat)
  | syncobjClear (object : Nat)
  | syncobjTestAndSet (object : Nat)
  | checkvalStart (context : Nat) (value : Word)
  | checkvalFeed (context : Nat) (value : Word)
  | checkvalFeedPart (context : Nat) (value : Word)
  | checkvalRangeGo (context : Nat) (value : Word)
  /-- bytes fed before a double-bit error, none when the whole range was good (R314) -/
  | checkvalRangeDone (context : Nat) (errorAfter : Option Nat)
  | checkvalStateWrite (context : Nat) (value : Word)
  /-- `result`: RESULT rather than STATE (R315) -/
  | checkvalStateRead (context : Nat) (result : Bool)
  | spokeSignalDetect (port : Nat)
  /-- lanes found inverted (R319) -/
  | spokeLockDone (port : Nat) (inverted : BitVec 4)
  /-- lane numbers received on lanes 0 to 3, and skew in blocks (R319) -/
  | spokeAlignDone (port : Nat) (lanes : List Nat) (skew : Nat)
  | spokeTs2ExchangeDone (port : Nat) (ts2 : Ts2)
  | spokeTrainingTimeout (port : Nat)
  | spokeHoldExpiry (port : Nat)
  | spokeLockLoss (port : Nat)
  | linkRx (port : Nat) (flit : SpokeFlit)
  | spokeFlitDiscard (port : Nat) (flit : SpokeFlit)
  | spokeAckTimeout (port : Nat)
  | heartbeatSend (port : Nat)
  | heartbeatRx (port : Nat) (flit : SpokeFlit)
  | heartbeatTimeout (port : Nat)
  | haloEvents (port : Nat) (flit : SpokeFlit)
  | verdictRelay (port : Nat) (flit : SpokeFlit)
  | activation (port : Nat) (flit : SpokeFlit)
  | commandFwd (port : Nat) (flit : SpokeFlit)
  | explore (port : Nat) (flit : SpokeFlit)
  | discover (port : Nat) (flit : SpokeFlit)
  | identify (port : Nat) (flit : SpokeFlit)
  | report (port : Nat) (flit : SpokeFlit)
  | assign (port : Nat) (flit : SpokeFlit)
  | routes (port : Nat) (flit : SpokeFlit)
  | notify (port : Nat) (flit : SpokeFlit)
  | spokeAcceptWrite (value : Word)
  | retrainDrainDone (port : Nat)
  | sdioCmd0
  | sdioCmd3
  | sdioCmd5 (arg : Word)
  | sdioCmd7 (rca : BitVec 16)
  | sdioCmd11
  | sdioCmd19
  | sdioCmd52 (write raw : Bool) (function address : Nat) (data : Byte)
  /-- a read, or a write of `data`; `count` bytes, or blocks of 512 in block mode; `increment` addressing -/
  | sdioCmd53 (write blockMode increment : Bool) (function address count : Nat) (data : List Byte)
  | sdioIllegalCommand (index : Nat)
  | inDoorbellWrite (length : BitVec 16)
  | commandPacketAccept
  | outAckWrite (value : Byte)
  | bulkBlockWrite (data : List Byte)
  | bulkBlockRead
  | bulkInComplete
  | fwdTimeout (dest : Byte) (tag : BitVec 12)
  | getInfo (req : Req)
  | getCaps (req : Req)
  | echo (req : Req)
  | getState (req : Req)
  | paramRead (req : Req)
  | paramWrite (req : Req)
  | paramReadList (req : Req)
  | paramWriteList (req : Req)
  | paramWordWrite (id value : Word)
  | imageBegin (req : Req)
  | imageCommit (req : Req)
  | imageUnload (req : Req)
  | imageInfo (req : Req)
  | bulkAbort (req : Req)
  | imageSwap (req : Req)
  | swapCut
  | arm (req : Req)
  | stop (req : Req)
  | moduleReset (req : Req)
  | moduleResetExecute (compatSel : Bool)
  | claim (req : Req)
  | release (req : Req)
  | queueWrite (req : QueueReq)
  | queueRead (req : QueueReq)
  | syncobjOp (req : Req)
  | powerSet (req : Req)
  | powerStatus (req : Req)
  | regionPark (req : Req)
  | regionResume (req : Req)
  | timeSnapshot (req : Req)
  | camI2c (req : Req)
  | camSupply (req : Req)
  | monRead (req : Req)
  | monClear (req : Req)
  | monitorCfgWrite (channel word : Nat) (value : Word)
  | dumpInfo (req : Req)
  | dumpRead (req : Req)
  | dumpClear (req : Req)
  | logRead (req : Req)
  | getIdentity (req : Req)
  | attest (req : Req)
  | lifecycleGet (req : Req)
  | lifecycleSet (req : Req)
  | firmwareActivate (req : Req)
  | enumerate (req : Req)
  | retrain (req : Req)
  | testReport (req : Req)
  | testRead (req : Req)
  | bistRun (req : Req)
  /-- `ok`: the restore or entry succeeded (R412) -/
  | powerTransitionDone (domain : Nat) (ok : Bool)
  /-- block code and instance of the block that refused (R408) -/
  | powerBlockStopTimeout (domain blockCode unit : Nat)
  | powerEntryCommit (domain : Nat)
  | powerAccessWake (domain : Nat)
  | powerRetHoldExpiry (domain : Nat)
  | blockErrorReport (report : ErrorReport)
  | regionFailureReport (region : Nat)
  | stepDeadlineMiss (region : Nat)
  | hubHeartbeatMiss (region : Nat)
  | clockLockLoss (domain : Nat)
  | regionRetestWrite (value : Word)
  | autoRetestTimer
  | retestDone (results : List SliceResult)
  /-- `lastOfPass`: the access completes a full pass of all banks (R437) -/
  | scrubAccess (bank : Nat) (ecc : EccCheck) (lastOfPass : Bool)
  /-- area of R28, 0 to 6 in its table's order -/
  | patrolScrub (area : Nat) (ecc : EccCheck)
  | watchdogTimeout
  | millerWarmRestart (cause : RestartCause)
  /-- `tablesOk`: the checks of R424 on the Miller's own tables passed -/
  | restartDone (tablesOk : Bool)
  | restartTimeout
  /-- cause of R426 -/
  | fatalError (cause : Nat)
  | fatalDumpDone (compatSel : Bool)
  | monitorSnapSwap
  /-- reading in 1/16 degree C (R475) -/
  | tempSample (sensor : Nat) (reading : BitVec 16)
  /-- reading in mV; `sustained`: outside the limits for 100 us (R476) -/
  | railSample (rail : Nat) (reading : BitVec 16) (sustained : Bool)
  | camSupplyTrip (port : Nat)
  | presentNMate
  | ethBlockLockLost (port : Nat)
  | ethBlockLockGained (port : Nat)
  | ethFrameRx (port : Nat) (fcsOk : Bool)
  | spokePortEnWrite (port : Nat) (value : Word)
  | servoEnableWrite (domainWord : Option Nat) (value : Word)
  /-- `later`: what the world adds to the result -/
  | commandCompletion (tag : BitVec 12) (later : Completion)
  /-- a channel of QUEUE_OCC, EVENT_RATE or INPUT_POWER; `value`: the input power in mW, the others are read from State (R433) -/
  | monitorSampleTick (channel : Nat) (value : Word)
  deriving DecidableEq, Repr

end Sys2Proof
end

