-- ==== Sys2Proof/Decode.lean ====
section
/-! DEFINITION. The decoder over the rows of spec/opcode_table.json that give bits. -/

namespace Sys2Proof

/-- The command a word spells by the table's bits. Every row of the table has an empty list of fields, so no word spells a
command (assumption 1). (log 1, DESIGN CHOICE) -/
def decodeTableWord (_nbits _w : Nat) : Option Instr := none

end Sys2Proof
end

