-- ==== Sys2Proof/Machine/Bits.lean ====
section
/-!
DEFINITION. Bit fields, byte order, signed readings, saturation and the rounding rules that several chapters share
(R1, R2, R82, R135, R282).
-/

namespace Sys2Proof

/-- Bits [lsb + width - 1 : lsb] of `x` (R1). -/
def bitsOf (x lsb width : Nat) : Nat := x / 2 ^ lsb % 2 ^ width

/-- Bit `n` of `x`. -/
def bitOf (x n : Nat) : Bool := x / 2 ^ n % 2 == 1

/-- `x` with bits [lsb + width - 1 : lsb] replaced by the low bits of `v`. -/
def withBits (x lsb width v : Nat) : Nat :=
  x - bitsOf x lsb width * 2 ^ lsb + v % 2 ^ width * 2 ^ lsb

/-- The signed value of a `w`-bit two's complement number. -/
def signedOf (w x : Nat) : Int := if x % 2 ^ w < 2 ^ (w - 1) then (x % 2 ^ w : Nat) else (x % 2 ^ w : Nat) - (2 ^ w : Nat)

/-- The `w`-bit two's complement code of an integer. -/
def codeOf (w : Nat) (x : Int) : Nat := (x % (2 ^ w : Nat)).toNat

/-- A Bool as a bit. -/
def bit (b : Bool) : Nat := if b then 1 else 0

/-- `n` bytes of `x`, least significant first (R2). -/
def leBytes : Nat → Nat → List Byte
  | 0, _ => []
  | n + 1, x => BitVec.ofNat 8 x :: leBytes n (x / 256)

/-- `n` bytes of `x`, most significant first. -/
def beBytes (n x : Nat) : List Byte := (leBytes n x).reverse

/-- The number that little-endian bytes spell (R2). -/
def ofLe : List Byte → Nat
  | [] => 0
  | b :: bs => b.toNat + 256 * ofLe bs

/-- The number in `n` bytes from offset `at`; bytes beyond the list read 0. -/
def leAt (bs : List Byte) (off n : Nat) : Nat := ofLe ((bs.drop off).take n)

/-- A list cut or zero-padded to `n` bytes. -/
def padTo (n : Nat) (bs : List Byte) : List Byte := bs.take n ++ List.replicate (n - bs.length) 0

/-- Clamp of an integer to [lo, hi]. -/
def clampInt (lo hi x : Int) : Int := if x < lo then lo else if hi < x then hi else x

/-- Saturation to `w`-bit two's complement (R135, R283). -/
def satInt (w : Nat) (x : Int) : Int := clampInt (-(2 ^ (w - 1) : Nat)) ((2 ^ (w - 1) : Nat) - 1) x

/-- The sign of an integer as -1, 0 or +1. -/
def signInt (x : Int) : Int := if x < 0 then -1 else if x = 0 then 0 else 1

/-- Division rounded to the nearest integer, ties to even (rne of R216, R234, R264); `d` > 0. -/
def rneDiv (x : Int) (d : Nat) : Int :=
  let q := x.fdiv d
  let r := x - q * d
  if 2 * r > d ∨ (2 * r = d ∧ q % 2 = 1) then q + 1 else q

/-- A right shift of `x` by `s` rounded to nearest with ties to even (rne_shift of R282). -/
def rneShift (x : Int) (s : Nat) : Int := rneDiv x (2 ^ s)

/-- Division rounded toward zero (trunc of R46). -/
def truncDiv (x : Int) (d : Nat) : Int := signInt x * ((x.natAbs / d : Nat) : Int)

/-- Division rounded up. -/
def ceilDiv (a b : Nat) : Nat := (a + b - 1) / b

/-- Addition that stops at 0xFFFF_FFFF: the counters of R63, R89 and their like. -/
def satAdd32 (a n : Nat) : Nat := min (a + n) 0xFFFFFFFF

/-- All integers from 0 to n - 1, for loops over units. -/
def upTo (n : Nat) : List Nat := List.range n

/-- The n-th byte of a 48-byte or shorter big-endian number is not asked for; bytes of a bit vector, least first. -/
def bytesOfVec {w : Nat} (n : Nat) (x : BitVec w) : List Byte := leBytes n x.toNat

/-- Number of bits set in the low `n` bits of `x`. -/
def popcount (n x : Nat) : Nat := ((upTo n).filter fun i => bitOf x i).length

/-- The first `n`-element sublists of a list, in order. -/
def chunksOf {α : Type} (n : Nat) (xs : List α) : List (List α) :=
  let rec go : Nat → List α → List (List α)
    | 0, _ => []
    | _ + 1, [] => []
    | fuel + 1, x :: xs => (x :: xs).take n :: go fuel ((x :: xs).drop n)
  go xs.length xs

/-- The element at `i` replaced by `f` of it; nothing changes beyond the end. -/
def updateAt {α : Type} (xs : List α) (i : Nat) (f : α → α) : List α :=
  match xs, i with
  | [], _ => []
  | x :: xs, 0 => f x :: xs
  | x :: xs, i + 1 => x :: updateAt xs i f

/-- The list without its first element that meets `p`. -/
def removeFirst {α : Type} (p : α → Bool) : List α → List α
  | [] => []
  | x :: xs => if p x then xs else x :: removeFirst p xs

/-- Insertion into a list kept in the order `le`, after its equals. -/
def insertBy {α : Type} (le : α → α → Bool) (x : α) : List α → List α
  | [] => [x]
  | y :: ys => if le y x then y :: insertBy le x ys else x :: y :: ys

/-- Stable insertion sort. -/
def sortBy {α : Type} (le : α → α → Bool) (xs : List α) : List α := xs.foldl (fun acc x => insertBy le x acc) []

end Sys2Proof
end

