-- ==== Sys2Proof/Machine/Crc.lean ====
section
/-!
DEFINITION. The four check-value algorithms of R312, used by the check-value contexts (R313 to R315), the command packets
(R353, R354), the spoke flits (R323) and the Ethernet FCS (R272).
-/

namespace Sys2Proof

/-- One row of R312. -/
structure CrcAlg where
  width : Nat
  poly : Nat
  init : Nat
  reflected : Bool
  xorOut : Nat
  deriving DecidableEq, Repr

/-- The algorithm that CHECKVAL.CFG.POLY selects (R312). -/
def crcAlg : Nat → CrcAlg
  | 0 => ⟨32, 0x1EDC6F41, 0xFFFFFFFF, true, 0xFFFFFFFF⟩
  | 1 => ⟨32, 0x04C11DB7, 0xFFFFFFFF, true, 0xFFFFFFFF⟩
  | 2 => ⟨64, 0x42F0E1EBA9EA3693, 0, false, 0⟩
  | _ => ⟨16, 0x1021, 0xFFFF, false, 0⟩

/-- The `n` low bits of `x` in reverse order. -/
def reverseBits : Nat → Nat → Nat
  | 0, _ => 0
  | n + 1, x => (x % 2) * 2 ^ n + reverseBits n (x / 2)

/-- One shift of the register of a reflected algorithm (low bit first). -/
def crcShiftRight (rpoly : Nat) : Nat → Nat → Nat
  | 0, st => st
  | n + 1, st => crcShiftRight rpoly n (if st % 2 = 1 then (st / 2) ^^^ rpoly else st / 2)

/-- `n` shifts of the register of an algorithm that is not reflected (high bit first). -/
def crcShiftLeft (width poly : Nat) : Nat → Nat → Nat
  | 0, st => st
  | n + 1, st =>
    crcShiftLeft width poly n
      (if bitOf st (width - 1) then (2 * st % 2 ^ width) ^^^ poly else 2 * st % 2 ^ width)

/-- The register after one data byte (R312). -/
def crcByte (a : CrcAlg) (st : Nat) (b : Byte) : Nat :=
  if a.reflected then crcShiftRight (reverseBits a.width a.poly) 8 (st ^^^ b.toNat)
  else crcShiftLeft a.width a.poly 8 (st ^^^ (b.toNat * 2 ^ (a.width - 8)))

/-- The register after a run of data bytes. -/
def crcFeed (a : CrcAlg) (st : Nat) (bs : List Byte) : Nat := bs.foldl (crcByte a) st

/-- RESULT of a register (R312). -/
def crcResult (a : CrcAlg) (st : Nat) : Nat := st ^^^ a.xorOut

/-- RESULT over a run of bytes from Init. -/
def crcOf (a : CrcAlg) (bs : List Byte) : Nat := crcResult a (crcFeed a a.init bs)

/-- CRC32C over a run of bytes (R354, R323). -/
def crc32c (bs : List Byte) : Nat := crcOf (crcAlg 0) bs

/-- IEEE 802.3 CRC-32 (R272). -/
def crc8023 (bs : List Byte) : Nat := crcOf (crcAlg 1) bs

/-- CRC16_CCITT_FALSE, the header check of R353. -/
def crc16 (bs : List Byte) : Nat := crcOf (crcAlg 3) bs

end Sys2Proof
end

