-- ==== Sys2Proof/Config.lean ====
section
/-!
DEFINITION. What the spec leaves open: opaque constants with no body, applied to the operands they depend on or to the
counter `State.free`. Nothing in Lean can evaluate one, so a statement about one holds for every value.
-/

namespace Sys2Proof.Config

/-- Fraction of a position between two log entries of equal device time, which R45 divides by zero for.
(log 7, DESIGN CHOICE; 16, DEDUCED) -/
opaque zeroFraction : Int → Nat

/-- SPEED over a window of log entries that all have one device time (R46 divides by zero).
(log 7, DESIGN CHOICE; 16, DEDUCED) -/
opaque zeroSpeed : Int → Int

/-- Key by which a block's pipes take neurons in a fabric step with stochastic rounding; the order depends on timing (R139).
(log 7, DESIGN CHOICE; 12, DESIGN CHOICE) -/
opaque orderKey : Nat → Nat → Nat

/-- Whether a decoder's consumer has no room for a record when it is posted (R155 gives no size). (log 27, DESIGN CHOICE) -/
opaque consumerFull : Nat → Bool

/-- LPDDR5X does not take an event of the recorder in time, at the free-value index (R118). (log 69, DESIGN CHOICE) -/
opaque recordLost : Nat → Bool

/-- What a region's tracker writes to an encoder channel with SOURCE = TRACKER in a fabric step, if anything; no rule states it
(R152). (log 26, DEDUCED) -/
opaque trackerFeedback : Nat → Option (BitVec 16)

/-- Counts lost above 10 MHz: true when this count is lost (R36 says counts may be lost). (log 9, DESIGN CHOICE) -/
opaque countLost : Nat → Bool

/-- Order in which the terms of a binary32 sum are added: a stream of picks for the free-value index and the terms' patterns
(R180, R232, R233). (log 7, DESIGN CHOICE) -/
opaque sumPick : Nat → List Nat → Nat → Nat

/-- The integer an infinity or a NaN rounds to, where a rule rounds a value that is neither: no rule states a result.
(log 7, DESIGN CHOICE; 21, DESIGN CHOICE) -/
opaque noInteger : Nat → Int

/-- Slope of a least-squares line whose samples all have one abscissa (R207 states none). (log 21, DESIGN CHOICE) -/
opaque noSlope : Nat → BitVec 32

/-- Confidence of a vote whose weights are all 0 (R198 divides by their sum). (log 21, DESIGN CHOICE) -/
opaque zeroWeight : Nat → Nat

/-- Units in the last place by which an exp of the softmax differs from the nearest value, of which R251 allows 2.
(log 23, DEDUCED) -/
opaque expUlp : Nat → Int

/-- INT8 code of a binary32 input of a fully connected layer that no layer has requantised; no rule states the conversion.
(log 23, DEDUCED) -/
opaque toInt8 : Nat → Int

/-- Word of the filter coefficient ROM by preset, stage (0 FIR, 1 and 2 half-band) and tap; its low 18 bits are the
coefficient. The spec gives no coefficients (R280, R281). (log 28, DEDUCED) -/
opaque auxCoef : Nat → Nat → Nat → Nat

/-- VALUE of a sample computed with a ROM word of bad parity, of which R281 says only that it is invalid. (log 28, DEDUCED) -/
opaque badRomValue : Nat → Nat

/-- What the true random source gives: the identity key of the n-th key generation, the temporary key of the n-th power-up, and the
one-time scalar of a signature (R447, R448). (log 53, DESIGN CHOICE; 66, DEDUCED) -/
opaque identitySecret : Nat → Nat
opaque tempSecret : Nat → Nat
opaque signOnce : Nat → Nat

/-- The certificate for the n-th identity key, whose bytes Renryn's device CA fixes (R447). (log 53, DESIGN CHOICE) -/
opaque certificate : Nat → List Byte

/-- Public keys of a Renryn slot, ECDSA and LMS (R442). (log 53, DESIGN CHOICE) -/
opaque renrynEcdsa : Nat → List Byte
opaque renrynLms : Nat → List Byte

/-- The n-th NONCE drawn from the true random source, 32 bytes (R440). (log 53, DESIGN CHOICE) -/
opaque nonce : Nat → List Byte

/-- Version of the firmware with a digest (R370). (log 53, DESIGN CHOICE) -/
opaque fwVersion : Nat → Nat

/-- ROM_VERSION, HW_LEVEL, SERIAL and whether the factory record's CRC checks; the factory MAC addresses (R370, R479).
(log 53, DESIGN CHOICE; 66, DEDUCED) -/
opaque romVersion : Nat
opaque hwLevel : Nat
opaque serial : List Byte
opaque factoryOk : Bool
opaque factoryMac : Nat → Nat

/-- Level on an AUX_IO contact that the module does not drive, at a read (R467). (log 64, DEDUCED) -/
opaque pinLevel : Nat → Nat → Bool

/-- Bytes of a FREE track slot outside its STATE field (R182, R368). (log 51, DEDUCED) -/
opaque freeSlot : Nat → Nat → Byte

/-- Contents of a dump section that is laid out internally to the module (Miller memory, chip tables), or whose places no
rule gives (the shared memory of a region) (R430). (log 61, DEDUCED) -/
opaque dumpBytes : Nat → Nat → List Byte

/-- Whether an excursion of VIN is its removal, which ends a lock-out (R463). (log 66, DEDUCED) -/
opaque vinRemoved : Nat → Bool

/-- SRAM words, or LPDDR5X bursts, that foreground reads have found corrected since the counter was read last: no command tells of
them (R23, R437). (log 7, DESIGN CHOICE; 63, DEDUCED) -/
opaque foundCorrected : Nat → Nat

/-- Block and instance whose storage lies in an SRAM bank, and what a word of it holds, as DETAIL names it (R423, R435).
(log 63, DEDUCED) -/
opaque bankUnit : Nat → Nat × Nat
opaque bankWord : Nat → Nat → Nat

/-- Whether installing an accepted image fails, and the time that the commit of a stored image takes; no rule says (R386, R480).
(log 7, DESIGN CHOICE; 55, DEDUCED; 65, DEDUCED) -/
opaque installFails : Nat → Bool
opaque commitTime : Nat → Nat

/-- Whether a module beyond the partners is armed when an enumeration is asked for; only that module knows (R338).
(log 7, DESIGN CHOICE; 34, DEDUCED) -/
opaque farArmed : Nat → Bool

/-- Relative card address that the n-th CMD3 publishes, operating conditions that CMD5 answers, the tuning block of CMD19, and
read-only bytes of F0: SDIO 3.0 defines them, not the manual (R347, R348). (log 44, PRESUMED) -/
opaque cardAddress : Nat → Nat
opaque sdioOcr : Nat
opaque tuningBlock : List Byte
opaque sdioF0 : Nat → Byte
/-- Manufacturer code in the card's CIS, which the manual does not give (R348). (log 44, PRESUMED) -/
opaque sdioMaker : Nat

end Sys2Proof.Config
end

