-- ==== Sys2Proof/Machine/ParamTable.lean ====
section
/-!
DEFINITION. What a parameter map says of one 32-bit word (R4 to R13): its fields, their access classes, reset values and
allowed values; and the three answers a lookup of a parameter ID can give (R5, R6).
-/

namespace Sys2Proof.Machine

/-- Access codes of R10. -/
inductive Access where
  | ro | rw | rwl | wo | w1c
  deriving DecidableEq, Repr

/-- One field of a word: its place, access, reset value, and the closed intervals of codes its map allows (R9). -/
structure Field where
  lsb : Nat
  width : Nat
  acc : Access
  rst : Nat
  ok : List (Nat × Nat)
  deriving DecidableEq, Repr

/-- What a parameter ID names: nothing on any unit (BAD_PARAM), nothing on this unit (NOT_PRESENT), or a word (R5, R6). -/
inductive Lookup where
  | badParam
  | notPresent
  | word (fields : List Field)
  deriving DecidableEq, Repr

namespace Field

/-- Read-only field. -/
def ro (l w : Nat) (r : Nat := 0) : Field := ⟨l, w, .ro, r, [(0, 2 ^ w - 1)]⟩
/-- Read-write field. -/
def rw (l w : Nat) (r : Nat := 0) : Field := ⟨l, w, .rw, r, [(0, 2 ^ w - 1)]⟩
/-- Read-write field that locks at arming. -/
def rwl (l w : Nat) (r : Nat := 0) : Field := ⟨l, w, .rwl, r, [(0, 2 ^ w - 1)]⟩
/-- Write-only field. -/
def wo (l w : Nat) : Field := ⟨l, w, .wo, 0, [(0, 2 ^ w - 1)]⟩
/-- Write-1-to-clear bit. -/
def w1c (l : Nat) : Field := ⟨l, 1, .w1c, 0, [(0, 1)]⟩
/-- The field with its allowed codes narrowed to [lo, hi]. -/
def within (f : Field) (lo hi : Nat) : Field := { f with ok := [(lo, hi)] }
/-- The field with its allowed codes as a list of intervals. -/
def oneOf (f : Field) (l : List (Nat × Nat)) : Field := { f with ok := l }

/-- The field's code in a word. -/
def get (f : Field) (w : Word) : Nat := bitsOf w.toNat f.lsb f.width
/-- The code lies in an allowed interval. -/
def allows (f : Field) (v : Nat) : Bool := f.ok.any fun i => i.1 ≤ v && v ≤ i.2

end Field

/-- A counter word or any word of one 32-bit RO field with reset 0 (R63 and its like). -/
def counterWord : List Field := [.ro 0 32]

/-- The reset word of a list of fields. -/
def resetOf (fs : List Field) : Word := BitVec.ofNat 32 (fs.foldl (fun a f => a + f.rst % 2 ^ f.width * 2 ^ f.lsb) 0)

/-- Bits of the word that lie in some field; the others are reserved (R3). -/
def fieldMask (fs : List Field) : Nat := fs.foldl (fun a f => a ||| ((2 ^ f.width - 1) * 2 ^ f.lsb)) 0

/-- A word with some RWL field (R12). -/
def hasRwl (fs : List Field) : Bool := fs.any fun f => f.acc == .rwl
/-- A word with some RW field (R12). -/
def hasRw (fs : List Field) : Bool := fs.any fun f => f.acc == .rw

/-- Whether the lock of R10 and R12 refuses the write of `new` over `old`. -/
def lockRefuses (fs : List Field) (old new : Word) : Bool :=
  hasRwl fs && !(hasRw fs && fs.all fun f => f.acc != .rwl || f.get old == f.get new)

/-- Range and reserved bits of R9: a changed writable field must lie in its range, a reserved bit must be 0. -/
def rangeAllows (fs : List Field) (old new : Word) : Bool :=
  (new.toNat &&& (2 ^ 32 - 1 - fieldMask fs)) == 0 &&
  fs.all fun f => match f.acc with
    | .rw | .rwl => f.get old == f.get new || f.allows (f.get new)
    | .wo => f.allows (f.get new)
    | .ro | .w1c => true

/-- The word after an accepted write: each field by its access code (R10). -/
def mergeWrite (fs : List Field) (old new : Word) : Word :=
  BitVec.ofNat 32 (fs.foldl (fun a f => match f.acc with
    | .rw | .rwl => withBits a f.lsb f.width (f.get new)
    | .w1c => withBits a f.lsb f.width (f.get old - f.get new)
    | .ro | .wo => a) old.toNat)

/-- A lookup from what the addressed unit defines and whether another unit of the block defines the index (R6). -/
def Lookup.pick (here : Option (List Field)) (elsewhere : Bool) : Lookup :=
  match here with
  | some fs => .word fs
  | none => if elsewhere then .notPresent else .badParam

/-- A parameter ID from block code, unit and word index (R4). -/
def pid (block unit idx : Nat) : Nat := block * 0x1000000 + unit * 0x10000 + idx

/-- `i` lies in [lo, lo + n). -/
def inRange (lo n i : Nat) : Bool := lo ≤ i && i < lo + n

end Sys2Proof.Machine
end

