-- ==== Sys2Proof/Machine/Params1.lean ====
section
/-!
DEFINITION. Parameter maps of the first chapters: MILLER status (01_architecture.md), POSITION (02_position_clock.md),
TIME (03_network_time.md), HEADRACE and ALIGN (04_headrace.md), NEURON (05_spiking_fabric.md) and ROUTER (06_router.md).
Words that the model computes when they are read (views) are listed here with their access and reset.
-/

namespace Sys2Proof.Machine

open Sys2Proof.Machine.Field

/-- MILLER words of the architecture chapter (R32, R34). -/
def archWord (idx : Nat) : Option (List Field) :=
  match idx with
  | 0x0100 => some [ro 0 4 8, ro 4 5 0x10, ro 9 8 0x11, ro 17 3 4, ro 20 3 4, ro 23 2 2, ro 25 1]
  | 0x0101 => some [ro 0 32]
  | 0x0102 | 0x0103 | 0x0104 => some [ro 0 32]
  | 0x0105 => some [ro 0 4]
  | _ => none

/-- POSITION words (02_position_clock.md, Parameters). -/
def positionWord (idx : Nat) : Option (List Field) :=
  match idx with
  | 0x00 => some [(rwl 0 2).within 0 2, rwl 2 1, (rwl 3 2 2).within 0 2, rwl 5 1, rwl 6 1,
                  (rwl 8 8 4).within 1 255, rwl 16 12 0x10]
  | 0x01 => some [(rwl 0 12 8).within 1 4095, rwl 12 12 4, (rwl 24 7 0x10).within 1 64]
  | 0x02 => some [rwl 0 32]
  | 0x03 => some [rwl 0 16]
  | 0x04 => some [(rwl 0 20 0x2710).oneOf [(0, 0), (100, 0xFFFFF)]]
  | 0x05 => some [(rwl 0 32).within 0 0x98968000]
  | 0x06 => some [rwl 0 32]
  | 0x07 => some [rwl 0 1, (rwl 1 24).within 1 0xFFFFFF]
  | 0x08 | 0x09 => some [ro 0 32]
  | 0x0A => some [wo 0 32]
  | 0x0B => some [wo 0 16]
  | 0x0C | 0x0D | 0x0E => some [ro 0 32]
  | 0x0F => some [ro 0 7, w1c 8, ro 9 1, w1c 10, w1c 11, w1c 12, w1c 13, w1c 14, w1c 15]
  | 0x10 | 0x11 | 0x12 | 0x13 => some counterWord
  | 0x14 | 0x15 => some [ro 0 32]
  | _ => none

/-- Kinds of TIME unit: the time unit, a domain, an Ethernet port, a capture unit (03_network_time.md, Parameters). -/
inductive TimeUnit where
  | main | domain (d : Nat) | port (p : Nat) | tcu (u : Nat)
  deriving DecidableEq, Repr

/-- The TIME unit an ID's instance names. -/
def timeUnit (u : Nat) : Option TimeUnit :=
  if u = 0 then some .main
  else if u = 1 ∨ u = 2 then some (.domain (u - 1))
  else if u = 0x10 ∨ u = 0x11 then some (.port (u - 0x10))
  else if 0x20 ≤ u ∧ u < 0x30 then some (.tcu (u - 0x20))
  else none

/-- TIME words of each kind of unit (03_network_time.md, Parameters; R89). -/
def timeWord : TimeUnit → Nat → Option (List Field)
  | .main, 0 => some [rwl 0 1, rwl 1 1, rwl 2 1 1, (rwl 3 7 0x64).within 1 100, rwl 10 1, (rwl 11 11 0x3E8).within 1 2047]
  | .main, 1 => some [wo 0 1]
  | .main, 2 => some [ro 0 1, ro 1 1, ro 2 1, w1c 3, w1c 4, w1c 5]
  | .main, 3 => some [ro 0 30]
  | .main, 4 | .main, 5 | .main, 6 | .main, 7 => some [ro 0 32]
  | .domain d, 0 => some [rwl 0 8 d, (rwl 8 2 2).within 0 2, rwl 10 1, rwl 11 2 3, (rwl 13 3 3).within 2 7,
                          (rwl 16 3 3).within 2 7]
  | .domain _, 1 => some [(rwl 0 5 2).within 0 20, (rwl 5 5 6).within 0 24, (rwl 10 10 0x64).within 1 1023,
                          (rwl 20 7 0x64).within 1 100]
  | .domain _, 2 => some [ro 0 3, ro 3 1, ro 4 1]
  | .domain _, 3 | .domain _, 4 | .domain _, 5 | .domain _, 6 => some [ro 0 32]
  | .domain _, 7 => some [ro 0 16, ro 16 1]
  | .domain _, 8 => some [wo 0 1]
  | .port _, 0 => some [rwl 0 16, rwl 16 1, rwl 17 10 0x64]
  | .port _, 1 => some [ro 0 7]
  | .port _, 2 | .port _, 3 | .port _, 4 | .port _, 5 | .port _, 6 => some counterWord
  | .tcu _, 0 => some [(rwl 0 6).oneOf [(0, 2), (4, 7), (0x10, 0x1F)], rwl 6 2, rwl 8 2]
  | .tcu _, 1 => some [ro 0 30, ro 30 1, ro 31 1]
  | .tcu _, 2 | .tcu _, 3 => some [ro 0 32]
  | .tcu _, 4 => some counterWord
  | _, _ => none

/-- Lookup in the TIME block. -/
def timeLookup (u idx : Nat) : Lookup :=
  match timeUnit u with
  | none => .notPresent
  | some t => .pick (timeWord t idx)
      ([TimeUnit.main, .domain 0, .port 0, .tcu 0].any fun t' => (timeWord t' idx).isSome)

/-- Kinds of HEADRACE unit (04_headrace.md, Parameters). -/
inductive HeadUnit where
  | port | hot | sluice | record
  deriving DecidableEq, Repr

/-- The HEADRACE unit an ID's instance names. -/
def headUnit (u : Nat) : Option HeadUnit :=
  if u < 4 then some .port
  else if 0x10 ≤ u ∧ u < 0x14 then some .hot
  else if u = 0x20 then some .sluice
  else if u = 0x21 then some .record
  else none

/-- A pair of LSB and WIDTH of a descriptor field, WIDTH 0 to 32. -/
def fmtPair (at_ : Nat) : List Field := [rwl at_ 6, (rwl (at_ + 6) 6).within 0 32]

/-- The word `w` of a format descriptor (HEADRACE.FMTd); action codes 0x5 to 0x7 are refused (R98). -/
def fmtWord (w : Nat) : Option (List Field) :=
  match w with
  | 0 => some [rwl 0 1, rwl 1 2, rwl 3 3, (rwl 6 2 1).within 0 2, rwl 8 6, rwl 14 2, (rwl 16 6).within 0 32, rwl 22 1]
  | 1 | 2 => some ((upTo 8).map fun i => (rwl (3 * i) 3).within 0 4)
  | 3 | 4 | 5 => some (fmtPair 0 ++ fmtPair 12)
  | _ => none

/-- HEADRACE words of each kind of unit (04_headrace.md; R121, R123). The low bits that an alignment keeps at 0 are a field
of their own. -/
def headWord (k : HeadUnit) (idx : Nat) : Option (List Field) :=
  match k with
  | .port =>
    match idx with
    | 0 => some [rwl 0 1, (rwl 1 2 2).within 0 2, rwl 3 4 1, rwl 7 11 0x4FF, rwl 18 10 0x2CF]
    | 1 => some [rwl 0 24, rwl 24 1, (rwl 25 5 0x0A).within 1 31]
    | 2 => some [rwl 0 12, rwl 12 2]
    | 3 => some [rwl 0 12, rwl 12 1]
    | 4 => some [ro 0 1, ro 1 1, w1c 2]
    | _ => if inRange 0x10 64 idx then fmtWord ((idx - 0x10) % 8)
           else if inRange 0x100 13 idx then some counterWord else none
  | .hot => if idx < 0x10000 then some [rwl 0 32] else none
  | .sluice =>
    if idx = 0 then some [ro 0 1, ro 1 4]
    else if idx = 1 then some counterWord
    else if inRange 0x10 16 idx then
      if idx % 2 = 0 then some [(rwl 0 3).within 0 4, rwl 3 4, rwl 7 1, (rwl 8 8 1).within 1 255]
      else some [rwl 0 32 0xFFFFFFFF]
    else none
  | .record =>
    match idx with
    | 0 => some [(rw 0 2).within 0 2, rw 2 4 0xF]
    | 1 => some [(rw 0 12).within 0 0, rw 12 20]
    | 2 | 3 => some [rw 0 32]
    | 4 | 5 => some [ro 0 32]
    | 6 => some [w1c 0]
    | 7 => some counterWord
    | 0x11 | 0x13 => some [(rwl 0 3).within 0 0, rwl 3 29]
    | 0x12 | 0x14 => some [rwl 0 32]
    | _ => none

/-- Lookup in the HEADRACE block. -/
def headLookup (u idx : Nat) : Lookup :=
  match headUnit u with
  | none => .notPresent
  | some k => .pick (headWord k idx) ([HeadUnit.port, .hot, .sluice, .record].any fun k' => (headWord k' idx).isSome)

/-- ALIGN words of one port: grid, homography and configuration (04_headrace.md; R122), refinement (07_tracking_fusion.md;
R205 to R207). -/
def alignWord (idx : Nat) : Option (List Field) :=
  if idx ≤ 0x1080 then some [rwl 0 16, rwl 16 16]
  else if inRange 0x1100 9 idx then
    some [rwl 0 32 (if idx = 0x1100 ∨ idx = 0x1104 ∨ idx = 0x1108 then 0x00100000 else 0)]
  else if idx = 0x1200 then some [rwl 0 5 0x13, rwl 5 4 0xB]
  else
    match idx with
    | 0x1300 => some [rwl 0 1, rwl 1 1, (rwl 2 8 0x20).within 1 255]
    | 0x1301 => some [rw 0 1]
    | 0x1302 | 0x1303 => some [rwl 0 16 0x100, rwl 16 16 0x100]
    | 0x1304 => some [rwl 0 16 0x28, rwl 16 16 0x14]
    | 0x1305 => some [rwl 0 16 0x41, rwl 16 16 0x41]
    | 0x1306 => some [rwl 0 16, rwl 16 16]
    | 0x1307 => some [rwl 0 16 0x4000]
    | 0x1310 | 0x1311 | 0x1312 | 0x1313 => some [ro 0 32]
    | 0x1314 => some [w1c 0, w1c 1]
    | _ => none

/-- NEURON words of a block, instance region * 16 + block (05_spiking_fabric.md; R156). -/
def neuronBlockWord (unit idx : Nat) : Option (List Field) :=
  if idx = 1 then some [(rwl 0 32 (0x5A5A0000 + unit)).within 1 0xFFFFFFFF]
  else if idx = 2 then some [ro 0 1, w1c 1, w1c 2, w1c 3, w1c 4]
  else if inRange 0x10 64 idx then
    match (idx - 0x10) % 4 with
    | 0 => some [(rwl 0 19 0x100).within 1 524287, (rwl 19 4 1).within 1 15, (rwl 23 5).within 0 20, rwl 28 4]
    | 1 => some [rwl 0 20, rwl 20 8, rwl 28 4]
    | 2 => some [rwl 0 8 0x10, rwl 8 1, rwl 9 1, rwl 10 1, rwl 11 5]
    | _ => none
  else if inRange 0x100 256 idx then some [rwl 0 16, rwl 16 16]
  else if inRange 0x200 8 idx then some counterWord
  else none

/-- NEURON words of a converter unit, instance 0x80 + region (05_spiking_fabric.md). -/
def neuronConvWord (unit idx : Nat) : Option (List Field) :=
  if idx = 1 then some [(rwl 0 32 (0xA5A50000 + unit)).within 1 0xFFFFFFFF]
  else if idx = 3 then some counterWord
  else if inRange 0x100 32 idx then some [rwl 0 1, rwl 1 1, rwl 2 1, rwl 3 4, rwl 7 16 0x0100]
  else if inRange 0x200 256 idx then
    if idx % 2 = 0 then some [rwl 0 1, rwl 1 1, rwl 2 4, rwl 6 1, rwl 7 15, rwl 22 4, rwl 26 4, rwl 30 1]
    else some [rwl 0 6, (rwl 6 5 4).within 1 16]
  else none

/-- Lookup in the NEURON block. -/
def neuronLookup (u idx : Nat) : Lookup :=
  if u < 0x80 then .pick (neuronBlockWord u idx) (neuronConvWord 0x80 idx).isSome
  else if u < 0x88 then .pick (neuronConvWord u idx) (neuronBlockWord 0 idx).isSome
  else .notPresent

/-- Kinds of ROUTER unit (06_router.md, Parameters). -/
inductive RouterUnit where
  | region | head | other | tables
  deriving DecidableEq, Repr

/-- The ROUTER unit an ID's instance names. -/
def routerUnit (u : Nat) : Option RouterUnit :=
  if u < 8 then some .region else if u = 8 then some .head else if u < 0xB then some .other
  else if u = 0x10 then some .tables else none

/-- ROUTER words of each kind of unit (06_router.md; R179). -/
def routerWord (k : RouterUnit) (idx : Nat) : Option (List Field) :=
  match k with
  | .tables =>
    if idx = 0 then some [ro 0 4]
    else if inRange 0x10 8 idx then some [rwl 0 16 0xFFFF, rwl 16 16]
    else if inRange 0x18 8 idx then some [rwl 0 12, rwl 12 12]
    else if inRange 0x20 16 idx then
      if idx % 2 = 0 then some [rwl 0 16, rwl 16 4, (rwl 20 4).within 0 12, rwl 24 4 7] else some [rwl 0 16]
    else if inRange 0x40 4 idx then
      if idx % 2 = 0 then some [rwl 0 16, rwl 16 16] else some [rwl 0 1, rwl 1 2, rwl 15 17]
    else none
  | _ =>
    if idx = 0 then some [(rwl 0 4 1).within 1 15, (rwl 4 4 1).within 1 15]
    else if idx = 1 then some [ro 0 1, w1c 1, w1c 2]
    else if idx = 2 then if k = .region then some [ro 0 16] else none
    else if idx = 3 then if k = .region then some [ro 0 24] else none
    else if idx = 0x100 ∨ idx = 0x101 then some counterWord
    else if idx = 0x102 then if k = .region then some counterWord else none
    else if idx = 0x103 ∨ idx = 0x104 ∨ idx = 0x106 ∨ idx = 0x107 then if k = .head then some counterWord else none
    else if idx = 0x105 then if k = .head ∨ k = .region then some counterWord else none
    else none

/-- Lookup in the ROUTER block. -/
def routerLookup (u idx : Nat) : Lookup :=
  match routerUnit u with
  | none => .notPresent
  | some k => .pick (routerWord k idx)
      ([RouterUnit.region, .head, .other, .tables].any fun k' => (routerWord k' idx).isSome)

end Sys2Proof.Machine
end

