-- ==== Sys2Proof/Machine/Params2.lean ====
section
/-!
DEFINITION. Parameter maps: QUEUE and CHECKVAL (12_queues_checkvalues.md).
-/

namespace Sys2Proof.Machine

open Sys2Proof.Machine.Field

/-- Words of a queue, k = 0 to 6 (12_queues_checkvalues.md; R316). -/
def queueWord (k : Nat) : Option (List Field) :=
  match k with
  | 0 => some [rwl 0 1, rwl 1 1, rwl 2 3, rwl 5 6, (rwl 11 3).within 0 3, (rwl 14 3).within 0 3]
  | 1 => some [ro 0 1 1, ro 1 1, w1c 2, w1c 3, w1c 4, ro 16 16]
  | 2 => some [ro 0 16, ro 16 1]
  | 3 => some [wo 0 1]
  | 4 | 5 | 6 => some counterWord
  | _ => none

/-- Engine words of the queue block, instance 0x41. QUEUE.ARB resets to 4, 2 and 1 as its own table says, beside R20's reset
of every weight to 1. (log 71, DEDUCED) -/
def queueEngineWord (idx : Nat) : Option (List Field) :=
  match idx with
  | 0 => some [(rwl 0 4 4).within 1 15, (rwl 4 4 2).within 1 15, (rwl 8 4 1).within 1 15]
  | 1 | 3 => some [ro 0 32]
  | 2 | 4 => some [ro 0 16]
  | 5 => some [ro 0 11]
  | 0x100 | 0x101 | 0x102 => some counterWord
  | _ => none

/-- Lookup in the QUEUE block: k = 7 to 15 of a queue is NOT_PRESENT by the chapter's own words. -/
def queueLookup (u idx : Nat) : Lookup :=
  if u < 0x40 then
    if idx < 1024 then
      match queueWord (idx % 16) with
      | some fs => .word fs
      | none => .notPresent
    else if idx < 24576 then .notPresent else .badParam
  else if u = 0x40 then
    if idx < 24576 then
      if idx % 2 = 0 then .word [(rwl 0 2).within 0 2, rwl 2 1] else .word [rw 0 32]
    else .badParam
  else if u = 0x41 then .pick (queueEngineWord idx) (decide (idx < 24576))
  else if u = 0x42 then
    if idx < 4096 then
      .word (match idx % 4 with
        | 0 => [ro 0 1, ro 1 1, ro 8 8, ro 16 16]
        | 3 => [ro 0 16]
        | _ => [ro 0 32])
    else if idx < 24576 then .notPresent else .badParam
  else .notPresent

/-- CHECKVAL words of a context (12_queues_checkvalues.md). -/
def checkvalWord (idx : Nat) : Option (List Field) :=
  match idx with
  | 0 => some [rw 0 2, rw 2 2]
  | 1 | 2 => some [rw 0 32]
  | 3 => some [wo 0 1]
  | 4 => some [wo 0 32]
  | 5 => some [wo 0 24, (wo 24 2).within 1 3]
  | 6 => some [rw 0 32]
  | 7 => some [rw 0 16]
  | 8 => some [rw 0 32]
  | 9 => some [wo 0 1]
  | 0xA | 0xB => some [rw 0 32]
  | 0xC | 0xD => some [ro 0 32]
  | 0xE => some [ro 0 1, w1c 1]
  | _ => none

/-- Lookup in the CHECKVAL block. -/
def checkvalLookup (u idx : Nat) : Lookup :=
  if u < 16 then .pick (checkvalWord idx) false else .notPresent

end Sys2Proof.Machine
end

