-- ==== Sys2Proof/Machine/Params3.lean ====
section
/-!
DEFINITION. Parameter maps: TRACKER and FUSION (07_tracking_fusion.md), TILE (08_tiles_arithmetic.md), QUERN, EDGE and POST
(09_layer_mapping.md), TAILRACE (10_decisions.md) and AUXFILT (11_aux_filters.md).
-/

namespace Sys2Proof.Machine

open Sys2Proof.Machine.Field

/-! ### TRACKER -/

/-- Words of a measurement source, offset from 0x0100 + 0x40 s. -/
def trackerSource (o : Nat) : Option (List Field) :=
  if o = 0 then some [rwl 0 1, (rwl 1 2 1).within 1 3, (rwl 3 4 0xF).oneOf [(0, 3), (15, 15)], rwl 7 16 1]
  else if o = 1 then some [rwl 0 16 0x40, rwl 16 16 0x20]
  else if inRange 2 8 o || inRange 0x10 24 o || inRange 0x30 16 o then some [rwl 0 32]
  else none

/-- Words of a region's tracker; a VELOCITY role is refused for decoders 0 to 63 (R184). -/
def trackerRegion (idx : Nat) : Option (List Field) :=
  match idx with
  | 0 => some [rwl 0 1, rwl 1 1, (rwl 2 3 4).within 2 6, (rwl 5 4 3).within 1 15, (rwl 9 4 3).within 1 15,
               (rwl 13 5 2).within 1 31, (rwl 18 10 0xC8).within 1 1023]
  | 1 => some [rwl 0 32 0x41100000]
  | 2 => some [rwl 0 16 0x190, rwl 16 16 0xC8]
  | 3 => some [rwl 0 16 0xF0, rwl 16 16 0x78]
  | 4 => some [rwl 0 12 0x190, (rwl 12 12 0x40).within 1 4095]
  | 5 => some [w1c 0, w1c 1, w1c 2, ro 4 12]
  | _ =>
    if inRange 0x10 36 idx || inRange 0x40 36 idx || inRange 0x70 36 idx || inRange 0xA0 36 idx then some [rwl 0 32]
    else if inRange 0x100 256 idx then trackerSource ((idx - 0x100) % 64)
    else if inRange 0x200 16 idx then
      some ((upTo 8).flatMap fun i => [rwl (4 * i) 2,
        if idx < 0x208 then (rwl (4 * i + 2) 2).oneOf [(0, 0), (2, 3)] else rwl (4 * i + 2) 2])
    else if inRange 0x300 8 idx then some [(rwl 0 3).within 0 6, rwl 3 4, rwl 7 2, rwl 9 3, rwl 12 3]
    else if inRange 0x310 16 idx then some [rwl 0 16]
    else if inRange 0x320 16 idx then some [rwl 0 16, rwl 16 16 0xFFFF]
    else if inRange 0x400 7 idx then some counterWord
    else none

/-- Module words of the trackers, instance 0x10. -/
def trackerModule (idx : Nat) : Option (List Field) :=
  match idx with
  | 0 => some [rwl 0 16, rwl 16 16 0xFFFF]
  | 1 => some [(rwl 0 4 2).within 1 15, rwl 4 12 0xC8, rwl 16 16 0x64]
  | 0x100 => some counterWord
  | _ => none

/-- Lookup in the TRACKER block. -/
def trackerLookup (u idx : Nat) : Lookup :=
  if u < 8 then .pick (trackerRegion idx) (trackerModule idx).isSome
  else if u = 0x10 then .pick (trackerModule idx) (trackerRegion idx).isSome
  else .notPresent

/-! ### FUSION -/

/-- A sensor number that exists (R208). -/
def isSensor (j : Nat) : Bool := j < 4 || inRange 16 16 j

/-- Words of a region's voter. -/
def fusionRegion (idx : Nat) : Option (List Field) :=
  if idx = 0 then some [rwl 0 4 0xA, rwl 4 8 0xC8, rwl 12 8 0x80]
  else if inRange 0x10 32 idx then
    match idx % 4 with
    | 0 => some [rwl 0 1, rwl 1 3, rwl 4 8, rwl 12 4, rwl 16 1, (rwl 17 6 0x3F).oneOf [(0, 3), (16, 31), (63, 63)]]
    | 3 => none
    | _ => some [rwl 0 32]
  else if inRange 0x50 2 idx then some counterWord
  else if inRange 0x100 32 idx then
    if isSensor (idx - 0x100) then some [(rwl 0 8 8).within 1 255, rwl 8 8 0x20, (rw 16 2).within 0 2] else none
  else if inRange 0x120 32 idx then if isSensor (idx - 0x120) then some [rwl 0 32 0x41100000] else none
  else if inRange 0x140 32 idx then if isSensor (idx - 0x140) then some [rwl 0 32 0x3F000000] else none
  else if inRange 0x160 32 idx then
    if isSensor (idx - 0x160) then some [ro 0 1, ro 1 8, ro 9 8, ro 17 1] else none
  else if inRange 0x200 1024 idx then if isSensor ((idx - 0x200) / 32) then some counterWord else none
  else none

/-- Module words of the voters, instance 0x10. -/
def fusionModule (idx : Nat) : Option (List Field) :=
  if idx = 0 then some [rwl 0 8 0xFE, rwl 8 8 0xFF]
  else if idx = 1 then some [ro 0 32]
  else if inRange 0x10 32 idx then
    some [(rwl 0 2).within 0 2, (rwl 2 4).within 0 8, (rwl 16 2).within 0 2, (rwl 18 4).within 0 8]
  else none

/-- Lookup in the FUSION block. -/
def fusionLookup (u idx : Nat) : Lookup :=
  if u < 8 then .pick (fusionRegion idx) (fusionModule idx).isSome
  else if u = 0x10 then .pick (fusionModule idx) (fusionRegion idx).isSome
  else .notPresent

/-! ### TILE, QUERN, EDGE, POST -/

/-- TILE words. -/
def tileWord (idx : Nat) : Option (List Field) :=
  match idx with
  | 0 => some [rwl 0 1, rwl 1 5 7, rwl 6 5 7, rwl 11 4, rwl 15 6 7, rwl 21 6 3]
  | 1 => some [(rwl 0 12).within 0 0, rwl 12 20]
  | 2 => some [rwl 0 16]
  | 3 => some [rwl 0 24]
  | 4 => some [(rwl 0 16 0x1E0).within 1 65535, (rwl 16 4 7).within 6 12]
  | 0x30 => some ((upTo 4).flatMap fun e => [rwl (8 * e) 7, rwl (8 * e + 7) 1])
  | 0x40 => some [w1c 0, w1c 1, w1c 2, ro 4 9, ro 13 9, ro 22 9]
  | _ =>
    if inRange 0x10 16 idx then
      some [(rwl 0 4).within 0 6, rwl 4 4, (rwl 8 2).within 0 2, rwl 10 2, rwl 12 4, rwl 16 5, rwl 21 4, rwl 25 3]
    else if inRange 0x20 4 idx then some [rwl 0 1, rwl 1 4, rwl 5 1, rwl 6 15, rwl 21 4, rwl 25 4 7]
    else if inRange 0x100 6 idx then some counterWord
    else none

/-- QUERN words. -/
def quernWord (idx : Nat) : Option (List Field) :=
  if idx = 0 then some [ro 0 2, ro 2 4]
  else if idx = 1 then some ((upTo 4).map fun i => (rwl (4 * i) 4 1).within 1 15)
  else if inRange 0x100 7 idx then some counterWord
  else none

/-- EDGE words. -/
def edgeWord (idx : Nat) : Option (List Field) :=
  if idx = 0 then some [ro 0 1, ro 1 5]
  else if inRange 0x100 5 idx then some counterWord
  else none

/-- POST words of every instance. -/
def postWord (idx : Nat) : Option (List Field) :=
  match idx with
  | 0 => some [(rwl 0 8 6).within 1 253, rwl 8 1, rwl 9 8 0x10]
  | 0x100 => some counterWord
  | _ => none

/-- POST words of instances 0 and 4 only. -/
def postBoxWord (idx : Nat) : Option (List Field) :=
  match idx with
  | 0x10 => some [rwl 0 1, rwl 1 1, rwl 2 4, rwl 6 1 1, rwl 7 1, rwl 8 8 0x80, rwl 16 8 0x80, rwl 24 6 0x3F]
  | 0x11 => some [rwl 0 12, rwl 12 1]
  | 0x101 | 0x102 | 0x103 => some counterWord
  | _ => if inRange 0x20 16 idx then some [rwl 0 16 0x100, rwl 16 16 0x100] else none

/-- Lookup in the POST block. -/
def postLookup (u idx : Nat) : Lookup :=
  if u = 0 ∨ u = 4 then .pick (if (postWord idx).isSome then postWord idx else postBoxWord idx) false
  else if u < 8 then .pick (postWord idx) ((postBoxWord idx).isSome || inRange 0x10 32 idx)
  else .notPresent

/-! ### TAILRACE -/

/-- Reset value of SRC_MAC0 or SRC_MAC1: the factory record's, 0 when its CRC fails (R479). (log 66, DEDUCED) -/
def factoryMac (p : Nat) : Nat := if Config.factoryOk then Config.factoryMac p % 2 ^ 48 else 0

/-- Kinds of TAILRACE unit. -/
inductive TailUnit where
  | main | classmap | group | lane
  deriving DecidableEq, Repr

/-- The TAILRACE unit an ID's instance names. -/
def tailUnit (u : Nat) : Option TailUnit :=
  if u = 0 then some .main else if u = 1 then some .classmap
  else if inRange 0x20 8 u then some .group else if inRange 0x40 64 u then some .lane else none

/-- TAILRACE words of each kind of unit. -/
def tailWord (k : TailUnit) (idx : Nat) : Option (List Field) :=
  match k with
  | .main =>
    match idx with
    | 0 => some [rwl 0 1, (rwl 1 11 0x14).within 2 2047, rwl 12 5, rwl 17 5 0x1F]
    | 1 => some [rwl 0 32]
    | 2 => some [rwl 0 16, (rwl 16 12 0x3E8).within 1 4095]
    | 3 => some [rwl 0 6 0x1F, rwl 6 6, rwl 12 6 0x20, rwl 18 6, rwl 24 6]
    | 0x10 | 0x12 => some [rwl 0 32 (factoryMac ((idx - 0x10) / 2) % 2 ^ 32)]
    | 0x11 | 0x13 => some [rwl 0 16 (factoryMac ((idx - 0x10) / 2) / 2 ^ 32)]
    | 0x14 => some [rwl 0 32]
    | 0x20 => some [w1c 0, w1c 1, w1c 2, w1c 3, ro 4 16]
    | _ => if inRange 0x100 12 idx then some counterWord else none
  | .classmap =>
    if idx < 0x20 then some ((upTo 8).map fun i => (rwl (4 * i) 3 7).oneOf [(0, 3), (7, 7)]) else none
  | .group =>
    match idx with
    | 0 => some [rwl 0 1, rwl 1 1, rwl 2 2 3, rwl 4 1, rwl 5 8, rwl 13 3, rwl 16 12, rwl 28 3, rwl 31 1]
    | 1 | 3 => some [rwl 0 32]
    | 2 => some [rwl 0 16]
    | 4 => some [rwl 0 16, rwl 16 16]
    | 5 => some [ro 0 16]
    | _ => none
  | .lane =>
    match idx with
    | 0 => some [rwl 0 1, (rwl 1 17 0x186A0).within 100 100000, rwl 18 3, rwl 21 8 0xFE, rwl 29 1]
    | 1 => some [rwl 0 24]
    | 2 => some [(rwl 0 20 0x7D0).within 1 1000000]
    | 0x10 => some counterWord
    | _ => none

/-- Lookup in the TAILRACE block. -/
def tailLookup (u idx : Nat) : Lookup :=
  match tailUnit u with
  | none => .notPresent
  | some k => .pick (tailWord k idx) ([TailUnit.main, .classmap, .group, .lane].any fun k' => (tailWord k' idx).isSome)

/-! ### AUXFILT -/

/-- AUXFILT words of a channel. -/
def auxChannelWord (idx : Nat) : Option (List Field) :=
  match idx with
  | 0 => some [rwl 0 1, rwl 1 2 1, rwl 3 1, rwl 4 1, rwl 5 1, rwl 6 8]
  | 1 => some [rwl 0 16 0x4000, rwl 16 16]
  | 2 => some [rwl 0 24]
  | 3 => some [ro 0 1, w1c 1, w1c 2, w1c 3, ro 4 9]
  | 4 | 5 | 6 | 7 => some [ro 0 32]
  | _ => if inRange 0x100 5 idx then some counterWord else none

/-- AUXFILT module words, instance 0x10. -/
def auxModuleWord (idx : Nat) : Option (List Field) :=
  match idx with
  | 0 => some [(rwl 0 8 0x32).within 25 200, rwl 8 1, (rwl 9 8 0x32).within 25 200, rwl 17 1]
  | 1 => some [(rwl 0 12).within 0 0, rwl 12 20]
  | 2 => some [rwl 0 16]
  | 3 => some [(rwl 0 5 0x10).within 10 20, rwl 5 1]
  | 4 => some [wo 0 16]
  | 5 => some [ro 0 16 1]
  | 0x100 => some counterWord
  | _ => none

/-- Lookup in the AUXFILT block. -/
def auxLookup (u idx : Nat) : Lookup :=
  if u < 16 then .pick (auxChannelWord idx) (auxModuleWord idx).isSome
  else if u = 16 then .pick (auxModuleWord idx) (auxChannelWord idx).isSome
  else .notPresent

end Sys2Proof.Machine
end

