-- ==== Sys2Proof/Machine/Params4.lean ====
section
/-!
DEFINITION. Parameter maps of SPOKE (13_spoke_links.md), SDIO (14_commands.md), POWER (16_power.md), MONITOR (17_faults.md),
SECURITY and BIST (18_security.md), ETH (19_module.md), and the MILLER words of chapters 15, 17 and 19.
-/

namespace Sys2Proof.Machine

open Sys2Proof.Machine.Field

/-! ### SPOKE -/

/-- SPOKE words of a port. SPOKE.ARB resets to 4, 8, 8 and 1 as its own table says, beside R20's reset of every weight to 1.
(log 71, DEDUCED) -/
def spokePortWord (idx : Nat) : Option (List Field) :=
  match idx with
  | 0 => some [rw 0 1 1]
  | 1 => some [(rwl 0 8 0x64).within 10 255, (rwl 8 3 3).within 2 7, (rwl 11 4 8).within 1 15, (rwl 15 8 0x14).within 1 255]
  | 2 => some [(rwl 0 4 4).within 1 15, (rwl 4 4 8).within 1 15, (rwl 8 4 8).within 1 15, (rwl 12 4 1).within 1 15]
  | 3 => some [rwl 0 32]
  | 4 => some [ro 0 3, ro 3 3, ro 6 1, ro 7 4, w1c 11, w1c 12, w1c 13, ro 14 6, ro 20 8, ro 28 1]
  | 5 => some [ro 0 8 4, ro 8 8 4, ro 16 8 4, ro 24 8 4]
  | _ => if inRange 0x100 8 idx then some counterWord else none

/-- SPOKE chain words, instance 0x10. -/
def spokeChainWord (idx : Nat) : Option (List Field) :=
  match idx with
  | 0 => some [ro 0 8, ro 8 1, ro 9 1, ro 10 1, ro 11 1, ro 12 9]
  | 1 => some [w1c 0, w1c 1, w1c 2, w1c 3, w1c 4]
  | 2 => some [wo 0 8, wo 8 1]
  | 0x100 | 0x101 => some counterWord
  | _ => none

/-- SPOKE node table (instance 0x20) and identity digests (instance 0x21). -/
def spokeNodeWord (idx : Nat) : Option (List Field) := if idx < 256 then some [ro 0 2, ro 2 8, ro 10 3] else none
def spokeIdWord (idx : Nat) : Option (List Field) := if idx < 3072 then some [ro 0 32] else none

/-- Lookup in the SPOKE block. -/
def spokeLookup (u idx : Nat) : Lookup :=
  let any := (spokePortWord idx).isSome || (spokeChainWord idx).isSome || (spokeIdWord idx).isSome
  if u < 4 then .pick (spokePortWord idx) any
  else match u with
    | 0x10 => .pick (spokeChainWord idx) any
    | 0x20 => .pick (spokeNodeWord idx) any
    | 0x21 => .pick (spokeIdWord idx) any
    | _ => .notPresent

/-! ### SDIO, POWER, MONITOR, SECURITY, BIST, ETH -/

/-- SDIO words (R378). -/
def sdioWord (idx : Nat) : Option (List Field) :=
  match idx with
  | 0 => some [(rw 0 16 0x3E8).within 100 60000]
  | 1 => some [ro 0 3 3, ro 3 1, ro 4 1, ro 16 13]
  | _ => if inRange 0x100 6 idx then some counterWord else none

/-- POWER words of a domain (R416). -/
def powerWord (idx : Nat) : Option (List Field) :=
  match idx with
  | 0 => some [(rw 0 16 0x64).within 1 65535]
  | 1 => some [ro 0 2, ro 2 2, ro 4 1, ro 5 2, ro 7 1, ro 8 8, ro 16 8, ro 24 8]
  | _ => if inRange 0x100 5 idx then some counterWord else none

/-- MONITOR words of a channel. -/
def monitorWord (idx : Nat) : Option (List Field) :=
  match idx with
  | 0 => some [(rw 0 8).within 0 0x0E, rw 8 16, rw 24 5]
  | 1 => some [rw 0 32]
  | _ => none

/-- MONITOR.SNAP, instance 0x40. -/
def snapWord (idx : Nat) : Option (List Field) :=
  if idx = 0 then some [(rw 0 16 0x3E8).within 1 60000, rw 16 1] else none

/-- SECURITY words. -/
def securityWord (idx : Nat) : Option (List Field) :=
  match idx with
  | 0 => some [ro 0 2, ro 2 1, ro 3 1, ro 4 1, ro 5 1, ro 6 6, ro 12 4, ro 16 2, ro 18 6]
  | 1 | 0x100 | 0x101 => some counterWord
  | _ => none

/-- BIST words. -/
def bistWord (idx : Nat) : Option (List Field) :=
  match idx with
  | 0 => some [ro 0 1, ro 1 1, ro 8 8, ro 16 14]
  | 0x100 => some counterWord
  | _ => none

/-- ETH words of a port. -/
def ethWord (idx : Nat) : Option (List Field) :=
  match idx with
  | 0 => some [rwl 0 1 1, rwl 1 1, (rwl 2 2).within 0 2]
  | 1 => some [ro 0 1, ro 1 1, w1c 2]
  | _ => if inRange 0x100 4 idx then some counterWord else none

/-! ### MILLER -/

/-- MILLER words of the models, faults and module chapters. -/
def millerWord (idx : Nat) : Option (List Field) :=
  match idx with
  | 0x110 => some [ro 0 1, ro 1 1, ro 2 1, ro 3 4, ro 7 4, ro 11 1, ro 12 1, ro 13 8]
  | 0x111 => some [ro 0 17]
  | 0x112 => some [ro 0 24]
  | 0x130 => some [(rwl 0 16 0x1388).within 100 65535, rwl 16 1]
  | 0x131 => some [w1c 0, w1c 1, w1c 2, ro 3 1]
  | 0x132 => some [wo 0 3, wo 3 1]
  | 0x150 => some [ro 0 4, w1c 4, w1c 5, w1c 6, w1c 7]
  | 0x151 => some [w1c 0, w1c 1, w1c 2, w1c 3, w1c 4, w1c 5, w1c 6, w1c 7, ro 8 8]
  | 0x152 => some counterWord
  | 0x190 => some [rw 0 16]
  | 0x191 => some [ro 0 16]
  | 0x1A0 => some [rw 0 1]
  | 0x1A1 => some [ro 0 1 (bit Config.factoryOk), ro 1 1, ro 2 1, ro 8 8]
  | _ =>
    if inRange 0x120 5 idx || inRange 0x140 9 idx then some counterWord
    else if inRange 0x160 8 idx then some [ro 0 16]
    else if inRange 0x170 13 idx then some [ro 0 16, ro 16 1]
    else if inRange 0x180 16 idx then some [rwl 0 2, rwl 2 1 1]
    else none

end Sys2Proof.Machine
end

