-- ==== Sys2Proof/Machine/Params.lean ====
section
/-!
DEFINITION. The lookup of a parameter ID over all blocks (R4 to R6) and the reset word of every parameter (R13).
-/

namespace Sys2Proof.Machine

/-- What a parameter ID names (R5, R6). -/
def lookup (id : Nat) : Lookup :=
  let unit := id / 0x10000 % 256
  let idx := id % 0x10000
  match id / 0x1000000 with
  | 0x01 => if unit = 0 then .pick ((archWord idx).orElse fun _ => millerWord idx) false else .notPresent
  | 0x02 => headLookup unit idx
  | 0x03 => if unit < 4 then .pick (alignWord idx) false else .notPresent
  | 0x04 => routerLookup unit idx
  | 0x05 => neuronLookup unit idx
  | 0x06 => trackerLookup unit idx
  | 0x07 => fusionLookup unit idx
  | 0x08 => if unit < 8 then .pick (tileWord idx) false else .notPresent
  | 0x09 => if unit < 8 then .pick (quernWord idx) false else .notPresent
  | 0x0A => if unit < 8 then .pick (edgeWord idx) false else .notPresent
  | 0x0B => postLookup unit idx
  | 0x0C => tailLookup unit idx
  | 0x0D => timeLookup unit idx
  | 0x0E => if unit = 0 then .pick (positionWord idx) false else .notPresent
  | 0x0F => auxLookup unit idx
  | 0x10 => queueLookup unit idx
  | 0x11 => checkvalLookup unit idx
  | 0x12 => spokeLookup unit idx
  | 0x13 => if unit < 2 then .pick (ethWord idx) false else .notPresent
  | 0x14 => if unit < 44 then .pick (powerWord idx) false else .notPresent
  | 0x15 =>
    if unit < 64 then .pick (monitorWord idx) (snapWord idx).isSome
    else if unit = 64 then .pick (snapWord idx) (monitorWord idx).isSome
    else .notPresent
  | 0x16 => if unit = 0 then .pick (securityWord idx) false else .notPresent
  | 0x17 => if unit = 0 then .pick (bistWord idx) false else .notPresent
  | 0x18 => if unit = 0 then .pick (sdioWord idx) false else .notPresent
  | _ => .badParam

/-- What a parameter word that nothing has written reads as: its reset value (R13); 0 where no word exists. -/
def resetWord (id : Nat) : Word :=
  match lookup id with
  | .word fs => resetOf fs
  | _ => 0

end Sys2Proof.Machine
end

