-- ==== Sys2Proof/Machine/Sparse.lean ====
section
/-!
DEFINITION. Sparse maps from Nat keys, held as lists of (key, value) pairs in one canonical form: keys strictly rising, and
no entry equal to what an unlisted key reads as. Every large store of the block (parameter words, LPDDR5X bytes, neuron
states, per-unit records) is one of these, so that equal stores are equal data.
-/

namespace Sys2Proof

/-- A sparse map; what an unlisted key reads as is the `d` its operations are given. -/
abbrev Sparse (α : Type) := List (Nat × α)

/-- What key `k` holds; an unlisted key reads as `d k`. -/
def Sparse.get {α : Type} (d : Nat → α) : Sparse α → Nat → α
  | [], k => d k
  | (j, v) :: m, k => if k == j then v else if k < j then d k else Sparse.get d m k

/-- The list with key `k` at `v`, whether or not `v` is what an unlisted key reads as. -/
def Sparse.put {α : Type} (k : Nat) (v : α) : Sparse α → Sparse α
  | [] => [(k, v)]
  | (j, w) :: m => if k == j then (k, v) :: m else if k < j then (k, v) :: (j, w) :: m else (j, w) :: Sparse.put k v m

/-- The list without an entry for key `k`. -/
def Sparse.drop {α : Type} (k : Nat) : Sparse α → Sparse α
  | [] => []
  | (j, w) :: m => if k == j then m else if k < j then (j, w) :: m else (j, w) :: Sparse.drop k m

/-- A write of `v` at `k`; writing what an unlisted key reads as removes the entry. -/
def Sparse.set {α : Type} [DecidableEq α] (d : Nat → α) (m : Sparse α) (k : Nat) (v : α) : Sparse α :=
  if v = d k then Sparse.drop k m else Sparse.put k v m

/-- The value at `k` replaced by `f` of it. -/
def Sparse.modify {α : Type} [DecidableEq α] (d : Nat → α) (m : Sparse α) (k : Nat) (f : α → α) : Sparse α :=
  Sparse.set d m k (f (Sparse.get d m k))

/-- Every key of the list lies above `b`. -/
def Sparse.above {α : Type} (b : Nat) (m : Sparse α) : Bool := m.all fun e => b < e.1

/-- Keys strictly rising, and no entry equal to what an unlisted key reads as. -/
def Sparse.wf {α : Type} [DecidableEq α] (d : Nat → α) : Sparse α → Bool
  | [] => true
  | (k, v) :: m => Sparse.above k m && !(decide (v = d k)) && Sparse.wf d m

/-- The listed keys. -/
def Sparse.keys {α : Type} (m : Sparse α) : List Nat := m.map (·.1)

/-- The listed values. -/
def Sparse.values {α : Type} (m : Sparse α) : List α := m.map (·.2)

end Sys2Proof
end

