-- ==== Sys2Proof/Machine/StateCore.lean ====
section
/-!
DEFINITION. State of the position unit (02_position_clock.md), the time unit (03_network_time.md) and the Headrace
(04_headrace.md).
-/

namespace Sys2Proof.Machine

/-! ### Position unit -/

/-- What drives the position counter (R35, R39). -/
inductive PosSource where
  | encoder | synthetic | replay | fallback
  deriving DecidableEq, Repr

/-- One entry of the encoder log (R44). -/
structure LogEntry where
  /-- device time of the edge, ns -/
  t : Int
  /-- count after the edge -/
  c : Nat
  /-- +1 or -1 -/
  dir : Int
  deriving DecidableEq, Repr

/-- A closed fabric step with its descriptor (R49). -/
structure FabStep where
  ssn : Nat
  /-- high-water position at closure, counts -/
  hw : Nat
  backstop : Bool
  /-- position step closed, or the last one closed before a backstop closure -/
  posStep : Int
  /-- closure position, counts; the high-water position for a backstop closure -/
  closePos : Nat
  /-- SHED band mask (R116) -/
  shed : Nat
  deriving DecidableEq, Repr

/-- A straight-line position curve: the synthetic source of R40 or the fallback of R39. -/
structure Curve where
  /-- position at `t0` in 1/65,536 count -/
  p0 : Int
  t0 : Int
  /-- counts per second are num / den -/
  num : Int
  den : Nat
  deriving DecidableEq, Repr

/-- State of the position unit. -/
structure PosState where
  /-- 48-bit count (R42) -/
  count : Nat
  src : PosSource
  /-- accepted encoder levels (R36 to R38) -/
  encA : Bool
  encB : Bool
  /-- local count of the last accepted rising edge of Z (R37, R38) -/
  zAt : Option Nat
  /-- encoder log, newest first, at most 8,192 entries (R44) -/
  log : List LogEntry
  /-- device time of a load that no count edge has followed (R43) -/
  load : Option Int
  /-- high-water position (R47); no meaning while not armed -/
  hw : Nat
  /-- first open position step (R47) -/
  openK : Int
  /-- SHED masks of open position steps (R116) -/
  posMarks : List (Int × Nat)
  /-- SHED masks placed on fabric steps by SSN (R160, R176) -/
  ssnMarks : List (Nat × Nat)
  /-- closed fabric steps waiting, oldest first (R50) -/
  closed : List FabStep
  /-- position steps that closed while the lag was 64 and whose fabric steps are still to be made, oldest first; their SSN
  field is 0 (R57) -/
  owed : List FabStep
  /-- fabric step in evaluation -/
  cur : Option FabStep
  /-- local count at which it started -/
  stepAt : Nat
  /-- a fabric step has started since arming, and the step indexes s_all and s_norm of the latest one (R124) -/
  stepped : Bool
  sAll : Nat
  sNorm : Nat
  /-- local count of the last fabric step closure, or of arming (R53) -/
  lastClose : Nat
  /-- local count at which the latest pulse of STEP_OUT began (R467) -/
  pulse : Option Nat
  /-- curve of the synthetic source or of the fallback -/
  curve : Curve
  /-- a line fault without FALLBACK: the position holds until the pipeline is stopped (R39) -/
  hold : Bool
  /-- upper word of the COUNT snapshot (R62) -/
  snapHi : Nat
  /-- lower word written to COUNT_SET (R43) -/
  setLo : Nat
  /-- local count of the last count decoded from the encoder (R36) -/
  decoded : Option Nat
  /-- local count of the arming instant (R482) -/
  armedAt : Nat
  /-- device time of arming: T_ARM of R268 -/
  armDev : Int
  deriving DecidableEq, Repr

/-! ### Time unit -/

/-- States of a PTP domain (R71). -/
inductive DomState where
  | disabled | listen | acquire | settle | locked | freewheel
  deriving DecidableEq, Repr

/-- A master a domain hears (R79). -/
structure Master where
  port : Nat
  clockId : BitVec 64
  portNo : Nat
  data : PtpDataset
  /-- local count of the Announce before the last one, none after the first (R79) -/
  prevAnn : Option Nat
  /-- local counts of the last Announce and Sync -/
  lastAnn : Nat
  lastSync : Nat
  /-- advertised logSyncInterval -/
  syncLog : Int
  deriving DecidableEq, Repr

/-- Timestamps of one delay measurement in progress (R79). -/
structure DelayExchange where
  port : Nat
  seq : Nat
  /-- egress of the request, local counter -/
  t3 : Int
  /-- the last Sync's origin and ingress, for the request-response mechanism -/
  t1 : Int
  t2 : Int
  /-- peer answer: request receipt at the peer, and ingress of the answer -/
  t2p : Option Int
  t4 : Int
  deriving DecidableEq, Repr

/-- The peer delay of one port (R73, R79): the exchange in progress, the delay, the peer's rate over the local one, and the
peer's sending and the local receipt time of the last answer. -/
structure PeerLink where
  exchange : Option DelayExchange
  delay : Option Int
  num : Int
  den : Int
  last : Option (Int × Int)
  deriving DecidableEq, Repr

/-- State of one PTP domain (R65 to R74). -/
structure Domain where
  base : Int
  anchor : Nat
  rate : Int
  state : DomState
  stepDone : Bool
  freq : Int
  slew : Int
  /-- last offset sample in ns -/
  offset : Int
  /-- ingress of the last offset sample, local ns -/
  sampleAt : Option Int
  /-- consecutive samples inside and outside LOCK_NS (R71) -/
  inside : Nat
  outside : Nat
  /-- samples collected in ACQUIRE, newest first (R72) -/
  samples : List Int
  /-- masters heard, and the one selected -/
  heard : List Master
  master : Option Master
  /-- Sync waiting for its Follow_Up: sequence, ingress, correction -/
  sync : Option (Nat × Int × Int)
  /-- origin and ingress of the last complete Sync -/
  lastPair : Option (Int × Int)
  /-- measured path delay in ns -/
  delay : Option Int
  exchange : Option DelayExchange
  /-- peer delay on ETH0 and ETH1 -/
  link0 : PeerLink
  link1 : PeerLink
  /-- the 16 upper bits of the seconds, and the 48-bit seconds last read (R67) -/
  secHi : Nat
  lastSec : Nat
  utcOffset : Int
  utcValid : Bool
  deriving DecidableEq, Repr

/-- A switch of device time in progress (R75). -/
structure Switch where
  target : Nat
  /-- local count, device time and target time at the start -/
  start : Nat
  dev1 : Int
  ty1 : Int
  /-- Δ of R75 at the start -/
  delta : Int
  deriving DecidableEq, Repr

/-- One capture of a timestamp-capture unit (R83). -/
structure Capture where
  t : Int
  falling : Bool
  deriving DecidableEq, Repr

/-- A result frame with its launch time (R85). -/
structure Launch where
  time : Int
  /-- frame from the destination address to the end of the payload, without FCS -/
  frame : List Byte
  udp : Bool
  deriving DecidableEq, Repr

/-- A frame whose transmission has started. -/
structure Sent where
  start : Int
  frame : List Byte
  late : Bool
  deriving DecidableEq, Repr

/-- A PTP message that waits for its port (R86): messageType, sequence, the domain it measures for, its transport, and the
timestamp it carries. -/
structure PtpWait where
  port : Nat
  kind : Nat
  seq : Nat
  domain : Nat
  udp : Bool
  stamp : Int
  deriving DecidableEq, Repr

/-- A PTP message the module sent: port, messageType, sequence and the timestamp it carries or was taken at, local ns. -/
structure PtpOut where
  port : Nat
  kind : Nat
  seq : Nat
  stamp : Int
  deriving DecidableEq, Repr

/-- State of the time unit. -/
structure TimeState where
  domA : Domain
  domB : Domain
  /-- 0 A, 1 B -/
  active : Nat
  switch : Option Switch
  /-- the active domain has reached LOCKED since power-good (R84) -/
  everLocked : Bool
  /-- snapshots of R88 -/
  snapNow : Nat
  snapLocal : Nat
  snapTcu : Sparse Nat
  /-- capture buffers, oldest first (R83) -/
  tcu : Sparse (List Capture)
  /-- launch queues of ETH0 and ETH1, by launch time (R85) -/
  launch0 : List Launch
  launch1 : List Launch
  /-- frames last started on each port, and the device time their transmission ends -/
  sent0 : Option Sent
  sent1 : Option Sent
  txEnd0 : Int
  txEnd1 : Int
  /-- PTP messages sent, newest first -/
  ptpSent : List PtpOut
  /-- PTP messages that wait to start, oldest first (R86) -/
  waiting : List PtpWait
  pps : Bool
  /-- local count at which PPS falls -/
  ppsEnd : Nat
  deriving DecidableEq, Repr

/-! ### Headrace -/

/-- A normalised event (R112); the stamp keeps its full count, its fraction cut to the upper 5 bits. -/
structure Ev where
  across : Nat
  along : Int
  /-- position in 1/65,536 count -/
  stamp : Nat
  port : Nat
  pol : Bool
  replay : Bool
  deriving DecidableEq, Repr

/-- Unpacker registers of one virtual channel (R97). -/
structure VcRegs where
  th : Nat
  bx : Nat
  by_ : Nat
  bp : Bool
  deriving DecidableEq, Repr

/-- State of one camera port unit. -/
structure HeadPort where
  vcs : Sparse VcRegs
  /-- T0 of R105 as device time -/
  t0 : Option Int
  synced : Bool
  /-- logical level of CAMx_SYNC, the number of its next rising edge, and the local count at which the pulse falls -/
  sync : Bool
  edge : Nat
  syncEnd : Nat
  /-- refractory stamps by cell (R103) -/
  refract : Sparse Nat
  /-- local count of the last high-speed transmission seen (RECEIVING) -/
  lastRx : Option Nat
  /-- replaced refinement values TA, TL, ROT, SCALE with the position step from which they no longer hold, oldest first
  (R111) -/
  oldRefs : List (Int × List Int)
  deriving DecidableEq, Repr

/-- State of the Headrace core: Sluice, recorder and replay. -/
structure HeadState where
  ports : Sparse HeadPort
  engaged : Bool
  level : Nat
  /-- SUBSAMPLE counters by rule * 4 + port (R115) -/
  sub : Sparse Nat
  /-- recorder: next write offset from the ring's start, words lost since the last written word, last marked high-water -/
  recOff : Nat
  recLost : Nat
  recHw : Option Nat
  /-- recording ended because the ring is full in STOP mode (R117) -/
  recFull : Bool
  /-- events admitted to steps since reset; the model numbers them so that it can tell the copies of one event -/
  admitted : Nat
  /-- replay: byte offset of the next word, latest POSITION marker (R120) -/
  repOff : Nat
  repMark : Nat
  /-- by monitor channel that watches EVENT_RATE: events of its port that passed the Sluice since its last sample (R433) -/
  passed : Sparse Nat
  deriving DecidableEq, Repr

end Sys2Proof.Machine
end

