-- ==== Sys2Proof/Machine/StateFabric.lean ====
section
/-!
DEFINITION. State of the router (06_router.md) and of the spiking fabric (05_spiking_fabric.md).
-/

namespace Sys2Proof.Machine

/-- A graded event with the fields it carries while it is held (R143, R171). -/
structure Held where
  src : Nat
  value : Int
  delay : Nat
  /-- low 16 bits of the due SSN, or of the position step while `pending` -/
  tag : Nat
  pending : Bool
  halo : Bool
  /-- logical blocks the event is held for at this node, as a 128-bit mask -/
  blocks : Nat
  /-- the normalised event behind an ingest event, kept for the tile history (R211) -/
  ev : Option Ev
  /-- number of the admitted event it is a copy of; the model's own -/
  no : Nat := 0
  deriving DecidableEq, Repr

/-- What a flit carries (R159). -/
inductive FlitBody where
  | events (evs : List Held)
  /-- position step closed, BACKSTOP bit, SSN -/
  | close (posStep : Int) (backstop : Bool) (ssn : Nat)
  | stepEnd (ssn : Nat)
  | control
  deriving DecidableEq, Repr

/-- A flit on the ring, with the ring positions it joins (R157 to R161). -/
structure Flit where
  dest : Nat
  src : Nat
  body : FlitBody
  /-- the position it has reached: it stands in a receive buffer there, or it waits at its source to be injected -/
  place : Nat
  injected : Bool
  deriving DecidableEq, Repr

/-- Delay queue and step state of a region node (R171 to R175). -/
structure Node where
  sram : List Held
  spill : List Held
  /-- last SSN whose CLOSE arrived -/
  closeSeen : Nat
  /-- regions whose STEP_END for the step in evaluation arrived -/
  stepEnds : List Nat
  /-- the node has released the step in evaluation and sent its STEP_END -/
  released : Bool
  deriving DecidableEq, Repr

/-- State of the router. -/
structure RouterState where
  /-- flits on the ring and flits that wait for injection, in the order they were sent -/
  ring : List Flit
  /-- grants used in the round of each output link: by (position * 2 + direction up) * 2, plus 1 for injected flits (R163) -/
  grants : Sparse Nat
  nodes : Sparse Node
  /-- subscription masks of logical blocks by source key (R166) -/
  subs : Sparse Nat
  /-- physical block by set * 128 + logical block; 128 for none (R166) -/
  trans : Sparse Nat
  /-- 0 normal map, m the map excluding region m - 1 -/
  activeSet : Nat
  /-- the set the Miller switches to between fabric steps (R177) -/
  nextSet : Nat
  deriving DecidableEq, Repr

/-- A synaptic update waiting for asynchronous evaluation (R132). -/
structure Update where
  neuron : Nat
  input : Int
  deriving DecidableEq, Repr

/-- State of one neuron block. -/
structure Block where
  /-- class runs of the installed image: first neuron and class, in rising order (R125) -/
  classes : List (Nat × Nat)
  /-- what an unlisted state word of each class reads as; empty when every unlisted word reads 0 -/
  fill : List Nat
  /-- state words of 48 bits (R124) -/
  states : Sparse Nat
  /-- synapse store words of 64 bits -/
  syn : Sparse Nat
  /-- events delivered for the step in evaluation -/
  input : List Held
  recheck : List Nat
  lfsr : Nat
  evaluated : Bool
  finished : Bool
  /-- events emitted in the step in evaluation, in order of emission -/
  out : List Held
  /-- state words, synapse words and accumulator entries with uncorrectable errors (R151) -/
  badState : List Nat
  badSyn : List Nat
  badAcc : List Nat
  updates : List Update
  deriving DecidableEq, Repr

/-- Value-to-event encoder (R152, R153). -/
structure Encoder where
  xref : Option Int
  /-- values written by the region's tracker, newest first, each with the last step closed when it was written -/
  tracker : List (Nat × Int)
  deriving DecidableEq, Repr

/-- Event-to-value decoder: the COUNT or LEAKY sums and the window position (R154). -/
structure Decoder where
  s : Int
  sx : Int
  sy : Int
  w : Nat
  deriving DecidableEq, Repr

/-- A posted decoder record (R155). -/
structure DecRec where
  channel : Nat
  leaky : Bool
  ssn : Nat
  value : Int
  sx : Int
  sy : Int
  /-- 0 tracker, 1 tile builder -/
  consumer : Nat
  deriving DecidableEq, Repr

/-- Converter unit of a region. -/
structure Conv where
  encs : Sparse Encoder
  decs : Sparse Decoder
  lfsr : Nat
  /-- posted records the consumer has not taken -/
  held : List DecRec
  deriving DecidableEq, Repr

/-- State of the spiking fabric. -/
structure FabState where
  blocks : Sparse Block
  convs : Sparse Conv
  deriving DecidableEq, Repr

end Sys2Proof.Machine
end

