-- ==== Sys2Proof/Machine/StateHost.lean ====
section
/-!
DEFINITION. State of the host attachment and of the command service (14_commands.md).
-/

namespace Sys2Proof.Machine

/-- The SDIO device and its two channels (R347 to R352). -/
structure SdioState where
  /-- relative card address, and whether CMD7 selected the card -/
  rca : Nat
  selected : Bool
  /-- voltage switch (CMD11) and tuning block (CMD19) seen, and the index of the last illegal command -/
  switched : Bool
  tuned : Bool
  illegal : Option Nat
  /-- bytes of F0 that software writes, by address -/
  f0 : Sparse Byte
  inbox : Sparse Byte
  /-- INBOX_BUSY, and the length written to IN_DOORBELL -/
  busy : Bool
  doorbell : Nat
  /-- low byte of IN_DOORBELL when it is written by single bytes -/
  bellLo : Nat
  /-- IN_OVERRUN, HDR_ERR and BULK_ERR -/
  errors : Nat
  intEn : Nat
  /-- data of the last read, and whether the last access was answered with an error -/
  readData : List Byte
  readError : Bool
  deriving DecidableEq, Repr

/-- An open bulk-in session (R352, R361, R371). -/
structure BulkIn where
  tag : Nat
  dest : Nat
  /-- 0 model image, 1 firmware image -/
  kind : Nat
  length : Nat
  got : Nat
  deriving DecidableEq, Repr

/-- An open bulk-out session. -/
structure BulkOut where
  tag : Nat
  dest : Nat
  offset : Nat
  length : Nat
  pos : Nat
  /-- data of a session with another module that has arrived and not been read -/
  data : List Byte
  deriving DecidableEq, Repr

/-- A packet accepted for execution (R355, R356). (log 49, DEDUCED) -/
structure Accepted where
  opcode : Nat
  req : Req
  /-- local count of its acceptance -/
  took : Nat
  deriving DecidableEq, Repr

/-- A command whose reply comes later (R357). (log 49, DEDUCED) -/
structure Running where
  opcode : Nat
  req : Req
  /-- local counts of its acceptance and of its start -/
  took : Nat
  start : Nat
  /-- what its start already fixed, for its reply -/
  status : Nat
  note : List Byte
  deriving DecidableEq, Repr

/-- A packet forwarded to another module whose reply has not come (R359). -/
structure Forwarded where
  dest : Nat
  tag : Nat
  opcode : Nat
  payload : List Byte
  start : Nat
  /-- data of the bulk-out session it opens that has come before its reply (R361) -/
  early : List Byte
  deriving DecidableEq, Repr

/-- The command service and the host attachment. -/
structure HostState where
  sdio : SdioState
  accepted : List Accepted
  running : List Running
  /-- the reply queue, its head in the outbox (R350) -/
  replies : List (List Byte)
  /-- replies that wait for room, with their tags -/
  stalled : List (Nat × List Byte)
  forwarded : List Forwarded
  bulkIn : Option BulkIn
  bulkOut : Option BulkOut
  /-- bulk sessions that another module opened here: opener and session -/
  remoteIn : Option (Nat × BulkIn)
  /-- the module that opened the latest bulk-out session here from outside (R361, R371) -/
  remoteOut : Option Nat
  /-- the reply of MODULE_RESET that waits to be released, and the local count of its entry into the outbox (R375) -/
  resetReply : Option (List Byte)
  resetAt : Nat
  deriving DecidableEq, Repr

end Sys2Proof.Machine
end

