-- ==== Sys2Proof/Machine/StateLink.lean ====
section
/-!
DEFINITION. State of the spoke ports, of the chain and of its root (13_spoke_links.md).
-/

namespace Sys2Proof.Machine

/-- States of a spoke port (R318). -/
inductive LinkState where
  | disabled | detect | lock | align | exchange | up | hold
  deriving DecidableEq, Repr

/-- The code of a port state (R318). -/
def LinkState.code : LinkState → Nat
  | .disabled => 0 | .detect => 1 | .lock => 2 | .align => 3 | .exchange => 4 | .up => 5 | .hold => 6

/-- Where the message an input port brings on a virtual channel goes (R340). -/
inductive Flow where
  | discard
  /-- taken by this module -/
  | sink
  /-- forwarded on this port -/
  | port (p : Nat)
  /-- taken by this module and forwarded on these ports -/
  | spread (ports : List Nat)
  deriving DecidableEq, Repr

/-- A flit that waits for an output port, with its requester: an input port, or 4 for the module's own sources (R327).
`entry`: the EPOCH in which it took an entry of that port's receive buffer; none for a flit that holds none (R326). -/
structure Waiting where
  req : Nat
  entry : Option Nat
  flit : SpokeFlit
  deriving DecidableEq, Repr

/-- A message being received by this module: header of its first flit, and its body so far (R331). -/
structure Partial where
  first : SpokeFlit
  length : Nat
  sub : Nat
  body : List Byte
  deriving DecidableEq, Repr

/-- A message received whole (R331). -/
structure Message where
  port : Nat
  vc : Nat
  mtype : Nat
  sub : Nat
  dest : Byte
  src : Nat
  bcast : Bool
  hops : Nat
  body : List Byte
  deriving DecidableEq, Repr

/-- One spoke port. Lists over virtual channels have four entries. -/
structure SpokePort where
  state : LinkState
  /-- local counts at which the attempt started, and at which the port entered HOLD -/
  attemptAt : Nat
  holdAt : Nat
  /-- what the port announces in TS2, from EXCHANGE on (R317, R323, R326) -/
  ts2 : Option Ts2
  /-- own EPOCH, and the partner's (R323) -/
  epoch : Nat
  rxEpoch : Nat
  /-- next SEQ to send, and SEQ expected (R324) -/
  seqTx : Nat
  seqRx : Nat
  /-- last SEQ accepted in this UP -/
  accepted : Option Nat
  /-- an acknowledgement is owed, and a NAK has been sent since the last acceptance (R325) -/
  ackOwed : Bool
  nakSent : Bool
  /-- unacknowledged flits, oldest first -/
  retry : List SpokeFlit
  /-- local counts at which they were first sent (R433 LINK_RTT) -/
  sentAt : List Nat
  /-- resend sequences without acknowledgement progress, and the local count of the last progress -/
  resends : Nat
  progressAt : Nat
  /-- dedicated credits the partner announced, those held now, and shared ones held (R326) -/
  dedicated : List Nat
  credits : List Nat
  shared : Nat
  /-- credits to return to the partner -/
  owed : List Nat
  /-- flits that wait to be sent, in order of arrival -/
  waiting : List Waiting
  /-- the message in progress on each output channel: its requester and its last flit sent -/
  owner : List (Option Waiting)
  /-- last requester served on each channel -/
  served : List Nat
  /-- channel of the round-robin, and grants it has left in the round (R20, R327) -/
  turn : Nat
  grants : Nat
  /-- where the message arriving on each channel goes -/
  flow : List (Option Flow)
  /-- messages being received by this module -/
  parts : List (Option Partial)
  /-- local counts of the last HEARTBEAT received and sent -/
  hbRx : Nat
  hbTx : Nat
  /-- ARMED of the partner's last HEARTBEAT (R335) -/
  partnerArmed : Bool
  /-- the partner's host is attached (R339) -/
  partnerHost : Bool
  /-- local count at which a planned retrain began to drain the port (R329) -/
  drain : Option Nat
  /-- flits sent on the port, newest first -/
  sent : List SpokeFlit
  deriving DecidableEq, Repr

/-- What the root keeps of a module (R342, R343). -/
structure ChainNode where
  /-- 1 PRESENT, 2 LOST, 3 DEVICE_CHANGED -/
  state : Nat
  digest : Nat
  /-- identity found in its place, until the host accepts it -/
  found : Nat
  /-- the known path: the module that owns the port it was found on, and the port; none for the root -/
  parent : Option (Nat × Nat)
  hops : Nat
  /-- the root's next hop -/
  port : Nat
  deriving DecidableEq, Repr

/-- A link between two modules: address and port of each end. -/
structure ChainLink where
  a : Nat
  p : Nat
  b : Nat
  q : Nat
  deriving DecidableEq, Repr

/-- The spoke side of the module. -/
structure SpokeState where
  ports : Sparse SpokePort
  /-- ports in the order of their turns to train (R320) -/
  order : List Nat
  /-- next hop by address: 0 to 3 a port, 4 LOCAL, 7 NONE (R338) -/
  routes : Sparse Nat
  tree : List Nat
  root : Bool
  /-- an ENUMERATE or a heal is running, and which of the two -/
  exploring : Bool
  enumerating : Bool
  /-- ports still to explore, the current one first -/
  todo : List (Nat × Nat)
  nodes : Sparse (Option ChainNode)
  links : List ChainLink
  /-- ENUM messages and own port changes that wait for the end of a warm restart (R425) -/
  deferred : List Message
  notices : List (Nat × Nat)
  deriving DecidableEq, Repr

/-- A plane of a split model that is arriving (R396). -/
structure PartPlane where
  object : Nat
  segment : Nat
  src : Nat
  /-- the port it arrives on -/
  port : Nat
  bytes : List Byte
  deriving DecidableEq, Repr

end Sys2Proof.Machine
end

