-- ==== Sys2Proof/Machine/F32.lean ====
section
/-!
DEFINITION. The floating-point formats and operations of the trackers and the dense units: binary32 with round to nearest
even and subnormal results flushed (R180, R230), BF16 (R230) and the two FP8 formats (R228), each operation exact until its
one rounding. Sums whose order the manual leaves open take that order from a stream of picks (R180, R232).
-/

namespace Sys2Proof

/-- A binary32 pattern. -/
abbrev F32 := BitVec 32

/-- A binary interchange format: mantissa bits, exponent bits and bias. -/
structure FloatFmt where
  mant : Nat
  ebits : Nat
  bias : Nat
  deriving DecidableEq, Repr

/-- What a pattern stands for: a NaN, an infinity, or (-1)^neg x m x 2^e. -/
inductive FloatVal where
  | nan
  | inf (neg : Bool)
  | fin (neg : Bool) (m : Nat) (e : Int)
  deriving DecidableEq, Repr

def fmtF32 : FloatFmt := ⟨23, 8, 127⟩
def fmtBf16 : FloatFmt := ⟨7, 8, 127⟩
def fmtE4m3 : FloatFmt := ⟨3, 4, 7⟩
def fmtE5m2 : FloatFmt := ⟨2, 5, 15⟩

/-- The value of a pattern of an IEEE-like format whose top exponent holds infinities and NaNs. -/
def decodeIeee (f : FloatFmt) (x : Nat) : FloatVal :=
  let neg := bitOf x (f.mant + f.ebits)
  let e := bitsOf x f.mant f.ebits
  let m := bitsOf x 0 f.mant
  if e = 2 ^ f.ebits - 1 then (if m = 0 then .inf neg else .nan)
  else if e = 0 then .fin neg m (1 - (f.bias : Int) - f.mant)
  else .fin neg (2 ^ f.mant + m) ((e : Int) - f.bias - f.mant)

/-- The value of an E4M3 pattern: no infinity, 0x7F and 0xFF are NaN (R228). -/
def decodeE4m3 (x : Nat) : FloatVal :=
  let neg := bitOf x 7
  let e := bitsOf x 3 4
  let m := bitsOf x 0 3
  if e = 15 ∧ m = 7 then .nan
  else if e = 0 then .fin neg m (-9)
  else .fin neg (8 + m) ((e : Int) - 10)

/-- n/d x 2^e in units of 2^u, rounded to nearest with ties to even. -/
def scaledRne (n d : Nat) (e u : Int) : Nat :=
  (if e ≥ u then rneDiv ((n * 2 ^ (e - u).toNat : Nat) : Int) d else rneDiv n (d * 2 ^ (u - e).toNat)).toNat

/-- floor(log2(n/d x 2^e)) for n, d > 0. -/
def floorLog (n d : Nat) (e : Int) : Int :=
  let k : Int := (Nat.log2 n : Int) - Nat.log2 d + e
  -- n/d lies in (2^(a-b-1), 2^(a-b+1)); one comparison decides
  let k0 := k - e
  if k0 ≥ 0 then (if n ≥ d * 2 ^ k0.toNat then k else k - 1)
  else (if n * 2 ^ (-k0).toNat ≥ d then k else k - 1)

/-- Exponent and mantissa fields of n/d x 2^e rounded to nearest even in format `f`, subnormals kept; the exponent field may
pass the format's top, which the caller handles. -/
def roundFields (f : FloatFmt) (n d : Nat) (e : Int) : Nat × Nat :=
  if n = 0 then (0, 0)
  else
    let emin : Int := 1 - (f.bias : Int)
    let k := max (floorLog n d e) emin
    let u := k - f.mant
    let q := scaledRne n d e u
    if q < 2 ^ f.mant then (0, q)
    else if q < 2 ^ (f.mant + 1) then ((k + f.bias).toNat, q - 2 ^ f.mant)
    else ((k + 1 + f.bias).toNat, 0)

/-- The pattern with the given sign and fields. -/
def packFloat (f : FloatFmt) (neg : Bool) (e m : Nat) : Nat := bit neg * 2 ^ (f.mant + f.ebits) + e * 2 ^ f.mant + m

def f32Nan : F32 := 0x7FC00000
def f32Inf (neg : Bool) : F32 := if neg then 0xFF800000 else 0x7F800000
def f32Zero (neg : Bool) : F32 := if neg then 0x80000000 else 0

/-- n/d x 2^e with a sign as binary32: nearest even, overflow to infinity, subnormal results flushed to zero (R180, R230). -/
def roundF32 (neg : Bool) (n d : Nat) (e : Int) : F32 :=
  let (ef, m) := roundFields fmtF32 n d e
  if ef = 0 then f32Zero neg
  else if ef ≥ 255 then f32Inf neg
  else BitVec.ofNat 32 (packFloat fmtF32 neg ef m)

def F32.val (x : F32) : FloatVal := decodeIeee fmtF32 x.toNat

/-- A signed numerator over `d` times 2^e as binary32; zero is +0. -/
def f32OfRat (n : Int) (d : Nat) (e : Int) : F32 := roundF32 (n < 0) n.natAbs d e

def f32OfInt (x : Int) : F32 := f32OfRat x 1 0

def f32Neg (x : F32) : F32 := x ^^^ 0x80000000
def f32Abs (x : F32) : F32 := x &&& 0x7FFFFFFF

def f32Add (x y : F32) : F32 :=
  match x.val, y.val with
  | .nan, _ => f32Nan
  | _, .nan => f32Nan
  | .inf a, .inf b => if a = b then f32Inf a else f32Nan
  | .inf a, _ => f32Inf a
  | _, .inf b => f32Inf b
  | .fin a m e, .fin b n g =>
    let k := min e g
    let s : Int := (if a then -1 else 1) * (m * 2 ^ (e - k).toNat : Nat) + (if b then -1 else 1) * (n * 2 ^ (g - k).toNat : Nat)
    if s = 0 then f32Zero (a && b && m == 0 && n == 0 || (a && b)) else roundF32 (s < 0) s.natAbs 1 k

def f32Sub (x y : F32) : F32 := f32Add x (f32Neg y)

def f32Mul (x y : F32) : F32 :=
  match x.val, y.val with
  | .nan, _ => f32Nan
  | _, .nan => f32Nan
  | .inf a, .inf b => f32Inf (a != b)
  | .inf a, .fin b n _ => if n = 0 then f32Nan else f32Inf (a != b)
  | .fin a m _, .inf b => if m = 0 then f32Nan else f32Inf (a != b)
  | .fin a m e, .fin b n g => roundF32 (a != b) (m * n) 1 (e + g)

def f32Div (x y : F32) : F32 :=
  match x.val, y.val with
  | .nan, _ => f32Nan
  | _, .nan => f32Nan
  | .inf _, .inf _ => f32Nan
  | .inf a, .fin b _ _ => f32Inf (a != b)
  | .fin a _ _, .inf b => f32Zero (a != b)
  | .fin a m e, .fin b n g =>
    if n = 0 then (if m = 0 then f32Nan else f32Inf (a != b)) else roundF32 (a != b) m n (e - g)

/-- Integer square root by the digits, from bit `n` - 1 down. -/
def isqrtGo : Nat → Nat → Nat → Nat
  | 0, _, r => r
  | n + 1, x, r => let t := r + 2 ^ n; isqrtGo n x (if t * t ≤ x then t else r)

def isqrt (x : Nat) : Nat := isqrtGo (Nat.log2 x / 2 + 1) x 0

/-- Square root; a negative operand below -0 gives NaN. -/
def f32Sqrt (x : F32) : F32 :=
  match x.val with
  | .nan => f32Nan
  | .inf neg => if neg then f32Nan else f32Inf false
  | .fin neg m e =>
    if m = 0 then f32Zero neg
    else if neg then f32Nan
    else
      let (m, e) := if e % 2 = 0 then (m, e) else (2 * m, e - 1)
      let big := m * 2 ^ 64
      let r := isqrt big
      -- one sticky bit below the root keeps the rounding exact
      roundF32 false (2 * r + (if r * r = big then 0 else 1)) 1 (e / 2 - 33)

/-- The exact comparison of two finite values. -/
def finLt (a : Bool) (m : Nat) (e : Int) (b : Bool) (n : Nat) (g : Int) : Bool :=
  let k := min e g
  decide ((if a then -1 else 1) * (m * 2 ^ (e - k).toNat : Nat) < ((if b then -1 else 1) * (n * 2 ^ (g - k).toNat : Nat) : Int))

/-- x < y; false with a NaN. -/
def f32Lt (x y : F32) : Bool :=
  match x.val, y.val with
  | .nan, _ => false
  | _, .nan => false
  | .inf a, .inf b => a && !b
  | .inf a, .fin .. => a
  | .fin .., .inf b => !b
  | .fin a m e, .fin b n g => finLt a m e b n g

def f32IsNan (x : F32) : Bool := x.val == .nan

/-- x <= y; false with a NaN. -/
def f32Le (x y : F32) : Bool := !f32IsNan x && !f32IsNan y && !f32Lt y x

def f32Ge (x y : F32) : Bool := f32Le y x
def f32Eq (x y : F32) : Bool := f32Le x y && f32Le y x
def f32Max (x y : F32) : F32 := if f32Lt x y then y else x
def f32Min (x y : F32) : F32 := if f32Lt y x then y else x

/-- The nearest integer with ties to even; none for an infinity or a NaN. -/
def f32Rne? (x : F32) : Option Int :=
  match x.val with
  | .fin neg m e =>
    some ((if neg then -1 else 1) * (if e ≥ 0 then ((m * 2 ^ e.toNat : Nat) : Int) else rneDiv m (2 ^ (-e).toNat)))
  | _ => none

/-- The floor; none for an infinity or a NaN. -/
def f32Floor? (x : F32) : Option Int :=
  match x.val with
  | .fin neg m e =>
    let s : Int := if neg then -(m : Int) else m
    some (if e ≥ 0 then s * (2 ^ e.toNat : Nat) else s.fdiv (2 ^ (-e).toNat : Nat))
  | _ => none

/-- The nearest integer, saturated into [lo, hi]; an infinity saturates, a NaN gives `z`. (log 21, DESIGN CHOICE) -/
def f32RneSat (lo hi z : Int) (x : F32) : Int :=
  match x.val with
  | .nan => z
  | .inf neg => if neg then lo else hi
  | .fin .. => clampInt lo hi ((f32Rne? x).getD 0)

/-- A sum in the order that `pick` gives: two terms at a time are taken out and their sum put back (R180, R232).
(log 12, DESIGN CHOICE) -/
def f32SumGo (pick : Nat → Nat) : Nat → Nat → List F32 → F32
  | _, _, [] => 0
  | _, _, [x] => x
  | 0, _, x :: _ => x
  | fuel + 1, k, xs =>
    let i := pick k % xs.length
    let a := xs.getD i 0
    let ys := xs.eraseIdx i
    let j := pick (k + 1) % ys.length
    let b := ys.getD j 0
    f32SumGo pick fuel (k + 2) (f32Add a b :: ys.eraseIdx j)

/-- A sum of binary32 numbers in the order that `pick` gives. (log 12, DESIGN CHOICE) -/
def f32Sum (pick : Nat → Nat) (xs : List F32) : F32 := f32SumGo pick xs.length 0 xs

/-! ### BF16 and FP8 -/

/-- Binary32 to BF16: nearest even, NaN canonical, subnormal results flushed (R230, R235 step 4). -/
def bf16OfF32 (x : F32) : BitVec 16 :=
  match x.val with
  | .nan => 0x7FC0
  | .inf neg => if neg then 0xFF80 else 0x7F80
  | .fin neg m e =>
    let (ef, mf) := roundFields fmtBf16 m 1 e
    if ef = 0 then BitVec.ofNat 16 (packFloat fmtBf16 neg 0 0)
    else if ef ≥ 255 then BitVec.ofNat 16 (packFloat fmtBf16 neg 255 0)
    else BitVec.ofNat 16 (packFloat fmtBf16 neg ef mf)

/-- BF16 to binary32, exact; subnormal BF16 inputs flush to zero of their sign (R230). -/
def f32OfBf16 (x : BitVec 16) : F32 :=
  if bitsOf x.toNat 7 8 = 0 then f32Zero (bitOf x.toNat 15)
  else if bitsOf x.toNat 7 8 = 255 ∧ bitsOf x.toNat 0 7 ≠ 0 then f32Nan
  else BitVec.ofNat 32 (x.toNat * 2 ^ 16)

/-- An FP8 pattern as binary32, exact (R228, R232). -/
def f32OfFp8 (e5m2 : Bool) (x : Byte) : F32 :=
  match (if e5m2 then decodeIeee fmtE5m2 x.toNat else decodeE4m3 x.toNat) with
  | .nan => f32Nan
  | .inf neg => f32Inf neg
  | .fin neg m e => roundF32 neg m 1 e

/-- What a conversion to FP8 gives: the byte, whether it saturated, whether it wrote a NaN (R235). -/
structure Fp8Out where
  byte : Byte
  saturated : Bool
  nan : Bool
  deriving DecidableEq, Repr

/-- Binary32 to E4M3: a finite value beyond 448, or an infinity, gives 448 of its sign (R235). -/
def fp8E4m3OfF32 (x : F32) : Fp8Out :=
  match x.val with
  | .nan => ⟨0x7F, false, true⟩
  | .inf neg => ⟨if neg then 0xFE else 0x7E, true, false⟩
  | .fin neg m e =>
    if finLt false 448 0 false m e then ⟨if neg then 0xFE else 0x7E, true, false⟩
    else let (ef, mf) := roundFields fmtE4m3 m 1 e; ⟨BitVec.ofNat 8 (packFloat fmtE4m3 neg ef mf), false, false⟩

/-- Binary32 to E5M2: a finite value beyond 57,344 gives 57,344; an infinity stays infinite (R235). -/
def fp8E5m2OfF32 (x : F32) : Fp8Out :=
  match x.val with
  | .nan => ⟨0x7F, false, true⟩
  | .inf neg => ⟨if neg then 0xFC else 0x7C, false, false⟩
  | .fin neg m e =>
    if finLt false 57344 0 false m e then ⟨if neg then 0xFB else 0x7B, true, false⟩
    else let (ef, mf) := roundFields fmtE5m2 m 1 e; ⟨BitVec.ofNat 8 (packFloat fmtE5m2 neg ef mf), false, false⟩

/-! ### The exponential -/

/-- The Taylor sum of exp(r) in units of 2^-128, for 0 <= r < 1 given in those units. -/
def expTaylor : Nat → Nat → Nat → Nat → Nat → Nat
  | 0, _, _, _, acc => acc
  | n + 1, k, r, term, acc =>
    let t := term * r / 2 ^ 128 / k
    expTaylor n (k + 1) r t (acc + t)

/-- exp of a finite binary32, to more than 100 bits, rounded to nearest: the value that "within 2 ulp" is counted from
(R251 step 4). Arguments beyond 128 in magnitude overflow or vanish. -/
def expNear (x : F32) : F32 :=
  match x.val with
  | .nan => f32Nan
  | .inf neg => if neg then 0 else f32Inf false
  | .fin neg m e =>
    -- ln 2 in units of 2^-128
    let ln2 : Nat := 0xB17217F7D1CF79ABC9E3B39803F2F6AF
    if e ≥ 8 ∧ m ≠ 0 then (if neg then 0 else f32Inf false)
    else
      let a : Nat := if e + 128 ≥ 0 then m * 2 ^ (e + 128).toNat else 0
      if a ≥ 128 * 2 ^ 128 then (if neg then 0 else f32Inf false)
      else
        let v : Int := if neg then -(a : Int) else a
        let k := v.fdiv ln2
        let r := (v - k * ln2).toNat
        roundF32 false (expTaylor 40 1 r (2 ^ 128) (2 ^ 128)) 1 (k - 128)

/-- A binary32 moved by `u` units in the last place; used on positive finite values. -/
def f32Ulps (x : F32) (u : Int) : F32 := BitVec.ofNat 32 ((x.toNat : Int) + u).toNat

end Sys2Proof
end

