-- ==== Sys2Proof/Machine/StateObj.lean ====
section
/-!
DEFINITION. State of the trackers and voters (07_tracking_fusion.md), the tile builders (08_tiles_arithmetic.md), the dense
units and post units (09_layer_mapping.md), the Tailrace (10_decisions.md) and the auxiliary channels (11_aux_filters.md).
-/

namespace Sys2Proof.Machine

/-! ### Trackers -/

/-- States of a track that is not FREE (R191). -/
inductive TrackState where
  | tentative | confirmed | mature | closed
  deriving DecidableEq, Repr

/-- A track slot (R182), with what the tracker and the voter keep of its object beside the slot's 160 bytes. -/
structure Slot where
  id : Nat
  anchor : Nat
  st : TrackState
  owned : Bool
  degraded : Bool
  boundary : Bool
  covFault : Bool
  hits : Nat
  misses : Nat
  age : Nat
  lastRef : F32
  /-- state vector X0 to X5, upper triangle of P row by row, FEAT0 to FEAT7 -/
  x : List F32
  p : List F32
  feats : List F32
  /-- fabric step of maturity (R210), and SSN_CLOSED when the track closed (R191) -/
  matureSsn : Nat
  closedSsn : Nat
  /-- d2 values of the measurements of each camera port 0 to 3 (R202) -/
  d2 : List (List F32)
  /-- abs(VALUE) and v_l of the measurements taken (FLOW, R197) -/
  flow : List (F32 × F32)
  /-- across values of its predictions and measurements in the steps that some tracker has still to take (R116) -/
  seen : List (Nat × F32)
  /-- FEAT0 to FEAT7 as copied at maturity (R192) -/
  matFeats : List F32
  /-- failures of its tile (R224) -/
  tileFails : Nat
  deriving DecidableEq, Repr

/-- A fabric step the tracker has still to take (R184). -/
structure StepInfo where
  ssn : Nat
  hw : Nat
  backstop : Bool
  shed : Nat
  deriving DecidableEq, Repr

/-- A refinement sample of a port (R206): mapped across, across error, along error where it has one. -/
structure RefSample where
  a : F32
  across : F32
  along : Option F32
  deriving DecidableEq, Repr

/-- A record of the alignment change log (R207). -/
structure AlignChange where
  time : Int
  port : Nat
  values : List Int
  samples : Nat
  deriving DecidableEq, Repr

/-- What the tracker of one logical region holds beside its slots. -/
structure Tracker where
  inbox : List DecRec
  todo : List StepInfo
  /-- births so far, modulo 2^21 -/
  births : Nat
  deriving DecidableEq, Repr

/-- The trackers and voters. -/
structure TrkState where
  /-- by logical region -/
  trackers : Sparse Tracker
  /-- slots by logical region * 2,048 + slot; none is FREE -/
  slots : Sparse (Option Slot)
  /-- mirrored slots and voter words (R183) -/
  mirror : Sparse (Option Slot)
  mirrorWords : Sparse Word
  /-- refinement samples by port (R206), and the alignment change log, oldest first -/
  refine : Sparse (List RefSample)
  alignLog : List AlignChange
  /-- the last second of device time a refinement was applied in (R207) -/
  refineSec : Option Int
  deriving DecidableEq, Repr

/-! ### Classification plans (R226 to R253); their section's bytes are fixed by the toolchain -/

/-- Number formats of the dense units (R226). -/
inductive NumFmt where
  | int8 | int4 | bsi4 | e4m3 | e5m2 | bf16
  deriving DecidableEq, Repr

/-- A pooling stage (R249). -/
structure PoolSpec where
  avg : Bool
  countPad : Bool
  kh : Nat
  kw : Nat
  sh : Nat
  sw : Nat
  pt : Nat
  pb : Nat
  pl : Nat
  pr : Nat
  deriving DecidableEq, Repr

/-- A stripe: its convolution output rows (R244). -/
structure Stripe where
  row0 : Nat
  rows : Nat
  deriving DecidableEq, Repr

/-- What kind of work a layer descriptor names. -/
inductive LayerKind where
  /-- a convolution on the array, in sub-array mode `mode` -/
  | array (mode : Nat)
  /-- an edge engine first layer (R250) -/
  | edgeConv
  /-- global pooling of the last layers (R251) -/
  | globalPool (avg : Bool) (side : Bool)
  /-- fully connected layer; `streamed`: weights stream from the model area (R251, R252) -/
  | fc (streamed : Bool)
  /-- softmax in FP32 (R251) -/
  | softmax
  deriving DecidableEq, Repr

/-- A layer descriptor. Input: the tile (`src` none) or an earlier layer's plane. -/
structure Layer where
  kind : LayerKind
  /-- sub-array mode that a descriptor for the edge engine names, if any (R243) -/
  edgeMode : Option Nat
  src : Option Nat
  kh : Nat
  kw : Nat
  sh : Nat
  sw : Nat
  pt : Nat
  pb : Nat
  pl : Nat
  pr : Nat
  dil : Nat
  cin : Nat
  cout : Nat
  hin : Nat
  win : Nat
  groups : Nat
  wfmt : NumFmt
  afmt : NumFmt
  ofmt : NumFmt
  /-- packed codes in order output channel, then reduction element, a BSI4 tap padded to blocks of 32 (R227, R229, R241, R245);
  BSI4 scale bytes per block -/
  weights : List Byte
  wscales : List Nat
  /-- per output channel: bias (integer, or a binary32 pattern), M, SH, and the FP32 scale -/
  bias : List Int
  mul : List Int
  shift : List Nat
  scale : List F32
  lo : Int
  hi : Int
  clampOn : Bool
  flo : F32
  fhi : F32
  pool : Option PoolSpec
  stripes : List Stripe
  deriving DecidableEq, Repr

/-- The box stage of a plan (R254, R255): the layers that write the score map and the regression map, which may be one, the first
channel of each map, the classes of an anchor, and the maps' stride in tile pixels. -/
structure BoxMaps where
  scores : Nat
  first : Nat
  classes : Nat
  regs : Nat
  regFirst : Nat
  stride : Nat
  deriving DecidableEq, Repr

/-- A classification plan. -/
structure Plan where
  layers : List Layer
  box : Option BoxMaps
  /-- layers whose result goes to another member of a split model, with the SEGMENT of the transfer (R394) -/
  sends : List (Nat × Nat)
  deriving DecidableEq, Repr

/-- An activation plane: codes by (y * w + x) * c + channel, BSI4 scale bytes by (y * w + x) * ceil(c / 32) + block. -/
structure Plane where
  w : Nat
  h : Nat
  c : Nat
  fmt : NumFmt
  data : Sparse Nat
  scales : Sparse Nat
  deriving DecidableEq, Repr

/-- A plane as it stands in memory: codes packed by R227 and R229 in the order of `Plane`, a BSI4 pixel filled with zero codes to whole
blocks of 32, and the scale bytes. -/
structure PackedPlane where
  w : Nat
  h : Nat
  c : Nat
  fmt : NumFmt
  codes : List Byte
  scales : List Byte
  deriving DecidableEq, Repr

/-! ### Tile builders and dense units -/

/-- What a tile is made from at its reference position, kept for a rebuild (R210, R216, R218, R224): TREF in 1/65,536 count,
the centre, and the track's FEAT and state vector there. -/
structure TileOrigin where
  tref : Nat
  ca : Int
  cb : Nat
  feats : List F32
  x : List F32
  deriving DecidableEq, Repr

/-- A tile request (R210). `redo`: what the tile it rebuilds was made from (R224). -/
structure TileReq where
  lr : Nat
  slot : Nat
  id : Nat
  matureSsn : Nat
  /-- generation of the plan it finishes under (R398) -/
  gen : Nat
  /-- FEAT0 to FEAT7 as copied at maturity (R192) -/
  feats : List F32
  redo : Option TileOrigin
  /-- local count of the request -/
  asked : Nat
  deriving DecidableEq, Repr

/-- States of a job (R222, R223, R247); `again` waits to run once more and keeps its reference. -/
inductive JobState where
  | waiting | running | done | cancelled | again
  deriving DecidableEq, Repr

/-- Progress of one layer of a tile's plan: its jobs, the jobs that were aborted, and what it has written. -/
structure LayerRun where
  jobs : List JobState
  aborted : List Nat
  /-- run once more because its plane was bad (R247) -/
  remade : Bool
  plane : Option Plane
  /-- vector of the last layers, binary32 -/
  vec : List F32
  deriving DecidableEq, Repr

/-- A live tile (R217 to R222) and the state of its classification. -/
structure Tile where
  lr : Nat
  slot : Nat
  id : Nat
  matureSsn : Nat
  gen : Nat
  origin : TileOrigin
  pages : List Nat
  ready : Bool
  refs : Nat
  builderRef : Bool
  cancelled : Bool
  /-- elements that are not 0, by byte q (R217) -/
  data : Sparse Byte
  feats : List F32
  w : Nat
  h : Nat
  cpad : Nat
  /-- side vector, BF16 patterns (R218) -/
  side : List Nat
  layers : List LayerRun
  /-- continuation of a split model: its segment, and the plane that arrived (R396) -/
  segment : Option Nat
  input : Option Plane
  /-- local count of the request -/
  asked : Nat
  deriving DecidableEq, Repr

/-- A classification whose jobs have finished, until its vote (R253, R254). -/
structure Scored where
  lr : Nat
  slot : Nat
  id : Nat
  unit : Nat
  scores : List F32
  /-- planes that hold the score and the regression map with their layout, and the tile's size, when the plan has a box stage -/
  maps : Option (Plane × Plane × BoxMaps)
  tileW : Nat
  tileH : Nat
  boxAsked : Bool
  boxes : Option Nat
  /-- class and confidence, once the post unit has delivered them -/
  posted : Option (Nat × Nat)
  deriving DecidableEq, Repr

/-- A job that runs: tile descriptor, layer, stripe. -/
structure RunJob where
  tile : Nat
  layer : Nat
  stripe : Nat
  deriving DecidableEq, Repr

/-- Tile builder, array, edge engine and post unit of one region. -/
structure DenseUnit where
  reqs : List TileReq
  tiles : Sparse (Option Tile)
  mode : Nat
  subs : Sparse (Option RunJob)
  edge : Option RunJob
  /-- tiles in the last streamed batch (R252) -/
  lastBatch : Nat
  done : List Scored
  /-- box requests by object, in order of arrival; kept in regions 0 and 4 (R254) -/
  boxReqs : List (Nat × Nat)
  deriving DecidableEq, Repr

/-- A step record of the event history: high-water position, the newest stamp it can hold, and records of R212. -/
structure HistStep where
  hw : Nat
  top : Nat
  recs : List Nat
  deriving DecidableEq, Repr

/-- Event history and side inputs of one logical region's builder (R211, R218). -/
structure HistState where
  /-- oldest first -/
  steps : List HistStep
  /-- newest stamp that the last step record overwritten could hold -/
  lost : Option Nat
  /-- ingest events passed on for the step in evaluation -/
  pend : List Ev
  /-- last VALUE of each decoder whose consumer is the builder -/
  sideDec : Sparse Int
  deriving DecidableEq, Repr

/-- The dense side of the module. -/
structure ObjState where
  units : Sparse DenseUnit
  hist : Sparse HistState
  plan : Plan
  oldPlan : Plan
  gen : Nat
  /-- next builder of the rotation of R392 -/
  rotate : Nat
  deriving DecidableEq, Repr

/-! ### Tailrace -/

/-- A vote held by the Tailrace: class, confidence, CONFLICT, UNCERTAIN, DEGRADED, emitted lane and its target. -/
structure Vote where
  cls : Nat
  conf : Nat
  conflict : Bool
  uncertain : Bool
  degraded : Bool
  lane : Nat
  target : Nat
  boxes : Option Nat
  deriving DecidableEq, Repr

/-- A pending verdict (R265). -/
structure PendVerdict where
  lr : Nat
  slot : Nat
  id : Nat
  home : Nat
  /-- across centre that decided ownership, and the centre handed over (R192, R195) -/
  own : Int
  across : F32
  along : Int
  degraded : Bool
  target : Nat
  arr : Int
  launch : Int
  /-- SSN_CLOSED at which PAIR_WAIT ends; none when it does not wait (R193) -/
  wait : Option Nat
  vote : Option Vote
  /-- generation of the plan the object finishes under (R398) -/
  gen : Nat
  deriving DecidableEq, Repr

/-- A formed record waiting for its frame (R266, R270). -/
structure VerdictRec where
  lane : Nat
  cls : Nat
  conf : Nat
  flags : Nat
  id : Nat
  target : Nat
  arr : Int
  launch : Int
  slotIx : Int
  boxes : Nat
  group : Nat
  /-- chain address of the module that formed it -/
  src : Nat
  relayed : Bool
  deriving DecidableEq, Repr

/-- The Tailrace. -/
structure TailState where
  pend : List PendVerdict
  recs : List VerdictRec
  /-- lane and slot of each record already written or relayed (R268) -/
  written : List (Nat × Int)
  /-- copies a full launch queue holds back, with their ports (R273) -/
  heldCopies : List (Nat × Int × List Byte × Bool)
  deriving DecidableEq, Repr

/-! ### Auxiliary channels -/

/-- State of one auxiliary channel's chain (R283 to R290). -/
structure AuxChan where
  /-- CFG word in force for the running history: the one at its synchronising reset (R285, R286) -/
  cfg : Nat
  ints : List Nat
  combs : List Nat
  cicPhase : Nat
  /-- delay lines, newest first, each value with whether a bad ROM word went into it (R281), and whether the next input of a
  stage completes an output -/
  fir : List (Int × Bool)
  firOdd : Bool
  h1 : List (Int × Bool)
  h1Odd : Bool
  h2 : List (Int × Bool)
  h2Odd : Bool
  /-- stages whose next output uses a ROM word of bad parity (R281) -/
  badWord : List Nat
  /-- outputs since the last reset -/
  outs : Nat
  clip : Bool
  last : Option Bool
  run : Nat
  stuck : Bool
  /-- rising edge to which the channel's next bit belongs (R279) -/
  edge : Nat
  /-- synchronising resets asked for, each by the local count from which on an edge takes it (R285) -/
  resets : List Nat
  seq : Nat
  record : Nat
  snap : Nat
  /-- stamps and values of valid samples, newest first -/
  valid : List (Nat × Int)
  deriving DecidableEq, Repr

end Sys2Proof.Machine
end

