-- ==== Sys2Proof/Machine/StateSys.lean ====
section
/-!
DEFINITION. State of the queue and synchronisation engine, the claims table and the check-value unit
(12_queues_checkvalues.md).
-/

namespace Sys2Proof.Machine

/-- A queue word of 64 bits with its end mark (R299). -/
structure QWord where
  data : BitVec 64
  eop : Bool
  deriving DecidableEq, Repr

/-- Contents of one hardware queue (R296 to R305). -/
structure Queue where
  /-- words held, oldest first -/
  words : List QWord
  /-- word last read since the queue was enabled (R303) -/
  last : Option QWord
  /-- the producer is within a packet (R305) -/
  mid : Bool
  /-- the rest of the producer's packet is discarded (R305) -/
  discarding : Bool
  /-- words whose data holds an uncorrectable error, by place from the oldest -/
  bad : List Nat
  deriving DecidableEq, Repr

/-- A claims-table entry (R308, R309). -/
structure Claim where
  /-- IMAGE rather than HOST -/
  image : Bool
  kind : Nat
  unit : Nat
  amount : Nat
  base : Nat
  deriving DecidableEq, Repr

/-- The queue engine and the claims table. -/
structure QueState where
  queues : Sparse Queue
  /-- claims by entry number 0 to 1,023 -/
  claims : Sparse (Option Claim)
  /-- value the last operation on a synchronisation object returned, and its status -/
  soOld : Word
  soStatus : Status
  deriving DecidableEq, Repr

/-- One check-value context (R312 to R315). -/
structure CvContext where
  state : Nat
  /-- snapshots of STATE and RESULT (R315) -/
  snapState : Nat
  snapResult : Nat
  /-- lower word written to STATE -/
  setLo : Nat
  busy : Bool
  /-- first byte and length of the range that RANGE_GO checked (R314) -/
  range : Nat × Nat
  deriving DecidableEq, Repr

/-- States of the command service (R372). -/
inductive CmdState where
  | boot | safe | early | ready | armed | restart
  deriving DecidableEq, Repr

/-- The code of a command state (R372). -/
def CmdState.code : CmdState → Nat
  | .boot => 0 | .safe => 1 | .early => 2 | .ready => 3 | .armed => 4 | .restart => 5

end Sys2Proof.Machine
end

