-- ==== Sys2Proof/Machine/StateMgmt.lean ====
section
/-!
DEFINITION. State of the module's management: model images (15_models.md), power domains (16_power.md), faults, logs and
monitors (17_faults.md), life cycle and self-test (18_security.md), input power and flash (19_module.md).
-/

namespace Sys2Proof.Machine

/-! ### Model images -/

/-- What a model image needs of one logical region (R384). -/
structure NeedRegion where
  blocks : Nat
  tracks : Nat
  decoders : Nat
  encoders : Nat
  pages : Nat
  deriving DecidableEq, Repr

/-- The NEEDS section (R384); eight regions. -/
structure Needs where
  lregions : Nat
  formats : Nat
  modes : Nat
  dense : Nat
  edge : Nat
  slot : Nat
  minLead : Nat
  localBuf : Nat
  jobs : Nat
  regions : List NeedRegion
  deriving DecidableEq, Repr

/-- A logical block of an image: its place, class and program words by word index, the CLASS runs of its neurons, and its
synapse store (R383). -/
structure ImageBlock where
  place : Nat
  words : List (Nat × Nat)
  classes : List (Nat × Nat)
  syn : Sparse Nat
  deriving DecidableEq, Repr

/-- A transfer point of a split model (R394). -/
structure Transfer where
  segment : Nat
  source : Nat
  dest : Nat
  bytes : Nat
  rx : Nat
  deriving DecidableEq, Repr

/-- A model image prepared in the model area (R382 to R394). -/
structure Model where
  member : Nat
  members : Nat
  footprint : Nat
  box : Bool
  needs : Needs
  blocks : List ImageBlock
  subs : Sparse Nat
  plan : Plan
  /-- continuations of a split model by segment -/
  conts : List (Nat × Plan)
  params : List (Nat × Nat)
  transfers : List Transfer
  maxHops : Nat
  /-- chain address of each member -/
  addrs : List Nat
  /-- SHA-384 of M, and SLOT_HOLD and whether the outcome was DEGRADED_OK -/
  digest : Nat
  slotHold : Nat
  degraded : Bool
  deriving DecidableEq, Repr

/-- The staged image: kind 0 model, 1 firmware; its last byte has arrived, and lies in staging (R352, R371). -/
structure Staged where
  kind : Nat
  length : Nat
  arrived : Bool
  complete : Bool
  deriving DecidableEq, Repr

/-- An accepted swap (R397 to R399). -/
structure Swap where
  model : Model
  cut : Nat
  prepared : Bool
  /-- the cut's closure came before the image was prepared -/
  passed : Bool
  /-- SSN of the fabric step after which the cut is made -/
  cutSsn : Option Nat
  /-- the command, until it is answered -/
  req : Option Req
  outcome : List Byte
  deriving DecidableEq, Repr

/-- Images of the module. -/
structure ModelState where
  active : Option Model
  staged : Option Staged
  swap : Option Swap
  /-- MODEL_STATUS.SWAP_RESULT -/
  swapResult : Nat
  deriving DecidableEq, Repr

/-! ### Power domains -/

/-- States of a power domain (R403). -/
inductive PwrState where
  | on | ret | off
  deriving DecidableEq, Repr

/-- The code of a domain state (R406). -/
def PwrState.code : PwrState → Nat
  | .on => 0 | .ret => 1 | .off => 2

/-- A transition in progress: its goal, whether it has passed commit, and a wake event held after commit (R408, R409). -/
structure PwrMove where
  goal : PwrState
  committed : Bool
  wake : Bool
  deriving DecidableEq, Repr

/-- One power domain (R407 to R412). -/
structure PowerDom where
  st : PwrState
  move : Option PwrMove
  target : PwrState
  pend : Option PwrState
  result : Nat
  refCode : Nat
  refInst : Nat
  /-- local count of the last access after a wake; a new entry follows RET_HOLD us later (R410) -/
  retry : Option Nat
  deriving DecidableEq, Repr

/-- A region being parked: the command, the state asked for, and the domains that still enter it (R414). -/
structure ParkSeq where
  region : Nat
  goal : PwrState
  switched : Bool
  rest : List Nat
  deriving DecidableEq, Repr

/-- A switch of the map that the Miller makes at the next fabric step boundary (R391, R393). -/
inductive MapSwitch where
  /-- the region has failed -/
  | derail (region : Nat)
  | park (region : Nat)
  /-- the return to set 0 of a parked region, or of one that passed its retest -/
  | resume (region : Nat)
  | returned (region : Nat)
  deriving DecidableEq, Repr

/-- The power domains and the placement of the regions. -/
structure PowerState where
  doms : Sparse PowerDom
  park : Option ParkSeq
  /-- region being resumed -/
  resume : Option Nat
  /-- map switches that wait for the next fabric step boundary -/
  switches : List MapSwitch
  /-- regions that count as finished for every fabric step until their switch (R391, R419) -/
  failing : List Nat
  deriving DecidableEq, Repr

/-! ### Faults, logs and monitors -/

/-- An entry of the error log (R434), with the local count it was made at. -/
structure ErrEntry where
  time : Int
  madeAt : Nat
  pos : Nat
  level : Nat
  action : Nat
  report : ErrorReport
  deriving DecidableEq, Repr

/-- The three logs: entries oldest first, with the sequence number of the first one (R434). The alignment log's entries are
`TrkState.alignLog`. -/
structure LogState where
  errors : List ErrEntry
  errBase : Nat
  alignBase : Nat
  history : List (List Byte)
  histBase : Nat
  deriving DecidableEq, Repr

/-- A monitor buffer (R432, R433). -/
structure MonBuf where
  samples : Nat
  lo : Int
  hi : Int
  bins : List Nat
  deriving DecidableEq, Repr

/-- A monitor channel: its buffers, and what its snapshot says of the swap. -/
structure MonChan where
  live : MonBuf
  snap : MonBuf
  changed : Bool
  quantity : Nat
  inst : Nat
  time : Int
  snapChanged : Bool
  /-- local count of the last sample its source timer took -/
  tickAt : Option Nat
  deriving DecidableEq, Repr

/-- Faults and their handling (R417 to R429). -/
structure FaultState where
  /-- FAULT_N is asserted (R428) -/
  faultN : Bool
  /-- cause of the fatal error being handled, and the dump header taken at its detection -/
  fatal : Option Nat
  detect : List Byte
  /-- local counts of the warm restart that runs and of the last trigger, and the command state it interrupted -/
  restartAt : Option Nat
  lastRestart : Option Nat
  restartFrom : CmdState
  /-- region that failed, local count of its failure, and whether it may be retested automatically (R420) -/
  failed : Option (Nat × Nat × Bool)
  /-- region under retest -/
  retest : Option Nat
  /-- the compute die is held in reset after a THERMAL fatal error -/
  thermalHold : Bool
  /-- clock domains that have lost lock -/
  clocksLost : List Nat
  /-- parameter words in error, which nothing uses until they are written (R24) -/
  badIds : List Nat
  /-- next word of each SRAM bank that its scrubber reads (R423) -/
  scrub : Sparse Nat
  deriving DecidableEq, Repr

/-! ### Life cycle and self-test -/

/-- A firmware copy in flash: digest of its M, key slot, security version and REVOKE (R443, R445). -/
structure FwCopy where
  digest : Nat
  keySet : Nat
  svn : Nat
  revoke : Nat
  deriving DecidableEq, Repr

/-- Fuses, keys and firmware (R438 to R448). -/
structure SecState where
  /-- life-cycle state, and returns to BLANK still allowed -/
  lc : Nat
  recycles : Nat
  fuseSvn : Nat
  revoked : Nat
  /-- digest of the owner keys in fuses, and the keys in flash -/
  ownerDigest : Nat
  ownerKeys : List Byte
  erasePending : Bool
  /-- nonces drawn, identity keys generated, power-ups -/
  nonces : Nat
  keys : Nat
  powerUps : Nat
  /-- the certificate for the identity key is in flash (R447) -/
  cert : Bool
  copyA : Option FwCopy
  copyB : Option FwCopy
  /-- writes of the firmware areas A and B so far (R478) -/
  writesA : Nat
  writesB : Nat
  /-- preferred copy and running copy: 0 A, 1 B -/
  preferred : Nat
  running : Nat
  deriving DecidableEq, Repr

/-- Self-test: results of the latest run, FW_RESULT, and what the boot set of this start-up gave (R451 to R453). -/
structure TestState where
  results : List SliceResult
  fwResult : Nat
  bootRun : Bool
  bootDone : Bool
  deriving DecidableEq, Repr

/-! ### Input power and flash -/

/-- States of the hot-swap controller (R460 to R463). -/
inductive Supply where
  | absent | qualifying | charging | on | tripped | lockedOut
  deriving DecidableEq, Repr

/-- The commit of the stored image, which runs as a long command (R480): local count of its start, ns it lasts, status. -/
structure Reload where
  start : Nat
  lasts : Nat
  status : Nat
  deriving DecidableEq, Repr

/-- Input power, camera supplies in soft start, and the flash model store (R460 to R480). -/
structure BoardState where
  supply : Supply
  trips : Nat
  /-- ports turned on whose soft start has not ended -/
  softStart : Nat
  store : Option (List Byte)
  /-- image being copied into the store -/
  storing : Option (List Byte)
  /-- ports whose camera supply has tripped since it was turned on last (R472) -/
  tripped : Nat
  /-- the stored image has been committed in this start-up; a commit of it that runs -/
  reloaded : Bool
  reload : Option Reload
  deriving DecidableEq, Repr

/-- Everything the Miller and the supervisor keep. -/
structure MgmtState where
  model : ModelState
  power : PowerState
  logs : LogState
  mon : Sparse MonChan
  /-- local count of the last swap of the monitor buffers (R432) -/
  snapAt : Option Nat
  fault : FaultState
  sec : SecState
  test : TestState
  board : BoardState
  deriving DecidableEq, Repr

end Sys2Proof.Machine
end

