-- ==== Sys2Proof/Machine/State.lean ====
section
/-!
DEFINITION. The machine's state, its faults and refusals, and the state after reset.
-/

namespace Sys2Proof.Machine

/-- Reasons the model stops: there are none. Every command has a next state, and what the spec calls an error is an effect of
the command on the state. (log 3, DESIGN CHOICE) -/
inductive Fault where
  deriving DecidableEq, Repr

/-- Reasons the model has no answer. (log 3, DESIGN CHOICE) -/
inductive Refusal where
  /-- Raised by the dispatch for a command whose meaning is not written; safe. -/
  | notModelled (mnemonic : String)
  deriving DecidableEq, Repr

/-- The state of the module. -/
structure State where
  /-- commands that wait, first in, first out -/
  pending : List Instr
  /-- local counter of R64, ns -/
  loc : Nat
  /-- the model's own counter of free values taken -/
  free : Nat
  /-- stored parameter words by ID; an unlisted one reads as its reset value -/
  regs : Sparse Word
  /-- LPDDR5X bytes by address; an unlisted one reads 0 -/
  mem : Sparse Byte
  pos : PosState
  time : TimeState
  head : HeadState
  rtr : RouterState
  fab : FabState
  trk : TrkState
  obj : ObjState
  tail : TailState
  /-- auxiliary channels by number -/
  aux : Sparse AuxChan
  /-- local count from which the edges of MCLK0 and MCLK1 are counted (R278) -/
  mclk : Nat × Nat
  spoke : SpokeState
  host : HostState
  /-- planes of a split model that are arriving (R396) -/
  planes : List PartPlane
  que : QueState
  cv : Sparse CvContext
  cmd : CmdState
  /-- the pipeline is armed (R482) -/
  armed : Bool
  /-- error reports that wait for the end of a warm restart, with their levels (R425) -/
  reports : List (Nat × ErrorReport)
  /-- service state of each region (R32) -/
  regions : Sparse Nat
  /-- regions whose Hub has a failure to report to the Miller (R25) -/
  hubFails : List Nat
  mgmt : MgmtState
  /-- own chain address, none until one is held (R337) -/
  chain : Option Byte
  /-- word last read by a single-word read, and status of the last single-word access -/
  lastWord : Word
  lastStatus : Status
  deriving DecidableEq, Repr

/-- A peer link that has measured nothing: equal rates (R79). (log 5, DESIGN CHOICE) -/
def PeerLink.reset : PeerLink := { exchange := none, delay := none, num := 1, den := 1, last := none }

/-- A domain at reset (R71, R13). (log 5, DESIGN CHOICE) -/
def Domain.reset : Domain :=
  { base := 0, anchor := 0, rate := 0, state := .disabled, stepDone := false, freq := 0, slew := 0, offset := 0,
    sampleAt := none, inside := 0, outside := 0, samples := [], heard := [], master := none, sync := none,
    lastPair := none, delay := none, exchange := none, link0 := .reset, link1 := .reset, secHi := 0, lastSec := 0,
    utcOffset := 0, utcValid := false }

/-- The position unit at reset. (log 5, DESIGN CHOICE) -/
def PosState.reset : PosState :=
  { count := 0, src := .encoder, encA := false, encB := false, zAt := none, log := [], load := none, hw := 0, openK := 0,
    posMarks := [], ssnMarks := [], closed := [], owed := [], cur := none, stepAt := 0, stepped := false, sAll := 0, sNorm := 0, lastClose := 0, pulse := none,
    curve := ⟨0, 0, 0, 1⟩, hold := false, snapHi := 0, setLo := 0, decoded := none, armedAt := 0, armDev := 0 }

/-- The time unit at reset. (log 5, DESIGN CHOICE) -/
def TimeState.reset : TimeState :=
  { domA := .reset, domB := .reset, active := 0, switch := none, everLocked := false, snapNow := 0, snapLocal := 0,
    snapTcu := [], tcu := [], launch0 := [], launch1 := [], sent0 := none, sent1 := none, txEnd0 := 0, txEnd1 := 0,
    ptpSent := [], waiting := [], pps := false, ppsEnd := 0 }

/-- The Headrace at reset. (log 5, DESIGN CHOICE) -/
def HeadState.reset : HeadState :=
  { ports := [], engaged := false, level := 0, sub := [], recOff := 0, recLost := 0, recHw := none, recFull := false, admitted := 0,
    repOff := 0, repMark := 0, passed := [] }

/-- The router at reset: normal map, nothing held. -/
def RouterState.reset : RouterState :=
  { ring := [], grants := [], nodes := [], subs := [], trans := [], activeSet := 0, nextSet := 0 }

/-- Trackers and voters at reset: every slot FREE. -/
def TrkState.reset : TrkState :=
  { trackers := [], slots := [], mirror := [], mirrorWords := [], refine := [], alignLog := [], refineSec := none }

/-- The dense side at reset: no tile, no plan. -/
def ObjState.reset : ObjState :=
  { units := [], hist := [], plan := ⟨[], none, []⟩, oldPlan := ⟨[], none, []⟩, gen := 0, rotate := 0 }

/-- The Tailrace at reset. -/
def TailState.reset : TailState := { pend := [], recs := [], written := [], heldCopies := [] }

/-- The spoke side at reset: no address, no link, the ports in their order of R320. -/
def SpokeState.reset : SpokeState :=
  { ports := [], order := [0, 1, 2, 3], routes := [], tree := [], root := false, exploring := false, enumerating := false,
    todo := [], nodes := [], links := [], deferred := [], notices := [] }

/-- The host attachment at reset: no card selected, nothing waiting. -/
def HostState.reset : HostState :=
  { sdio := { rca := 0, selected := false, switched := false, tuned := false, illegal := none, f0 := [], inbox := [],
              busy := false, doorbell := 0, bellLo := 0, errors := 0, intEn := 0, readData := [], readError := false },
    accepted := [], running := [], replies := [], stalled := [], forwarded := [], bulkIn := none, bulkOut := none,
    remoteIn := none, remoteOut := none, resetReply := none, resetAt := 0 }

/-- The queue engine at reset. -/
def QueState.reset : QueState := { queues := [], claims := [], soOld := 0, soStatus := .ok }

/-- Images at reset: none active, none staged (R13). (log 30, DESIGN CHOICE) -/
def ModelState.reset : ModelState := { active := none, staged := none, swap := none, swapResult := 0 }

/-- Power domains at reset: every one ON (an unlisted domain reads as this). -/
def PowerDom.reset : PowerDom :=
  { st := .on, move := none, target := .on, pend := none, result := 0, refCode := 0, refInst := 0, retry := none }

/-- The placement at reset: nothing parked, no switch waiting. -/
def PowerState.reset : PowerState := { doms := [], park := none, resume := none, switches := [], failing := [] }

/-- Logs at reset: empty. -/
def LogState.reset : LogState := { errors := [], errBase := 0, alignBase := 0, history := [], histBase := 0 }

/-- Faults at reset: FAULT_N released since the boot slice set passed (R428). (log 30, DESIGN CHOICE) -/
def FaultState.reset : FaultState :=
  { faultN := false, fatal := none, detect := [], restartAt := none, lastRestart := none, restartFrom := .ready,
    failed := none, retest := none, thermalHold := false, clocksLost := [], badIds := [], scrub := [] }

/-- Life cycle at reset: PROVISIONED, the state as shipped, three recycles left, fuse SVN 0, firmware copy A running
(assumption 30). (log 30, DESIGN CHOICE) -/
def SecState.reset : SecState :=
  { lc := 1, recycles := 3, fuseSvn := 0, revoked := 0, ownerDigest := 0, ownerKeys := [], erasePending := false,
    nonces := 1, keys := 1, powerUps := 1, cert := true, copyA := some ⟨0, 0, 0, 0⟩, copyB := none, writesA := 1, writesB := 0, preferred := 0,
    running := 0 }

/-- Self-test at reset: the boot set passed and left no record (assumption 30). (log 30, DESIGN CHOICE) -/
def TestState.reset : TestState := { results := [], fwResult := 0, bootRun := true, bootDone := true }

/-- The board at reset: input power good, the model store empty (assumption 30). (log 30, DESIGN CHOICE) -/
def BoardState.reset : BoardState :=
  { supply := .on, trips := 0, softStart := 0, store := none, storing := none, tripped := 0, reloaded := false, reload := none }

/-- The module's management at reset. -/
def MgmtState.reset : MgmtState :=
  { model := .reset, power := .reset, logs := .reset, mon := [], snapAt := none, fault := .reset, sec := .reset, test := .reset,
    board := .reset }

/-- The machine right after reset: it first answers commands with OK (R13). (log 5, DESIGN CHOICE; 30, DESIGN CHOICE) -/
def State.reset : State :=
  { pending := [], loc := 0, free := 0, regs := [], mem := [], pos := .reset, time := .reset, head := .reset,
    rtr := .reset, fab := { blocks := [], convs := [] }, trk := .reset, obj := .reset, tail := .reset, aux := [], mclk := (0, 0),
    spoke := .reset, host := .reset, planes := [], que := .reset, cv := [], cmd := .ready, armed := false, reports := [],
    regions := [], hubFails := [], mgmt := .reset, chain := none, lastWord := 0, lastStatus := .ok }

end Sys2Proof.Machine
end

