-- ==== Sys2Proof/Machine/Flags.lean ====
section
/-!
DEFINITION. Parameter words as state: reading and writing stored words and their fields, status bits (W1C, R11) and the
saturating counters every chapter has (R63, R89, R123, R156, R179 and their like).
-/

namespace Sys2Proof.Machine

/-- The stored word of a parameter. -/
def State.word (s : State) (id : Nat) : Word := Sparse.get resetWord s.regs id

/-- The state with a parameter word at `w`. -/
def State.setWord (s : State) (id : Nat) (w : Word) : State := { s with regs := Sparse.set resetWord s.regs id w }

/-- A field of a stored word (R1). -/
def State.fld (s : State) (id lsb width : Nat) : Nat := bitsOf (s.word id).toNat lsb width

/-- A bit of a stored word. -/
def State.bitAt (s : State) (id n : Nat) : Bool := bitOf (s.word id).toNat n

/-- A field of a stored word read as two's complement. -/
def State.sfld (s : State) (id lsb width : Nat) : Int := signedOf width (s.fld id lsb width)

/-- The state with a field of a stored word at `v`. -/
def State.setFld (s : State) (id lsb width v : Nat) : State :=
  s.setWord id (BitVec.ofNat 32 (withBits (s.word id).toNat lsb width v))

/-- A status bit set by the module. -/
def State.flag (s : State) (id n : Nat) : State := s.setFld id n 1 1

/-- A status bit set when a condition holds. -/
def State.flagIf (s : State) (c : Bool) (id n : Nat) : State := if c then s.flag id n else s

/-- A 32-bit counter increased by `n`, saturating at 0xFFFF_FFFF. -/
def State.bump (s : State) (id : Nat) (n : Nat := 1) : State :=
  if n = 0 then s else s.setWord id (BitVec.ofNat 32 (satAdd32 (s.word id).toNat n))

/-- A counter increased when a condition holds. -/
def State.bumpIf (s : State) (c : Bool) (id : Nat) : State := if c then s.bump id else s

/-- A wide parameter of two words, least significant word first (R7). -/
def State.wide (s : State) (id : Nat) : Nat := (s.word id).toNat + (s.word (id + 1)).toNat * 2 ^ 32

end Sys2Proof.Machine
end

