-- ==== Sys2Proof/Machine/Ops.lean ====
section
/-!
DEFINITION. The named operations over state that several families share: outcomes of a command that names a unit,
LPDDR5X bytes, domain and device time (R65, R67, R75), the position of a device time (R42, R45), the per-unit records,
error reports (R24) and SHED marks (R116).
-/

namespace Sys2Proof.Machine

/-! ### Outcomes -/

/-- The outcome of an event at a unit of the module; a unit that the module does not have has no events, so nothing changes.
(log 3, DESIGN CHOICE) -/
def onUnit (ok : Bool) (s s' : State) : Host.Outcome State Fault Refusal := .next (if ok then s' else s)

/-- `f` when the event is due, nothing otherwise (assumption 3: an event whose condition does not hold changes nothing).
(log 3, DESIGN CHOICE; 67, DEDUCED) -/
def whenDue (due : Bool) (f : State → State) (s : State) : State := if due then f s else s

/-- Left fold of a state over a list. -/
def forEach {α : Type} (xs : List α) (f : State → α → State) (s : State) : State := xs.foldl f s

/-- The next free-value index and the state that has taken it. (log 7, DESIGN CHOICE) -/
def State.takeFree (s : State) : Nat × State := (s.free, { s with free := s.free + 1 })

/-! ### LPDDR5X bytes -/

/-- What a byte of LPDDR5X reads as before anything has written it (assumption 2). (log 2, DESIGN CHOICE) -/
def memDefault (_ : Nat) : Byte := 0

/-- One byte of LPDDR5X. (log 2, DESIGN CHOICE) -/
def State.readByte (s : State) (a : Nat) : Byte := Sparse.get memDefault s.mem a

/-- One byte written. -/
def State.writeByte (s : State) (a : Nat) (b : Byte) : State := { s with mem := Sparse.set memDefault s.mem a b }

/-- `n` bytes from `a` on. -/
def State.readBytes (s : State) (a n : Nat) : List Byte := (upTo n).map fun i => s.readByte (a + i)

/-- Bytes written from `a` on, in ascending order. -/
def State.writeBytes (s : State) (a : Nat) (bs : List Byte) : State :=
  (bs.foldl (fun (p : State × Nat) b => (p.1.writeByte p.2 b, p.2 + 1)) (s, a)).1

/-! ### Time -/

/-- Difference of two 64-bit local counts (R64). -/
def locDiff (l a : Nat) : Nat := (l + 2 ^ 64 - a) % 2 ^ 64

/-- T_d of R65 at local count `l`. -/
def Domain.timeAt (d : Domain) (l : Nat) : Int :=
  let n : Int := locDiff l d.anchor
  d.base + n + (n * d.rate).fdiv (2 ^ 40)

/-- A change of rate under R66. -/
def Domain.setRate (d : Domain) (l : Nat) (r : Int) : Domain := { d with base := d.timeAt l, anchor := l, rate := r }

/-- Domain 0 is A, 1 is B. -/
def State.domain (s : State) (d : Nat) : Domain := if d = 0 then s.time.domA else s.time.domB

/-- The state with a domain replaced. -/
def State.setDomain (s : State) (d : Nat) (x : Domain) : State :=
  if d = 0 then { s with time := { s.time with domA := x } } else { s with time := { s.time with domB := x } }

/-- TIME.CTRL.LOCAL_ONLY. -/
def State.localOnly (s : State) : Bool := s.bitAt (pid 0x0D 0 0) 1

/-- SWITCH_SLEW in ppm. -/
def State.slewPpm (s : State) : Nat := s.fld (pid 0x0D 0 0) 3 7

/-- How much of Δ a switch has removed after `n` ns (R75). -/
def Switch.removed (w : Switch) (ppm n : Nat) : Nat := min w.delta.natAbs (n * ppm / 1000000)

/-- The timescale of the active domain at local count `l`, through a switch in progress (R67, R75). -/
def State.domainTimeAt (s : State) (l : Nat) : Int :=
  match s.time.switch with
  | some w => w.dev1 + ((s.domain w.target).timeAt l - w.ty1) +
      signInt w.delta * (w.removed s.slewPpm (locDiff l w.start) : Nat)
  | none => (s.domain s.time.active).timeAt l

/-- Device time in ns from the PTP epoch at local count `l` (R67). -/
def State.devAt (s : State) (l : Nat) : Int := if s.localOnly then l else s.domainTimeAt l

/-- Device time now. -/
def State.dev (s : State) : Int := s.devAt s.loc

/-- Seconds field of a device time, 64 bits (R67). -/
def secOf (t : Int) : Nat := codeOf 64 (t.fdiv 1000000000)

/-- ns field of a device time. -/
def nsOf (t : Int) : Nat := (t.fmod 1000000000).toNat

/-! ### Positions -/

/-- POSITION words by index. -/
abbrev posId (i : Nat) : Nat := pid 0x0E 0 i

/-- `a - b` as a signed 48-bit difference; positive when `a` lies beyond `b` (R42). -/
def posDiff (a b : Nat) : Int := signedOf 48 ((a + 2 ^ 48 - b % 2 ^ 48) % 2 ^ 48)

/-- `a - b` of two 64-bit positions with fractions, signed. -/
def pos64Diff (a b : Nat) : Int := signedOf 64 ((a + 2 ^ 64 - b % 2 ^ 64) % 2 ^ 64)

/-- An integer position in 1/65,536 count as 64 bits (R42: the count wraps). -/
def wrapPos (x : Int) : Nat := codeOf 64 x

/-- Linear fraction between two log entries, cut to 0xFFFF (R45). (log 16, DEDUCED) -/
def logFraction (dt d : Int) : Nat :=
  if d = 0 then Config.zeroFraction dt % 65536 else min (dt * 65536 / d).toNat 0xFFFF

/-- Conversion of a device time by log entries, newest first; the last one is the oldest (R45). -/
def convertLog (t : Int) : List LogEntry → Option Nat
  | [] => none
  | [e] => if e.t ≤ t then some (e.c * 65536) else none
  | e1 :: e0 :: rest =>
    if e1.t ≤ t then none
    else if e0.t ≤ t then some (wrapPos (e0.c * 65536 + e1.dir * logFraction (t - e0.t) (e1.t - e0.t)))
    else convertLog t (e0 :: rest)

/-- Position of device time `t` in 1/65,536 count, and whether `t` is older than the log (R43, R45). -/
def State.convert (s : State) (t : Int) : Nat × Bool :=
  let afterLoad := match s.pos.load with | some tl => decide (tl ≤ t) | none => false
  match s.pos.log with
  | [] => (s.pos.count * 65536, false)
  | e :: rest =>
    if afterLoad then (s.pos.count * 65536, false)
    else match rest with
      | [] => (e.c * 65536, decide (t < e.t))
      | e0 :: _ =>
        if e.t ≤ t then (wrapPos (e.c * 65536 + e.dir * logFraction (t - e.t) (e.t - e0.t)), false)
        else match convertLog t (e :: rest) with
          | some p => (p, false)
          | none => (((e :: rest).getLast?.map (·.c)).getD 0 * 65536, true)

/-- A conversion that counts itself when it is stale (R45, R63). -/
def State.stampOf (s : State) (t : Int) : Nat × State :=
  let (p, stale) := s.convert t
  (p, if stale then (s.bump (posId 0x11)).flag (posId 0x0F) 14 else s)

/-- The counter's position now with the fraction of R62. -/
def State.posNow (s : State) : Nat × State :=
  let (p, s) := s.stampOf s.dev
  (s.pos.count * 65536 + (if p / 65536 = s.pos.count then p % 65536 else 0), s)

/-- A level of A, B or Z is accepted after CTRL.FILTER * 10 ns (R37). -/
def State.filtered (s : State) (stable : Nat) : Bool := decide (s.fld (posId 0) 8 8 * 10 ≤ stable)

/-- STEP.LENGTH, STEP.GUARD, STEP.LAG_LIMIT and ORIGIN. -/
def State.stepLen (s : State) : Nat := s.fld (posId 1) 0 12
def State.guard (s : State) : Nat := s.fld (posId 1) 12 12
def State.lagLimit (s : State) : Nat := s.fld (posId 1) 24 7
def State.origin (s : State) : Nat := s.wide (posId 2)

/-- Closure position of step `k` (R47). -/
def State.closePosOf (s : State) (k : Int) : Nat :=
  codeOf 48 (s.origin + (k + 1) * s.stepLen + s.guard)

/-- Position step that holds a count. The count is placed by its wrapped distance from the closure position of the first open
step (R42, R47). -/
def State.stepOfCount (s : State) (c : Nat) : Int :=
  ((s.pos.openK + 1) * s.stepLen + s.guard + posDiff c (s.closePosOf s.pos.openK)).fdiv (s.stepLen : Int)

/-- SSN_CLOSED and SSN_DONE (R49). -/
def State.ssnClosed (s : State) : Nat := (s.word (posId 0x0D)).toNat
def State.ssnDone (s : State) : Nat := (s.word (posId 0x0E)).toNat

/-- Lag (R55). -/
def State.lag (s : State) : Nat := (s.ssnClosed + 2 ^ 32 - s.ssnDone) % 2 ^ 32

/-- POSITION.CTRL.MODE = ASYNC. -/
def State.asyncMode (s : State) : Bool := s.bitAt (posId 0) 2

/-- The pipeline is armed in step mode. -/
def State.stepMode (s : State) : Bool := s.armed && !s.asyncMode

/-! ### Units -/

/-- Service state of region `r` (R32). -/
def State.region (s : State) (r : Nat) : Nat := Sparse.get (fun _ => 0) s.regions r

/-- The state with region `r` in service state `v`. -/
def State.setRegion (s : State) (r v : Nat) : State := { s with regions := Sparse.set (fun _ => 0) s.regions r v }

/-- A camera port unit at reset. -/
def HeadPort.reset : HeadPort :=
  { vcs := [], t0 := none, synced := false, sync := false, edge := 0, syncEnd := 0, refract := [], lastRx := none,
    oldRefs := [] }

/-- Record of camera port `p`. -/
def State.port (s : State) (p : Nat) : HeadPort := Sparse.get (fun _ => HeadPort.reset) s.head.ports p

/-- The state with the record of camera port `p` changed. -/
def State.onPort (s : State) (p : Nat) (f : HeadPort → HeadPort) : State :=
  { s with head := { s.head with ports := Sparse.modify (fun _ => HeadPort.reset) s.head.ports p f } }

/-- An empty region node. -/
def Node.empty : Node := { sram := [], spill := [], closeSeen := 0, stepEnds := [], released := false }

/-- Delay queue of region `r`'s node. -/
def State.node (s : State) (r : Nat) : Node := Sparse.get (fun _ => Node.empty) s.rtr.nodes r

/-- The state with region `r`'s node changed. -/
def State.onNode (s : State) (r : Nat) (f : Node → Node) : State :=
  { s with rtr := { s.rtr with nodes := Sparse.modify (fun _ => Node.empty) s.rtr.nodes r f } }

/-- An unloaded neuron block. (log 5, DESIGN CHOICE) -/
def Block.empty : Block :=
  { classes := [], fill := [], states := [], syn := [], input := [], recheck := [], lfsr := 0, evaluated := false,
    finished := false, out := [], badState := [], badSyn := [], badAcc := [], updates := [] }

/-- Neuron block `b` = region * 16 + block. -/
def State.block (s : State) (b : Nat) : Block := Sparse.get (fun _ => Block.empty) s.fab.blocks b

/-- The state with neuron block `b` changed. -/
def State.onBlock (s : State) (b : Nat) (f : Block → Block) : State :=
  { s with fab := { s.fab with blocks := Sparse.modify (fun _ => Block.empty) s.fab.blocks b f } }

/-- A converter unit at rest. (log 5, DESIGN CHOICE) -/
def Conv.empty : Conv := { encs := [], decs := [], lfsr := 0, held := [] }

/-- Converter unit of region `r`. (log 17, DEDUCED) -/
def State.conv (s : State) (r : Nat) : Conv := Sparse.get (fun _ => Conv.empty) s.fab.convs r

/-- The state with region `r`'s converter unit changed. -/
def State.onConv (s : State) (r : Nat) (f : Conv → Conv) : State :=
  { s with fab := { s.fab with convs := Sparse.modify (fun _ => Conv.empty) s.fab.convs r f } }

/-! ### Event history -/

/-- An empty history. -/
def HistState.empty : HistState := { steps := [], lost := none, pend := [], sideDec := [] }

/-- History of logical region `lr`. -/
def State.hist (s : State) (lr : Nat) : HistState := Sparse.get (fun _ => HistState.empty) s.obj.hist lr

/-- The state with a history changed. -/
def State.onHist (s : State) (lr : Nat) (f : HistState → HistState) : State :=
  { s with obj := { s.obj with hist := Sparse.modify (fun _ => HistState.empty) s.obj.hist lr f } }

/-! ### Management state -/

/-- The state with its model images changed. -/
def State.onModel (s : State) (f : ModelState → ModelState) : State := { s with mgmt := { s.mgmt with model := f s.mgmt.model } }
/-- The state with its power domains changed. -/
def State.onPower (s : State) (f : PowerState → PowerState) : State := { s with mgmt := { s.mgmt with power := f s.mgmt.power } }
/-- The state with its logs changed. -/
def State.onLogs (s : State) (f : LogState → LogState) : State := { s with mgmt := { s.mgmt with logs := f s.mgmt.logs } }
/-- The state with its fault handling changed. -/
def State.onFault (s : State) (f : FaultState → FaultState) : State := { s with mgmt := { s.mgmt with fault := f s.mgmt.fault } }
/-- Clock domains whose source is locked again (R34). (log 40, DEDUCED) -/
def State.relocked (s : State) (ds : List Nat) : State :=
  s.onFault fun f => { f with clocksLost := f.clocksLost.filter fun d => !ds.contains d }
/-- The state with its life cycle changed. -/
def State.onSec (s : State) (f : SecState → SecState) : State := { s with mgmt := { s.mgmt with sec := f s.mgmt.sec } }
/-- The state with its self-test changed. -/
def State.onTest (s : State) (f : TestState → TestState) : State := { s with mgmt := { s.mgmt with test := f s.mgmt.test } }
/-- The state with its input power and flash changed. -/
def State.onBoard (s : State) (f : BoardState → BoardState) : State := { s with mgmt := { s.mgmt with board := f s.mgmt.board } }

/-- Power domain `d`. -/
def State.pdom (s : State) (d : Nat) : PowerDom := Sparse.get (fun _ => PowerDom.reset) s.mgmt.power.doms d

/-- The state with power domain `d` changed. -/
def State.onPdom (s : State) (d : Nat) (f : PowerDom → PowerDom) : State :=
  s.onPower fun p => { p with doms := Sparse.modify (fun _ => PowerDom.reset) p.doms d f }

/-- The domain is ON and not in a committed entry. -/
def State.domOn (s : State) (d : Nat) : Bool :=
  let x := s.pdom d
  x.st == .on && !(x.move.any fun m => m.committed)

/-- The domain has lost its supply (R403). -/
def State.domOff (s : State) (d : Nat) : Bool := (s.pdom d).st == .off

/-- HW_CONFIG.COMPAT (R276, R466). -/
def State.compat (s : State) : Bool := s.bitAt (pid 1 0 0x100) 25

/-- Input power-good holds (R460). -/
def State.powered (s : State) : Bool := s.mgmt.board.supply == .on

/-- The Miller firmware runs: EARLY, READY or ARMED (R372). -/
def State.awake (s : State) : Bool := s.powered && (s.cmd == .early || s.cmd == .ready || s.cmd == .armed)

/-- The compute die's logic runs: firmware verified, or a warm restart under way (R373, R425). -/
def State.running (s : State) : Bool := s.awake || (s.powered && s.cmd == .restart)

/-- The Miller waits for a warm restart to end (R425). -/
def State.restarting (s : State) : Bool := s.cmd == .restart

/-! ### Error log and reports (R17, R24, R434) -/

/-- Entry of the error log; a repeat within 1 ms makes none and is counted (R434). -/
def State.logEntry (s : State) (level action : Nat) (r : ErrorReport) : State :=
  let l := s.mgmt.logs
  if l.errors.any fun e => e.report.block == r.block && e.report.inst == r.inst && e.report.code == r.code &&
      decide (locDiff s.loc e.madeAt < 1000000) then s.bump (pid 1 0 0x148)
  else
    let e : ErrEntry := ⟨s.dev, s.loc, s.pos.count, level, action, r⟩
    let full := decide (1048576 ≤ l.errors.length)
    s.onLogs fun l => { l with
      errors := (if full then l.errors.drop 1 else l.errors) ++ [e], errBase := if full then l.errBase + 1 else l.errBase }

/-- A report that waits in the queue of 1,024 for the end of a warm restart (R425). -/
def State.queueReport (s : State) (level : Nat) (r : ErrorReport) : State :=
  if s.reports.length < 1024 then { s with reports := s.reports ++ [(level, r)] } else s.bump (pid 1 0 0x147)

/-- The entry of a report at a level: a state or synapse word is repaired by the Hub, a region is derailed (R151, R434). -/
def State.takeReport (s : State) (level : Nat) (r : ErrorReport) : State :=
  s.logEntry level (if level = 2 then 2 else bit (r.block == 5 && r.code == 1)) r

/-- A parameter word is in error, and nothing uses it (R24). (log 63, DEDUCED) -/
def State.badId (s : State) (id : Nat) : Bool := s.mgmt.fault.badIds.contains id

/-- An uncorrectable SRAM word or LPDDR5X read found, by its error code (R435, R437). (log 63, DEDUCED) -/
def State.countUe (s : State) (code : Nat) : State :=
  (s.bumpIf (code == 1) (pid 1 0 0x143)).bumpIf (code == 0x0A) (pid 1 0 0x146)

/-- A report handed to its manager: an entry at once, or during a warm restart a place in the queue (R17, R24, R425). -/
def State.reportAt (s : State) (level : Nat) (r : ErrorReport) : State :=
  if s.restarting then s.queueReport level r else s.takeReport level r

/-- An error report of level block (R24, R434). -/
def State.report (s : State) (block inst code detail : Nat) : State :=
  s.reportAt 1 ⟨block, inst, code, BitVec.ofNat 64 detail⟩

/-! ### Monitor channels (R432, R433) -/

/-- A monitor buffer with no sample. -/
def MonBuf.empty : MonBuf := { samples := 0, lo := 0, hi := 0, bins := [] }

/-- A monitor channel at reset. -/
def MonChan.reset : MonChan :=
  { live := .empty, snap := .empty, changed := false, quantity := 0, inst := 0, time := 0, snapChanged := false,
    tickAt := none }

/-- Monitor channel `n`. -/
def State.mon (s : State) (n : Nat) : MonChan := Sparse.get (fun _ => MonChan.reset) s.mgmt.mon n

/-- The state with monitor channel `n` changed. -/
def State.onMon (s : State) (n : Nat) (f : MonChan → MonChan) : State :=
  { s with mgmt := { s.mgmt with mon := Sparse.modify (fun _ => MonChan.reset) s.mgmt.mon n f } }

/-- A sample `v` taken into a buffer with lower edge `lo` and bins of 2^`w` (R433). -/
def MonBuf.take (b : MonBuf) (lo : Int) (w : Nat) (v : Int) : MonBuf :=
  let i := (clampInt 0 31 ((v - lo).fdiv (2 ^ w : Nat))).toNat
  let bins := if b.bins.isEmpty then List.replicate 32 0 else b.bins
  { samples := satAdd32 b.samples 1, lo := if b.samples = 0 then v else min b.lo v,
    hi := if b.samples = 0 then v else max b.hi v, bins := updateAt bins i fun n => satAdd32 n 1 }

/-- Channels whose CFG names a quantity of an instance. -/
def State.watching (s : State) (quantity inst : Nat) : List Nat :=
  s.regs.filterMap fun e =>
    let n := e.1 / 0x10000 % 256
    if e.1 / 0x1000000 == 0x15 && e.1 % 0x10000 == 0 && decide (n < 64) && bitsOf e.2.toNat 0 8 == quantity &&
      bitsOf e.2.toNat 8 16 == inst then some n else none

/-- A sample of channel `n`. -/
def State.sampleOn (s : State) (n : Nat) (v : Int) : State :=
  s.onMon n fun c => { c with live := c.live.take (s.sfld (pid 0x15 n 1) 0 32) (s.fld (pid 0x15 n 0) 24 5) v }

/-- A sample of a quantity, into every channel that watches it (R433). -/
def State.sample (s : State) (quantity inst : Nat) (v : Int) : State :=
  forEach (s.watching quantity inst) (fun s n => s.sampleOn n v) s

/-! ### SHED marks -/

/-- Region `r`'s Hub reports it failed (R25). -/
def State.hubFail (s : State) (r : Nat) : State :=
  if s.hubFails.contains r then s else { s with hubFails := s.hubFails ++ [r] }

/-- Band mask of an across interval: bit a >> 11 for each a in it (R116). -/
def bandMask (lo hi : Int) : Nat :=
  (upTo 32).foldl (fun (m i : Nat) => if lo ≤ (i : Int) * 2048 + 2047 ∧ (i : Int) * 2048 ≤ hi then m ||| 2 ^ i else m) 0

/-- A mask added under a key of an association list. -/
def addMark {κ : Type} [DecidableEq κ] (k : κ) (mask : Nat) : List (κ × Nat) → List (κ × Nat)
  | [] => [(k, mask)]
  | (j, m) :: rest => if j = k then (j, m ||| mask) :: rest else (j, m) :: addMark k mask rest

/-- A SHED mark on an open position step (R116). (log 10, DEDUCED) -/
def State.markPos (s : State) (k : Int) (mask : Nat) : State :=
  { s with pos := { s.pos with posMarks := addMark k mask s.pos.posMarks } }

/-- A SHED mark on a fabric step: the closed or running one with that SSN, or one still to close (R160, R176). -/
def State.markSsn (s : State) (ssn mask : Nat) : State :=
  { s with pos := { s.pos with ssnMarks := addMark ssn mask s.pos.ssnMarks } }

/-- Extended band of logical region `g`, none when the band is empty (R165, R168). -/
def State.extBand (s : State) (g : Nat) : Option (Int × Int) :=
  let b := pid 4 0x10 (0x10 + g)
  let h := pid 4 0x10 (0x18 + g)
  let lo := s.fld b 0 16
  let hi := s.fld b 16 16
  if hi < lo then none else some ((lo : Int) - s.fld h 0 12, (hi : Int) + s.fld h 12 12)

/-- A BIST_RUN that has not ended names a slice of region `r` (R451). -/
def State.selfTesting (s : State) (r : Nat) : Bool :=
  s.host.running.any fun x => x.opcode == 0x0A02 && (x.req.payload.drop 4).any fun c => inRange (0x40 + 16 * r) 10 c.toNat

end Sys2Proof.Machine
end

