-- ==== Sys2Proof/Machine/Queues.lean ====
section
/-!
DEFINITION. Hardware queues, counters and flags, and the claims table (12_queues_checkvalues.md R295 to R311, R486).
-/

namespace Sys2Proof.Machine

/-! ### Claims (R308 to R311) -/

/-- Claims-table entry `e`. -/
def State.claim (s : State) (e : Nat) : Option Claim := Sparse.get (fun _ => none) s.que.claims e

/-- Every valid claim. -/
def State.claims (s : State) : List Claim := s.que.claims.filterMap (·.2)

/-- The claims-table with entry `e` at `c`. -/
def State.setClaim (s : State) (e : Nat) (c : Option Claim) : State :=
  { s with que := { s.que with claims := Sparse.set (fun _ => none) s.que.claims e c } }

/-- Lowest claims-table entry that holds no claim. (log 74, DESIGN CHOICE) -/
def State.freeEntry (s : State) : Option Nat := (upTo 1024).find? fun e => (s.claim e).isNone

/-- First byte and size of the general LPDDR5X area: it follows the six other areas of R28. (log 2, DESIGN CHOICE) -/
def genBase : Nat := 18432 * 1048576
def genSize : Nat := 47104 * 1048576

/-- Some claim of a run kind covers object `i`. -/
def State.claimed (s : State) (kind i : Nat) : Bool :=
  s.claims.any fun c => c.kind == kind && inRange c.unit c.amount i

/-- A claim of one unit (AUX_IO, TCU, pages, reservation, credit). -/
def State.claimOn (s : State) (kind unit : Nat) : Option Claim :=
  s.claims.find? fun c => c.kind == kind && c.unit == unit

/-- Bytes [a, a + n) lie inside one LPDDR_RANGE claim the host holds (R119, R314). -/
def State.hostRange (s : State) (a n : Nat) : Bool :=
  s.claims.any fun c => c.kind == 0x0A && !c.image && decide (c.base ≤ a) && decide (a + n ≤ c.base + c.amount * 4096)

/-! ### Queues -/

/-- Parameter word k of queue `q`. -/
def queId (q k : Nat) : Nat := pid 0x10 (q / 64) (16 * (q % 64) + k)

/-- An empty queue. -/
def Queue.empty : Queue := { words := [], last := none, mid := false, discarding := false, bad := [] }

/-- Contents of queue `q`. -/
def State.queue (s : State) (q : Nat) : Queue := Sparse.get (fun _ => Queue.empty) s.que.queues q

/-- The state with queue `q` changed. -/
def State.onQueue (s : State) (q : Nat) (f : Queue → Queue) : State :=
  { s with que := { s.que with queues := Sparse.modify (fun _ => Queue.empty) s.que.queues q f } }

/-- QCFG fields. -/
def State.qEnabled (s : State) (q : Nat) : Bool := s.bitAt (queId q 0) 0
def State.qRegion (s : State) (q : Nat) : Nat := s.fld (queId q 0) 2 3
def State.qPages (s : State) (q : Nat) : Nat := s.fld (queId q 0) 5 6 + 1
def State.qProducer (s : State) (q : Nat) : Nat := s.fld (queId q 0) 11 3
def State.qConsumer (s : State) (q : Nat) : Nat := s.fld (queId q 0) 14 3

/-- Capacity of a queue in words (R296). -/
def State.qCapacity (s : State) (q : Nat) : Nat := 504 * s.qPages q

/-- Free words of a queue. -/
def State.qRoom (s : State) (q : Nat) : Nat := s.qCapacity q - (s.queue q).words.length

/-- Queues with a stored configuration word. -/
def State.configured (s : State) : List Nat :=
  s.regs.filterMap fun e =>
    let u := e.1 / 0x10000 % 256
    let i := e.1 % 0x10000
    if e.1 / 0x1000000 == 0x10 && u < 0x40 && i < 1024 && i % 16 == 0 then some (u * 64 + i / 16) else none

/-- Pages of region `r` that enabled queues other than `q` hold. -/
def State.pagesUsed (s : State) (r q : Nat) : Nat :=
  ((s.configured.filter fun p => p != q && s.qEnabled p && s.qRegion p == r).map s.qPages).sum

/-- A reset of the queue or a flush: every word is discarded, and the rest of a packet being written with it (R305). -/
def Queue.flush (x : Queue) : Queue := { x with words := [], bad := [], discarding := x.mid || x.discarding }

/-- A pointer mismatch or an uncorrectable pointer error resets the queue (R304). (log 50, DEDUCED) -/
def State.queueReset (s : State) (q : Nat) : State :=
  (((s.onQueue q Queue.flush).flag (queId q 1) 3).bump (queId q 5)).report 0x10 (q / 64) 3 q

/-- Pointer protection at an access: a correction counts in ECC only, a mismatch resets the queue (R304).
(log 50, DEDUCED; 68, DEDUCED) -/
def State.pointerCheck (s : State) (q : Nat) (c : PtrCheck) : State :=
  match c with
  | .good => s
  | .corrected => s.bumpIf (!s.bitAt (queId q 0) 1) (queId q 4)
  | .mismatch => s.queueReset q

/-- Words appended by the producer, the last with its end mark when `eop`; words of a discarded packet are dropped up to its
end (R299, R305). -/
def State.pushWords (s : State) (q : Nat) (ws : List (BitVec 64)) (eop : Bool) : State :=
  s.onQueue q fun x =>
    if ws.isEmpty then x
    else if x.discarding then { x with discarding := !eop, mid := !eop }
    else
      let n := ws.length
      { x with words := x.words ++ (ws.zipIdx.map fun w => ⟨w.1, eop && w.2 + 1 == n⟩), mid := !eop }

/-- A whole packet fits (R302). -/
def State.packetFits (s : State) (q n : Nat) : Bool := s.qEnabled q && ((s.queue q).discarding || decide (n ≤ s.qRoom q))

/-- Bytes as 64-bit words, lowest byte first, the last one zero-padded. (log 75, DEDUCED) -/
def packWords (bs : List Byte) : List (BitVec 64) := (chunksOf 8 bs).map fun c => BitVec.ofNat 64 (ofLe c)

/-- A data word that SECDED corrects is counted for all SRAM and in the engine's total, and by its queue in ECC only (R23, R304,
R437). -/
def State.dataCorrected (s : State) (q : Nat) : State :=
  ((s.bump (pid 1 0 0x142)).bump (pid 0x10 0x41 0x100)).bumpIf (!s.bitAt (queId q 0) 1) (queId q 4)

/-- One word read from a queue with its status byte; `ecc` is what SECDED finds in it (R300, R303, R304). -/
def State.popWord (s : State) (q : Nat) (ecc : EccCheck) : QWord × Nat × State :=
  let x := s.queue q
  match x.words with
  | [] =>
    let w := x.last.getD ⟨0, false⟩
    (w, bit w.eop + 2, (s.flag (queId q 1) 2).bump (queId q 6))
  | w :: rest =>
    let bad := x.bad.contains 0 || ecc == .uncorrectable
    let s := s.onQueue q fun x => { x with words := rest, last := some w, bad := (x.bad.filter (0 < ·)).map (· - 1) }
    let s := if ecc == .corrected then s.dataCorrected q else s.bumpIf (ecc == .uncorrectable) (pid 1 0 0x143)
    let s := if bad then ((s.flag (queId q 1) 4).bump (pid 0x10 0x41 0x101)).report 0x10 (q / 64) 1 q else s
    (w, bit w.eop + 4 * bit bad, s)

/-! ### Counters and flags (R306, R307) -/

/-- Configuration and value words of object `n`. -/
def soCfgId (n : Nat) : Nat := pid 0x10 0x40 (2 * n)
def soValId (n : Nat) : Nat := pid 0x10 0x40 (2 * n + 1)

/-- The value an operation leaves, none when the object's kind does not take it (R306). -/
def soApply (kind : Nat) (sat : Bool) (op old operand expected : Nat) : Option Nat :=
  match op, kind with
  | 0, 1 | 0, 2 => some old
  | 1, 1 => some operand
  | 1, 2 => if operand < 2 then some operand else none
  | 2, 1 =>
    if sat then some (clampInt 0 0xFFFFFFFF (old + signedOf 32 operand)).toNat else some ((old + operand) % 2 ^ 32)
  | 3, 1 => some (if old = expected then operand else old)
  | 4, 2 => some 1
  | 5, 2 => some 0
  | 6, 2 => some 1
  | _, _ => none

/-- One operation on a counter or flag: its status, the value held before, the state (R306). -/
def State.soOp (s : State) (n op operand expected : Nat) : Status × Word × State :=
  let old := s.word (soValId n)
  match soApply (s.fld (soCfgId n) 0 2) (s.bitAt (soCfgId n) 2) op old.toNat operand expected with
  | none => (.badParam, 0, s)
  | some v => (.ok, old, s.setWord (soValId n) (BitVec.ofNat 32 v))

/-- An operation row: it records the status and the value returned; an object that does not exist is refused with BAD_PARAM, as
one that is UNUSED is. (log 50, DEDUCED) -/
def soRow (object op operand expected : Nat) (s : State) : Host.Outcome State Fault Refusal :=
  .next (whenDue s.running (fun s =>
    if object < 12288 then
      let (st, old, s) := s.soOp object op operand expected
      { s with que := { s.que with soOld := old, soStatus := st } }
    else { s with que := { s.que with soStatus := .badParam } }) s)

/-- SYNCOBJ_READ (R306). -/
def execSyncobjRead (object : Nat) (s : State) : Host.Outcome State Fault Refusal := soRow object 0 0 0 s
/-- SYNCOBJ_WRITE (R306). -/
def execSyncobjWrite (object : Nat) (operand : Word) (s : State) : Host.Outcome State Fault Refusal :=
  soRow object 1 operand.toNat 0 s
/-- SYNCOBJ_ADD (R306). -/
def execSyncobjAdd (object : Nat) (operand : Word) (s : State) : Host.Outcome State Fault Refusal :=
  soRow object 2 operand.toNat 0 s
/-- SYNCOBJ_CAS (R306). -/
def execSyncobjCas (object : Nat) (new expected : Word) (s : State) : Host.Outcome State Fault Refusal :=
  soRow object 3 new.toNat expected.toNat s
/-- SYNCOBJ_SET (R306). -/
def execSyncobjSet (object : Nat) (s : State) : Host.Outcome State Fault Refusal := soRow object 4 0 0 s
/-- SYNCOBJ_CLEAR (R306). -/
def execSyncobjClear (object : Nat) (s : State) : Host.Outcome State Fault Refusal := soRow object 5 0 0 s
/-- SYNCOBJ_TEST_AND_SET (R306). -/
def execSyncobjTestAndSet (object : Nat) (s : State) : Host.Outcome State Fault Refusal := soRow object 6 0 0 s

end Sys2Proof.Machine
end

