-- ==== Sys2Proof/Machine/CheckVal.lean ====
section
/-!
DEFINITION. The sixteen check-value contexts (12_queues_checkvalues.md R312 to R315).
-/

namespace Sys2Proof.Machine

/-- Parameter word `i` of context `c`. -/
def cvId (c i : Nat) : Nat := pid 0x11 c i

/-- A context at reset. (log 5, DESIGN CHOICE) -/
def CvContext.reset : CvContext := { state := 0, snapState := 0, snapResult := 0, setLo := 0, busy := false, range := (0, 0) }

/-- Context `c`. -/
def State.cvOf (s : State) (c : Nat) : CvContext := Sparse.get (fun _ => CvContext.reset) s.cv c

/-- The state with context `c` changed. -/
def State.onCv (s : State) (c : Nat) (f : CvContext → CvContext) : State :=
  { s with cv := Sparse.modify (fun _ => CvContext.reset) s.cv c f }

/-- The algorithm context `c` runs (R312). -/
def State.cvAlg (s : State) (c : Nat) : CrcAlg := crcAlg (s.fld (cvId c 0) 0 2)

/-- Bytes fed to context `c` (R314). -/
def State.cvFeed (s : State) (c : Nat) (bs : List Byte) : State :=
  let a := s.cvAlg c
  s.onCv c fun x => { x with state := crcFeed a (x.state % 2 ^ a.width) bs }

/-- START: STATE at Init, then the prefix bytes (R313). -/
def State.cvStart (s : State) (c : Nat) : State :=
  let n := match s.fld (cvId c 0) 2 2 with | 0 => 0 | 1 => 2 | 2 => 4 | _ => 8
  let a := s.cvAlg c
  (s.onCv c fun x => { x with state := a.init }).cvFeed c (leBytes n (s.wide (cvId c 1)))

/-- RANGE_BASE and RANGE_LEN of context `c`. -/
def State.cvRange (s : State) (c : Nat) : Nat × Nat := (s.wide (cvId c 6), (s.word (cvId c 8)).toNat)

/-- What refuses a write to word `i` of context `c` beyond the checks of R365 (R312, R314). -/
def State.cvRefuses (s : State) (c i : Nat) (v : Word) : Option Status :=
  if !s.claimed 0x07 c then some .wrongState
  else if (i == 3 || i == 4 || i == 5 || i == 9 || i == 0xA || i == 0xB) && (s.cvOf c).busy then some .wrongState
  else if i == 9 && bitOf v.toNat 0 then
    let (base, len) := s.cvRange c
    if len = 0 || !s.hostRange base len then some .badParam else none
  else none

/-- The action of an accepted write to word `i` of context `c` (R313 to R315). -/
def State.cvWritten (s : State) (c i : Nat) (v : Word) : State :=
  match i with
  | 3 => if bitOf v.toNat 0 then s.cvStart c else s
  | 4 => s.cvFeed c (leBytes 4 v.toNat)
  | 5 => s.cvFeed c (leBytes (bitsOf v.toNat 24 2) v.toNat)
  | 9 => if bitOf v.toNat 0 then s.onCv c fun x => { x with busy := true, range := s.cvRange c } else s
  | 0xA => s.onCv c fun x => { x with setLo := v.toNat }
  | 0xB =>
    let w := (s.cvAlg c).width
    s.onCv c fun x => { x with state := (x.setLo + v.toNat * 2 ^ 32) % 2 ^ w }
  | _ => s

/-- A read of word `i` of context `c` where it is computed; the lowest words of STATE and RESULT take snapshots (R315). -/
def State.cvRead (s : State) (c i : Nat) : Option (Word × State) :=
  let x := s.cvOf c
  let a := s.cvAlg c
  let st := x.state % 2 ^ a.width
  match i with
  | 0xA => some (BitVec.ofNat 32 st, s.onCv c fun x => { x with snapState := st })
  | 0xB => some (BitVec.ofNat 32 (x.snapState / 2 ^ 32), s)
  | 0xC => some (BitVec.ofNat 32 (crcResult a st), s.onCv c fun x => { x with snapResult := crcResult a st })
  | 0xD => some (BitVec.ofNat 32 (x.snapResult / 2 ^ 32), s)
  | 0xE => some (BitVec.ofNat 32 (bit x.busy + 2 * bit (s.bitAt (cvId c 0xE) 1)), s)
  | _ => none

/-- CHECKVAL_RANGE_DONE: the range that RANGE_GO checked is fed, or its feed stops at a double-bit error (R314). -/
def execCheckvalRangeDone (context : Nat) (errorAfter : Option Nat) (s : State) : Host.Outcome State Fault Refusal :=
  onUnit (decide (context < 16)) s
    (whenDue (s.cvOf context).busy (fun s =>
      let (base, len) := (s.cvOf context).range
      let n := match errorAfter with | some k => min k len | none => len
      let s := (s.cvFeed context (s.readBytes base n)).onCv context fun x => { x with busy := false }
      (s.flagIf errorAfter.isSome (cvId context 0xE) 1).bumpIf errorAfter.isSome (pid 1 0 0x146)) s)

end Sys2Proof.Machine
end

