-- ==== Sys2Proof/Machine/ToolConfig.lean ====
section
/-!
DEFINITION. Open values that carry the machine's own data types: section layouts the Ifecy toolchain fixes and the manual does
not give (15_models.md R383, R386), and the bytes an activation plane travels as (R396). Opaque, with no body.
-/

namespace Sys2Proof.Config

open Sys2Proof.Machine

/-- Bytes of a layer's result as a transfer point carries them: its plane as packed, or its vector. (log 54, DESIGN CHOICE) -/
opaque planeBytes : Option PackedPlane → List F32 → List Byte

/-- The packed plane that the bytes of a segment spell. (log 54, DESIGN CHOICE) -/
opaque planeOf : Nat → List Byte → Option PackedPlane

/-- The final scores that the bytes of a segment spell. (log 54, DESIGN CHOICE) -/
opaque scoresOf : Nat → List Byte → List F32

/-- The logical blocks that a BLOCKS section spells; none where its bytes are malformed. (log 54, DESIGN CHOICE) -/
opaque blocksOf : List Byte → Option (List ImageBlock)

/-- The subscription masks by source key that a SUBSCRIPTIONS section spells. (log 54, DESIGN CHOICE) -/
opaque subsOf : List Byte → Option (List (Nat × Nat))

/-- The reply payload of IMAGE_INFO for a model image: its M. No rule gives the image summary a layout (R363).
(log 54, DESIGN CHOICE) -/
opaque imageSummary : Nat → List Byte

/-- The plan that PLAN and WEIGHTS sections spell, and its continuations by segment in a split image. (log 54, DESIGN CHOICE) -/
opaque planOf : List Byte → List Byte → Option (Plan × List (Nat × Plan))

/-- Byte offset of the failing field within a section whose content is refused: section type and bytes.
(log 54, DESIGN CHOICE) -/
opaque badOffset : Nat → List Byte → Nat

end Sys2Proof.Config
end

