-- ==== Sys2Proof/Machine/TrackMath.lean ====
section
/-!
DEFINITION. The binary32 linear algebra of the trackers (07_tracking_fusion.md R180, R186, R187): sums in free order, small
matrices as lists of rows, the Cholesky factorisation and the prediction.
-/

namespace Sys2Proof.Machine

/-- A sum of binary32 terms in an order the free-value index `k` fixes; zero terms change no sum but the sign of zero. -/
def fsum (k : Nat) (xs : List F32) : F32 :=
  match xs.filter (fun x => f32Abs x != 0) with
  | [] => f32Zero (!xs.isEmpty && xs.all fun x => x != 0)
  | [x] => x
  | [x, y] => f32Add x y
  | ys => f32Sum (Config.sumPick k (ys.map (·.toNat))) ys

/-- A matrix as a list of rows. -/
abbrev Mat := List (List F32)

def Mat.at (m : Mat) (i j : Nat) : F32 := (m.getD i []).getD j 0

/-- The matrix of size r x c with given entries. -/
def matOf (r c : Nat) (f : Nat → Nat → F32) : Mat := (upTo r).map fun i => (upTo c).map fun j => f i j

def f32One : F32 := 0x3F800000

def Mat.transpose (m : Mat) (r c : Nat) : Mat := matOf c r fun i j => m.at j i
def Mat.map2 (f : F32 → F32 → F32) (a b : Mat) : Mat := List.zipWith (List.zipWith f) a b
def Mat.add (a b : Mat) : Mat := Mat.map2 f32Add a b
def Mat.sub (a b : Mat) : Mat := Mat.map2 f32Sub a b
def Mat.scale (x : F32) (a : Mat) : Mat := a.map (·.map (f32Mul x))
def identity (n : Nat) : Mat := matOf n n fun i j => if i = j then f32One else 0

/-- Product of an r x m and an m x c matrix. -/
def Mat.mul (k : Nat) (a b : Mat) (r m c : Nat) : Mat :=
  matOf r c fun i j => fsum k ((upTo m).map fun l => f32Mul (a.at i l) (b.at l j))

/-- Product of a matrix and a vector. -/
def Mat.apply (k : Nat) (a : Mat) (x : List F32) : List F32 :=
  a.map fun row => fsum k (List.zipWith f32Mul row x)

/-- The lower Cholesky factor, row by row; none when a pivot is not above 0. (log 19, DEDUCED) -/
def cholesky (k n : Nat) (s : Mat) : Option Mat :=
  (upTo n).foldlM (fun (l : Mat) i =>
    let row := (upTo (i + 1)).foldlM (fun (r : List F32) j =>
      let dots := (upTo j).map fun m => f32Neg (f32Mul (r.getD m 0) (if j = i then r.getD m 0 else l.at j m))
      let v := fsum k (s.at i j :: dots)
      if j = i then (if f32Lt 0 v then some (r ++ [f32Sqrt v]) else none)
      else some (r ++ [f32Div v (l.at j j)])) []
    row.map fun r => l ++ [r ++ List.replicate (n - r.length) 0]) []

/-- Solution of L y = b by forward substitution. -/
def forwardSub (k n : Nat) (l : Mat) (b : List F32) : List F32 :=
  (upTo n).foldl (fun y i =>
    y ++ [f32Div (fsum k (b.getD i 0 :: (upTo i).map fun m => f32Neg (f32Mul (l.at i m) (y.getD m 0)))) (l.at i i)]) []

/-- Solution of L' x = y by back substitution. -/
def backSub (k n : Nat) (l : Mat) (y : List F32) : List F32 :=
  ((upTo n).reverse).foldl (fun x i =>
    f32Div (fsum k (y.getD i 0 ::
      (upTo (n - 1 - i)).map fun m => f32Neg (f32Mul (l.at (i + 1 + m) i) (x.getD m 0)))) (l.at i i) :: x) []

/-- inv(S), column by column, from the factor of S. -/
def cholInverse (k n : Nat) (l : Mat) : Mat :=
  let cols := (upTo n).map fun j =>
    backSub k n l (forwardSub k n l ((upTo n).map fun i => if i = j then f32One else 0))
  matOf n n fun i j => (cols.getD j []).getD i 0

/-- The integer nearest to a binary32 value, ties to even. -/
def f32ToInt (x : F32) : Int := match f32Rne? x with | some n => n | none => Config.noInteger x.toNat

/-- Index (i, j), i <= j, of the upper triangle of a 6 x 6 matrix stored row by row. -/
def triIndex (i j : Nat) : Nat := i * 6 - i * (i - 1) / 2 + (j - i)

/-- The symmetric 6 x 6 matrix of an upper triangle. -/
def triFull (p : List F32) : Mat := matOf 6 6 fun i j => p.getD (triIndex (min i j) (max i j)) 0

/-- The upper triangle of a matrix (R182). -/
def triOf (m : Mat) : List F32 :=
  (upTo 6).flatMap fun i => (upTo (6 - i)).map fun d => m.at i (i + d)

/-! ### Parameters of a tracker -/

/-- Parameter word `i` of the tracker of logical region `lr`. -/
def tkId (lr i : Nat) : Nat := pid 6 lr i

/-- A matrix parameter with `c` columns at base word `base` (07_tracking_fusion.md, Parameters). -/
def State.matrix (s : State) (lr base r c w : Nat) : Mat := matOf r c fun i j => s.word (tkId lr (base + w * i + j))

/-- STATE_DIM. -/
def State.stateDim (s : State) (lr : Nat) : Nat := s.fld (tkId lr 0) 2 3

/-- The transition F(D) of R186. -/
def State.transition (s : State) (lr : Nat) (d : F32) : Mat :=
  let n := s.stateDim lr
  let f := Mat.add (identity n) (Mat.scale d (s.matrix lr 0x10 n n 6))
  if s.bitAt (tkId lr 0) 1 then
    Mat.add f (Mat.scale (f32Div (f32Mul d d) (f32OfInt 2)) (s.matrix lr 0x40 n n 6))
  else f

/-- Prediction of a track by `d` counts (R186). -/
def State.predict (s : State) (lr k : Nat) (d : F32) (t : Slot) : Slot :=
  let n := s.stateDim lr
  let f := s.transition lr d
  let p := Mat.mul k (Mat.mul k f (triFull t.p) n n n) (f.transpose n n) n n n
  let q := Mat.scale (f32Abs d) (s.matrix lr 0x70 n n 6)
  { t with x := f.apply k (t.x.take n) ++ t.x.drop n, p := triOf (Mat.add p q), lastRef := f32Add t.lastRef d }

/-- The centre predicted to the ejector: xe(0) and xe(1) of R195. (log 18, DEDUCED) -/
def State.ejectorCentre (s : State) (lr k lead : Nat) (t : Slot) : F32 × F32 :=
  let n := s.stateDim lr
  let d := f32Sub (f32Add (t.x.getD 1 0) (f32OfInt lead)) t.lastRef
  let xe := (s.transition lr d).apply k (t.x.take n)
  (xe.getD 0 0, xe.getD 1 0)

end Sys2Proof.Machine
end

