-- ==== Sys2Proof/Machine/ObjOps.lean ====
section
/-!
DEFINITION. Track slots, the tile store and the work of a classification: access, references (R222), and what the closing of
a track does to its tile (R194, R223).
-/

namespace Sys2Proof.Machine

/-! ### Track slots -/

/-- Slot `i` of logical region `lr`; none when FREE (R182). -/
def State.slot (s : State) (lr i : Nat) : Option Slot := Sparse.get (fun _ => none) s.trk.slots (lr * 2048 + i)

/-- The state with a slot replaced; none frees it. -/
def State.setSlot (s : State) (lr i : Nat) (t : Option Slot) : State :=
  { s with trk := { s.trk with slots := Sparse.set (fun _ => none) s.trk.slots (lr * 2048 + i) t } }

/-- Slots of a logical region that are not FREE, by slot number. -/
def State.slotsOf (s : State) (lr : Nat) : List (Nat × Slot) :=
  s.trk.slots.filterMap fun e => if e.1 / 2048 = lr then e.2.map fun t => (e.1 % 2048, t) else none

/-- Earlier failures of the tile of track `id` (R224). -/
def State.tileFailures (s : State) (lr slot id : Nat) : Nat :=
  match s.slot lr slot with | some k => if k.id = id then k.tileFails else 0 | none => 0

/-- A tracker at rest. -/
def Tracker.empty : Tracker := { inbox := [], todo := [], births := 0 }

/-- Tracker of logical region `lr`. (log 17, DEDUCED) -/
def State.tracker (s : State) (lr : Nat) : Tracker := Sparse.get (fun _ => Tracker.empty) s.trk.trackers lr

/-- The state with a tracker changed. -/
def State.onTracker (s : State) (lr : Nat) (f : Tracker → Tracker) : State :=
  { s with trk := { s.trk with trackers := Sparse.modify (fun _ => Tracker.empty) s.trk.trackers lr f } }

/-- Physical region that runs logical region `lr`'s tracker, voter and converters under the active set (R392).
(log 17, DEDUCED) -/
def State.hostOf (s : State) (lr : Nat) : Nat := if s.rtr.activeSet = lr + 1 then (lr + 1) % 8 else lr

/-! ### Sensors (R202 to R204) -/

/-- FUSION word of sensor state `j`. -/
def sensorId (lr j : Nat) : Nat := pid 7 lr (0x160 + j)

/-- Sensor `j` is voted out in logical region `lr`. -/
def State.sensorOut (s : State) (lr j : Nat) : Bool := s.bitAt (sensorId lr j) 0

/-! ### Dense units -/

/-- A dense unit at rest. -/
def DenseUnit.empty : DenseUnit :=
  { reqs := [], tiles := [], mode := 0, subs := [], edge := none, lastBatch := 0, done := [],
    boxReqs := [] }

/-- Builder, array, edge engine and post unit of region `u`. (log 17, DEDUCED) -/
def State.dense (s : State) (u : Nat) : DenseUnit := Sparse.get (fun _ => DenseUnit.empty) s.obj.units u

/-- The state with the dense unit of region `u` changed. -/
def State.onDense (s : State) (u : Nat) (f : DenseUnit → DenseUnit) : State :=
  { s with obj := { s.obj with units := Sparse.modify (fun _ => DenseUnit.empty) s.obj.units u f } }

/-- Tile in descriptor `d` of a unit. -/
def DenseUnit.tile (x : DenseUnit) (d : Nat) : Option Tile := Sparse.get (fun _ => none) x.tiles d

/-- The unit with descriptor `d` replaced. -/
def DenseUnit.setTile (x : DenseUnit) (d : Nat) (t : Option Tile) : DenseUnit :=
  { x with tiles := Sparse.set (fun _ => none) x.tiles d t }

/-- Live tiles with their descriptors. -/
def DenseUnit.live (x : DenseUnit) : List (Nat × Tile) := x.tiles.filterMap fun e => e.2.map fun t => (e.1, t)

/-- Pages of the tile store of region `u` (R219). -/
def State.tilePages (s : State) (u : Nat) : Nat := ((s.claims.filter fun c => c.kind == 3 && c.unit == u).map (·.amount)).sum

/-- Free pages of a tile store, in ascending order (R220). -/
def State.freePages (s : State) (u : Nat) : List Nat :=
  let used := (s.dense u).live.flatMap (·.2.pages)
  (upTo (s.tilePages u)).filter fun p => !used.contains p

/-- Size of a logical region's tiles: W, H, CPAD and pages (R215, R217). -/
def State.tileSize (s : State) (lr : Nat) : Nat × Nat × Nat × Nat :=
  let c := pid 8 lr 0
  let w := 8 * (s.fld c 1 5 + 1)
  let h := 8 * (s.fld c 6 5 + 1)
  let n := s.fld c 11 4 + 1
  let pad := if n ≤ 1 then 1 else if n ≤ 2 then 2 else if n ≤ 4 then 4 else if n ≤ 8 then 8 else 16
  (w, h, pad, ceilDiv (w * h * pad) 4096)

/-- Region `u` has the pages and a descriptor for a tile of logical region `lr` (R220). -/
def State.tileRoom (s : State) (u lr : Nat) : Bool :=
  decide ((s.tileSize lr).2.2.2 ≤ (s.freePages u).length) && decide (((s.dense u).live.filter fun e => decide (e.1 < 256)).length < 256)

/-- The plan a tile or request finishes under (R398). -/
def State.planOf (s : State) (gen : Nat) : Plan := if gen = s.obj.gen then s.obj.plan else s.obj.oldPlan

/-- The plan a tile's jobs follow: the image's, or the continuation of a segment of a split model (R396, R398). -/
def State.tilePlan (s : State) (t : Tile) : Plan :=
  match t.segment with
  | none => s.planOf t.gen
  | some g => ((s.mgmt.model.active.bind fun m => m.conts.find? (·.1 == g)).map (·.2)).getD ⟨[], none, []⟩

/-- Jobs of a tile that have not started. -/
def Tile.waiting (t : Tile) : Nat := (t.layers.map fun l => (l.jobs.filter fun j => j == .waiting || j == .again).length).sum

/-- The tile with a reference given back. -/
def Tile.give (t : Tile) : Tile := { t with refs := t.refs - 1 }

/-- The builder gives back its reference once every job has been issued, and a tile with no reference is freed (R222). -/
def settleTile (d : Nat) (x : DenseUnit) : DenseUnit :=
  match x.tile d with
  | none => x
  | some t =>
    let t := if t.ready && t.builderRef && t.waiting = 0 then { t.give with builderRef := false } else t
    x.setTile d (if t.ready && t.refs = 0 then none else some t)

/-- References held by jobs that wait to run once more. -/
def Tile.againRefs (t : Tile) : Nat := (t.layers.map fun l => (l.jobs.filter (· == .again)).length).sum

/-- A tile whose jobs that have not started are cancelled; a BUILDING tile is given up at once (R223). -/
def Tile.cancel (t : Tile) : Tile :=
  { t with
    cancelled := true, ready := true, refs := if t.ready then t.refs - t.againRefs else 1,
    builderRef := if t.ready then t.builderRef else true,
    layers := t.layers.map fun l =>
      { l with jobs := l.jobs.map fun j => if j = .waiting || j = .again then .cancelled else j } }

/-- Tile work of a track that closes: its request is withdrawn, or its jobs are cancelled and its tile freed; a class the
post unit has delivered stays only when `keep` (R194, R223). -/
def State.cancelWork (s : State) (lr id : Nat) (keep : Bool) : State :=
  forEach (upTo 8) (fun s u =>
    let x := s.dense u
    let hit := x.live.filter fun e => e.2.lr == lr && e.2.id == id
    let n := (hit.map fun e => e.2.waiting).sum
    let x := { x with
      reqs := x.reqs.filter fun r => !(r.lr == lr && r.id == id),
      done := x.done.filter fun r => !(r.lr == lr && r.id == id && (!keep || r.posted.isNone)),
      boxReqs := x.boxReqs.filter fun r => r.2 != id }
    let x := hit.foldl (fun x e => settleTile e.1 (x.setTile e.1 (some e.2.cancel))) x
    (s.onDense u fun _ => x).bump (pid 8 u 0x105) n) s

/-- A track goes CLOSED; one that is CLOSED stays so from the step it closed in (R191, R194, R223). -/
def State.closeTrack (s : State) (lr i : Nat) (keep : Bool) : State :=
  match s.slot lr i with
  | none => s
  | some t => (s.setSlot lr i (some { t with st := .closed, closedSsn := if t.st = .closed then t.closedSsn else s.ssnClosed })).cancelWork lr t.id keep

/-- The track of object `id` in slot `i` goes CLOSED; where the slot holds another track by now, only the object's tile work
ends (R193, R194). -/
def State.closeObject (s : State) (lr i id : Nat) (keep : Bool) : State :=
  if (s.slot lr i).any fun t => t.id == id then s.closeTrack lr i keep else s.cancelWork lr id keep

/-- The trackers leave step mode: every slot is FREE, in the mirror too, and no record or step is left to take (R181).
(log 17, DEDUCED) -/
def State.freeTracks (s : State) : State :=
  let s := forEach (upTo 8) (fun s lr => forEach (s.slotsOf lr) (fun s e => s.cancelWork lr e.2.id false) s) s
  let s := forEach (upTo 8) (fun s lr =>
    (s.onTracker lr fun t => { t with inbox := [], todo := [] }).onConv lr fun c => { c with held := [] }) s
  { s with trk := { s.trk with slots := [], mirror := [] } }

end Sys2Proof.Machine
end

