-- ==== Sys2Proof/Machine/Synapse.lean ====
section
/-!
DEFINITION. Synapse lookup of a neuron block (05_spiking_fabric.md R145 to R148): source groups, explicit lists and
templates, from the words of the block's synapse store.
-/

namespace Sys2Proof.Machine

/-- A synapse store word, none where it holds an uncorrectable error (R151). -/
def Block.synWord (b : Block) (a : Nat) : Option Nat :=
  if b.badSyn.contains a then none else some (Sparse.get (fun _ => 0) b.syn a)

/-- A source group entry e as one 128-bit number (R146). -/
def Block.group (b : Block) (e : Nat) : Option Nat :=
  match b.synWord (2 * e), b.synWord (2 * e + 1) with
  | some lo, some hi => some (lo + hi * 2 ^ 64)
  | _, _ => none

/-- An event matches a source group entry (R146). -/
def groupMatches (g src : Nat) : Bool :=
  let n := bitsOf src 2 15
  bitOf g 44 && (bitOf g 8 || bitsOf g 0 8 == bitsOf src 24 8) && bitsOf g 9 3 == bitsOf src 21 3 &&
  bitsOf g 12 4 == bitsOf src 17 4 && decide (bitsOf g 16 15 ≤ n) &&
  decide (n < bitsOf g 16 15 + 2 ^ bitsOf g 31 4) && bitOf (bitsOf g 35 4) (src % 4)

/-- Updates of an explicit list (R147). -/
def Block.listUpdates (b : Block) (g n : Nat) (value : Int) : List Update :=
  let i := n - bitsOf g 16 15
  match b.synWord (bitsOf g 64 14 + i / 2) with
  | none => []
  | some w =>
    let slot := bitsOf w (32 * (i % 2)) 32
    if bitOf slot 14 then [] else
    match b.synWord (bitsOf slot 0 14) with
    | none => []
    | some hd =>
      (upTo (bitsOf hd 8 13)).filterMap fun j =>
        (b.synWord (bitsOf slot 0 14 + 1 + j / 3)).map fun ew =>
          let en := bitsOf ew (20 * (j % 3)) 20
          ⟨bitsOf en 0 15, value * signedOf 4 (bitsOf en 15 4) * bitsOf hd 0 8⟩

/-- Updates of a template (R148). -/
def Block.templateUpdates (b : Block) (g n : Nat) (value : Int) : List Update :=
  let i := n - bitsOf g 16 15
  let sw := bitsOf g 40 4
  match b.synWord (bitsOf g 64 14) with
  | none => []
  | some d =>
    let tw := bitsOf d 46 4
    let th := bitsOf d 50 4
    let sh := bitsOf d 54 2
    (upTo (bitsOf d 14 9)).filterMap fun j =>
      (b.synWord (bitsOf d 0 14 + j / 4)).bind fun kw =>
        let en := bitsOf kw (16 * (j % 4)) 16
        let xt : Int := ((i % 2 ^ sw) / 2 ^ sh : Nat) + signedOf 4 (bitsOf en 0 4)
        let yt : Int := ((i / 2 ^ sw) / 2 ^ sh : Nat) + signedOf 4 (bitsOf en 4 4)
        if xt < 0 ∨ (2 ^ tw : Nat) ≤ xt ∨ yt < 0 ∨ (2 ^ th : Nat) ≤ yt then none
        else
          let tgt := bitsOf d 31 15 + bitsOf en 8 4 * 2 ^ (tw + th) + yt.toNat * 2 ^ tw + xt.toNat
          if 32768 ≤ tgt then none
          else some ⟨tgt, value * signedOf 4 (bitsOf en 12 4) * bitsOf d 23 8⟩

/-- Whether some source group matches an event, and the synaptic updates all matching groups make (R145, R146). -/
def Block.updatesOf (b : Block) (h : Held) : Bool × List Update :=
  let gs := (upTo 128).filterMap fun e => (b.group e).bind fun g => if groupMatches g h.src then some g else none
  let n := bitsOf h.src 2 15
  (!gs.isEmpty, gs.flatMap fun g => if bitOf g 39 then b.templateUpdates g n h.value else b.listUpdates g n h.value)

end Sys2Proof.Machine
end

