-- ==== Sys2Proof/Machine/Ring.lean ====
section
/-!
DEFINITION. The ring and the region nodes (06_router.md): subscriptions and translation, sending, holding, spilling and
releasing events, and the CLOSE and STEP_END flits.
-/

namespace Sys2Proof.Machine

/-- Own chain address in source addresses; 0 while none is held. -/
def State.addr (s : State) : Nat := (s.chain.getD 0).toNat

/-- Ring position of a region node (R157). -/
def ringPos (r : Nat) : Nat := if r < 4 then r + 1 else r + 2

/-- The region at a ring position, none for the Headrace, spoke and Tailrace nodes. -/
def ringRegion (p : Nat) : Option Nat :=
  if 1 ≤ p ∧ p ≤ 4 then some (p - 1) else if 6 ≤ p ∧ p ≤ 9 then some (p - 2) else none

/-- ROUTER unit number of a ring position: region nodes 0 to 7, 8 Headrace, 9 spoke, 10 Tailrace. -/
def ringUnit (p : Nat) : Nat :=
  match ringRegion p with
  | some r => r
  | none => if p = 0 then 8 else if p = 5 then 9 else 10

/-- Port class of a source address (R143). -/
def srcClass (src : Nat) : Nat := src % 4

/-- Subscription key of a source address (R166). -/
def subKey (src : Nat) : Nat :=
  let g := bitsOf src 21 3
  match srcClass src with
  | 2 => 256 + g * 8 + bitsOf src 17 3
  | 3 => 320 + g
  | c => (g * 16 + bitsOf src 17 4) * 2 + c

/-- What an unlisted translation entry reads as: every logical block at its own physical place. -/
def transDefault (k : Nat) : Nat := k % 128

/-- Physical block of logical block `l` under translation set `set`, none when it has no place (R164, R166). -/
def State.physOf (s : State) (set l : Nat) : Option Nat :=
  let p := Sparse.get transDefault s.rtr.trans (set * 128 + l)
  if p < 128 then some p else none

/-- Logical blocks of a mask that stand in region `r` under the active set. -/
def State.maskAt (s : State) (mask r : Nat) : Nat :=
  (upTo 128).foldl (fun (m l : Nat) =>
    if bitOf mask l && (s.physOf s.rtr.activeSet l).any (fun p => p / 16 == r) then m + 2 ^ l else m) 0

/-- Subscribed logical blocks of a source address (R166). -/
def State.subscribers (s : State) (src : Nat) : Nat := Sparse.get (fun _ => 0) s.rtr.subs (subKey src)

/-- Logical regions of the blocks of a mask. -/
def maskRegions (mask : Nat) : List Nat := (upTo 8).filter fun g => bitsOf mask (16 * g) 16 != 0

/-- Bands of the extended bands of some logical regions (R160, R176). -/
def State.regionBands (s : State) (gs : List Nat) : Nat :=
  gs.foldl (fun m g => match s.extBand g with
    | some (lo, hi) => m ||| bandMask lo hi
    | none => m) 0

/-- Logical regions that have a block in physical region `r` under the active set (R160). -/
def State.regionsAt (s : State) (r : Nat) : List Nat := maskRegions (s.maskAt (2 ^ 128 - 1) r)

/-- Whether region `r` runs asynchronously (R59). -/
def State.regionAsync (s : State) (r : Nat) : Bool := !s.stepMode || s.region r == 4

/-- A block with nothing to do gates its clock (R150). -/
def State.sleepIdle (s : State) (b : Nat) : State :=
  if (s.block b).updates.isEmpty then s.setFld (pid 5 b 2) 0 1 0 else s

/-- An event put into a block's input for the step, which wakes the block; in an asynchronous region its synaptic updates wait
instead, and wake it where there are any (R126, R132, R150). -/
def State.feedBlock (s : State) (b : Nat) (h : Held) : State :=
  if s.regionAsync (b / 16) then
    let (hit, us) := (s.block b).updatesOf h
    let s := (s.onBlock b fun x => { x with updates := x.updates ++ us }).bumpIf (!hit) (pid 5 b 0x204)
    s.flagIf (!us.isEmpty) (pid 5 b 2) 0
  else (s.flag (pid 5 b 2) 0).onBlock b fun x => { x with input := x.input ++ [h] }

/-- Physical blocks of region `r` among the logical blocks of a mask, under the active set. -/
def State.blocksAt (s : State) (mask r : Nat) : List Nat :=
  (upTo 128).filterMap fun l =>
    if bitOf mask l then (s.physOf s.rtr.activeSet l).bind (fun p => if p / 16 = r then some p else none) else none

/-- An ingest event delivered in step mode passes to the history of its logical region's builder; of the nodes that hold it
the lowest passes it on (R211). -/
def State.historyTap (s : State) (r : Nat) (h : Held) : State :=
  match h.ev with
  | some e =>
    if !s.regionAsync r && (upTo 8).find? (fun q => s.maskAt (s.subscribers h.src) q != 0) == some r then
      s.onHist (bitsOf h.src 21 3) fun x => { x with pend := x.pend ++ [e] }
    else s
  | none => s

/-- An event delivered to the blocks of region `r` it is held for; held-event fields are 0 at delivery (R171). -/
def State.deliver (s : State) (r : Nat) (h : Held) : State :=
  (s.historyTap r h) |> forEach (s.blocksAt h.blocks r) (fun s b => s.feedBlock b { h with tag := 0, pending := false, halo := false })

/-! ### Flits (R157 to R163) -/

/-- The 64-bit word of an event as a flit carries it (R143, R171). -/
def Held.word (h : Held) : Nat :=
  h.src % 2 ^ 32 + codeOf 8 h.value * 2 ^ 32 + h.delay % 64 * 2 ^ 40 + h.tag % 2 ^ 16 * 2 ^ 46 + bit h.pending * 2 ^ 62 +
    bit h.halo * 2 ^ 63

/-- KIND of a flit. -/
def FlitBody.kind : FlitBody → Nat
  | .events _ => 0 | .close _ _ _ => 1 | .stepEnd _ => 2 | .control => 3

/-- The eight words of a flit: header and payload; CLOSE and STEP_END carry their content twice (R159, R160). What a CONTROL
flit carries beside its header is not visible. -/
def Flit.words (f : Flit) : List Nat :=
  let head := f.dest % 16 + f.src % 16 * 2 ^ 4 + f.body.kind * 2 ^ 8
  match f.body with
  | .events evs => ((head + (evs.length - 1) % 8 * 2 ^ 10) :: evs.map Held.word ++ List.replicate 7 0).take 8
  | .close k backstop ssn =>
    let h := head + ssn % 2 ^ 32 * 2 ^ 32
    let w := codeOf 16 k + bit backstop * 2 ^ 16
    [h, w, h, w, 0, 0, 0, 0]
  | .stepEnd ssn => let h := head + ssn % 2 ^ 32 * 2 ^ 32; [h, 0, h, 0, 0, 0, 0, 0]
  | .control => [head, 0, 0, 0, 0, 0, 0, 0]

/-- A flit travels toward rising positions, which is the direction with fewer hops (R158). -/
def Flit.up (f : Flit) : Bool := decide ((f.dest + 11 - f.src) % 11 ≤ 5)

/-- The position a link from `p` leads to (R157). -/
def nextPos (p : Nat) (up : Bool) : Nat := if up then (p + 1) % 11 else (p + 10) % 11

/-- Flits of position `p`'s receive buffer for the link that brings flits in direction `up`, which wait to go on (R161). -/
def State.through (s : State) (p : Nat) (up : Bool) : List Flit :=
  s.rtr.ring.filter fun f => f.injected && f.place == p && f.up == up

/-- Position `p`'s own flits that wait to be injected in direction `up`. -/
def State.ownFlits (s : State) (p : Nat) (up : Bool) : List Flit :=
  s.rtr.ring.filter fun f => !f.injected && f.place == p && f.up == up

/-- Entries that a claim reserves in every receive buffer for flits of position `src` (R162). -/
def State.ringReserved (s : State) (src : Nat) : Nat :=
  ((s.claims.filter fun c => c.kind == 8 && c.unit == src).map (·.amount)).sum

/-- Flits of source `src` in a receive buffer. -/
def State.inBuffer (s : State) (p : Nat) (up : Bool) (src : Nat) : Nat :=
  ((s.through p up).filter fun f => f.src == src).length

/-- Free entries of a receive buffer of 32 that no reservation holds; a source's flits fill its reserved entries first
(R161, R162). -/
def State.sharedFree (s : State) (p : Nat) (up : Bool) : Nat :=
  32 - ((upTo 11).map s.ringReserved).sum - ((upTo 11).map fun x => s.inBuffer p up x - s.ringReserved x).sum

/-- A credit for an entry of a receive buffer that a flit of `src` may take (R161, R162). -/
def State.hasCredit (s : State) (p : Nat) (up : Bool) (src : Nat) : Bool :=
  decide (s.inBuffer p up src < s.ringReserved src) || decide (0 < s.sharedFree p up)

/-- A flit of `src` may be injected into a receive buffer: one entry that no reservation holds stays free (R161). -/
def State.mayInject (s : State) (p : Nat) (up : Bool) (src : Nat) : Bool :=
  decide ((if s.inBuffer p up src < s.ringReserved src then 1 else 2) ≤ s.sharedFree p up)

/-- The flit of its own that a node injects next: CLOSE and STEP_END before EVENTS, but behind an earlier flit for the same
destination, whose order R158 keeps (R163). (log 11, DEDUCED) -/
def nextOwn (own : List Flit) : Option Flit :=
  let urgent := fun (f : Flit) => f.body.kind == 1 || f.body.kind == 2
  let first := fun (f : Flit) => (own.find? fun g => g.dest == f.dest) == some f
  (own.find? fun f => urgent f && first f).orElse fun _ => own.head?

/-- Grants an output link has used in its round: to through flits, or to injected ones. -/
def grantKey (p : Nat) (up inject : Bool) : Nat := (p * 2 + bit up) * 2 + bit inject
def State.grants (s : State) (p : Nat) (up inject : Bool) : Nat := Sparse.get (fun _ => 0) s.rtr.grants (grantKey p up inject)

/-- Weight of a requester of a node's output links (R163). -/
def State.ringWeight (s : State) (p : Nat) (inject : Bool) : Nat :=
  s.fld (pid 4 (ringUnit p) 0) (if inject then 4 else 0) 4

/-- The next flit on the output link of position `p` in direction `up`, `own` being the node's own candidate, whether it is
injected, and whether a new round begins; none without a flit or a credit (R20, R161, R163). (log 11, DEDUCED) -/
def State.pickFlit (s : State) (p : Nat) (up : Bool) (own : Option Flit) : Option (Flit × Bool × Bool) :=
  let q := nextPos p up
  let t := (s.through p up).find? fun f => f.dest != p && s.hasCredit q up f.src
  let o := own.filter fun f => s.mayInject q up f.src
  match t, o with
  | none, none => none
  | some f, none => some (f, false, decide (s.ringWeight p false ≤ s.grants p up false))
  | none, some g => some (g, true, decide (s.ringWeight p true ≤ s.grants p up true))
  | some f, some g =>
    if s.grants p up false < s.ringWeight p false then some (f, false, false)
    else if s.grants p up true < s.ringWeight p true then some (g, true, false)
    else some (f, false, true)

/-- A grant of an output link counted in its round (R20). -/
def State.countGrant (s : State) (p : Nat) (up inject fresh : Bool) : State :=
  let put := fun (m : Sparse Nat) (i : Bool) (n : Nat) => Sparse.set (fun _ => 0) m (grantKey p up i) n
  let m := if fresh then put s.rtr.grants (!inject) 0 else s.rtr.grants
  { s with rtr := { s.rtr with grants := put m inject (if fresh then 1 else s.grants p up inject + 1) } }

/-- The flit that position `node` receives next on its link in direction `up`, and the state in which its sender has spent
the grant (R157, R161, R163). -/
def State.nextFlit (s : State) (node : Nat) (up : Bool) : Option (Flit × State) :=
  let p := nextPos node (!up)
  (s.pickFlit p up (nextOwn (s.ownFlits p up))).map fun (f, inject, fresh) => (f, s.countGrant p up inject fresh)

/-- The ring without a flit. -/
def State.takeFlit (s : State) (f : Flit) : State := { s with rtr := { s.rtr with ring := removeFirst (· == f) s.rtr.ring } }

/-- The first flit equal to `f` stands in the receive buffer of position `node`. -/
def placeAt (f : Flit) (node : Nat) : List Flit → List Flit
  | [] => []
  | g :: gs => if g = f then { g with place := node, injected := true } :: gs else g :: placeAt f node gs

/-- A flit that passes through position `node` stands in its receive buffer (R161). -/
def State.passFlit (s : State) (f : Flit) (node : Nat) : State := { s with rtr := { s.rtr with ring := placeAt f node s.rtr.ring } }

/-- A flit of position `src`'s own, which waits to be injected. -/
def State.sendFlit (s : State) (dest src : Nat) (body : FlitBody) : State :=
  { s with rtr := { s.rtr with ring := s.rtr.ring ++ [⟨dest, src, body, src, false⟩] } }

/-- An event added to the last flit that waits at `src` for `dest`, where that is an EVENTS flit with room (R159). -/
def joinFlit (dest src : Nat) (h : Held) : List Flit → Option (List Flit)
  | [] => none
  | f :: fs =>
    let mine := fun (g : Flit) => !g.injected && g.dest == dest && g.src == src
    match joinFlit dest src h fs with
    | some gs => some (f :: gs)
    | none =>
      if fs.any mine || !mine f then none
      else match f.body with
        | .events evs => if evs.length < 7 then some ({ f with body := .events (evs ++ [h]) } :: fs) else none
        | _ => none

/-- An event put on the ring: with up to six others in one flit (R159). (log 11, DEDUCED) -/
def State.queueEvent (s : State) (dest src : Nat) (h : Held) : State :=
  match joinFlit dest src h s.rtr.ring with
  | some ring => { s with rtr := { s.rtr with ring := ring } }
  | none => s.sendFlit dest src (.events [h])

/-- An event forwarded to the nodes of other regions that now hold its blocks (R173, R177). -/
def State.forward (s : State) (r : Nat) (h : Held) : State :=
  forEach ((upTo 8).filter (· != r)) (fun s q =>
    let m := s.maskAt h.blocks q
    if m = 0 then s else s.queueEvent (ringPos q) (ringPos r) { h with blocks := m }) s

/-! ### Holding (R171 to R178) -/

/-- A closure of position step `k` takes a pending event (R172). -/
def Held.takenBy (h : Held) (k : Int) (backstop : Bool) : Bool :=
  h.pending && (backstop || decide (signedOf 16 (codeOf 16 ((h.tag : Int) - k)) ≤ 0))

/-- The SSN that the first of the CLOSE flits `fs` to take a pending event gives it, none when no closure has taken it. -/
def closeFor (fs : List Flit) (h : Held) : Option Nat :=
  fs.findSome? fun f => match f.body with
    | .close k backstop ssn => if h.takenBy k backstop then some ssn else none
    | _ => none

/-- Flits on the way from the Headrace node to region `r`'s node, in order. -/
def State.toNode (s : State) (r : Nat) : List Flit := s.rtr.ring.filter fun f => f.dest == ringPos r && f.src == 0

/-- SHED mark on the step a held event belongs to: its due step; while it is pending, the fabric step whose CLOSE is among
the flits `fs` behind it, else its open position step (R116, R160, R176). -/
def State.markHeld (s : State) (fs : List Flit) (h : Held) (mask : Nat) : State :=
  if h.pending then
    match closeFor fs h with
    | some ssn => s.markSsn ssn mask
    | none => s.markPos (s.pos.openK + signedOf 16 (codeOf 16 ((h.tag : Int) - s.pos.openK))) mask
  else s.markSsn ((s.ssnDone + (h.tag + 2 ^ 16 - s.ssnDone % 2 ^ 16) % 2 ^ 16) % 2 ^ 32) mask

/-- An event discarded for lack of room: counted, reported and marked (R176). -/
def State.spillDrop (s : State) (r : Nat) (h : Held) : State :=
  (((s.bump (pid 4 r 0x102)).flag (pid 4 r 1) 1).report 0x04 r 0x0B h.src).markHeld (s.toNode r) h
    (s.regionBands (maskRegions h.blocks))

/-- SSN of the fabric step in evaluation. -/
def State.curSsn (s : State) : Option Nat := s.pos.cur.map (·.ssn)

/-- An event that arrives at region `r`'s node: delivered at once in asynchronous mode or when it is due now, held in SRAM
or spilled otherwise (R172, R174, R176, R178). -/
def State.holdEvent (s : State) (r : Nat) (h : Held) : State :=
  if s.regionAsync r then (s.deliver r h).forward r h
  else if !h.pending && s.curSsn.map (· % 65536) == some h.tag then (s.deliver r h).forward r h
  else
    let n := s.node r
    if n.sram.length < 32768 then s.onNode r fun n => { n with sram := n.sram ++ [h] }
    else if n.spill.length < 8388608 then s.onNode r fun n => { n with spill := n.spill ++ [h] }
    else s.spillDrop r h

/-- An event sent to every region node that holds a subscribed block, without a flit to the sender's own node; `unit` is the
node whose NO_SUBSCRIBER counts an event with none (R166, R172). -/
def State.sendEvent (s : State) (srcPos unit : Nat) (h : Held) : State :=
  let mask := s.subscribers h.src
  let dests := (upTo 8).filterMap fun r => let m := s.maskAt mask r; if m = 0 then none else some (r, m)
  if dests.isEmpty then s.bump (pid 4 unit 0x105)
  else forEach dests (fun s d =>
    if ringPos d.1 = srcPos then s.holdEvent d.1 { h with blocks := d.2 }
    else s.queueEvent (ringPos d.1) srcPos { h with blocks := d.2 }) s

/-- An event of fabric step `ssn`, not pending. -/
def Held.due (h : Held) (ssn : Nat) : Bool := !h.pending && h.tag == ssn % 65536

/-- SSN `a` is `b` or later (SSNs wrap). (log 18, DEDUCED) -/
def ssnReached (a b : Nat) : Bool := (a + 2 ^ 32 - b) % 2 ^ 32 < 2 ^ 31

/-- Region `r`'s node releases the events due now once its CLOSE has come, and sends STEP_END when none is left in spill
(R173, R175). -/
def State.releaseNode (s : State) (r : Nat) : State :=
  match s.curSsn with
  | none => s
  | some n =>
    let nd := s.node r
    if nd.released || !ssnReached nd.closeSeen n then s
    else
      let now := nd.sram.filter (·.due n)
      let s := s.onNode r fun x => { x with sram := x.sram.filter fun h => !h.due n }
      let s := forEach now (fun s h => (s.deliver r h).forward r h) s
      if (s.node r).spill.any (·.due n) then s
      else
        let s := s.onNode r fun x => { x with released := true }
        forEach (upTo 8) (fun s q =>
          if q = r then s.onNode r fun x => { x with stepEnds := x.stepEnds ++ [r] }
          else s.sendFlit (ringPos q) (ringPos r) (.stepEnd n)) s

/-- A CLOSE flit sent from the Headrace node to every region node (R172). -/
def State.sendClose (s : State) (k : Int) (backstop : Bool) (ssn : Nat) : State :=
  forEach (upTo 8) (fun s r => s.sendFlit (ringPos r) 0 (.close k backstop ssn)) s

/-- A CLOSE taken by region `r`'s node: pending events it covers become due (R172). -/
def State.takeClose (s : State) (r : Nat) (k : Int) (backstop : Bool) (ssn : Nat) : State :=
  let assign := fun (h : Held) => if h.takenBy k backstop then { h with tag := ssn % 65536, pending := false } else h
  let s := s.onNode r fun n =>
    { n with sram := n.sram.map assign, spill := n.spill.map assign, closeSeen := ssn }
  s.releaseNode r

/-- Everything the router holds for the fabric discarded: STOP (R483) and module reset. (log 11, DEDUCED) -/
def State.clearRouter (s : State) : State := { s with rtr := { s.rtr with ring := [], grants := [], nodes := [] } }

end Sys2Proof.Machine
end

