-- ==== Sys2Proof/Machine/SpokeLink.lean ====
section
/-!
DEFINITION. The link layer of a spoke port (13_spoke_links.md R322 to R327): flits and their check values, credits, the
retry buffer, the choice among channels, and the messages the module's own sources send.
-/

namespace Sys2Proof.Machine

/-- SPOKE word `i` of port `p`, and chain word `i`. -/
def spkId (p i : Nat) : Nat := pid 0x12 p i
def chainId (i : Nat) : Nat := pid 0x12 0x10 i

/-- A port at rest, with no link. (log 5, DESIGN CHOICE) -/
def SpokePort.reset : SpokePort :=
  { state := .disabled, attemptAt := 0, holdAt := 0, ts2 := none, epoch := 0, rxEpoch := 0, seqTx := 0, seqRx := 0, accepted := none,
    ackOwed := false, nakSent := false, retry := [], sentAt := [], resends := 0, progressAt := 0, dedicated := [0, 0, 0, 0],
    credits := [0, 0, 0, 0], shared := 0, owed := [0, 0, 0, 0], waiting := [], owner := [none, none, none, none],
    served := [4, 4, 4, 4], turn := 0, grants := 0, flow := [none, none, none, none], parts := [none, none, none, none],
    hbRx := 0, hbTx := 0, partnerArmed := false, partnerHost := false, drain := none, sent := [] }

/-- Spoke port `p`. -/
def State.spk (s : State) (p : Nat) : SpokePort := Sparse.get (fun _ => SpokePort.reset) s.spoke.ports p

/-- The state with spoke port `p` changed. -/
def State.onSpk (s : State) (p : Nat) (f : SpokePort → SpokePort) : State :=
  { s with spoke := { s.spoke with ports := Sparse.modify (fun _ => SpokePort.reset) s.spoke.ports p f } }

/-- The port is UP. -/
def State.spkUp (s : State) (p : Nat) : Bool := (s.spk p).state == .up

/-- ROLE of a port: 0 NONE, 1 PARENT, 2 CHILD, 3 CLOSURE, 4 BOUNDARY, 5 EXCESS. -/
def State.role (s : State) (p : Nat) : Nat := s.fld (spkId p 4) 3 3

/-- Address of the partner on a port, none when it is not known. -/
def State.partner (s : State) (p : Nat) : Option Nat :=
  if s.bitAt (spkId p 4) 28 then some (s.fld (spkId p 4) 20 8) else none

/-! ### Flits (R322, R323) -/

/-- The 64-bit header of a flit. -/
def flitHeader (f : SpokeFlit) : Nat :=
  f.vc % 4 + f.mtype % 8 * 2 ^ 2 + bit f.last * 2 ^ 5 + bit f.abort * 2 ^ 6 + bit f.bcast * 2 ^ 7 + f.dest.toNat * 2 ^ 8 +
  f.src.toNat * 2 ^ 16 + f.seq.toNat * 2 ^ 24 + f.ack.toNat * 2 ^ 34 + bit f.ackValid * 2 ^ 44 + f.credVc % 4 * 2 ^ 45 +
  f.credN % 32 * 2 ^ 47 + f.hops % 256 * 2 ^ 52

/-- Check value of a flit under a transmitter's EPOCH (R323). -/
def flitCheck (epoch : Nat) (f : SpokeFlit) : Word :=
  BitVec.ofNat 32 (crc32c (leBytes 2 (f.seq.toNat + epoch * 1024) ++ leBytes 8 (flitHeader f) ++ padTo 116 f.payload))

/-- MTYPEs ENUM to ACTIVATION are sequenced (R324). -/
def sequenced (f : SpokeFlit) : Bool := decide (2 ≤ f.mtype) && decide (f.mtype ≤ 6)

/-- VC and MTYPE agree (R330). -/
def flitLegal (f : SpokeFlit) : Bool :=
  match f.mtype with
  | 0 | 1 | 2 => f.vc == 0
  | 3 => f.vc == 0 || f.vc == 3
  | 4 => f.vc == 1
  | 5 | 6 => f.vc == 2
  | _ => false

/-- A flit before it is sent. -/
def freshFlit (vc mtype : Nat) (dest src : Nat) (payload : List Byte) : SpokeFlit :=
  { vc := vc, mtype := mtype, last := true, abort := false, bcast := false, dest := BitVec.ofNat 8 dest,
    src := BitVec.ofNat 8 src, seq := 0, ack := 0, ackValid := false, credVc := 0, credN := 0, hops := 0,
    payload := padTo 116 payload, check := 0 }

/-- The flits of a message (R331). -/
def messageFlits (vc mtype sub dest src : Nat) (bcast : Bool) (body : List Byte) : List SpokeFlit :=
  let rest := chunksOf 116 (body.drop 112)
  let n := rest.length
  let mk := fun (last : Bool) (pay : List Byte) => { freshFlit vc mtype dest src pay with last := last, bcast := bcast }
  mk (n == 0) (leBytes 4 (body.length + sub * 2 ^ 16) ++ body.take 112) :: rest.zipIdx.map fun c => mk (c.2 + 1 == n) c.1

/-! ### Sending (R324 to R327) -/

/-- The flit with the port's acknowledgement, and with credits to return unless it is a resend; its check value is made
last (R322, R325, R326). -/
def SpokePort.seal (x : SpokePort) (f : SpokeFlit) (resend : Bool) : SpokeFlit × SpokePort :=
  let f := { f with ack := BitVec.ofNat 10 (x.accepted.getD 0), ackValid := x.accepted.isSome }
  let (f, x) := if resend then (f, x) else
    match (upTo 4).find? fun v => x.owed.getD v 0 != 0 with
    | some v =>
      let n := min (x.owed.getD v 0) 31
      ({ f with credVc := v, credN := n }, { x with owed := updateAt x.owed v (· - n) })
    | none => ({ f with credVc := 0, credN := 0 }, x)
  let f := { f with check := flitCheck x.epoch f }
  (f, { x with ackOwed := false, sent := f :: x.sent })

/-- A flit outside the sequence, formed by this module: LINK or HEARTBEAT (R322, R324). -/
def State.sendPlain (s : State) (p : Nat) (f : SpokeFlit) : State :=
  (s.onSpk p fun x => (x.seal { f with src := BitVec.ofNat 8 s.addr, seq := BitVec.ofNat 10 x.seqTx } false).2).bump (spkId p 0x100)

/-- A LINK flit (R325). -/
def linkFlit (nak : Bool) : SpokeFlit := freshFlit 0 0 0 0 [BitVec.ofNat 8 (bit nak)]

/-- The port holds a credit for a channel (R326). -/
def SpokePort.hasCredit (x : SpokePort) (v : Nat) : Bool := x.credits.getD v 0 != 0 || x.shared != 0

/-- A credit of channel `v` taken: dedicated first (R326). -/
def SpokePort.takeCredit (x : SpokePort) (v : Nat) : SpokePort :=
  if x.credits.getD v 0 != 0 then { x with credits := updateAt x.credits v (· - 1) } else { x with shared := x.shared - 1 }

/-- A credit of channel `v` returned (R326). -/
def SpokePort.giveCredit (x : SpokePort) (v : Nat) : SpokePort :=
  if x.credits.getD v 0 < x.dedicated.getD v 0 then { x with credits := updateAt x.credits v (· + 1) }
  else { x with shared := x.shared + 1 }

/-- The flit that channel `v` of the port sends next: of the message in progress, else of the next requester (R327). -/
def SpokePort.nextOn (x : SpokePort) (v : Nat) : Option Waiting :=
  let ws := x.waiting.filter fun w => w.flit.vc == v
  match x.owner.getD v none with
  | some o => ws.find? (·.req == o.req)
  | none => ((upTo 5).map fun i => (x.served.getD v 4 + 1 + i) % 5).findSome? fun r => ws.find? (·.req == r)

/-- A port may send a new sequenced flit (R324, R329). -/
def SpokePort.open (x : SpokePort) : Bool := x.state == .up && x.drain.isNone && decide (x.retry.length < 256)

/-- The channel that sends next, by weighted round-robin (R20, R327). -/
def State.nextVc (s : State) (p : Nat) : Option (Nat × Waiting) :=
  let x := s.spk p
  let from_ := if x.grants = 0 then x.turn + 1 else x.turn
  ((upTo 4).map fun i => (from_ + i) % 4).findSome? fun v =>
    if x.hasCredit v then (x.nextOn v).map fun w => (v, w) else none

/-- An entry of the receive buffer is freed: one credit to return (R326). -/
def State.freeEntryOf (s : State) (p v : Nat) : State := s.onSpk p fun x => { x with owed := updateAt x.owed v (· + 1) }

/-- A flit has left an output's list: with its last copy its entry is freed, where the link it came on has not been trained
since (R326). (log 33, DEDUCED) -/
def State.freeWaiting (s : State) (w : Waiting) : State :=
  match w.entry with
  | none => s
  | some e =>
    if (s.spk w.req).epoch = e && !((upTo 4).any fun q => (s.spk q).waiting.contains w) then s.freeEntryOf w.req w.flit.vc else s

/-- Flits that wait for port `p` discarded. -/
def State.dropWaiting (s : State) (p : Nat) (gone : Waiting → Bool) : State :=
  let ws := (s.spk p).waiting.filter gone
  forEach ws (fun s w => s.freeWaiting w) (s.onSpk p fun x => { x with waiting := x.waiting.filter fun w => !gone w })

/-- A waiting flit sent: numbered, kept for a resend, its entry in the input port's buffer freed (R324, R326, R327). -/
def State.sendWaiting (s : State) (p v : Nat) (w : Waiting) : State :=
  let s := s.onSpk p fun x =>
    let x := x.takeCredit v
    let (f, x) := x.seal { w.flit with seq := BitVec.ofNat 10 x.seqTx } false
    { x with
      seqTx := (x.seqTx + 1) % 1024, retry := x.retry ++ [f], sentAt := x.sentAt ++ [s.loc], waiting := x.waiting.erase w,
      progressAt := if x.retry.isEmpty then s.loc else x.progressAt,
      owner := updateAt x.owner v fun _ => if f.last then none else some ⟨w.req, none, f⟩,
      served := updateAt x.served v fun _ => w.req,
      turn := v, grants := (if v = x.turn && x.grants != 0 then x.grants else s.fld (spkId p 2) (4 * v) 4) - 1 }
  (s.bump (spkId p 0x100)).freeWaiting w

/-- Everything a port can send now. (log 33, DEDUCED) -/
def State.pump (s : State) (p : Nat) : State :=
  (upTo (s.spk p).waiting.length).foldl (fun s _ =>
    if (s.spk p).open then
      match s.nextVc p with
      | some (v, w) => s.sendWaiting p v w
      | none => s
    else s) s

/-- Acknowledgement and credits that no other flit carries go out in LINK flits (R325, R326). -/
def State.flushLink (s : State) (p : Nat) : State :=
  (upTo 20).foldl (fun s _ =>
    let x := s.spk p
    if x.state == .up && (x.ackOwed || x.owed.any (· != 0)) then s.sendPlain p (linkFlit false) else s) s

/-- Every port sends what it can. (log 33, DEDUCED) -/
def State.pumpAll (s : State) : State :=
  let s := forEach (upTo 4) (fun s p => s.pump p) s
  forEach (upTo 4) (fun s p => s.flushLink p) s

/-- Every unacknowledged flit sent again, in order (R325). (log 33, DEDUCED) -/
def State.resendAll (s : State) (p : Nat) : State :=
  let n := (s.spk p).retry.length
  let s := s.onSpk p fun x =>
    let (fs, x) := x.retry.foldl (fun (a : List SpokeFlit × SpokePort) f =>
      let (f, x) := a.2.seal f true
      (a.1 ++ [f], x)) ([], x)
    { x with retry := fs, resends := x.resends + 1, progressAt := s.loc }
  (s.bump (spkId p 0x103)).bump (spkId p 0x100) n

/-! ### Messages of the module's own sources -/

/-- A message put on port `p`. -/
def State.sendOn (s : State) (p vc mtype sub dest : Nat) (body : List Byte) : State :=
  s.onSpk p fun x =>
    { x with waiting := x.waiting ++ (messageFlits vc mtype sub dest s.addr false body).map fun f => ⟨4, none, f⟩ }

/-- Next hop of an address, none where the route is NONE or LOCAL (R338). -/
def State.route (s : State) (a : Nat) : Option Nat :=
  let r := Sparse.get (fun _ => 7) s.spoke.routes a
  if r < 4 then some r else none

/-- A message sent to another module; none where the route is NONE or its port is not UP. -/
def State.sendTo (s : State) (dest vc mtype sub : Nat) (body : List Byte) : Option State :=
  match s.route dest with
  | some p => if s.spkUp p then some ((s.sendOn p vc mtype sub dest body).pumpAll) else none
  | none => none

/-- A broadcast message on every tree port (R340). -/
def State.sendBcast (s : State) (body : List Byte) : State :=
  (forEach (s.spoke.tree.filter s.spkUp) (fun s p => s.onSpk p fun x =>
    { x with waiting := x.waiting ++ (messageFlits 0 3 0 0 s.addr true body).map fun f => ⟨4, none, f⟩ }) s).pumpAll

/-- A module-edge event handed to spoke port `p`, none when VC1 has no credit: it goes in a message of its own (R169, R332).
(log 11, DEDUCED) -/
def State.sendHalo (s : State) (p : Nat) (event : Nat) : Option State :=
  let x := s.spk p
  match s.partner p, s.chain with
  | some dest, some _ =>
    if x.open && x.hasCredit 1 && !(x.waiting.any fun w => w.flit.vc == 1) && s.role p != 4 && s.role p != 5 then
      some ((s.sendOn p 1 4 1 dest (leBytes 8 event)).pumpAll)
    else none
  | _, _ => none

/-- A record relayed to group `group` of module `dev`, none when the link cannot deliver it (R275, R333). -/
def State.sendVerdict (s : State) (dev group : Nat) (record : List Byte) (launch : Int) : Option State :=
  s.sendTo dev 2 5 1 (record ++ leBytes 8 (secOf launch) ++ leBytes 4 (nsOf launch) ++ leBytes 4 group)

/-! ### Halo marks (R336) -/

/-- Bands of the halo of the ports that are not UP or whose partner is not armed. (log 10, DEDUCED) -/
def State.haloDown (s : State) : Nat :=
  (upTo 4).foldl (fun m p =>
    if s.spkUp p && (s.spk p).partnerArmed then m else m ||| (s.word (spkId p 3)).toNat) 0

/-- SHED marks on every open position step: from the first open one to the one that holds the high-water position.
(log 10, DEDUCED) -/
def State.haloShed (s : State) : State :=
  let m := s.haloDown
  if m = 0 || !s.stepMode then s
  else
    let n := (s.stepOfCount s.pos.hw - s.pos.openK + 1).toNat
    forEach (upTo (max n 1)) (fun s i => s.markPos (s.pos.openK + i) m) s

end Sys2Proof.Machine
end

