-- ==== Sys2Proof/Machine/Time.lean ====
section
/-!
DEFINITION. Network time (03_network_time.md): PTP domains and their servo, first lock, freewheel, switching of device time,
timestamp capture, PPS and the snapshots of R88.
-/

namespace Sys2Proof.Machine

/-- TIME words: the time unit, domain `d`, port `p` and capture unit `u`. -/
def timeId (i : Nat) : Nat := pid 0x0D 0 i
def domId (d i : Nat) : Nat := pid 0x0D (1 + d) i
def tportId (p i : Nat) : Nat := pid 0x0D (0x10 + p) i
def tcuId (u i : Nat) : Nat := pid 0x0D (0x20 + u) i

/-! ### Timestamps (R81) -/

/-- Line mode of an Ethernet port from ETH.CFG: SPEED and FEC. -/
def State.lineMode (s : State) (p : Nat) : Nat × Nat := (s.fld (pid 0x13 p 0) 1 1, s.fld (pid 0x13 p 0) 2 2)

/-- Ingress and egress corrections of a line mode in ns (R81). -/
def lineCorrections : Nat × Nat → Nat × Nat
  | (0, 0) => (46, 38)
  | (0, 1) => (82, 54)
  | (0, _) => (224, 96)
  | (_, 0) => (118, 92)
  | (_, _) => (206, 136)

/-- Ingress timestamp now, referred to the MDI, with ASYM added (R81). -/
def State.ingressTs (s : State) (p : Nat) : Int :=
  (s.loc : Int) - (lineCorrections (s.lineMode p)).1 + s.sfld (tportId p 0) 0 16

/-- Egress timestamp now, referred to the MDI (R81). -/
def State.egressTs (s : State) (p : Nat) : Int := (s.loc : Int) + (lineCorrections (s.lineMode p)).2

/-- T_d at a local time that may lie before the anchor. -/
def Domain.timeOf (d : Domain) (l : Int) : Int :=
  let n := signedOf 64 (codeOf 64 (l - d.anchor))
  d.base + n + (n * d.rate).fdiv (2 ^ 40)

/-- `n` ppm in units of 2^-40. (log 14, PRESUMED) -/
def ppm (n : Nat) : Int := ((n * 2 ^ 40 / 1000000 : Nat) : Int)

/-! ### Switching (R75 to R78) -/

/-- The domain device time runs toward: the target of a switch in progress, else the active one. -/
def State.timeTarget (s : State) : Nat := match s.time.switch with | some w => w.target | none => s.time.active

/-- Δ of a switch to domain `y` now (R75). -/
def State.switchDelta (s : State) (y : Nat) : Int := (s.domain y).timeAt s.loc - s.domainTimeAt s.loc

/-- Δ lies within SWITCH_MAX (R77). -/
def State.switchAllowed (s : State) (y : Nat) : Bool :=
  decide ((s.switchDelta y).natAbs ≤ s.fld (timeId 0) 11 11 * 1000)

/-- A switch to domain `y` starts (R75). -/
def State.startSwitch (s : State) (y : Nat) : State :=
  let w : Switch := ⟨y, s.loc, s.domainTimeAt s.loc, (s.domain y).timeAt s.loc, s.switchDelta y⟩
  { s with time := { s.time with switch := some w } }

/-- A switch in progress goes on from the device time of now: before SWITCH_SLEW changes, so that what it has removed stays
removed (R75). (log 15, DEDUCED) -/
def State.reanchor (s : State) : State := match s.time.switch with | some w => s.startSwitch w.target | none => s

/-- Domain `d` becomes `x`, whose time may differ, and device time goes on from where it stands, slewed toward the domain it
follows (R68, R75). (log 15, DEDUCED) -/
def State.slewTo (s : State) (d : Nat) (x : Domain) : State :=
  let t := s.setDomain d x
  if d = s.timeTarget then
    let ty := x.timeAt s.loc
    { t with time := { t.time with switch := some ⟨d, s.loc, s.domainTimeAt s.loc, ty, ty - s.domainTimeAt s.loc⟩ } }
  else t

/-- What refuses a write to TIME.SWITCH (R76, R77). (log 15, DEDUCED) -/
def State.switchRefuses (s : State) (v : Word) : Option Status :=
  let y := bitsOf v.toNat 0 1
  if y = s.timeTarget then none
  else if (s.domain y).state != .locked then some .wrongState
  else if s.switchAllowed y then none else some .refused

/-- An accepted write to TIME.SWITCH (R76). (log 15, DEDUCED) -/
def State.switchWritten (s : State) (v : Word) : State :=
  let y := bitsOf v.toNat 0 1
  if y = s.timeTarget then s else s.startSwitch y

/-- The automatic switch on entry of domain `d` to FREEWHEEL (R76, R77). -/
def State.autoSwitch (s : State) (d : Nat) : State :=
  let y := 1 - d
  if d = s.time.active && s.bitAt (timeId 0) 2 && (s.domain y).state == .locked && s.time.switch.isNone then
    if s.switchAllowed y then s.startSwitch y else s.flag (timeId 2) 4
  else s

/-- DOMAIN_SWITCH_DONE: Δ has reached 0 (R75). -/
def execDomainSwitchDone (s : State) : Host.Outcome State Fault Refusal :=
  .next (match s.time.switch with
    | some w =>
      whenDue (!s.restarting && decide (w.delta.natAbs ≤ w.removed s.slewPpm (locDiff s.loc w.start))) (fun s =>
        ({ s with time := { s.time with
            active := w.target, switch := none,
            everLocked := s.time.everLocked || (s.domain w.target).state == DomState.locked } }).flag (timeId 2) 3) s
    | none => s)

/-! ### Domain state machine (R71 to R74) -/

/-- SERVO_EN, and ports of a domain. -/
def State.servoOn (s : State) : Bool := s.bitAt (timeId 0) 0
def State.domPorts (s : State) (d : Nat) : Nat := s.fld (domId d 0) 11 2

/-- A domain becomes DISABLED or LISTEN as SERVO_EN and PORTS say (R71). -/
def State.refreshDomain (s : State) (d : Nat) : State :=
  let x := s.domain d
  if s.servoOn && s.domPorts d != 0 then
    if x.state == .disabled then s.setDomain d { x with state := .listen } else s
  else s.setDomain d { x with
    state := .disabled, heard := [], master := none, sync := none, lastPair := none, exchange := none, samples := [],
    link0 := .reset, link1 := .reset, inside := 0, outside := 0 }

/-- A write of 1 to DOMAIN_RELOCK (R72): a domain that R71 keeps DISABLED stays so. (log 14, PRESUMED) -/
def State.relock (s : State) (d : Nat) : State :=
  let x := s.domain d
  s.setDomain d { x with
    state := if x.state == .disabled then .disabled else .listen, stepDone := false, samples := [], heard := [], secHi := 0,
    master := none, sync := none, lastPair := none, exchange := none, inside := 0, outside := 0 }

/-- The better of two datasets by the best master clock algorithm's order: `a` before `b`. (log 14, PRESUMED) -/
def masterBetter (a b : Master) : Bool :=
  let key := fun (m : Master) =>
    [m.data.priority1, m.data.clockClass, m.data.accuracy, m.data.variance, m.data.priority2, m.data.gmId.toNat,
     m.data.stepsRemoved, m.clockId.toNat, m.portNo, m.port]
  decide (key a < key b)

/-- The best master heard. (log 14, PRESUMED) -/
def bestMaster : List Master → Option Master
  | [] => none
  | m :: ms => match bestMaster ms with
    | none => some m
    | some b => if masterBetter b m then some b else some m

/-- The same port of the same clock. -/
def Master.same (a b : Master) : Bool := a.port == b.port && a.clockId == b.clockId && a.portNo == b.portNo

/-- 2^k seconds in ns. -/
def intervalNs (k : Int) : Nat := if 0 ≤ k then 1000000000 * 2 ^ k.toNat else 1000000000 / 2 ^ (-k).toNat

/-- A master heard within `n` of its own announce intervals. -/
def Master.fresh (m : Master) (now n : Nat) : Bool := decide (locDiff now m.lastAnn < n * intervalNs m.data.logInterval)

/-- A master that the algorithm may choose (R79): fewer than 255 steps away and, in the 1588 profiles, heard twice within four
announce intervals. (log 14, PRESUMED) -/
def Master.qualified (m : Master) (gptp : Bool) : Bool :=
  decide (m.data.stepsRemoved < 255) &&
    (gptp || match m.prevAnn with
      | some p => decide (locDiff m.lastAnn p < 4 * intervalNs m.data.logInterval)
      | none => false)

/-- The domain selects the best master heard within `timeout` announce intervals (R71, R79). -/
def Domain.select (x : Domain) (now timeout : Nat) (gptp : Bool) : Domain :=
  let x := { x with heard := x.heard.filter fun (m : Master) => m.fresh now timeout }
  let held := fun (m : Master) => match x.master with | some o => o.same m | none => false
  match bestMaster (x.heard.filter fun (m : Master) => m.qualified gptp || held m) with
  | none => x
  | some m =>
    let kept := held m
    let m := match x.master with
      | some o => if kept then { m with lastSync := o.lastSync, syncLog := o.syncLog } else { m with lastSync := now }
      | none => { m with lastSync := now }
    let x := { x with master := some m, utcOffset := m.data.utcOffset, utcValid := m.data.utcValid }
    let x := if kept then x else { x with sync := none, lastPair := none, exchange := none, delay := none }
    match x.state with
    | .listen => { x with state := if x.stepDone then .settle else .acquire, samples := [], inside := 0, outside := 0 }
    | .freewheel => { x with state := .settle, inside := 0, outside := 0 }
    | _ => x

/-- Entry to FREEWHEEL: the rate becomes the frequency estimate (R74). -/
def State.enterFreewheel (s : State) (d : Nat) : State :=
  let x := s.domain d
  let s := s.setDomain d { x.setRate s.loc x.freq with state := .freewheel, slew := 0, inside := 0, outside := 0 }
  s.autoSwitch d

/-- The domain has no selected master any more (R71, R74). -/
def State.loseMaster (s : State) (d : Nat) : State :=
  let x := s.domain d
  let x := { x with
    heard := match x.master with | some m => x.heard.filter fun (o : Master) => !o.same m | none => x.heard,
    master := none, sync := none, lastPair := none, exchange := none, samples := [] }
  let s := s.setDomain d x
  match x.state with
  | .acquire => s.setDomain d { x with state := .listen }
  | .settle | .locked => s.enterFreewheel d
  | _ => s

/-- DOMAIN_CFG has been written: masters on a port that PORTS no longer sets, or of another domain number, profile or transport,
are no choice any more (R79). (log 14, PRESUMED) -/
def State.domainWritten (s : State) (d old new : Nat) : State :=
  let x := s.domain d
  let ok := fun (m : Master) => bitsOf old 0 11 == bitsOf new 0 11 && bitOf (s.domPorts d) m.port
  let t := s.setDomain d { x with heard := x.heard.filter ok }
  if x.master.all ok then t else t.loseMaster d

/-- Every stored time shifted by `n` ns (R69), and with them the instants at which the lines fall idle. -/
def State.shiftTimes (s : State) (n : Int) : State :=
  let log := s.pos.log.map fun e => { e with t := e.t + n }
  let ports := s.head.ports.map fun e => (e.1, { e.2 with t0 := e.2.t0.map (· + n) })
  let tcu := s.time.tcu.map fun e => (e.1, e.2.map fun c => { c with t := c.t + n })
  { s with
    pos := { s.pos with log := log, load := s.pos.load.map (· + n) },
    head := { s.head with ports := ports },
    time := { s.time with tcu := tcu, txEnd0 := s.time.txEnd0 + n, txEnd1 := s.time.txEnd1 + n } }

/-- Median of five samples (R72). -/
def median5 (xs : List Int) : Int := (sortBy (fun (a b : Int) => decide (a ≤ b)) xs).getD 2 0

/-- The first-lock step of domain `d` (R69, R72). Device time takes the step where it is the domain's own time and the
pipeline is not armed; under LOCAL_ONLY it is not the domain's, and while armed or during a switch it is slewed (R68, R75).
(log 15, DEDUCED) -/
def State.firstLock (s : State) (d : Nat) : State :=
  let x := s.domain d
  let m := median5 x.samples
  let x := { x with base := x.base - m, stepDone := true, state := .settle, samples := [] }
  if d = s.timeTarget && !s.localOnly && (s.armed || s.time.switch.isSome) then s.slewTo d x
  else if d = s.timeTarget && !s.localOnly then ((s.setDomain d x).shiftTimes (-m)).flag (timeId 2) 5
  else s.setDomain d x

/-- The servo on one offset sample `o`, taken `dt` ns after the previous one (R73). (log 14, PRESUMED) -/
def Domain.servo (x : Domain) (now : Nat) (o dt : Int) (kp ki maxSlew : Nat) : Domain :=
  let f := clampInt (-(ppm 500)) (ppm 500) (x.freq - (o * 2 ^ 40).fdiv (dt * (2 ^ ki : Nat)))
  let sl := clampInt (-(ppm maxSlew)) (ppm maxSlew) (-(o * 2 ^ 40).fdiv (dt * (2 ^ kp : Nat)))
  { x.setRate now (f + sl) with freq := f, slew := sl }

/-- LOCKED and SETTLE after a sample: four consecutive samples inside or outside LOCK_NS (R71). -/
def Domain.judge (x : Domain) (o : Int) (lockNs : Nat) : Domain :=
  let ok := decide (o.natAbs ≤ lockNs)
  let i := if ok then x.inside + 1 else 0
  let n := if ok then 0 else x.outside + 1
  match x.state with
  | .settle => if 4 ≤ i then { x with state := .locked, inside := 0, outside := 0 } else { x with inside := i, outside := n }
  | .locked => if 4 ≤ n then { x with state := .settle, inside := 0, outside := 0 } else { x with inside := i, outside := n }
  | _ => x

/-- One offset sample `o` whose Sync came in at local time `t2` (R71 to R73). -/
def State.offsetSample (s : State) (d : Nat) (o t2 : Int) : State :=
  if s.restarting then s else
  let s := s.sample 0xE d o
  let x := s.domain d
  let cfg := domId d 1
  let dt := match x.sampleAt with | some p => t2 - p | none => 0
  let x := { x with offset := clampInt (-2147483648) 2147483647 o, sampleAt := some t2 }
  match x.state with
  | .acquire =>
    let s := s.setDomain d { x with samples := o :: x.samples }
    if x.samples.length + 1 = 5 then s.firstLock d else s
  | .settle | .locked =>
    let x := if dt ≤ 0 then x else x.servo s.loc o dt (s.fld cfg 0 5) (s.fld cfg 5 5) (s.fld cfg 20 7)
    let x := x.judge o (s.fld cfg 10 10)
    let s := s.setDomain d x
    if d = s.time.active && x.state == .locked then { s with time := { s.time with everLocked := true } } else s
  | _ => s.setDomain d x

/-- PROFILE of a domain: 0 1588 delay request-response, 1 1588 peer-to-peer, 2 802.1AS (R79). -/
def State.profile (s : State) (d : Nat) : Nat := s.fld (domId d 0) 8 2

/-- The peer link of a port. -/
def Domain.link (x : Domain) (p : Nat) : PeerLink := if p = 0 then x.link0 else x.link1

/-- The domain with a peer link replaced. -/
def Domain.setLink (x : Domain) (p : Nat) (l : PeerLink) : Domain :=
  if p = 0 then { x with link0 := l } else { x with link1 := l }

/-- The path delay from the master in ns (R73, R79): as measured to it, the peer delay of its port, or in 802.1AS that delay in
the grandmaster's time, by the peer's rate and the rate offset `c` that the master adds up. (log 14, PRESUMED) -/
def State.pathDelay (s : State) (d : Nat) (c : Int) : Option Int :=
  let x := s.domain d
  let l := x.link ((x.master.map (·.port)).getD 0)
  match s.profile d with
  | 0 => x.delay
  | 1 => l.delay
  | _ => l.delay.map fun n => (n * (c * l.den + l.num * 2 ^ 41)).fdiv (2 ^ 41 * l.num)

/-- A Sync's origin time and ingress are both known (R73, R79). -/
def State.syncPair (s : State) (d : Nat) (t1 t2 c : Int) : State :=
  let x := { s.domain d with lastPair := some (t1, t2), sync := none }
  let s := s.setDomain d x
  match s.pathDelay d c with
  | none => s
  | some dl => s.offsetSample d (x.timeOf t2 - t1 - dl) t2

/-- The seconds of a message with their 16 upper bits (R67): 0 until the first-lock step, one more where the 48-bit value has
wrapped since the last message, one less in a message from before the wrap. (log 14, PRESUMED) -/
def Domain.secOfMsg (x : Domain) (sec : Nat) : Nat :=
  if !x.stepDone then 0
  else if sec + 2 ^ 47 < x.lastSec then (x.secHi + 1) % 2 ^ 16
  else if x.lastSec + 2 ^ 47 < sec then (x.secHi + 2 ^ 16 - 1) % 2 ^ 16 else x.secHi

/-- The timestamp of a message in ns from the PTP epoch (R67). -/
def Domain.stampNs (x : Domain) (m : PtpMsg) : Int :=
  (((x.secOfMsg m.sec * 2 ^ 48 + m.sec) * 1000000000 + m.ns : Nat) : Int)

/-- The domain has read a message's seconds (R67). -/
def Domain.sawSec (x : Domain) (m : PtpMsg) : Domain := { x with secHi := x.secOfMsg m.sec, lastSec := m.sec }

/-- Difference of two peer timestamps, whose 48-bit seconds wrap. -/
def peerDiff (a b : Int) : Int := (a - b + 2 ^ 47 * 1000000000).fmod (2 ^ 48 * 1000000000) - 2 ^ 47 * 1000000000

/-! ### Messages (R70, R79, R80) -/

/-- The domain that tracks a message received on port `p`, while the servo runs. -/
def State.trackedBy (s : State) (p : Nat) (m : PtpMsg) : Option Nat :=
  [0, 1].find? fun d =>
    s.fld (domId d 0) 0 8 == m.domain && bitOf (s.domPorts d) p && (s.bitAt (domId d 0) 10 == m.udp) &&
    m.sdoId == (if s.profile d = 2 then 1 else 0) && (s.domain d).state != .disabled

/-- The message comes from the domain's selected master. -/
def Domain.fromMaster (x : Domain) (p : Nat) (m : PtpMsg) : Bool :=
  match x.master with
  | some o => o.port == p && o.clockId == m.clockId && o.portNo == m.portNo
  | none => false

/-- A received message that R70 or R80 discards. -/
def State.ptpIgnore (s : State) (p : Nat) : State := s.bump (tportId p 5)

/-- A frame with a good FCS came in on Ethernet port `p` (R481). (log 64, DEDUCED) -/
def State.framesRx (s : State) (p : Nat) : State := s.bump (pid 0x13 p 0x101)

/-- `n` frames went out on Ethernet port `p` (R481). (log 64, DEDUCED) -/
def State.framesTx (s : State) (p n : Nat) : State := s.bump (pid 0x13 p 0x100) n

/-- A message taken by `f` in its domain, unless the servo is off or its interval lies out of range (R70, R80).
(log 14, PRESUMED) -/
def ptpMessage (p : Nat) (m : PtpMsg) (lo hi : Int) (f : Nat → State → State) (s : State) :
    Host.Outcome State Fault Refusal :=
  onUnit (decide (p < 2)) s
    (if !s.running || s.domOff (40 + p) then s
     else
       let s := s.framesRx p
       if !s.servoOn || decide (m.logInterval < lo) || decide (hi < m.logInterval) then s.ptpIgnore p
       else match s.trackedBy p m with
         | some d => f d s
         | none => s)

/-- correctionField in ns. (log 14, PRESUMED) -/
def corrNs (m : PtpMsg) : Int := m.correction.fdiv 65536

/-- PTP_SYNC_RX (R67, R73, R79, R81). -/
def execPtpSyncRx (port : Nat) (msg : PtpMsg) (s : State) : Host.Outcome State Fault Refusal :=
  ptpMessage port msg (-7) 1 (fun d s =>
    let x := s.domain d
    if !x.fromMaster port msg then s
    else
      let t2 := s.ingressTs port
      let x : Domain := { x with master := x.master.map fun (o : Master) => { o with lastSync := s.loc, syncLog := msg.logInterval } }
      if msg.twoStep then s.setDomain d { x with sync := some (msg.seq, t2, corrNs msg) }
      else (s.setDomain d (x.sawSec msg)).syncPair d (x.stampNs msg + corrNs msg) t2 msg.rateOffset) s

/-- PTP_FOLLOW_UP_RX (R67, R73, R79). -/
def execPtpFollowUpRx (port : Nat) (msg : PtpMsg) (s : State) : Host.Outcome State Fault Refusal :=
  ptpMessage port msg (-7) 1 (fun d s =>
    let x := s.domain d
    match x.sync with
    | some (seq, t2, corr) =>
      if x.fromMaster port msg && seq == msg.seq then
        (s.setDomain d (x.sawSec msg)).syncPair d (x.stampNs msg + corr + corrNs msg) t2 msg.rateOffset
      else s
    | none => s) s

/-- PTP_ANNOUNCE_RX (R67, R71, R74, R79). The sync interval of a master that has sent no Sync is taken as 1 s.
(log 14, PRESUMED) -/
def execPtpAnnounceRx (port : Nat) (msg : PtpMsg) (data : PtpDataset) (s : State) : Host.Outcome State Fault Refusal :=
  ptpMessage port { msg with logInterval := data.logInterval } (-3) 3 (fun d s =>
    let x := s.domain d
    let m : Master := ⟨port, msg.clockId, msg.portNo, data, none, s.loc, s.loc, 0⟩
    let m := { m with prevAnn := (x.heard.find? fun (o : Master) => o.same m).map (·.lastAnn) }
    let x := { x with heard := (x.heard.filter fun (o : Master) => !o.same m) ++ [m] }
    s.setDomain d (x.select s.loc (s.fld (domId d 0) 13 3) (s.profile d == 2))) s

/-! ### Messages of the module itself (R70, R79, R86) -/

/-- The port carries frames: ETH.CFG.ENABLE and PCS block lock (R86). -/
def State.portUp (s : State) (p : Nat) : Bool := s.bitAt (pid 0x13 p 0) 0 && s.bitAt (pid 0x13 p 1) 0

/-- ns that `n` bytes take on the line, at 25 or 10 Gb/s. -/
def byteNs (slow : Bool) (n : Nat) : Nat := ceilDiv (n * 8) (if slow then 10 else 25)

/-- ns that a frame of `n` bytes occupies the line, with preamble and interframe gap. -/
def lineNs (slow : Bool) (n : Nat) : Nat := byteNs slow (n + 20)

/-- Launch queue of an Ethernet port. -/
def State.launchQ (s : State) (p : Nat) : List Launch := if p = 0 then s.time.launch0 else s.time.launch1

/-- The device time at which a port's line falls idle. -/
def State.lineEnd (s : State) (p : Nat) : Int := if p = 0 then s.time.txEnd0 else s.time.txEnd1

/-- Bytes of a PTP frame with its FCS, by messageType and transport. (log 14, PRESUMED) -/
def ptpBytes (kind : Nat) (udp : Bool) : Nat := max 64 ((if kind = 1 then 44 else 54) + 18 + if udp then 28 else 0)

/-- A PTP message may start now (R86): the port carries frames, its line is idle, and the frame ends at least 100 ns before
the next launch time. -/
def State.ptpMayStart (s : State) (w : PtpWait) : Bool :=
  s.portUp w.port && decide (s.lineEnd w.port ≤ s.dev) &&
    match s.launchQ w.port with
    | [] => true
    | l :: _ => decide (s.dev + byteNs (s.bitAt (pid 0x13 w.port 0) 1) (ptpBytes w.kind w.udp + 8) + 100 ≤ l.time)

/-- A request that has started waits for its answer with its true egress timestamp (R79, R86). -/
def State.requestSent (s : State) (w : PtpWait) (t3 : Int) : State :=
  let x := s.domain w.domain
  let e : DelayExchange := ⟨w.port, w.seq, t3, 0, 0, none, 0⟩
  if w.kind = 1 then match x.lastPair with
    | some (t1, t2) => s.setDomain w.domain { x with exchange := some { e with t1 := t1, t2 := t2 } }
    | none => s
  else if w.kind = 2 then s.setDomain w.domain (x.setLink w.port { x.link w.port with exchange := some e })
  else s

/-- A PTP message starts: it leaves the list, holds the line, and a Pdelay_Resp is followed by its Follow_Up with the egress
time (R79, R81, R86). -/
def State.ptpStart (s : State) (w : PtpWait) : State :=
  let t3 := s.egressTs w.port
  let e := s.dev + lineNs (s.bitAt (pid 0x13 w.port 0) 1) (ptpBytes w.kind w.udp)
  let rest := s.time.waiting.erase w
  let rest := if w.kind = 3 then { w with kind := 0xA, stamp := t3 } :: rest else rest
  let stamp := if w.kind = 1 || w.kind = 2 then t3 else w.stamp
  let s := s.framesTx w.port 1
  let s := { s with time := { s.time with
    waiting := rest, ptpSent := ⟨w.port, w.kind, w.seq, stamp⟩ :: s.time.ptpSent,
    txEnd0 := if w.port = 0 then e else s.time.txEnd0, txEnd1 := if w.port = 0 then s.time.txEnd1 else e } }
  s.requestSent w t3

/-- The oldest PTP message waiting on port `p` starts once it may (R86). -/
def State.ptpKick (s : State) (p : Nat) : State :=
  match s.time.waiting.find? fun w => w.port == p with
  | some w => if s.ptpMayStart w then s.ptpStart w else s
  | none => s

/-- A PTP message takes its place and starts as soon as it may (R86). -/
def State.ptpSend (s : State) (w : PtpWait) : State :=
  { s with time := { s.time with waiting := s.time.waiting ++ [w] } }.ptpKick w.port

/-- PTP_DELAY_REQ_SEND: a Delay_Req toward the master, or a Pdelay_Req on any port of the domain in the peer-to-peer profiles
(R79, R81). -/
def execPtpDelayReqSend (port domain : Nat) (s : State) : Host.Outcome State Fault Refusal :=
  onUnit (decide (port < 2) && decide (domain < 2)) s
    (whenDue (s.running && s.servoOn && (s.domain domain).state != .disabled) (fun s =>
      let x := s.domain domain
      let next := fun (e : Option DelayExchange) => (e.map fun e => (e.seq + 1) % 65536).getD 0
      let udp := s.bitAt (domId domain 0) 10
      if s.profile domain != 0 then
        if bitOf (s.domPorts domain) port then s.ptpSend ⟨port, 2, next (x.link port).exchange, domain, udp, 0⟩ else s
      else if (match x.master with | some m => m.port == port | none => false) && x.lastPair.isSome then
        s.ptpSend ⟨port, 1, next x.exchange, domain, udp, 0⟩
      else s) s)

/-- PTP_DELAY_RESP_RX: the request-response path delay (R79). -/
def execPtpDelayRespRx (port : Nat) (msg : PtpMsg) (s : State) : Host.Outcome State Fault Refusal :=
  ptpMessage port msg (-3) 3 (fun d s =>
    let x := s.domain d
    match x.exchange with
    | some e =>
      if msg.toUs && x.fromMaster port msg && e.seq == msg.seq && s.profile d == 0 then
        let t4 := x.stampNs msg - corrNs msg
        s.setDomain d { x with delay := some ((x.timeOf e.t2 - x.timeOf e.t3 + (t4 - e.t1)).fdiv 2) }
      else s
    | none => s) s

/-- A peer delay is known (R73, R79): `held` is what the peer held the request, in its own time, `sent` when it sent the answer
where that is known. In 802.1AS the rates of two successive answers give the peer's rate over the local one.
(log 14, PRESUMED) -/
def PeerLink.measured (l : PeerLink) (gptp : Bool) (e : DelayExchange) (held : Int) (sent : Option Int) : PeerLink :=
  let rates := match sent, l.last with
    | some t3, some (t3o, t4o) => if 0 < peerDiff t3 t3o && t4o < e.t4 then (peerDiff t3 t3o, e.t4 - t4o) else (l.num, l.den)
    | _, _ => (l.num, l.den)
  let l := if gptp then { l with num := rates.1, den := rates.2 } else l
  { l with
    exchange := some { e with t2p := none }, last := match sent with | some t3 => some (t3, e.t4) | none => l.last,
    delay := some (((e.t4 - e.t3) * l.num - held * l.den).fdiv (2 * l.den)) }

/-- PTP_PDELAY_RESP_RX: the peer delay, from a one-step answer or from its follow-up (R79). -/
def execPtpPdelayRespRx (port : Nat) (part : PdelayPart) (msg : PtpMsg) (s : State) : Host.Outcome State Fault Refusal :=
  ptpMessage port { msg with logInterval := 0 } (-3) 3 (fun d s =>
    let x := s.domain d
    let l := x.link port
    let gptp := s.profile d == 2
    let body : Int := (msg.sec * 1000000000 + msg.ns : Nat)
    match l.exchange with
    | some e =>
      if !msg.toUs || e.seq != msg.seq || s.profile d == 0 then s
      else match part with
        | .resp =>
          let e := { e with t4 := s.ingressTs port }
          if msg.twoStep then
            s.setDomain d (x.setLink port { l with exchange := some { e with t2p := some (body - corrNs msg) } })
          else s.setDomain d (x.setLink port (l.measured gptp e (corrNs msg) none))
        | .followUp => match e.t2p with
          | some t2p =>
            s.setDomain d (x.setLink port (l.measured gptp e (peerDiff (body + corrNs msg) t2p) (some (body + corrNs msg))))
          | none => s
    | none => s) s

/-- PTP_PDELAY_REQ_RX: answered two-step from the moment the port's MAC is configured, which is when firmware runs and
ETH.CFG.ENABLE is 1 (R70, R79), unless its interval lies out of range (R80). (log 14, PRESUMED) -/
def execPtpPdelayReqRx (port : Nat) (msg : PtpMsg) (s : State) : Host.Outcome State Fault Refusal :=
  onUnit (decide (port < 2)) s
    (whenDue (s.running && !s.domOff (40 + port) && s.bitAt (pid 0x13 port 0) 0) (fun s =>
      let s := s.framesRx port
      if decide (msg.logInterval < -3) || decide (3 < msg.logInterval) then s.ptpIgnore port
      else s.ptpSend ⟨port, 3, msg.seq, 0, msg.udp, s.ingressTs port⟩) s)

/-- PTP_MESSAGE_IGNORED: a message before SERVO_EN or of an unsupported kind (R70, R80). -/
def execPtpMessageIgnored (port : Nat) (s : State) : Host.Outcome State Fault Refusal :=
  onUnit (decide (port < 2)) s (whenDue (s.running && !s.domOff (40 + port)) (fun s => (s.framesRx port).ptpIgnore port) s)

/-- An announce- or sync-receipt timeout of the selected master is due (R71). -/
def State.receiptDue (s : State) (d : Nat) (announce : Bool) : Bool :=
  match (s.domain d).master with
  | none => false
  | some m =>
    if announce then decide (s.fld (domId d 0) 13 3 * intervalNs m.data.logInterval ≤ locDiff s.loc m.lastAnn)
    else decide (s.fld (domId d 0) 16 3 * intervalNs m.syncLog ≤ locDiff s.loc m.lastSync)

/-- PTP_RECEIPT_TIMEOUT (R71, R74, R76). -/
def execPtpReceiptTimeout (domain : Nat) (announce : Bool) (s : State) : Host.Outcome State Fault Refusal :=
  onUnit (decide (domain < 2)) s (whenDue (!s.restarting && s.receiptDue domain announce) (fun s => s.loseMaster domain) s)

/-! ### PPS and capture units (R83, R84) -/

/-- The pulse drives the PPS contact or an AUX_IO pin (R84, R467). (log 64, DEDUCED) -/
def State.ppsDriven (s : State) : Bool := s.bitAt (timeId 0) 10 || (upTo 16).any fun n => s.fld (pid 1 0 (0x180 + n)) 0 2 == 3

/-- PPS_PULSE: a whole second of device time with PPS as output (R84, R467). -/
def execPpsPulse (s : State) : Host.Outcome State Fault Refusal :=
  .next (whenDue (s.powered && s.ppsDriven && (s.time.everLocked || s.localOnly) &&
      (decide (nsOf s.dev ≤ 8) || decide (1000000000 - 8 ≤ nsOf s.dev)))
    (fun s => { s with time := { s.time with pps := true, ppsEnd := (s.loc + 100000000) % 2 ^ 64 } }) s)

/-- The time a capture unit takes now, by its SCALE. -/
def State.tcuTime (s : State) (u : Nat) : Int :=
  match s.fld (tcuId u 0) 8 2 with
  | 0 => s.dev
  | 1 => s.time.domA.timeAt s.loc
  | 2 => s.time.domB.timeAt s.loc
  | _ => s.loc

/-- Captures held by a unit. -/
def State.captures (s : State) (u : Nat) : List Capture := Sparse.get (fun _ => []) s.time.tcu u

/-- The state with a unit's captures replaced. -/
def State.setCaptures (s : State) (u : Nat) (cs : List Capture) : State :=
  { s with time := { s.time with tcu := Sparse.set (fun _ => []) s.time.tcu u cs } }

/-- A unit selects this edge of its source (R83). -/
def State.edgeOn (s : State) (u : Nat) (falling : Bool) : Bool := s.bitAt (tcuId u 0) (if falling then 7 else 6)

/-- SOURCE of a capture unit. -/
def State.tcuSource (s : State) (u : Nat) : Nat := s.fld (tcuId u 0) 0 6

/-- A unit captures an edge, or discards it when its buffer is full (R83). -/
def State.capture (s : State) (u : Nat) (falling : Bool) : State :=
  if (s.captures u).length < 8 then s.setCaptures u (s.captures u ++ [⟨s.tcuTime u, falling⟩]) else s.bump (tcuId u 4)

/-- An edge that the module itself makes or filters: ENC_Z or a CAMx_SYNC pulse, captured by every unit that selects it
(R83). -/
def State.captureEdge (s : State) (src : Nat) (falling : Bool) : State :=
  forEach (upTo 16) (fun s u => if s.tcuSource u == src && s.edgeOn u falling then s.capture u falling else s) s

/-- The edges of a source come from outside: all but CAMx_SYNC and the rising edges of ENC_Z, and not PPS while the module
drives it. -/
def State.outsideSource (s : State) (u : Nat) (falling : Bool) : Bool :=
  let src := s.tcuSource u
  (src != 2 || falling) && !(inRange 4 7 src) && !(src == 1 && s.bitAt (timeId 0) 10)

/-- The source takes an edge: one of ENC_Z only after its new level has been stable as R37 asks. (log 9, DESIGN CHOICE) -/
def State.edgeTaken (s : State) (u : Nat) (edge : PinEdge) : Bool := s.tcuSource u != 2 || s.filtered edge.stable

/-- TCU_CAPTURE: an edge from outside on the unit's source (R83). -/
def execTcuCapture (unit : Nat) (edge : PinEdge) (s : State) : Host.Outcome State Fault Refusal :=
  onUnit (decide (unit < 16)) s
    (whenDue (s.edgeOn unit edge.falling && s.outsideSource unit edge.falling && s.edgeTaken unit edge)
      (fun s => s.capture unit edge.falling) s)

/-! ### Reads (R88) -/

/-- A read of a TIME.TCU_CAP word: the lowest removes the oldest capture and snapshots it. -/
def State.readTcu (s : State) (u i : Nat) : Word × State :=
  if i = 1 then
    match s.captures u with
    | [] => (0, { s with time := { s.time with snapTcu := Sparse.set (fun _ => 0) s.time.snapTcu u 0 } })
    | c :: rest =>
      let s := s.setCaptures u rest
      (BitVec.ofNat 32 (nsOf c.t + bit c.falling * 2 ^ 30 + 2 ^ 31),
       { s with time := { s.time with snapTcu := Sparse.set (fun _ => 0) s.time.snapTcu u (secOf c.t) } })
  else
    let sec := Sparse.get (fun _ => 0) s.time.snapTcu u
    (BitVec.ofNat 32 (if i = 2 then sec else sec / 2 ^ 32), s)

/-- Codes of the domain states (R71). -/
def DomState.code : DomState → Nat
  | .disabled => 0 | .listen => 1 | .acquire => 2 | .settle => 3 | .locked => 4 | .freewheel => 5

/-- A computed word of a domain. -/
def Domain.readWord (x : Domain) (i : Nat) : Option Word :=
  let port := (x.master.map (·.port)).getD 0
  let gm := (x.master.map (·.data.gmId.toNat)).getD 0
  match i with
  | 2 => some (BitVec.ofNat 32 (x.state.code + port * 8 + bit x.stepDone * 16))
  | 3 => some (BitVec.ofInt 32 x.offset)
  | 4 => some (BitVec.ofInt 32 (clampInt (-2147483648) 2147483647 x.freq))
  | 5 => some (BitVec.ofNat 32 gm)
  | 6 => some (BitVec.ofNat 32 (gm / 2 ^ 32))
  | 7 => some (BitVec.ofNat 32 (codeOf 16 x.utcOffset + bit x.utcValid * 65536))
  | _ => none

/-- Launch queue replaced. -/
def State.setLaunchQ (s : State) (p : Nat) (q : List Launch) : State :=
  if p = 0 then { s with time := { s.time with launch0 := q } } else { s with time := { s.time with launch1 := q } }

/-- A computed word of the TIME block, with the snapshots of R88; none for a stored word. -/
def State.timeRead (s : State) (u i : Nat) : Option (Word × State) :=
  match timeUnit u with
  | some .main =>
    match i with
    | 2 => some (BitVec.ofNat 32 (withBits (s.word (timeId 2)).toNat 0 3
        (s.time.active + 2 * bit s.time.switch.isSome + 4 * bit s.localOnly)), s)
    | 3 => some (BitVec.ofNat 32 (nsOf s.dev), { s with time := { s.time with snapNow := secOf s.dev } })
    | 4 => some (BitVec.ofNat 32 s.time.snapNow, s)
    | 5 => some (BitVec.ofNat 32 (s.time.snapNow / 2 ^ 32), s)
    | 6 => some (BitVec.ofNat 32 s.loc, { s with time := { s.time with snapLocal := s.loc } })
    | 7 => some (BitVec.ofNat 32 (s.time.snapLocal / 2 ^ 32), s)
    | _ => none
  | some (.domain d) => ((s.domain d).readWord i).map fun w => (w, s)
  | some (.port p) => if i = 1 then some (BitVec.ofNat 32 (s.launchQ p).length, s) else none
  | some (.tcu n) => if inRange 1 3 i then some (s.readTcu n i) else none
  | none => none

end Sys2Proof.Machine
end

