-- ==== Sys2Proof/Machine/Position.lean ====
section
/-!
DEFINITION. The position unit (02_position_clock.md) and the Sluice's level (04_headrace.md R114): counting, the encoder
log, SPEED, step closure, the backstop and the start of a fabric step.
-/

namespace Sys2Proof.Machine

/-! ### The Sluice's level (R114) -/

/-- The Sluice disengages at level 0. (log 8, DEDUCED) -/
def State.disengage (s : State) : State := { s with head := { s.head with engaged := false, level := 0 } }

/-- The Sluice's reaction to lag falling: it disengages at floor(LAG_LIMIT / 2) or below (R114). (log 8, DEDUCED) -/
def State.sluiceFall (s : State) : State :=
  if s.head.engaged && decide (s.lag ≤ s.lagLimit / 2) then s.disengage else s

/-- The Sluice's reaction to a fabric step closure (R56, R114). (log 8, DEDUCED) -/
def State.sluiceClosure (s : State) : State :=
  if s.head.engaged then
    if s.lag ≤ s.lagLimit / 2 then s.disengage
    else if s.lagLimit < s.lag then { s with head := { s.head with level := min (s.head.level + 1) 8 } }
    else s
  else if s.lagLimit < s.lag then { s with head := { s.head with engaged := true, level := 1, sub := [] } }
  else s

/-! ### Closure -/

/-- Flits without the pending events of position step `k` and earlier steps that no CLOSE behind them takes, and those
events. -/
def dropFlying (k : Int) : List Flit → List Flit × List Held
  | [] => ([], [])
  | f :: fs =>
    let (rest, gone) := dropFlying k fs
    match f.body with
    | .events evs =>
      let hit := fun (h : Held) =>
        h.takenBy k false && (closeFor (fs.filter fun g => g.dest == f.dest && g.src == f.src) h).isNone
      let kept := evs.filter (!hit ·)
      (if kept.isEmpty then rest else { f with body := .events kept } :: rest, evs.filter hit ++ gone)
    | _ => (f :: rest, gone)

/-- Held events without the further copies of one admitted event. -/
def distinctEvents (hs : List Held) : List Held :=
  hs.foldl (fun l h => if l.any fun x => x.no == h.no then l else l ++ [h]) []

/-- A dropped event that was held: counted as an event of the Sluice, or as one received from another module, and marked on
position step `k` (R57, R116, R170). -/
def State.dropHeld (s : State) (k : Int) (h : Held) : State :=
  let s := s.bump (if bitOf h.src 19 then pid 4 8 0x107 else pid 2 0x20 1)
  match h.ev with
  | some e => s.markPos k (bandMask e.across e.across)
  | none => s

/-- Events that wait for a step up to `k` dropped at a closure with lag 64: from the nodes and from the ring (R57). -/
def State.dropPending (s : State) (k : Int) : State :=
  let hit := fun (r : Nat) (h : Held) => h.takenBy k false && (closeFor (s.toNode r) h).isNone
  let held := (upTo 8).flatMap fun r => ((s.node r).sram ++ (s.node r).spill).filter (hit r)
  let (ring, flying) := dropFlying k s.rtr.ring
  let t := forEach (upTo 8) (fun t r => t.onNode r fun n =>
    { n with sram := n.sram.filter (!hit r ·), spill := n.spill.filter (!hit r ·) }) { s with rtr := { s.rtr with ring := ring } }
  forEach (distinctEvents (held ++ flying)) (fun t h => t.dropHeld k h) t

/-- The normal closure of position step `k` as fabric step `ssn` is the cut of an accepted swap when the step begins at or
beyond CUT; CUT 0 means the first one after the image is prepared (R398). -/
def State.markCut (s : State) (k : Int) (ssn : Nat) : State :=
  match s.mgmt.model.swap with
  | none => s
  | some w =>
    let hit := if w.cut = 0 then w.prepared else 0 ≤ posDiff (codeOf 48 (s.origin + k * s.stepLen)) w.cut
    if !w.passed && hit then
      s.onModel fun m => { m with swap := some { w with passed := true, cutSsn := if w.prepared then some ssn else none } }
    else s

/-- A closed step becomes a fabric step with the next SSN: CLOSE flits, LAG_CEILING and the Sluice (R49, R53, R57, R114,
R172). (log 8, DEDUCED) -/
def State.makeStep (s : State) (st : FabStep) : State :=
  let ssn := (s.ssnClosed + 1) % 2 ^ 32
  let s := { s with pos := { s.pos with closed := s.pos.closed ++ [{ st with ssn := ssn }] } }
  let s := (s.setWord (posId 0x0D) (BitVec.ofNat 32 ssn)).sendClose st.posStep st.backstop ssn
  let s := (s.flagIf (s.lag == 64) (posId 0x0F) 13).sluiceClosure
  (if st.backstop then s else s.markCut st.posStep ssn).sample 2 0 s.lag

/-- A step closes with its descriptor: the intervals of R53 and R60 and the pulse of R467 run from here; while the lag is 64 its
fabric step is owed, and is made when the lag falls (R49, R53, R57). (log 8, DEDUCED) -/
def State.closeFabric (s : State) (k : Int) (backstop : Bool) : State :=
  let taken := s.pos.posMarks.filter fun m => backstop || m.1 ≤ k
  let st : FabStep :=
    { ssn := 0, hw := s.pos.hw, backstop := backstop, posStep := k,
      closePos := if backstop then s.pos.hw else s.closePosOf k, shed := taken.foldl (fun a m => a ||| m.2) 0 }
  let marks := if backstop then s.pos.posMarks else s.pos.posMarks.filter fun m => !(m.1 ≤ k)
  let s := { s with pos := { s.pos with posMarks := marks, lastClose := s.loc, pulse := some s.loc } }
  if s.lag < 64 then s.makeStep st else { s with pos := { s.pos with owed := s.pos.owed ++ [st] } }

/-- The oldest owed fabric step is made once the lag allows it (R57). (log 8, DEDUCED) -/
def State.makeOwed (s : State) : State :=
  match s.pos.owed with
  | [] => s
  | st :: rest => if s.lag < 64 then ({ s with pos := { s.pos with owed := rest } }).makeStep st else s

/-- Whether the first open position step is due to close (R47). -/
def State.stepDue (s : State) : Bool := 0 ≤ posDiff s.pos.hw (s.closePosOf s.pos.openK)

/-- The first open position step closes; at lag 64 its events are dropped first (R49, R57). (log 8, DEDUCED) -/
def State.closeStep (s : State) : State :=
  let s := s.haloShed
  let k := s.pos.openK
  let s := (if s.lag = 64 then (s.dropPending k).flag (posId 0x0F) 13 else s).closeFabric k false
  { s with pos := { s.pos with openK := k + 1 } }

/-- Every position step whose closure position the high-water position has reached closes, in order (R47). -/
def State.closeDue (s : State) : State :=
  let n := (posDiff s.pos.hw (s.closePosOf s.pos.openK) / (max s.stepLen 1 : Nat) + 1).toNat
  (upTo n).foldl (fun s _ => if s.stepDue then s.closeStep else s) s

/-- The high-water position follows the counter while armed, with REVERSE (R47, R52). -/
def State.followHw (s : State) : State :=
  if s.armed then
    let s := if 0 < posDiff s.pos.count s.pos.hw then { s with pos := { s.pos with hw := s.pos.count } } else s
    s.flagIf (decide ((s.fld (posId 0) 16 12 : Int) < posDiff s.pos.hw s.pos.count)) (posId 0x0F) 11
  else s

/-! ### Counting -/

/-- SPEED over the last 1,024 us (R46). (log 16, DEDUCED) -/
def speedOf (now : Int) (log : List LogEntry) : Int :=
  let inside : List LogEntry := log.takeWhile fun e => now - 1024000 ≤ e.t
  let before : Option LogEntry := (log.drop inside.length).head?
  let counted : List LogEntry := match before with | some _ => inside | none => inside.dropLast
  let t0 : Option Int := match before with | some e => some e.t | none => inside.getLast?.map LogEntry.t
  match counted.head?, t0 with
  | some e, some t0 =>
    let d := e.t - t0
    if d ≤ 0 then Config.zeroSpeed now
    else truncDiv (counted.foldl (fun a e => a + e.dir) 0 * 128000000000) d.toNat
  | _, _ => 0

/-- SPEED recomputed; of a mean rate beyond 32 signed bits it keeps the low 32 bits (R46). (log 73, DESIGN CHOICE) -/
def State.updateSpeed (s : State) : State :=
  s.setWord (posId 0x0C) (BitVec.ofInt 32 (speedOf s.dev s.pos.log))

/-- One count edge of the driving source: counter, log, SPEED, high-water position and closures (R42, R44, R46, R47). -/
def State.countEdge (s : State) (dir : Int) : State :=
  let c := codeOf 48 (s.pos.count + dir)
  let s := { s with pos := { s.pos with
    count := c, load := none, log := (LogEntry.mk s.dev c dir :: s.pos.log).take 8192 } }
  let s := s.updateSpeed.followHw
  if s.stepMode && s.pos.src != .replay then s.closeDue else s

/-- A load of the counter (R43). -/
def State.loadCount (s : State) (c : Nat) : State :=
  { s with pos := { s.pos with count := c % 2 ^ 48, load := some s.dev } }

/-- Position of a curve at device time `t` in 1/65,536 count (R39, R40). -/
def Curve.at (c : Curve) (t : Int) : Int := c.p0 + (c.num * (t - c.t0) * 65536).fdiv (c.den * 1000000000 : Nat)

/-- Sign of the count an accepted edge makes before INVERT, 0 for none (R36). -/
def decodeEdge (mode : Nat) (aEdge rising other : Bool) : Int :=
  let sign : Int := if aEdge then (if rising == other then -1 else 1) else (if rising == other then 1 else -1)
  match mode with
  | 0 => if aEdge && !other then sign else 0
  | 1 => if aEdge then sign else 0
  | _ => sign

/-- An accepted level change on A or B; a held position takes no count (R35, R36, R37, R39). (log 9, DESIGN CHOICE) -/
def encoderEdge (a b : Bool) (s : State) : State :=
  let da := a != s.pos.encA
  let db := b != s.pos.encB
  let mode := s.fld (posId 0) 3 2
  let raw := if da then decodeEdge mode true a b else decodeEdge mode false b a
  let s := { s with pos := { s.pos with encA := a, encB := b } }
  if da && db then (s.bump (posId 0x13)).flag (posId 0x0F) 10
  else if (!da && !db) || raw = 0 then s
  else
    let dir := if s.bitAt (posId 0) 5 then -raw else raw
    let tooFast := match s.pos.decoded with | some l => decide (locDiff s.loc l < 100) | none => false
    let s := { s with pos := { s.pos with decoded := some s.loc } }
    let s := s.flagIf tooFast (posId 0x0F) 12
    let (i, s) := if tooFast then s.takeFree else (0, s)
    if tooFast && Config.countLost i then s
    else if s.pos.src == .encoder && !s.pos.hold then s.countEdge dir else s

/-- ENCODER_COUNT_EDGE: a level change on A or B that has passed the filter (R36, R37). -/
def execEncoderCountEdge (levels : Bool × Bool) (stable : Nat) (s : State) : Host.Outcome State Fault Refusal :=
  .next (whenDue (s.powered && s.filtered stable) (encoderEdge levels.1 levels.2) s)

/-- The position now copied to Z_CAPTURE (R38, R62). -/
def State.captureZ (s : State) : State :=
  let (p, s) := s.posNow
  (s.setWord (posId 0x14) (BitVec.ofNat 32 (p / 65536))).setWord (posId 0x15)
    (BitVec.ofNat 32 (p / 65536 / 2 ^ 32 + p % 65536 * 65536))

/-- Since its last accepted rising edge, Z can have been stable low and high again for the filter's time each (R37).
(log 9, DESIGN CHOICE) -/
def State.zStable (s : State) : Bool :=
  match s.pos.zAt with
  | some l => s.filtered (locDiff s.loc l / 2)
  | none => true

/-- ENC_Z_EDGE: an accepted rising edge of Z copies the position, and capture units on ENC_Z take it (R37, R38, R83). -/
def execEncZEdge (s : State) : Host.Outcome State Fault Refusal :=
  .next (whenDue (s.powered && s.zStable) (fun s =>
    (({ s with pos := { s.pos with zAt := some s.loc } }).captureZ).captureEdge 2 false) s)

/-- LINE_FAULT: a line fault of 1,024 us on A, B or Z; while armed on the encoder the fallback takes over, or without it the
position holds (R39). (log 9, DESIGN CHOICE) -/
def execLineFault (s : State) : Host.Outcome State Fault Refusal :=
  if !s.powered then .next s else
  let s := s.flag (posId 0x0F) 8
  if !s.armed || s.pos.src != .encoder then .next s
  else if s.bitAt (posId 0) 6 && !s.pos.hold then
    let (p, s) := s.posNow
    .next ({ s with pos := { s.pos with
      src := .fallback, curve := ⟨p, s.dev, (s.word (posId 0x0C)).toInt, 128⟩ } }.setFld (posId 0x0F) 9 1 1)
  else .next { s with pos := { s.pos with hold := true } }

/-- Counts by which the curve's position lies beyond the counter (R40). -/
def State.curveLead (s : State) : Int := posDiff (codeOf 48 ((s.pos.curve.at s.dev).fdiv 65536)) s.pos.count

/-- SYNTH_COUNT_EDGE: floor(P / 65,536) of the synthetic source or of the fallback has changed (R39, R40). -/
def execSynthCountEdge (s : State) : Host.Outcome State Fault Refusal :=
  .next (whenDue (s.armed && (s.pos.src == .synthetic || s.pos.src == .fallback) && s.curveLead != 0)
    (fun s => s.countEdge (signInt s.curveLead)) s)

/-- SPEED_WINDOW_AGE: an edge leaves the 1,024 us window (R46). -/
def execSpeedWindowAge (s : State) : Host.Outcome State Fault Refusal := .next s.updateSpeed

/-- A backstop closure is due (R53, R58, R60). Of a normal closure and a backstop closure in one cycle the sender commands the
edge that makes the normal one (R54). (log 8, DEDUCED) -/
def State.backstopDue (s : State) : Bool :=
  let us := s.fld (posId 4) 0 20
  s.stepMode && s.pos.src != .replay && us != 0 && decide (us * 1000 ≤ locDiff s.loc s.pos.lastClose)

/-- BACKSTOP_CLOSE (R53). -/
def execBackstopClose (s : State) : Host.Outcome State Fault Refusal :=
  .next (whenDue s.backstopDue
    (fun s => ((s.haloShed.closeFabric (s.pos.openK - 1) true).bump (posId 0x12)).flag (posId 0x0F) 15) s)

/-- A read of COUNT's lower word snapshots the counter (R62). -/
def State.readCount (s : State) : Word × State :=
  let (p, s) := s.posNow
  (BitVec.ofNat 32 (p / 65536),
   { s with pos := { s.pos with snapHi := p / 65536 / 2 ^ 32 + p % 65536 * 65536 } })

/-! ### Replay pacing (R60) -/

/-- A replayed closure waits: the replay has delivered every event up to the closure position. (log 8, DEDUCED) -/
def State.replayDue (s : State) : Bool := s.stepMode && s.pos.src == .replay && s.stepDue

/-- Under FREE pace a step closes once the previous fabric step has finished. -/
def State.replayFree (s : State) : State :=
  if s.replayDue && !s.bitAt (posId 7) 0 && s.lag = 0 then s.closeStep else s

/-- REPLAY_PACE_TIMER: a closure spaced PACE.INTERVAL us from the last one (R60). -/
def execReplayPaceTimer (s : State) : Host.Outcome State Fault Refusal :=
  .next (whenDue (s.replayDue && s.bitAt (posId 7) 0 &&
      decide (s.fld (posId 7) 1 24 * 1000 ≤ locDiff s.loc s.pos.lastClose)) (fun s => s.closeStep) s)

/-! ### Start of a fabric step -/

/-- Regions whose blocks take part in fabric steps: those that carry load, are not in asynchronous mode and do not count as
finished because they failed (R391). -/
def State.runs (s : State) (r : Nat) : Bool :=
  (s.region r == 0 || s.region r == 1) && !s.mgmt.power.failing.contains r

/-- Block `b` takes part in fabric steps; under set 0 the spare blocks 14 and 15 of a region hold nothing and stay gated (R390). -/
def State.takesPart (s : State) (b : Nat) : Bool := s.runs (b / 16) && !(s.rtr.activeSet == 0 && decide (14 ≤ b % 16))

/-- Blocks reset for a new step and woken (R128, R150). -/
def State.wakeBlocks (s : State) : State :=
  forEach (upTo 128) (fun s b =>
    if s.takesPart b then
      (s.onBlock b fun x => { x with input := [], out := [], evaluated := false, finished := false }).flag (pid 5 b 2) 0
    else s) s

/-- The cut of a swap falls now: its fabric step has ended and the next has not started (R398). -/
def State.cutDue (s : State) : Bool :=
  s.pos.cur.isNone && s.mgmt.model.swap.any fun w => w.prepared && w.cutSsn.any fun n => ssnReached s.ssnDone n

/-- A fabric step marked for every region that counts as finished because it failed (R391, R419, R425). -/
def State.markFailing (s : State) (ssn : Nat) : State :=
  forEach s.mgmt.power.failing (fun s e => s.markSsn ssn (s.regionBands [e])) s

/-- FABRIC_STEP_START: the next closed step starts evaluation; nodes release its events (R50, R51, R173, R177). -/
def startStep (s : State) : State :=
  match s.pos.closed with
  | [] => s
  | st :: rest =>
    let s := { s with
      pos := { s.pos with
        closed := rest, cur := some st, stepAt := s.loc, stepped := true,
        sAll := if s.pos.stepped then s.pos.sAll + 1 else 0,
        sNorm := if s.pos.stepped && !st.backstop then s.pos.sNorm + 1 else if s.pos.stepped then s.pos.sNorm else 0 },
      rtr := { s.rtr with activeSet := s.rtr.nextSet } }
    let s := s.markFailing st.ssn
    let s := forEach (upTo 8) (fun s r => s.sample 4 r ((s.node r).sram.length + (s.node r).spill.length : Nat)) s
    let s := forEach (upTo 8) (fun s r => s.onNode r fun n => { n with released := false, stepEnds := [] }) s.wakeBlocks
    forEach (upTo 8) (fun s r => s.releaseNode r) s

/-- FABRIC_STEP_START. -/
def execFabricStepStart (s : State) : Host.Outcome State Fault Refusal :=
  .next (whenDue (s.pos.cur.isNone && !s.cutDue) startStep s)

end Sys2Proof.Machine
end

