-- ==== Sys2Proof/Machine/Neuron.lean ====
section
/-!
DEFINITION. Neuron evaluation (05_spiking_fabric.md R124 to R143): state words, class parameters, the micro-operations,
and the evaluation of a block in step mode and of one update in asynchronous mode.
-/

namespace Sys2Proof.Machine

/-! ### State words and classes -/

/-- A neuron state word field by field (R124). -/
structure Neuron where
  membrane : Int
  trace : Nat
  stamp : Nat
  cls : Nat
  deriving DecidableEq, Repr

/-- Fields of a 48-bit state word. -/
def Neuron.ofWord (w : Nat) : Neuron := ⟨signedOf 20 (bitsOf w 0 20), bitsOf w 20 12, bitsOf w 32 12, bitsOf w 44 4⟩

/-- The 48-bit state word of its fields. -/
def Neuron.word (n : Neuron) : Nat :=
  codeOf 20 n.membrane + n.trace % 4096 * 2 ^ 20 + n.stamp % 4096 * 2 ^ 32 + n.cls % 16 * 2 ^ 44

/-- The parameters of a class (NEURON.CLASSc words). -/
structure ClassPar where
  theta : Nat
  burst : Nat
  leakShift : Nat
  refract : Nat
  reset : Int
  leakMult : Nat
  outShift : Nat
  gain : Nat
  linear : Bool
  twoSided : Bool
  normal : Bool
  len : Nat
  prog : List Nat
  deriving DecidableEq, Repr

/-- Class parameters from the three parameter words and the program words. -/
def ClassPar.ofWords (a b c : Word) (prog : List Word) : ClassPar :=
  let a := a.toNat; let b := b.toNat; let c := c.toNat
  { theta := bitsOf a 0 19, burst := bitsOf a 19 4, leakShift := bitsOf a 23 5, refract := bitsOf a 28 4,
    reset := signedOf 20 (bitsOf b 0 20), leakMult := bitsOf b 20 8, outShift := bitsOf b 28 4,
    gain := bitsOf c 0 8, linear := bitOf c 8, twoSided := bitOf c 9, normal := bitOf c 10,
    len := bitsOf c 11 5 + 1,
    prog := (prog.flatMap fun w => [bitsOf w.toNat 0 16, bitsOf w.toNat 16 16]) }

/-- Class `c` of block `b`. -/
def State.classPar (s : State) (b c : Nat) : ClassPar :=
  .ofWords (s.word (pid 5 b (0x10 + 4 * c))) (s.word (pid 5 b (0x11 + 4 * c))) (s.word (pid 5 b (0x12 + 4 * c)))
    ((upTo 16).map fun i => s.word (pid 5 b (0x100 + 16 * c + i)))

/-- Operand bits an operation uses (R136). -/
def opUsed (op : Nat) : Nat :=
  match op / 4096 with
  | 0x2 => 0xF | 0x4 => 0x1 | 0x5 => 0x3 | 0x8 => 0x1
  | 0xA => if op % 4 = 0 then 0x3F else 0xFFF
  | 0xC => 0x1FF | 0xD => 0xFF | 0xE => 0xFFF
  | _ => 0

/-- One operation is allowed in its class (R141). -/
def opValid (p : ClassPar) (op : Nat) : Bool :=
  let x := op % 4096
  (x &&& (4095 - opUsed op)) == 0 &&
  match op / 4096 with
  | 0xC => bitsOf x 0 5 != 0 && decide (bitsOf x 5 4 < 8)
  | 0xA => decide (bitsOf x 0 2 < 2) && p.refract == 0
  | 0x7 => !p.linear
  | 0xD => !(bitOf x 7 && !p.linear)
  | _ => true

/-- A class is valid (R141). -/
def ClassPar.valid (p : ClassPar) : Bool :=
  let ops := p.prog.take p.len
  ops.all (opValid p) && decide ((ops.filter fun o => o / 4096 == 0xD).length ≤ 4)

/-- What arming writes to a neuron of class `c` (R125). -/
def ClassPar.armedWord (p : ClassPar) (c : Nat) : Nat :=
  Neuron.word ⟨p.reset, if p.refract = 0 then 0 else 0xC00, 0xFFF, c⟩

/-- Class of neuron `n` in the installed image. -/
def Block.classOf (b : Block) (n : Nat) : Nat :=
  b.classes.foldl (fun c r => if r.1 ≤ n then r.2 else c) 0

/-- What an unlisted state word reads as. -/
def Block.base (b : Block) (n : Nat) : Nat := b.fill.getD (b.classOf n) 0

/-- State word of neuron `n`. -/
def Block.neuron (b : Block) (n : Nat) : Neuron := .ofWord (Sparse.get b.base b.states n)

/-- The block with neuron `n` at `x`. -/
def Block.setNeuron (b : Block) (n : Nat) (x : Neuron) : Block := { b with states := Sparse.set b.base b.states n x.word }

/-- The block as arming or an installation leaves it: every neuron as R125 gives, no step work. -/
def State.fillBlock (s : State) (b : Nat) (x : Block) : Block :=
  { x with
    fill := (upTo 16).map fun c => (s.classPar b c).armedWord c, states := [], input := [], recheck := [],
    evaluated := false, finished := false, out := [], badState := [], badAcc := [], updates := [] }

/-! ### Micro-operations -/

/-- What an evaluation sees of its surroundings. -/
structure EvalEnv where
  par : ClassPar
  async : Bool
  backstop : Bool
  s12 : Nat

/-- Working registers of the neuron update unit. -/
structure EvalRegs where
  v : Int
  a : Int
  t : Nat
  e : Nat
  k : Nat
  out : Int
  fired : Bool
  c : Bool
  lfsr : Nat
  /-- value, delay and port class of each emission, in order -/
  emits : List (Int × Nat × Nat)

/-- One advance of the 32-bit LFSR (R139). -/
def lfsrNext (x : Nat) : Nat :=
  let b := (bit (bitOf x 31) + bit (bitOf x 21) + bit (bitOf x 1) + bit (bitOf x 0)) % 2
  (x * 2 + b) % 2 ^ 32

/-- Stochastic rounding of `x` by `f` bits with the random bits `r` (R139). -/
def sround (x : Int) (f r : Nat) : Int := signInt x * (((x.natAbs + r % 2 ^ f) / 2 ^ f : Nat) : Int)

/-- (m / 256)^e in units of 2^-24 (R138). -/
def leakFactor (m e : Nat) : Nat :=
  let rec go : Nat → Nat → Nat → Nat → Nat
    | 0, p, _, _ => p
    | n + 1, p, b, e =>
      if e = 0 then p else go n (if e % 2 = 1 then p * b / 2 ^ 24 else p) (b * b / 2 ^ 24) (e / 2)
  go 12 (2 ^ 24) (m * 2 ^ 16) e

/-- The condition of a SKIP (R137). -/
def skipHolds (env : EvalEnv) (r : EvalRegs) : Nat → Bool
  | 0 => r.c | 1 => !r.c | 2 => r.fired | 3 => !r.fired
  | 4 => env.backstop && !env.async | 5 => r.a == 0 | 6 => decide (r.v < 0) | 7 => env.async
  | _ => false

/-- V as EMIT and CMP_FIRE scale it in LINEAR mode. -/
def linearOut (env : EvalEnv) (v : Int) : Int := satInt 8 (v.fdiv (2 ^ env.par.outShift : Nat))

/-- An emission of value `x`: in asynchronous mode a burst count is that many events (R132). -/
def emitValue (env : EvalEnv) (r : EvalRegs) (x : Int) (delay port : Nat) : EvalRegs :=
  if env.async && !env.par.linear then
    { r with emits := r.emits ++ List.replicate x.natAbs (signInt x, delay, port) }
  else { r with emits := r.emits ++ [(x, delay, port)] }

/-- CMP_FIRE (R136). -/
def opCmpFire (env : EvalEnv) (r : EvalRegs) : EvalRegs :=
  let th : Int := env.par.theta
  let hit := !r.fired && (decide (th ≤ r.v) || (env.par.twoSided && decide (r.v ≤ -th)))
  let mag : Int := if env.par.linear then max 1 ((linearOut env r.v).natAbs : Nat) else 1
  if hit then { r with fired := true, k := 1, out := signInt r.v * mag, c := true } else { r with c := false }

/-- BURST_FIRE (R133, R136). -/
def opBurstFire (env : EvalEnv) (r : EvalRegs) : EvalRegs :=
  let th : Int := env.par.theta
  let count := fun (x : Int) => min (x / th).toNat env.par.burst
  if !r.fired && decide (th ≤ r.v) then
    { r with fired := true, k := count r.v, out := count r.v, c := true }
  else if !r.fired && env.par.twoSided && decide (r.v ≤ -th) then
    { r with fired := true, k := count (-r.v), out := -(count (-r.v) : Nat), c := true }
  else { r with c := false }

/-- MUL_LEAK (R138). -/
def opMulLeak (env : EvalEnv) (r : EvalRegs) (stoch : Bool) : EvalRegs :=
  let x := r.v * leakFactor env.par.leakMult r.e
  if stoch then
    let l := lfsrNext r.lfsr
    { r with v := satInt 32 (sround x 24 l), lfsr := l }
  else { r with v := satInt 32 (truncDiv x (2 ^ 24)) }

/-- CLAMP (R136). -/
def opClamp (env : EvalEnv) (r : EvalRegs) (range : Nat) : EvalRegs :=
  let th : Int := env.par.theta
  match range with
  | 0 => { r with v := clampInt (-524288) 524287 r.v }
  | 1 => { r with v := clampInt env.par.reset 524287 r.v }
  | 2 => { r with v := clampInt 0 524287 r.v }
  | _ => { r with v := clampInt (-th) th r.v }

/-- TRACE (R136). -/
def opTrace (r : EvalRegs) (x : Nat) : EvalRegs :=
  match x % 4 with
  | 0 => { r with t := r.t / 2 ^ min (r.e * bitsOf x 2 4) 12 }
  | 1 => if r.fired then { r with t := min (r.t + bitsOf x 2 10) 4095 } else r
  | _ => r

/-- EMIT (R136, R143). -/
def opEmit (env : EvalEnv) (r : EvalRegs) (x : Nat) : EvalRegs :=
  let delay := bitsOf x 0 6
  let port := bitsOf x 6 1
  if r.fired then emitValue env r r.out delay port
  else if bitOf x 7 && env.par.linear && linearOut env r.v != 0 then emitValue env r (linearOut env r.v) delay port
  else r

/-- One micro-operation other than END and SKIP on the working registers (R136). -/
def execOp (env : EvalEnv) (r : EvalRegs) (op : Nat) : EvalRegs :=
  let x := op % 4096
  let setV := fun (v : Int) => { r with v := satInt 32 v }
  match op / 4096 with
  | 0x1 => setV (r.v + r.a)
  | 0x2 => setV (r.v + (r.a * env.par.gain).fdiv (2 ^ bitsOf x 0 4 : Nat))
  | 0x3 => setV (signInt r.v * ((r.v.natAbs / 2 ^ min (r.e * env.par.leakShift) 31 : Nat) : Int))
  | 0x4 => opMulLeak env r (bitOf x 0)
  | 0x5 => opClamp env r (bitsOf x 0 2)
  | 0x6 => opCmpFire env r
  | 0x7 => opBurstFire env r
  | 0x8 => if r.fired || bitOf x 0 then setV env.par.reset else r
  | 0x9 => if r.fired then setV (r.v - signInt r.out * r.k * env.par.theta) else r
  | 0xA => opTrace r x
  | 0xB =>
    let age := (env.s12 + 4096 - r.t) % 4096
    { r with c := env.par.refract != 0 && decide (1 ≤ age) && decide (age ≤ env.par.refract) }
  | 0xD => opEmit env r x
  | 0xE => setV (r.v + signedOf 8 (bitsOf x 0 8) * (2 ^ bitsOf x 8 4 : Nat))
  | _ => r

/-- The program from `pc` on; END and the end of the program stop it, SKIP passes operations over (R134, R137). -/
def runProg (env : EvalEnv) : Nat → List Nat → EvalRegs → EvalRegs
  | 0, _, r => r
  | _ + 1, [], r => r
  | n + 1, op :: rest, r =>
    if op / 4096 = 0 then r
    else if op / 4096 = 0xC then
      runProg env n (if skipHolds env r (bitsOf op 5 4) then rest.drop (bitsOf op 0 5) else rest) r
    else runProg env n rest (execOp env r op)

/-- One evaluation: the new state word, the emissions and the LFSR (R134). -/
def evaluate (env : EvalEnv) (x : Neuron) (a : Int) (lfsr : Nat) : Neuron × List (Int × Nat × Nat) × Nat × Bool :=
  let e := if env.async then 0 else (env.s12 + 4096 - x.stamp) % 4096
  let r := runProg env 33 (env.par.prog.take env.par.len)
    { v := x.membrane, a := a, t := x.trace, e := e, k := 0, out := 0, fired := false, c := false, lfsr := lfsr, emits := [] }
  let t := if env.par.refract = 0 then r.t
    else if r.fired then env.s12
    else if 1024 ≤ (env.s12 + 4096 - r.t) % 4096 then (env.s12 + 4096 - 1024) % 4096
    else r.t
  (⟨satInt 20 r.v, t, if env.async then x.stamp else env.s12, x.cls⟩, r.emits, r.lfsr, r.fired)

/-! ### Blocks -/

/-- Logical place of physical block `b` under the active set: that of the guest it hosts, else its own (R164, R390). -/
def State.logicalOf (s : State) (b : Nat) : Nat :=
  ((upTo 128).find? fun l => l != b && s.physOf s.rtr.activeSet l == some b).getD b

/-- The event word of an emission (R143); the due SSN counts from fabric step `ssn` (R50). -/
def State.emitted (s : State) (b n : Nat) (ssn : Nat) (m : Int × Nat × Nat) : Held :=
  let l := s.logicalOf b
  { src := s.addr * 2 ^ 24 + l / 16 * 2 ^ 21 + l % 16 * 2 ^ 17 + n * 4 + m.2.2, value := m.1, delay := m.2.1,
    tag := (ssn + 1 + m.2.1) % 65536, pending := false, halo := false, blocks := 0, ev := none }

/-- Step index of a class, low 12 bits (R124). (log 13, DESIGN CHOICE) -/
def State.stepIdx (s : State) (p : ClassPar) : Nat := (if p.normal then s.pos.sNorm else s.pos.sAll) % 4096

/-- One neuron of block `b` evaluated with input `a`, in the step `ssn`; a word with an uncorrectable error is left (R151). -/
def State.evalNeuron (s : State) (b : Nat) (async : Bool) (ssn : Nat) (n : Nat) (a : Int) : State :=
  let x := s.block b
  if x.badState.contains n then s else
  let old := x.neuron n
  let par := s.classPar b old.cls
  let backstop := (s.pos.cur.map (·.backstop)).getD false
  let (new, emits, lfsr, fired) := evaluate ⟨par, async, backstop, s.stepIdx par⟩ old a x.lfsr
  let again := !async && fired &&
    (decide ((par.theta : Int) ≤ new.membrane) || (par.twoSided && decide (new.membrane ≤ -(par.theta : Int))))
  let evs := emits.map (s.emitted b n ssn)
  let s := s.onBlock b fun x =>
    let x := x.setNeuron n new
    { x with lfsr := lfsr, out := x.out ++ evs, recheck := if again then x.recheck ++ [n] else x.recheck }
  let s := s.bumpIf again (pid 5 b 0x202)
  forEach evs (fun s h => s.sendEvent (ringPos (b / 16)) (b / 16) h) s

/-- Sum of the step's updates by neuron, modulo 2^24 (R126). -/
def sumUpdates (us : List Update) : Sparse Nat :=
  us.foldl (fun m u => Sparse.put u.neuron (codeOf 24 ((Sparse.get (fun _ => 0) m u.neuron : Nat) + u.input)) m) []

/-- A program of the block rounds stochastically, so that the order of evaluation shows (R139). -/
def State.stochastic (s : State) (b : Nat) : Bool :=
  (upTo 16).any fun c => let p := s.classPar b c; (p.prog.take p.len).any (· == 0x4001)

/-- The order in which a block's pipes take neurons: by index, or free where stochastic rounding shows it (R139, R140).
(log 12, DESIGN CHOICE) -/
def State.evalOrder (s : State) (b : Nat) (ns : List Nat) : List Nat × State :=
  if s.stochastic b then
    let (i, s) := s.takeFree
    (sortBy (fun m n => Config.orderKey i m ≤ Config.orderKey i n) ns, s)
  else (ns, s)

/-- Neurons the refresh sweep selects: age at least 2,048 in a step whose s_all is a multiple of 1,024 (R130). -/
def State.refreshSet (s : State) (b : Nat) : List Nat :=
  if s.pos.sAll % 1024 = 0 then
    let x := s.block b
    let idx := (upTo 16).map fun c => s.stepIdx (s.classPar b c)
    (upTo 32768).filter fun n =>
      let w := x.neuron n
      decide (2048 ≤ (idx.getD w.cls 0 + 4096 - w.stamp) % 4096)
  else []

/-- A block evaluates its step in passes (R126 to R130). -/
def State.evalBlock (s : State) (b ssn : Nat) : State :=
  let x := s.block b
  let res := x.input.map x.updatesOf
  let us := (res.flatMap (·.2)).filter fun u => !x.badState.contains u.neuron
  let sums := sumUpdates us
  let passes := ceilDiv sums.length 4096
  let refresh := s.refreshSet b
  let rest := (sortBy (fun (m n : Nat) => decide (m ≤ n)) (x.recheck ++ refresh)).eraseDups.filter fun n => !(Sparse.keys sums).contains n
  let s := s.bump (pid 5 b 0x204) (res.filter fun r => !r.1).length
  let s := if 1 < passes then
    ((s.flag (pid 5 b 2) 1).bump (pid 5 b 0x200)).bump (pid 5 b 0x201) (passes - 1) else s
  let s := s.bump (pid 5 b 0x203) refresh.length
  let s := s.onBlock b fun x => { x with recheck := [] }
  let (order, s) := s.evalOrder b (Sparse.keys sums)
  let s := forEach order (fun s n =>
    let a := if x.badAcc.contains n then 0 else signedOf 24 (Sparse.get (fun _ => 0) sums n)
    s.evalNeuron b false ssn n a) s
  let (order, s) := s.evalOrder b rest
  let s := forEach order (fun s n => s.evalNeuron b false ssn n 0) s
  s.onBlock b fun x => { x with evaluated := true, badAcc := [] }

/-- A block has all its input for the step: its node delivered every event due, and STEP_END came from all eight nodes
(R173). -/
def State.inputComplete (s : State) (b : Nat) : Bool :=
  match s.curSsn with
  | none => false
  | some n =>
    let nd := s.node (b / 16)
    let x := s.block b
    s.takesPart b && nd.released && (upTo 8).all (fun q => nd.stepEnds.contains q) &&
    !(nd.sram ++ nd.spill).any (·.due n) && !x.evaluated && !x.finished

/-- BLOCK_INPUT_COMPLETE (R126 to R130, R173). -/
def execBlockInputComplete (region block : Nat) (s : State) : Host.Outcome State Fault Refusal :=
  let b := region * 16 + block
  onUnit (decide (region < 8) && decide (block < 16)) s
    (whenDue (s.inputComplete b) (fun s => s.evalBlock b (s.curSsn.getD 0)) s)

/-- ASYNC_SYNAPTIC_UPDATE: one waiting update is evaluated at once (R132). -/
def execAsyncSynapticUpdate (region block index : Nat) (s : State) : Host.Outcome State Fault Refusal :=
  let b := region * 16 + block
  onUnit (decide (region < 8) && decide (block < 16)) s
    (match (s.block b).updates[index]? with
     | none => s
     | some u =>
       let s := s.onBlock b fun x => { x with updates := x.updates.eraseIdx index }
       let s := s.evalNeuron b true s.ssnDone u.neuron u.input
       let s := s.onBlock b fun x => { x with out := [] }
       s.sleepIdle b)

/-- STATE_WORD_REPAIR: the Hub rewrites a word with an uncorrectable error from the image (R151). -/
def execStateWordRepair (region block : Nat) (synapse : Bool) (index : Nat) (s : State) : Host.Outcome State Fault Refusal :=
  let b := region * 16 + block
  onUnit (decide (region < 8) && decide (block < 16)) s
    (if synapse then s.onBlock b fun x => { x with badSyn := x.badSyn.filter (· != index) }
     else whenDue ((s.block b).badState.contains index) (fun s =>
       let x := s.block b
       let c := x.classOf index
       let p := s.classPar b c
       s.onBlock b fun x =>
         { x.setNeuron index ⟨p.reset, if p.refract = 0 then 0 else 0xC00, s.stepIdx p, c⟩ with
           badState := x.badState.filter (· != index) }) s)

end Sys2Proof.Machine
end

