-- ==== Sys2Proof/Machine/Router.lean ====
section
/-!
DEFINITION. The ring's commands (06_router.md): flits received at a node, and read-back of spilled events.
-/

namespace Sys2Proof.Machine

/-- Corrected words of a flit counted at the receiving node (R160). (log 68, DEDUCED) -/
def State.flitCorr (s : State) (node : Nat) (ecc : List EccCheck) : State :=
  s.bump (pid 4 (ringUnit node) 0x100) (ecc.filter (· == .corrected)).length

/-- A word of a flit is uncorrectable. -/
def wordBad (ecc : List EccCheck) (i : Nat) : Bool := ecc[i]? == some .uncorrectable

/-- Both copies of a CLOSE or STEP_END flit, words 0 and 1 and words 2 and 3, are bad (R160). -/
def copiesBad (ecc : List EccCheck) : Bool := (wordBad ecc 0 || wordBad ecc 1) && (wordBad ecc 2 || wordBad ecc 3)

/-- NODE_STATUS.FLIT_UE set when a word is uncorrectable (R160). -/
def State.flitUe (s : State) (node : Nat) (ecc : List EccCheck) : State :=
  s.flagIf (ecc.any (· == .uncorrectable)) (pid 4 (ringUnit node) 1) 2

/-- An EVENTS flit with an uncorrectable word: lost, counted and reported by the receiving node, and marked; `fs` are the
flits behind it (R160). (log 68, DEDUCED) -/
def State.flitLost (s : State) (node : Nat) (f : Flit) (evs : List Held) (fs : List Flit) : State :=
  let u := ringUnit node
  let s := ((s.bump (pid 4 u 0x101) evs.length).flag (pid 4 u 1) 2).report 0x04 u 0x0F 0
  match ringRegion f.dest with
  | none => s
  | some r =>
    let mask := s.regionBands (s.regionsAt r)
    if s.regionAsync r then s else forEach evs (fun s h => s.markHeld fs h mask) s

/-- Flits of a flit's pair behind it on the ring. -/
def State.behind (s : State) (f : Flit) : List Flit :=
  ((s.rtr.ring.dropWhile (· != f)).drop 1).filter fun g => g.dest == f.dest && g.src == f.src

/-- FLIT_EVENTS_RX: the flit is held or delivered at its destination, and stands in the receive buffer of a node it passes
(R158, R160, R161, R172, R174, R176, R178). -/
def execFlitEventsRx (node : Nat) (up : Bool) (header : EccCheck) (words : List EccCheck) (s : State) :
    Host.Outcome State Fault Refusal :=
  onUnit (decide (node < 11)) s
    (match s.nextFlit node up with
     | some (f, t) =>
       match f.body with
       | .events evs =>
         let t := t.flitCorr node (header :: words)
         if (header :: words).any (· == .uncorrectable) then (t.takeFlit f).flitLost node f evs (s.behind f)
         else if f.dest != node then t.passFlit f node
         else match ringRegion node with
           | some r => forEach evs (fun s h => s.holdEvent r h) (t.takeFlit f)
           | none => t.takeFlit f
       | _ => s
     | none => s)

/-- A CLOSE or STEP_END flit with both copies bad: the receiving region's Hub reports it failed; at a node of no region, that
of the destination (R160). (log 11, DEDUCED) -/
def State.copiesLost (s : State) (node : Nat) (f : Flit) : State :=
  match (ringRegion node).orElse fun _ => ringRegion f.dest with
  | some r => (s.takeFlit f).hubFail r
  | none => s.takeFlit f

/-- FLIT_CLOSE_RX: either intact copy serves (R160, R172). -/
def execFlitCloseRx (node : Nat) (up : Bool) (header : EccCheck) (words : List EccCheck) (s : State) :
    Host.Outcome State Fault Refusal :=
  onUnit (decide (node < 11)) s
    (match s.nextFlit node up with
     | some (f, t) =>
       match f.body with
       | .close k backstop ssn =>
         let t := (t.flitCorr node (header :: words)).flitUe node (header :: words)
         if copiesBad (header :: words) then t.copiesLost node f
         else if f.dest != node then t.passFlit f node
         else match ringRegion node with
           | some r => (t.takeFlit f).takeClose r k backstop ssn
           | none => t.takeFlit f
       | _ => s
     | none => s)

/-- STEP_END of region `q` for fabric step `ssn` taken by region `r`'s node (R173). -/
def State.takeStepEnd (s : State) (r q ssn : Nat) : State :=
  if s.curSsn == some ssn then s.onNode r fun n => { n with stepEnds := n.stepEnds ++ [q] } else s

/-- FLIT_STEP_END_RX (R160, R173). -/
def execFlitStepEndRx (node : Nat) (up : Bool) (first second behind : List EccCheck) (s : State) :
    Host.Outcome State Fault Refusal :=
  onUnit (decide (node < 11)) s
    (match s.nextFlit node up with
     | some (f, t) =>
       match f.body with
       | .stepEnd ssn =>
         let ecc := first ++ second ++ behind
         let t := (t.flitCorr node ecc).flitUe node ecc
         if copiesBad ecc then t.copiesLost node f
         else if f.dest != node then t.passFlit f node
         else match ringRegion node, ringRegion f.src with
           | some r, some q => (t.takeFlit f).takeStepEnd r q ssn
           | _, _ => t.takeFlit f
       | _ => s
     | none => s)

/-- A CONTROL flit received: it stands in the receive buffer of a node it passes; its destination uses it unseen (R159).
(log 11, DEDUCED) -/
def State.takeControl (s : State) (node : Nat) (ecc : List EccCheck) (f : Flit) : State :=
  let s := (s.flitCorr node ecc).flitUe node ecc
  if f.dest != node then s.passFlit f node else s.takeFlit f

/-- FLIT_CONTROL_RX: configuration and Hub traffic, whose payload the host does not see; the neighbour injects it now when
`own` names its destination (R159, R161, R163). (log 11, DEDUCED) -/
def execFlitControlRx (hop : Nat × Bool) (ecc : List EccCheck) (own : Option Nat) (s : State) :
    Host.Outcome State Fault Refusal :=
  onUnit (decide (hop.1 < 11) && own.all fun d => decide (d < 11)) s
    (match own with
     | none =>
       match s.nextFlit hop.1 hop.2 with
       | some (f, t) => match f.body with
         | .control => t.takeControl hop.1 ecc f
         | _ => s
       | none => s
     | some d =>
       let p := nextPos hop.1 (!hop.2)
       let f : Flit := ⟨d, p, .control, p, false⟩
       whenDue (s.running && d != p && f.up == hop.2) (fun s =>
         match s.pickFlit p hop.2 (some f) with
         | some (_, true, fresh) =>
           (({ s with rtr := { s.rtr with ring := s.rtr.ring ++ [f] } }).countGrant p hop.2 true fresh).takeControl hop.1 ecc f
         | _ => s) s)

/-- SPILL_READBACK: spilled events due now are released as they are read back; those due in the next step move into free SRAM
entries (R175). (log 11, DEDUCED) -/
def execSpillReadback (region : Nat) (s : State) : Host.Outcome State Fault Refusal :=
  onUnit (decide (region < 8)) s
    (match s.curSsn with
     | none => s
     | some n =>
       let nd := s.node region
       whenDue (ssnReached nd.closeSeen n) (fun s =>
         let now := nd.spill.filter (·.due n)
         let next := (nd.spill.filter (·.due ((n + 1) % 2 ^ 32))).take (32768 - nd.sram.length)
         let s := s.onNode region fun x =>
           { x with sram := x.sram ++ next, spill := next.foldl (fun l h => l.erase h) (x.spill.filter fun h => !h.due n) }
         (forEach now (fun s h => (s.deliver region h).forward region h) s).releaseNode region) s)

end Sys2Proof.Machine
end

