-- ==== Sys2Proof/Machine/Tailrace.lean ====
section
/-!
DEFINITION. The Tailrace (10_decisions.md R260 to R277): columns and lanes, the verdict store, records, LATE defaults, slots,
result frames, and the launch of a frame (03_network_time.md R85 to R87).
-/

namespace Sys2Proof.Machine

/-- TAILRACE module, lane and group words. -/
def tailId (i : Nat) : Nat := pid 0x0C 0 i
def laneId (l i : Nat) : Nat := pid 0x0C (0x40 + l) i
def groupId (g i : Nat) : Nat := pid 0x0C (0x20 + g) i

/-- MARGIN in ns. -/
def State.margin (s : State) : Int := (s.fld (tailId 0) 1 11 * 1000 : Nat)

/-! ### Lanes (R260, R261) -/

/-- Column of an across centre, and whether it was clamped (R260). (log 18, DEDUCED) -/
def State.column (s : State) (across : Int) : Nat × Bool :=
  let q := (across - s.fld (tailId 2) 0 16).fdiv (s.fld (tailId 2) 16 12 : Nat)
  let top : Int := s.fld (tailId 3) 0 6
  (clampInt 0 top q |>.toNat, decide (q < 0) || decide (top < q))

/-- First lane of row `r`. -/
def State.rowBase (s : State) (r : Nat) : Nat := s.fld (tailId 3) (6 + 6 * r) 6

/-- Row of a class; none for NONE (R261). -/
def State.classRow (s : State) (c : Nat) : Option Nat :=
  let r := s.fld (pid 0x0C 1 (c / 8)) (4 * (c % 8)) 3
  if r < 4 then some r else none

/-- Lane of a verdict of class `c` in column `col`, and whether it is a PASS verdict, which takes the home lane (R261). -/
def State.laneOf (s : State) (c col home : Nat) : Nat × Bool :=
  match s.classRow c with
  | some r => (s.rowBase r + col, false)
  | none => (home, true)

/-- LEAD and ADVANCE of a lane. -/
def State.lead (s : State) (l : Nat) : Nat := s.fld (laneId l 1) 0 24
def State.advance (s : State) (l : Nat) : Nat := s.fld (laneId l 2) 0 20

/-! ### Target and times (R263, R264) -/

/-- (ANCHOR + x) counts in 1/65,536 count, `x` in binary32. -/
def fixedAlong (anchor : Nat) (x : F32) : Int := anchor * 65536 + f32ToInt (f32Mul x 0x47800000)

/-- Target of lane `l` for a track, with the predicted along component `xe1` (R263). -/
def State.targetOf (s : State) (l anchor : Nat) (xe1 : F32) : Nat :=
  codeOf 64 (fixedAlong anchor xe1 + s.lead l * 65536)

/-- Arrival and launch time of a target on lane `l`, at the device time and position of this instant (R264). -/
def State.arrival (s : State) (l target : Nat) : (Int × Int) × State :=
  let (p, s) := s.posNow
  let v : Int := max (s.word (pid 0x0E 0 0x0C)).toInt (s.word (tailId 1)).toNat
  let d := pos64Diff target p
  let t := s.dev
  let arr := if d ≤ 0 then t else t + rneDiv (d * (1000000000 * 128)) (65536 * v.toNat)
  ((arr, arr - s.advance l * 1000), s)

/-! ### Frames (R272, R273, R276) -/

/-- A record in the 32-byte form, in a frame launched at `launch` (R270). -/
def VerdictRec.bytes (r : VerdictRec) (launch : Int) : List Byte :=
  leBytes 4 (r.lane + r.cls * 2 ^ 8 + r.conf * 2 ^ 16 + r.flags * 2 ^ 24) ++ leBytes 4 r.id ++ leBytes 8 r.target ++
  leBytes 6 (secOf launch) ++ leBytes 4 (nsOf launch) ++ leBytes 2 (codeOf 16 r.slotIx) ++ leBytes 1 r.boxes ++ [0, 0, 0]

/-- A record in the CKG-4064 form (R276). -/
def VerdictRec.compatBytes (r : VerdictRec) : List Byte :=
  leBytes 4 (r.lane + r.cls * 2 ^ 8 + r.conf * 2 ^ 16 + (r.flags &&& 0x8F) * 2 ^ 24) ++ leBytes 4 r.id ++
  leBytes 4 (r.target / 65536) ++ leBytes 2 (codeOf 16 r.slotIx) ++ [0, 0]

/-- Result header of a frame (R272, R276). -/
def resultHeader (compat : Bool) (count src group : Nat) (launch : Int) : List Byte :=
  if compat then leBytes 1 1 ++ [0] ++ leBytes 2 count ++ leBytes 1 src ++ [0, 0, 0]
  else leBytes 1 2 ++ [0] ++ leBytes 2 count ++ leBytes 1 src ++ leBytes 1 group ++ [0, 0] ++ leBytes 8 (secOf launch)

/-- Ones' complement sum of big-endian 16-bit words. -/
def onesSum : List Byte → Nat
  | [] => 0
  | [a] => a.toNat * 256
  | a :: b :: rest => let t := a.toNat * 256 + b.toNat + onesSum rest; t % 65536 + t / 65536

/-- Internet checksum. -/
def inetSum (bs : List Byte) : Nat := 0xFFFF - onesSum bs

/-- IPv4 and UDP headers over a payload: identification 0, both checksums computed (R272). (log 25, DEDUCED) -/
def udpHeaders (sip dip sport dport : Nat) (payload : List Byte) : List Byte :=
  let ulen := 8 + payload.length
  let ip := fun c => beBytes 2 0x4500 ++ beBytes 2 (20 + ulen) ++ beBytes 2 0 ++ beBytes 2 0x4000 ++ beBytes 2 0x4011 ++
    beBytes 2 c ++ beBytes 4 sip ++ beBytes 4 dip
  let udp := fun c => beBytes 2 sport ++ beBytes 2 dport ++ beBytes 2 ulen ++ beBytes 2 c
  let c := inetSum (beBytes 4 sip ++ beBytes 4 dip ++ beBytes 2 17 ++ beBytes 2 ulen ++ udp 0 ++ payload)
  ip (inetSum (ip 0)) ++ udp (if c = 0 then 0xFFFF else c)

/-- The copy of a group's frame for port `p`, without FCS (R272). -/
def State.frameBytes (s : State) (g p seq : Nat) (payload : List Byte) : List Byte × Bool :=
  let w := groupId g 0
  let udp := s.bitAt w 1
  let vlan := if s.bitAt w 31 then beBytes 2 0x8100 ++ beBytes 2 (s.fld w 28 3 * 2 ^ 13 + s.fld w 16 12) else []
  let inner := if udp then udpHeaders (s.word (tailId 0x14)).toNat (s.word (groupId g 3)).toNat (s.fld (groupId g 4) 16 16)
    (s.fld (groupId g 4) 0 16) payload else []
  (beBytes 6 (s.wide (groupId g 1) % 2 ^ 48) ++ beBytes 6 (s.wide (tailId (0x10 + 2 * p)) % 2 ^ 48) ++ vlan ++
   beBytes 2 0xF1C1 ++ [0, 0] ++ beBytes 2 seq ++ beBytes 2 (if udp then 0x0800 else 0x88B5) ++ inner ++ payload, udp)

/-- Offset of the result header in a frame. -/
def resultOffset (frame : List Byte) (udp : Bool) : Nat :=
  12 + (if (frame.drop 12).take 2 = beBytes 2 0x8100 then 4 else 0) + 8 + (if udp then 28 else 0)

/-- The frame with the late-launch bit set and the UDP checksum computed again (R87). -/
def setLateBit (frame : List Byte) (udp : Bool) : List Byte :=
  let o := resultOffset frame udp
  let f := updateAt frame (o + 1) fun b => b ||| 1
  if !udp then f
  else
    let ip := (f.drop (o - 28)).take 20
    let at_ := fun i n => (ofLe ((ip.drop i).take n).reverse)
    let u := (f.drop (o - 8)).take 8
    f.take (o - 28) ++ udpHeaders (at_ 12 4) (at_ 16 4) (ofLe (u.take 2).reverse) (ofLe ((u.drop 2).take 2).reverse) (f.drop o) ++
      f.drop o

/-- The frame as it leaves: padded to 64 bytes with its FCS (R272, R276). -/
def wireFrame (frame : List Byte) : List Byte :=
  let f := frame ++ List.replicate (60 - frame.length) 0
  f ++ leBytes 4 (crc8023 f)

/-! ### Launch queues (R85 to R87) -/

/-- A frame put into a launch queue with room, in order of launch time (R85). -/
def State.enqueue (s : State) (p : Nat) (l : Launch) : State :=
  s.setLaunchQ p (insertBy (fun (a b : Launch) => decide (a.time ≤ b.time)) l (s.launchQ p))

/-- A copy written to port `p`'s launch queue, refused when too far ahead, held while the queue is full (R85, R273). -/
def State.writeCopy (s : State) (p : Nat) (t : Int) (f : List Byte) (udp : Bool) : State :=
  if !s.portUp p then (s.bump (tailId 0x107)).flag (tailId 0x20) 1
  else if s.dev + 1000000000 < t then s.bump (tportId p 4)
  else if (s.launchQ p).length < 64 then s.enqueue p ⟨t, f, udp⟩
  else { s with tail := { s.tail with heldCopies := s.tail.heldCopies ++ [(p, t, f, udp)] } }

/-- The oldest copy held for port `p` is written once the launch queue has room, or skipped while the port is down (R273). -/
def State.refillOne (s : State) (p : Nat) : State :=
  match s.tail.heldCopies.find? (·.1 == p) with
  | some (_, t, f, udp) =>
    if (s.launchQ p).length < 64 then
      let s := { s with tail := { s.tail with heldCopies := removeFirst (·.1 == p) s.tail.heldCopies } }
      if s.portUp p then s.enqueue p ⟨t, f, udp⟩ else (s.bump (tailId 0x107)).flag (tailId 0x20) 1
    else s
  | none => s

/-- The copies held for port `p` are written as far as there is room (R273). -/
def State.refillQueue (s : State) (p : Nat) : State :=
  (s.tail.heldCopies.filter (·.1 == p)).foldl (fun s _ => s.refillOne p) s

/-- Records of group `g` that are ready, in order of launch time, lane and OBJECT_ID (R271). -/
def State.readyRecs (s : State) (g : Nat) : List VerdictRec :=
  sortBy (fun (a b : VerdictRec) =>
    decide (a.launch < b.launch) || (a.launch == b.launch && (decide (a.lane < b.lane) || (a.lane == b.lane && decide (a.id ≤ b.id)))))
    (s.tail.recs.filter (·.group == g))

/-- The records of the next frame of group `g`: those whose launch time lies in [L, L + BATCH us], formed by one module.
(log 25, DEDUCED) -/
def State.batchOf (s : State) (g : Nat) : List VerdictRec :=
  match s.readyRecs g with
  | [] => []
  | r :: rest =>
    (r :: rest.filter fun x => decide (x.launch ≤ r.launch + s.fld (tailId 0) 12 5 * 1000) && x.src == r.src).take
      (s.fld (tailId 0) 17 5 + 1)

/-- One frame built for group `g` and written to its ports (R271 to R273). (log 25, DEDUCED) -/
def State.buildFrame (s : State) (g : Nat) : State :=
  let recs := s.batchOf g
  match recs with
  | [] => s
  | r :: _ =>
    let c := s.compat
    let payload := resultHeader c recs.length r.src g r.launch ++
      recs.flatMap fun x => if c then x.compatBytes else x.bytes r.launch
    let seq := s.fld (groupId g 5) 0 16
    let own := recs.filter (!·.relayed)
    let s := { s with tail := { s.tail with
      recs := recs.foldl (fun l x => l.erase x) s.tail.recs,
      written := s.tail.written ++ own.map fun (x : VerdictRec) => (x.lane, x.slotIx) } }
    let s := ((s.setFld (groupId g 5) 0 16 (seq + 1)).bump (tailId 0x106)).bump (tailId 0x100) recs.length
    forEach ((upTo 2).filter fun p => bitOf (s.fld (groupId g 0) 2 2) p) (fun s p =>
      let (f, udp) := s.frameBytes g p seq payload
      s.writeCopy p r.launch f udp) s

/-- The next frame of group `g` is due: L - MARGIN of its earliest record has come (R271). -/
def State.frameDue (s : State) (g : Nat) : Bool :=
  match s.readyRecs g with
  | [] => false
  | r :: _ => decide (r.launch - s.margin ≤ s.dev)

/-- FRAME_BUILD (R271 to R273, R276). -/
def execFrameBuild (group : Nat) (s : State) : Host.Outcome State Fault Refusal :=
  onUnit (decide (group < 8)) s (whenDue (s.frameDue group) (fun s => s.buildFrame group) s)

/-! ### Records (R266 to R270, R275) -/

/-- Entries of the verdict store (R265). -/
def State.storeUsed (s : State) : Nat := s.tail.pend.length + s.tail.recs.length

/-- FLAGS of a record (R270). -/
def flagsOf (degraded late conflict uncertain split pass : Bool) : Nat :=
  bit degraded + 2 * bit late + 4 * bit conflict + 8 * bit uncertain + 16 * bit split + 32 * bit pass

/-- SPLIT and BOXES of a record: 0xFF where the object's plan has no box stage, 0 without a box result (R269, R398). -/
def State.boxField (s : State) (gen : Nat) (boxes : Option Nat) : Bool × Nat :=
  if (s.planOf gen).box.isNone then (false, 0xFF)
  else match boxes with
    | some n => (decide (2 ≤ n), min n 64)
    | none => (false, 0)

/-- A relayed group's record sent to its module (R275). (log 25, DEDUCED) -/
def State.relayRec (s : State) (r : VerdictRec) : State :=
  let w := groupId r.group 0
  match s.sendVerdict (s.fld w 5 8) (s.fld w 13 3) (r.bytes r.launch) r.launch with
  | some s => (s.bump (tailId 0x100)).bump (tailId 0x108)
  | none => (s.bump (tailId 0x10A)).flag (tailId 0x20) 2

/-- A record in the store whose L - MARGIN has passed is written at once (R266, R271). -/
def State.writeLate (s : State) (r : VerdictRec) : State :=
  if r.launch - s.margin ≤ s.dev && s.frameDue r.group then s.buildFrame r.group else s

/-- A record enters the store under the slot rule, or is sent on (R268, R275); it is written at once when late (R266).
(log 25, DEDUCED) -/
def State.placeRec (s : State) (r : VerdictRec) : State :=
  if s.tail.written.contains (r.lane, r.slotIx) then s.bump (tailId 0x102)
  else match s.tail.recs.find? fun x => !x.relayed && x.lane == r.lane && x.slotIx == r.slotIx with
    | some h =>
      let keep := if bitOf h.flags 5 && !bitOf r.flags 5 then r else h
      (({ s with tail := { s.tail with recs := s.tail.recs.erase h ++ [{ keep with flags := keep.flags ||| 64 }] } }).bump
        (tailId 0x102)).writeLate keep
    | none =>
      if s.bitAt (groupId r.group 0) 4 then
        { s with tail := { s.tail with written := s.tail.written ++ [(r.lane, r.slotIx)] } }.relayRec r
      else { s with tail := { s.tail with recs := s.tail.recs ++ [r] } }.writeLate r

/-- A record formed from its parts: lane, class and confidence, flags, target, boxes; the home lane judges PASS, and a LATE
verdict is emitted on a lane that is not in use too (R261, R266). (log 25, DEDUCED) -/
def State.formRec (s : State) (e : PendVerdict) (late pass : Bool) (v : Vote) : State :=
  if pass && (s.compat || (!late && !s.bitAt (laneId e.home 0) 29)) then s.bump (tailId 0x103)
  else if !late && !s.bitAt (laneId v.lane 0) 0 then s
  else
    let ((arr, launch), s) := s.arrival v.lane v.target
    let (split, boxes) := s.boxField e.gen v.boxes
    s.placeRec
      { lane := v.lane, cls := v.cls, conf := v.conf, flags := flagsOf v.degraded late v.conflict v.uncertain split pass,
        id := e.id, target := v.target, arr := arr, launch := launch,
        slotIx := (arr - s.pos.armDev).fdiv (s.fld (laneId v.lane 0) 1 17 * 10 : Nat), boxes := boxes,
        group := s.fld (laneId v.lane 0) 18 3, src := s.addr, relayed := false }

/-- The store without a pending verdict. -/
def State.dropPend (s : State) (e : PendVerdict) : State :=
  { s with tail := { s.tail with pend := s.tail.pend.erase e } }

/-- The record of a pending verdict formed from its vote (R266). -/
def State.formVote (s : State) (e : PendVerdict) (v : Vote) : State :=
  ((s.sample 5 0 ((e.launch - s.margin - s.dev).fdiv 1000)).dropPend e).formRec e false (s.classRow v.cls).isNone v

/-- A pending verdict's wait ends: it forms its record from a held vote, else goes on waiting for one (R485).
(log 18, DEDUCED) -/
def State.endWait (s : State) (e : PendVerdict) : State :=
  match e.vote with
  | some v => s.formVote e v
  | none => { s with tail := { s.tail with pend := s.tail.pend.map fun x => if x = e then { x with wait := none } else x } }

/-! ### Pending verdicts (R192, R193, R265, R485) -/

/-- Band of a logical region; none when empty (R168). -/
def State.band (s : State) (g : Nat) : Option (Int × Int) :=
  let b := pid 4 0x10 (0x10 + g)
  if s.fld b 16 16 < s.fld b 0 16 then none else some (s.fld b 0 16, s.fld b 16 16)

/-- Two logical regions are adjacent (R193). -/
def State.adjacent (s : State) (a b : Nat) : Bool :=
  match s.band a, s.band b with
  | some (la, ha), some (lb, hb) => ha + 1 == lb || hb + 1 == la
  | _, _ => false

/-- Two BOUNDARY pending verdicts are one object (R193). (log 18, DEDUCED) -/
def State.pairs (s : State) (o e : PendVerdict) : Bool :=
  let w := pid 6 0x10 1
  o.wait.isSome && s.adjacent o.lr e.lr && f32Le (f32Abs (f32Sub o.across e.across)) (f32OfInt (s.fld w 4 12)) &&
  decide ((pos64Diff (codeOf 64 o.along) (codeOf 64 e.along)).natAbs ≤ s.fld w 16 16 * 65536)

/-- A BOUNDARY pending verdict enters: its pair is resolved now, or it waits (R193, R485). -/
def State.enterBoundary (s : State) (e : PendVerdict) : State :=
  let add := fun (s : State) (e : PendVerdict) => { s with tail := { s.tail with pend := s.tail.pend ++ [e] } }
  match s.tail.pend.find? (s.pairs · e) with
  | none => add s e
  | some o =>
    let mean := rneDiv (o.own + e.own) 2
    let s := s.bump (pid 6 0x10 0x100)
    match s.band e.lr with
    | some (lo, hi) =>
      if lo ≤ mean ∧ mean ≤ hi then add ((s.dropPend o).closeObject o.lr o.slot o.id false) { e with wait := none }
      else (s.closeTrack e.lr e.slot false).endWait o
    | none => (s.closeTrack e.lr e.slot false).endWait o

/-- A track that has gone MATURE hands over its pending verdict (R192, R195, R260, R265). The home column is that of the centre
predicted to the ejector of the lane the track is nearest to, whose lead R195 needs before a home lane is known.
`k` is a free-value index. (log 18, DEDUCED) -/
def State.handOver (s : State) (lr i k : Nat) (t : Slot) : State :=
  if !s.bitAt (tailId 0) 0 then (s.closeTrack lr i false).bump (tailId 0x10B)
  else if 32768 ≤ s.storeUsed then
    (((s.bump (tailId 0x105)).flag (tailId 0x20) 3).report 0x0C 0 0x0C t.id).closeTrack lr i false
  else
    let own := f32ToInt (t.x.getD 0 0)
    let near := s.rowBase 0 + (s.column own).1
    let (col, clamped) := s.column (f32ToInt (s.ejectorCentre lr k (s.lead near) t).1)
    let home := s.rowBase 0 + col
    let s := s.bumpIf clamped (tailId 0x104)
    let (xe0, xe1) := s.ejectorCentre lr k (s.lead home) t
    let target := s.targetOf home t.anchor xe1
    let ((arr, launch), s) := s.arrival home target
    let e : PendVerdict :=
      { lr := lr, slot := i, id := t.id, home := home, own := own, across := xe0, along := fixedAlong t.anchor xe1,
        degraded := t.degraded, target := target, arr := arr, launch := launch,
        wait := if t.boundary then some ((s.ssnClosed + s.fld (pid 6 0x10 1) 0 4) % 2 ^ 32) else none, vote := none,
        gen := s.obj.gen }
    if t.boundary then s.enterBoundary e else { s with tail := { s.tail with pend := s.tail.pend ++ [e] } }

/-- Pending verdict of an object. -/
def State.pendOf (s : State) (id : Nat) : Option PendVerdict := s.tail.pend.find? (·.id == id)

/-- PAIR_WAIT_END (R193, R485). -/
def execPairWaitEnd (object : Word) (s : State) : Host.Outcome State Fault Refusal :=
  .next (match s.pendOf object.toNat with
    | some e =>
      match e.wait with
      | some w => if ssnReached s.ssnClosed w then s.endWait e else s
      | none => s
    | none => s)

/-- The deadline D of a pending verdict (R265). -/
def State.deadline (s : State) (e : PendVerdict) : Int := e.launch - s.margin

/-- The LATE default of a pending verdict (R267). -/
def State.lateDefault (s : State) (e : PendVerdict) : State :=
  let (k, s) := s.takeFree
  let cls := s.fld (laneId e.home 0) 21 8
  let (lane, pass) := s.laneOf cls (e.home - s.rowBase 0) e.home
  let t := s.slot e.lr e.slot
  let target := match t with
    | some t => if t.id = e.id then s.targetOf lane t.anchor (s.ejectorCentre e.lr k (s.lead lane) t).2 else e.target
    | none => e.target
  let degraded := match t with | some t => if t.id = e.id then t.degraded else e.degraded | none => e.degraded
  let s := ((((s.sample 5 0 (-1)).dropPend e).bump (tailId 0x101)).bump (laneId e.home 0x10)).flag (tailId 0x20) 0
  (s.formRec e true pass
    { cls := cls, conf := 0, conflict := false, uncertain := false, degraded := degraded, lane := lane, target := target,
      boxes := none }).closeObject e.lr e.slot e.id true

/-- VERDICT_DEADLINE (R267, R485): a held vote forms the record, else the LATE default is formed. -/
def execVerdictDeadline (object : Word) (s : State) : Host.Outcome State Fault Refusal :=
  .next (match s.pendOf object.toNat with
    | some e =>
      whenDue (decide (s.deadline e ≤ s.dev)) (fun s => match e.vote with
        | some v => s.formVote e v
        | none => s.lateDefault e) s
    | none => s)

/-- A vote handed to the Tailrace: the emitted lane and target from the centre as it is now (R195, R260, R263); held while
the pending verdict waits for its pair (R485). A vote at the deadline or later is discarded (R194, R267). -/
def State.takeVote (s : State) (lr : Nat) (t : Slot) (cls conf : Nat) (conflict uncertain : Bool) (boxes : Option Nat) :
    State :=
  match s.pendOf t.id with
  | none => s.bump (tkId lr 0x405)
  | some e =>
    if s.deadline e ≤ s.dev then s.bump (tkId lr 0x405)
    else
      let (k, s) := s.takeFree
      let (col, clamped) := s.column (f32ToInt (s.ejectorCentre lr k (s.lead e.home) t).1)
      let (lane, pass) := s.laneOf cls col e.home
      let s := s.bumpIf (clamped && !pass) (tailId 0x104)
      let target := s.targetOf lane t.anchor (s.ejectorCentre lr k (s.lead lane) t).2
      let v : Vote := ⟨cls, conf, conflict, uncertain, t.degraded, lane, target, boxes⟩
      let s := if e.wait.isSome then
        { s with tail := { s.tail with pend := s.tail.pend.map fun x => if x = e then { x with vote := some v } else x } }
        else s.formVote e v
      s.closeTrack lr e.slot true

/-- A record received by relay: stored, sent on where its group relays in turn, or dropped as a PASS verdict under COMPAT (R265,
R275, R276). -/
def State.relayIn (s : State) (r : VerdictRec) : State :=
  let s := s.bump (tailId 0x109)
  if s.compat && bitOf r.flags 5 then s.bump (tailId 0x103)
  else if s.bitAt (groupId r.group 0) 4 then s.relayRec r
  else if 32768 ≤ s.storeUsed then ((s.bump (tailId 0x105)).flag (tailId 0x20) 3).report 0x0C 0 0x0C r.id
  else { s with tail := { s.tail with recs := s.tail.recs ++ [r] } }.writeLate r

/-! ### Launch (R86, R87) -/

/-- The port's record of the frame it sends. -/
def State.startFrame (s : State) (p : Nat) (f : List Byte) (late : Bool) : State :=
  let w := wireFrame f
  let t := s.dev
  let e := t + lineNs (s.bitAt (pid 0x13 p 0) 1) w.length
  let s := s.framesTx p 1
  if p = 0 then { s with time := { s.time with sent0 := some ⟨t, w, late⟩, txEnd0 := e } }
  else { s with time := { s.time with sent1 := some ⟨t, w, late⟩, txEnd1 := e } }

/-- FRAME_LAUNCH: the first frame of a launch queue starts, or is discarded (R86, R87). -/
def execFrameLaunch (port : Nat) (s : State) : Host.Outcome State Fault Refusal :=
  onUnit (decide (port < 2)) s
    (match s.launchQ port with
     | [] => s
     | l :: rest =>
       whenDue (decide (l.time ≤ s.dev) && s.mgmt.fault.fatal.isNone) (fun s =>
         let out := s.setLaunchQ port rest
         if !s.portUp port then (out.bump (tportId port 6)).refillQueue port
         else if s.dev < s.lineEnd port then s
         else if l.time + s.fld (tportId port 0) 17 10 < s.dev then
           if s.bitAt (tportId port 0) 16 then
             ((out.startFrame port (setLateBit l.frame l.udp) true).bump (tportId port 3)).refillQueue port
           else (out.bump (tportId port 2)).refillQueue port
         else (out.startFrame port l.frame false).refillQueue port) s)

end Sys2Proof.Machine
end

