-- ==== Sys2Proof/Machine/Tracker.lean ====
section
/-!
DEFINITION. The trackers (07_tracking_fusion.md R180 to R200, R205 to R207): measurements, association, the filter, the life
cycle, feature accumulators, the mirror, and the refinement of alignment.
-/

namespace Sys2Proof.Machine

/-! ### Reference positions and measurements (R184, R185) -/

/-- GUARD and half of LENGTH below a high-water position, as an offset from an anchor: Pref - ANCHOR in binary32 (R184). -/
def State.prefOff (s : State) (anchor hw : Nat) : F32 :=
  f32OfRat (2 * (posDiff hw anchor - s.guard) - s.stepLen) 2 0

/-- Numerator and denominator of a finite binary32 value. -/
def f32Ratio (x : F32) : Option (Int × Nat) :=
  match x.val with
  | .fin neg m e =>
    let n : Int := if neg then -(m : Int) else m
    some (if 0 ≤ e then (n * (2 ^ e.toNat : Nat), 1) else (n, 2 ^ (-e).toNat))
  | _ => none

/-- The count nearest to Pref - off, ties to even (R188). -/
def State.anchorOf (s : State) (hw : Nat) (off : F32) : Nat :=
  let base : Int := (hw : Int) - s.guard
  codeOf 48 (match f32Ratio off with
    | some (n, d) => rneDiv (2 * d * base - (s.stepLen * d + 2 * n)) (2 * d)
    | none => Config.noInteger off.toNat)

/-- Word `o` of measurement source `q` of a tracker. -/
def sourceId (lr q o : Nat) : Nat := tkId lr (0x100 + 0x40 * q + o)

/-- SOURCE and ROLE of decoder `k` (R184). -/
def State.decRole (s : State) (lr k : Nat) : Nat × Nat :=
  let w := tkId lr (0x200 + k / 8)
  (s.fld w (4 * (k % 8)) 2, s.fld w (4 * (k % 8) + 2) 2)

/-- Base + Scale * sum / VALUE in binary32 (R184). -/
def mapped (base scale : F32) (sum value : Int) : F32 :=
  f32Add base (f32Div (f32Mul scale (f32OfInt sum)) (f32OfInt value))

/-- A cell detection: across, the offset of its belt coordinate below Pref, velocities when it has a partner, weight. -/
structure Detection where
  dec : Nat
  a : F32
  off : F32
  vel : Option (F32 × F32)
  weight : F32
  deriving DecidableEq, Repr

/-- Across and along offset of a record by its source's parameters (R184). -/
def State.mapRec (s : State) (lr q : Nat) (r : DecRec) : F32 × F32 :=
  (mapped (s.word (sourceId lr q 2)) (s.word (sourceId lr q 3)) r.sx r.value,
   mapped (s.word (sourceId lr q 4)) (s.word (sourceId lr q 5)) r.sy r.value)

/-- Cell detections of source `q` among a step's records (R184). (log 18, DEDUCED) -/
def State.detections (s : State) (lr q : Nat) (recs : List DecRec) : List Detection :=
  recs.filterMap fun r =>
    if s.decRole lr r.channel = (q, 0) ∧ s.fld (sourceId lr q 0) 7 16 ≤ r.value.natAbs then
      let (a, off) := s.mapRec lr q r
      let partner := if r.channel < 64 ∧ s.decRole lr (r.channel + 64) = (q, 1) then
        recs.find? (·.channel == r.channel + 64) else none
      some { dec := r.channel, a := a, off := off, weight := f32OfInt r.value.natAbs,
             vel := partner.map fun v =>
               (mapped (s.word (sourceId lr q 6)) (s.word (sourceId lr q 7)) v.sx v.value,
                mapped (s.word (sourceId lr q 8)) (s.word (sourceId lr q 9)) v.sy v.value) }
    else none

/-- |x - y| is at most `n`. -/
def withinF (x y : F32) (n : Nat) : Bool := f32Le (f32Abs (f32Sub x y)) (f32OfInt n)

/-- One detection joined to the groups it touches, which become one (R185). -/
def joinGroup (near : Detection → Detection → Bool) (gs : List (List Detection)) (d : Detection) : List (List Detection) :=
  let (hit, rest) := gs.partition fun g => g.any (near d)
  rest ++ [hit.flatten ++ [d]]

/-- A measurement (R185): its components as the track sees them, with across in `a` and the along offset in `off`; `flow` is
its mean v_l where every member has a velocity partner. -/
structure Meas where
  num : Nat
  a : F32
  off : F32
  vels : List F32
  flow : Option F32
  weight : F32
  deriving DecidableEq, Repr

/-- The measurement of a group: means weighted by abs(VALUE) (R185). -/
def State.measOf (s : State) (lr q k : Nat) (g : List Detection) : Meas :=
  let w := fsum k (g.map (·.weight))
  let mean := fun (f : Detection → F32) => f32Div (fsum k (g.map fun d => f32Mul d.weight (f d))) w
  let dim := s.fld (sourceId lr q 0) 1 2 + 1
  let paired := g.all (·.vel.isSome)
  let vl := mean fun d => (d.vel.getD (0, 0)).2
  { num := (g.map (·.dec)).foldl min 127, a := mean (·.a), off := mean (·.off), weight := w,
    vels := if paired then [mean fun d => (d.vel.getD (0, 0)).1, vl].take (dim - 2) else [],
    flow := if paired then some vl else none }

/-- Measurements of source `q` in a step (R185). -/
def State.measurements (s : State) (lr q k : Nat) (recs : List DecRec) : List Meas :=
  let near := fun (x y : Detection) =>
    withinF x.a y.a (s.fld (sourceId lr q 1) 0 16) && withinF x.off y.off (s.fld (sourceId lr q 1) 16 16)
  ((s.detections lr q recs).foldl (joinGroup near) []).map (s.measOf lr q k)

/-! ### SHED marks and tracks (R116, R191) -/

/-- The integer below a binary32 value. -/
def f32ToFloor (x : F32) : Int := match f32Floor? x with | some n => n | none => Config.noInteger x.toNat

/-- Bands that an across value with HALF_ACROSS to each side meets. -/
def State.extentBands (s : State) (lr : Nat) (a : F32) : Nat :=
  let h := f32OfInt (s.fld (tkId lr 3) 0 16)
  bandMask (f32ToFloor (f32Sub a h)) (f32ToFloor (f32Add a h))

/-- What FLOW keeps of a measurement taken (R197). -/
def Meas.flowOf (m : Meas) : List (F32 × F32) := (m.flow.map fun v => (m.weight, v)).toList

/-- A track DEGRADED where its prediction or a measurement at `a` meets a marked band (R116). -/
def State.shedTrack (s : State) (lr shed : Nat) (a : F32) (t : Slot) : Slot :=
  if (s.extentBands lr a &&& shed) != 0 then { t with degraded := true } else t

/-- The state with every live slot of a region changed. -/
def State.mapSlots (s : State) (lr : Nat) (f : Slot → Slot) : State :=
  forEach (s.slotsOf lr) (fun s e => s.setSlot lr e.1 (some (f e.2))) s

/-- Fabric step `ssn` is one that some tracker has still to take. -/
def State.stepOwed (s : State) (ssn : Nat) : Bool := (upTo 8).any fun lr => (s.tracker lr).todo.any (·.ssn == ssn)

/-- A SHED mark placed on fabric step `ssn` while the trackers take it: on the trackers that have still to take it, and on the
tracks of those that have, by what they held in it (R116). -/
def State.markTaken (s : State) (ssn mask : Nat) : State :=
  forEach (upTo 8) (fun s lr =>
    let s := s.onTracker lr fun x =>
      { x with todo := x.todo.map fun t => if t.ssn = ssn then { t with shed := t.shed ||| mask } else t }
    s.mapSlots lr fun t =>
      if t.seen.any fun e => e.1 == ssn && (s.extentBands lr e.2 &&& mask) != 0 then { t with degraded := true } else t) s

/-- A track slot's state changed. -/
def State.onSlot (s : State) (lr i : Nat) (f : Slot → Slot) : State :=
  match s.slot lr i with
  | some t => s.setSlot lr i (some (f t))
  | none => s

/-! ### Association and update (R187, R189, R190) -/

/-- H and NOISE of a source for a measurement of dimension `dim`. -/
def State.measH (s : State) (lr q dim : Nat) : Mat := s.matrix lr (0x110 + 0x40 * q) dim (s.stateDim lr) 6
def State.measNoise (s : State) (lr q dim : Nat) : Mat := s.matrix lr (0x130 + 0x40 * q) dim dim 4

/-- z of a measurement relative to a track (R187). -/
def State.relZ (s : State) (hw : Nat) (t : Slot) (m : Meas) : List F32 :=
  [m.a, f32Sub (s.prefOff t.anchor hw) m.off] ++ m.vels

/-- The pair lies within BOX_ACROSS and BOX_ALONG (R189). -/
def State.inBox (s : State) (lr hw : Nat) (t : Slot) (m : Meas) : Bool :=
  let z := s.relZ hw t m
  withinF (t.x.getD 0 0) (z.getD 0 0) (s.fld (tkId lr 2) 0 16) && withinF (t.x.getD 1 0) (z.getD 1 0) (s.fld (tkId lr 2) 16 16)

/-- Innovation y and inv(S) of a pair; none when the factorisation of S fails (R187). (log 19, DEDUCED) -/
def State.innovation (s : State) (lr q hw k : Nat) (t : Slot) (m : Meas) : Option (List F32 × Mat) :=
  let n := s.stateDim lr
  let z := s.relZ hw t m
  let dim := z.length
  let h := s.measH lr q dim
  let y := List.zipWith f32Sub z (h.apply k (t.x.take n))
  let sm := Mat.add (Mat.mul k (Mat.mul k h (triFull t.p) dim n n) (h.transpose dim n) dim n dim) (s.measNoise lr q dim)
  (cholesky k dim sm).map fun l => (y, cholInverse k dim l)

/-- d2 = y' inv(S) y. (log 19, DEDUCED) -/
def gateD2 (k : Nat) (y : List F32) (inv : Mat) : F32 := fsum k (List.zipWith f32Mul y (inv.apply k y))

/-- A pair in the gate: slot, measurement number, d2. -/
structure Pair where
  slot : Nat
  num : Nat
  d2 : F32
  deriving DecidableEq, Repr

/-- Order of R189: ascending d2, slot, measurement number. -/
def Pair.le (a b : Pair) : Bool :=
  f32Lt a.d2 b.d2 || (!f32Lt b.d2 a.d2 && (decide (a.slot < b.slot) || (a.slot == b.slot && decide (a.num ≤ b.num))))

/-- Pairs accepted in order: neither its track nor its measurement is taken (R189). -/
def acceptPairs (ps : List Pair) : List Pair :=
  (sortBy Pair.le ps).foldl (fun acc p => if acc.any (fun a => a.slot == p.slot || a.num == p.num) then acc else acc ++ [p]) []

/-- P at birth and after a covariance fault: P0 (R187, R188). -/
def State.p0 (s : State) (lr : Nat) : List F32 := triOf (s.matrix lr 0xA0 (s.stateDim lr) (s.stateDim lr) 6)

/-- A failed factorisation (R187). -/
def State.covFault (s : State) (lr i : Nat) : State :=
  ((s.onSlot lr i fun t => { t with covFault := true, p := s.p0 lr }).flag (tkId lr 5) 1).bump (tkId lr 0x406)

/-- The Kalman update in Joseph form (R187). -/
def State.update (s : State) (lr q k : Nat) (t : Slot) (y : List F32) (inv : Mat) : Slot :=
  let n := s.stateDim lr
  let dim := y.length
  let h := s.measH lr q dim
  let p := triFull t.p
  let g := Mat.mul k (Mat.mul k p (h.transpose dim n) n n dim) inv n dim dim
  let x := List.zipWith f32Add (t.x.take n) (g.apply k y)
  let a := Mat.sub (identity n) (Mat.mul k g h n dim n)
  let j := Mat.add (Mat.mul k (Mat.mul k a p n n n) (a.transpose n n) n n n)
    (Mat.mul k (Mat.mul k g (s.measNoise lr q dim) n dim dim) (g.transpose n dim) n dim n)
  { t with x := x ++ t.x.drop n, p := triOf (Mat.scale 0x3F000000 (Mat.add j (j.transpose n n))) }

/-- The port of a source, none for 0xF. -/
def State.sourcePort (s : State) (lr q : Nat) : Option Nat :=
  let p := s.fld (sourceId lr q 0) 3 4
  if p < 4 then some p else none

/-- The source's port is voted out (R188, R190). -/
def State.sourceOut (s : State) (lr q : Nat) : Bool := (s.sourcePort lr q).any (s.sensorOut lr)

/-- d2 kept for the residual of the source's port (R202). -/
def Slot.addD2 (t : Slot) (p : Option Nat) (d2 : F32) : Slot :=
  match p with
  | some p => { t with d2 := updateAt t.d2 p fun l => l ++ [d2] }
  | none => t

/-- One accepted pair acts on its track (R187, R190, R200). (log 19, DEDUCED) -/
def State.takeMeas (s : State) (lr q k ssn hw shed : Nat) (p : Pair) (m : Meas) : State :=
  match s.slot lr p.slot with
  | none => s
  | some t =>
    if t.st = .closed then s.bump (tkId lr 0x404)
    else
      let t := s.shedTrack lr shed m.a (t.addD2 (s.sourcePort lr q) p.d2)
      let t := { t with seen := t.seen ++ [(ssn, m.a)] }
      if s.sourceOut lr q then s.setSlot lr p.slot (some t)
      else match s.innovation lr q hw k t m with
        | none => s
        | some (y, inv) =>
          let t := s.update lr q k t y inv
          s.setSlot lr p.slot (some { t with flow := t.flow ++ m.flowOf })

/-- The lowest FREE slot (R188). -/
def State.freeSlot (s : State) (lr : Nat) : Option Nat := (upTo 2048).find? fun i => (s.slot lr i).isNone

/-- A track born from an unassociated measurement of a step with SHED mask `shed`, or the measurement dropped (R188).
(log 19, DEDUCED) -/
def State.birth (s : State) (lr q k : Nat) (st : StepInfo) (shed : Nat) (m : Meas) : State :=
  match s.freeSlot lr with
  | none => ((s.bump (tkId lr 0x403)).flag (tkId lr 5) 0).markTaken st.ssn (s.extentBands lr m.a)
  | some i =>
    let anchor := s.anchorOf st.hw m.off
    let z := [m.a, f32Sub (s.prefOff anchor st.hw) m.off] ++ m.vels
    let h := s.measH lr q z.length
    let x := (h.transpose z.length (s.stateDim lr)).apply k z
    let n := ((s.tracker lr).births + 1) % 2 ^ 21
    let t : Slot :=
      { id := s.addr * 2 ^ 24 + lr * 2 ^ 21 + n, anchor := anchor, st := .tentative, owned := false,
        degraded := (s.extentBands lr m.a &&& shed) != 0, boundary := false, covFault := false, hits := 1, misses := 0,
        age := 0, lastRef := s.prefOff anchor st.hw, x := x ++ List.replicate (6 - x.length) 0, p := s.p0 lr,
        feats := List.replicate 8 0, matureSsn := 0, closedSsn := 0, d2 := [[], [], [], []],
        flow := m.flowOf, seen := [(st.ssn, m.a)], matFeats := List.replicate 8 0, tileFails := 0 }
    ((s.setSlot lr i (some t)).onTracker lr fun x => { x with births := n }).bump (tkId lr 0x400)

/-- What the sources of a step carry along: which slots took a measurement, which were born, measurements by source, and the
step's SHED mask. -/
structure StepWork where
  hit : List Nat
  born : List Nat
  taken : List (Nat × Nat × Meas)
  shed : Nat
  deriving DecidableEq, Repr

/-- One source of a step: association, updates, births (R187 to R190). -/
def State.sourceStep (s : State) (lr q : Nat) (st : StepInfo) (recs : List DecRec) (w : StepWork) : State × StepWork :=
  if !s.bitAt (sourceId lr q 0) 0 then (s, w)
  else
    let (k, s) := s.takeFree
    let ms := s.measurements lr q k recs
    let tests := (s.slotsOf lr).flatMap fun e => ms.filterMap fun m =>
      if s.inBox lr st.hw e.2 m then some (e.1, m, s.innovation lr q st.hw k e.2 m) else none
    let faults := ((tests.filter fun t => t.2.2.isNone).map (·.1)).eraseDups
    let pairs := acceptPairs (tests.filterMap fun t => t.2.2.bind fun yi =>
      let d2 := gateD2 k yi.1 yi.2
      if f32Le d2 (s.word (tkId lr 1)) then some ⟨t.1, t.2.1.num, d2⟩ else none)
    let out := s.sourceOut lr q
    let s := if out then s else forEach faults (fun s i => s.covFault lr i) s
    let pm := pairs.filterMap fun p => (ms.find? (·.num == p.num)).map fun m => (p, m)
    let s := forEach pm (fun s e => s.takeMeas lr q k st.ssn st.hw w.shed e.1 e.2) s
    let live := pm.filter fun e => (s.slot lr e.1.slot).any (fun t => t.st != .closed)
    let w := if out then w else
      { w with hit := w.hit ++ live.map (·.1.slot), taken := w.taken ++ live.map fun e => (e.1.slot, q, e.2) }
    let free := ms.filter fun m => !pairs.any (·.num == m.num)
    if out then (s, w)
    else free.foldl (fun a m =>
      let i := a.1.freeSlot lr
      (a.1.birth lr q k st a.2.shed m, match i with
        | some i => { a.2 with born := a.2.born ++ [i] }
        | none => { a.2 with shed := a.2.shed ||| a.1.extentBands lr m.a })) (s, w)

/-! ### Features (R196, R197, R200) -/

/-- KIND and fields of a feature slot. -/
def State.featWord (s : State) (lr k : Nat) : Nat := (s.word (tkId lr (0x300 + k))).toNat

/-- FLOW: the abs(VALUE)-weighted mean of v_l (R197). -/
def flowMean (k : Nat) (fs : List (F32 × F32)) : F32 :=
  if fs.isEmpty then 0 else f32Div (fsum k (fs.map fun f => f32Mul f.1 f.2)) (fsum k (fs.map (·.1)))

/-- FEAT[k] as it is read; ratios of ratios are followed to a depth of 8 (R197). (log 20, DEDUCED) -/
def State.featGo (s : State) (lr i : Nat) (t : Slot) : Nat → Nat → F32
  | 0, k => t.feats.getD k 0
  | fuel + 1, k =>
    let w := s.featWord lr k
    match bitsOf w 0 3 with
    | 1 | 2 | 4 => t.feats.getD k 0
    | 3 =>
      let b := s.featGo lr i t fuel (bitsOf w 12 3)
      if f32Abs b = 0 then 0 else f32Div (s.featGo lr i t fuel (bitsOf w 9 3)) b
    | 5 => f32OfInt t.hits
    | 6 => flowMean i t.flow
    | _ => 0

/-- FEAT[k] of a track; `i` is a free-value index. -/
def State.feat (s : State) (lr i : Nat) (t : Slot) (k : Nat) : F32 := s.featGo lr i t 8 k

/-- Slots that a sample may feed, with the CLOSED ones that it would feed (R196, R200). -/
def State.feedable (s : State) (lr : Nat) (cond : Slot → Bool) : List (Nat × Slot) :=
  (s.slotsOf lr).filter fun e => (e.2.st == .confirmed || e.2.st == .mature || e.2.st == .closed) && cond e.2

/-- A sample fed to the tracks that meet its extent; one that would feed a CLOSED track counts once in LATE_SAMPLES and feeds
no other (R200). -/
def State.feed (s : State) (lr : Nat) (cond : Slot → Bool) (f : Slot → Slot) : State :=
  let es := s.feedable lr cond
  if es.any fun e => e.2.st == .closed then s.bump (tkId lr 0x404)
  else forEach es (fun s e => s.setSlot lr e.1 (some (f e.2))) s

/-- Along centre of a track minus a belt coordinate given as an offset from the track's anchor lies within HALF_ALONG. -/
def State.alongMeets (s : State) (lr : Nat) (t : Slot) (rel : F32) : Bool :=
  withinF (t.x.getD 1 0) rel (s.fld (tkId lr 3) 16 16)

/-- The feature accumulators changed one by one. -/
def Slot.mapFeats (f : Nat → F32 → F32) (t : Slot) : Slot :=
  { t with feats := (upTo 8).map fun k => f k (t.feats.getD k 0) }

/-- A FEATURE record feeds DEC_SUM accumulators (R196, R197). -/
def State.featureRec (s : State) (lr q hw : Nat) (r : DecRec) : State :=
  let (a, off) := s.mapRec lr q r
  s.feed lr (fun t => withinF (t.x.getD 0 0) a (s.fld (tkId lr 3) 0 16) && s.alongMeets lr t (f32Sub (s.prefOff t.anchor hw) off))
    (Slot.mapFeats fun k f =>
      let w := s.featWord lr k
      if bitsOf w 0 3 = 4 ∧ bitsOf w 7 2 = q then f32Add f (f32OfInt r.value) else f)

/-- A valid auxiliary sample feeds the accumulators of every track it meets in one region (R196, R197). -/
def State.auxFeed (s : State) (lr c stamp : Nat) (value : Int) : State :=
  if !s.bitAt (tkId lr 0) 0 || s.sensorOut lr (16 + c) then s else
  let offs := s.sfld (tkId lr (0x310 + c)) 0 16
  let lo := f32OfInt (s.fld (tkId lr (0x320 + c)) 0 16)
  let hi := f32OfInt (s.fld (tkId lr (0x320 + c)) 16 16)
  let half := f32OfInt (s.fld (tkId lr 3) 0 16)
  let v := f32OfInt value
  s.feed lr (fun t =>
      let x := t.x.getD 0 0
      f32Le lo (f32Add x half) && f32Le (f32Sub x half) hi &&
      s.alongMeets lr t (f32OfRat (pos64Diff stamp (t.anchor * 65536) - offs * 65536) 65536 0))
    (Slot.mapFeats fun k f =>
      let w := s.featWord lr k
      if bitsOf w 3 4 != c then f
      else match bitsOf w 0 3 with
        | 1 => f32Add f v
        | 2 => f32Max f (f32Abs v)
        | _ => f)

/-! ### Refinement samples (R206) -/

/-- A sample kept for a port that is refined. -/
def State.addRefine (s : State) (p : Nat) (r : RefSample) : State :=
  if s.bitAt (pid 3 p 0x1300) 0 && !s.bitAt (pid 3 p 0x1300) 1 then
    { s with trk := { s.trk with refine := Sparse.modify (fun _ => []) s.trk.refine p fun l => l ++ [r] } }
  else s

/-- A FIDUCIAL record's across error: the nearer of FID0 and FID1 minus the mapped across (R206). -/
def State.fiducial (s : State) (lr q : Nat) (r : DecRec) : State :=
  match s.sourcePort lr q with
  | none => s
  | some p =>
    let a := (s.mapRec lr q r).1
    let e0 := f32Sub (f32OfInt (s.fld (pid 3 p 0x1306) 0 16)) a
    let e1 := f32Sub (f32OfInt (s.fld (pid 3 p 0x1306) 16 16)) a
    s.addRefine p ⟨a, if f32Le (f32Abs e0) (f32Abs e1) then e0 else e1, none⟩

/-- Samples from tracks that took measurements from a reference port and another port in one step (R206). -/
def State.pairSamples (s : State) (lr : Nat) (taken : List (Nat × Nat × Meas)) : State :=
  let ref := fun q => (s.sourcePort lr q).any fun p => s.bitAt (pid 3 p 0x1300) 1
  forEach (taken.filter fun t => ref t.2.1) (fun s r =>
    forEach (taken.filter fun t => t.1 == r.1 && !ref t.2.1) (fun s m =>
      match s.sourcePort lr m.2.1 with
      | some p => s.addRefine p ⟨m.2.2.a, f32Sub r.2.2.a m.2.2.a, some (f32Sub m.2.2.off r.2.2.off)⟩
      | none => s) s) s

/-! ### Life cycle (R191, R192) -/

/-- An edge of `lr`'s band at which another region's band begins lies within OWN_MARGIN of the centre (R192). -/
def State.atBoundary (s : State) (lr : Nat) (c : Int) : Bool :=
  match s.band lr with
  | none => false
  | some (lo, hi) =>
    let m : Int := s.fld (tkId lr 4) 0 12
    (upTo 8).any fun g => g != lr && match s.band g with
      | some (l, h) => (decide (h + 1 = lo) && decide (c - lo ≤ m)) || (decide (hi + 1 = l) && decide (hi - c ≤ m))
      | none => false

/-- The builder a tile request of logical region `lr` goes to: its own, or by rotation among the seven others (R392). -/
def State.builderFor (s : State) (lr : Nat) : Nat × State :=
  if s.rtr.activeSet = lr + 1 then
    let ss := (upTo 8).filter (· != lr)
    (ss.getD (s.obj.rotate % 7) 0, { s with obj := { s.obj with rotate := (s.obj.rotate + 1) % 7 } })
  else (lr, s)

/-- The order of a builder's queue: maturity SSN, then slot number; a rebuild stays at the head (R210, R224). -/
def TileReq.le (a b : TileReq) : Bool :=
  a.redo.isSome || (b.redo.isNone && (decide (a.matureSsn < b.matureSsn) ||
    (a.matureSsn == b.matureSsn && decide (a.slot ≤ b.slot))))

/-- A tile request enters its builder's queue; one that finds too few pages counts (R210, R220). (log 22, DEDUCED) -/
def State.requestTile (s : State) (r : TileReq) : State :=
  let (u, s) := s.builderFor r.lr
  let short := decide ((s.freePages u).length < (s.tileSize r.lr).2.2.2)
  let s := (s.flagIf short (pid 8 u 0x40) 0).bumpIf short (pid 8 u 0x101)
  s.onDense u fun x => { x with reqs := insertBy TileReq.le r x.reqs }

/-- A track goes MATURE (R192). -/
def State.mature (s : State) (lr i ssn : Nat) (t : Slot) : State :=
  let c := f32ToInt (t.x.getD 0 0)
  let inBand := match s.band lr with | some (lo, hi) => decide (lo ≤ c) && decide (c ≤ hi) | none => false
  let w := pid 6 0x10 0
  if inBand && decide ((s.fld w 0 16 : Int) ≤ c) && decide (c ≤ (s.fld w 16 16 : Int)) then
    let t := { t with st := .mature, owned := true, boundary := s.atBoundary lr c, matureSsn := ssn }
    let (k, s) := s.takeFree
    let t := { t with matFeats := (upTo 8).map (s.feat lr k t) }
    let s := s.setSlot lr i (some t)
    let s := if s.bitAt (pid 8 lr 0) 0 then s.requestTile ⟨lr, i, t.id, ssn, s.obj.gen, t.matFeats, none, s.loc⟩ else s
    s.handOver lr i k t
  else (s.setSlot lr i none).bump (tkId lr 0x402)

/-- Life cycle of one track at a step's end (R191). -/
def State.lifeCycle (s : State) (lr ssn : Nat) (w : StepWork) (i : Nat) (t : Slot) : State :=
  let t := if w.born.contains i then t
    else
      let t := { t with age := min (t.age + 1) 1023 }
      if w.hit.contains i then { t with hits := min (t.hits + 1) 255, misses := 0 }
      else { t with misses := min (t.misses + 1) 31 }
  let s := s.setSlot lr i (some t)
  let c := tkId lr 0
  match t.st with
  | .tentative =>
    if s.fld c 5 4 ≤ t.hits then s.setSlot lr i (some { t with st := .confirmed })
    else if s.fld c 9 4 ≤ t.misses then (s.setSlot lr i none).bump (tkId lr 0x401)
    else s
  | .confirmed =>
    if s.fld c 13 5 ≤ t.misses || s.fld c 18 10 ≤ t.age then s.mature lr i ssn t else s
  | .mature => s
  | .closed =>
    if s.fld (tkId lr 4) 12 12 ≤ (ssn + 2 ^ 32 - t.closedSsn) % 2 ^ 32 && ssnReached ssn t.closedSsn then s.setSlot lr i none
    else s

/-- One fabric step taken by a tracker (R184 to R200, R206). (log 19, DEDUCED) -/
def State.trackStep (s : State) (lr : Nat) (st : StepInfo) (recs : List DecRec) : State :=
  let (k, s) := s.takeFree
  let s := if st.backstop then s else s.mapSlots lr fun t =>
    let d := f32Sub (s.prefOff t.anchor st.hw) t.lastRef
    if f32Abs d = 0 then t else s.predict lr k d t
  let s := s.mapSlots lr fun t => s.shedTrack lr st.shed (t.x.getD 0 0)
    { t with seen := (t.seen.filter fun e => s.stepOwed e.1) ++ [(st.ssn, t.x.getD 0 0)] }
  let (s, w) := (upTo 4).foldl (fun a q => a.1.sourceStep lr q st recs a.2) (s, ⟨[], [], [], st.shed⟩)
  let s := forEach recs (fun s r =>
    let (q, role) := s.decRole lr r.channel
    if !s.bitAt (sourceId lr q 0) 0 then s
    else if role = 2 then s.featureRec lr q st.hw r
    else if role = 3 then s.fiducial lr q r
    else s) s
  let s := s.pairSamples lr w.taken
  forEach (s.slotsOf lr) (fun s e => s.lifeCycle lr st.ssn w e.1 e.2) s

/-! ### The encoder channels a tracker writes (R152) -/

/-- Converter word `i` of logical region `lr`. -/
def convId (lr i : Nat) : Nat := pid 5 (0x80 + lr) i

/-- Encoder `e` with a value that the tracker writes now, step `n` being the last one closed; of the values that every step after
`done` finds in time only the latest is kept. -/
def Encoder.feed (e : Encoder) (n done : Nat) (x : Int) : Encoder :=
  let old := e.tracker.filter fun v => v.1 != n
  let new := old.takeWhile fun v => ssnReached v.1 (done + 1)
  { e with tracker := (n, x) :: new ++ (old.drop new.length).take 1 }

/-- The unit with the value that the tracker writes now to encoder `k`. -/
def Conv.setTracked (c : Conv) (k n done : Nat) (x : Int) : Conv :=
  { c with encs := Sparse.modify (fun _ => (⟨none, []⟩ : Encoder)) c.encs k fun e => e.feed n done x }

/-- What region `lr`'s tracker writes to its encoder channels in a fabric step (R152). (log 26, DEDUCED) -/
def State.trackerFeeds (s : State) (lr : Nat) : State :=
  forEach (upTo 32) (fun s k =>
    let w := convId lr (0x100 + k)
    if s.bitAt w 0 && s.bitAt w 2 then
      let (i, s) := s.takeFree
      match Config.trackerFeedback i with
      | some x =>
        s.onConv lr fun c => c.setTracked k ((s.ssnClosed + s.pos.owed.length) % 2 ^ 32) s.ssnDone x.toInt
      | none => s
    else s) s

/-! ### A step's turn (R155, R180 to R200) -/

/-- A decoder of logical region `lr` still holds a record of fabric step `ssn` for the tracker (R155, R184). -/
def State.recordsHeld (s : State) (lr ssn : Nat) : Bool :=
  (s.conv lr).held.any fun r => r.consumer == 0 && r.ssn == ssn % 2 ^ 24

/-- TRACKER_STEP_PROCESS: in step mode, the tracker of logical region `region` takes the oldest step it has still to take, once
every record of the step has come in (R155, R180 to R200); it may write its encoder channels (R152). -/
def execTrackerStepProcess (region : Nat) (s : State) : Host.Outcome State Fault Refusal :=
  onUnit (decide (region < 8)) s
    (match (s.tracker region).todo with
     | [] => s
     | st :: rest =>
       whenDue (s.stepMode && !s.recordsHeld region st.ssn) (fun s =>
         let recs := (s.tracker region).inbox.filter (·.ssn == st.ssn % 2 ^ 24)
         let s := s.onTracker region fun x => { x with todo := rest, inbox := x.inbox.filter (·.ssn != st.ssn % 2 ^ 24) }
         if s.bitAt (tkId region 0) 0 then (s.trackStep region st recs).trackerFeeds region else s) s)

/-! ### Mirror (R183) -/

/-- Voter words of a logical region that the mirror copies: sensor states and histograms. -/
def voterWords (lr : Nat) : List Nat :=
  (upTo 32).map (fun j => sensorId lr j) ++ (upTo 1024).map fun i => pid 7 lr (0x200 + i)

/-- MIRROR_COPY: a tracker's slots and its voter's sensor state are copied to the mirror (R183). -/
def execMirrorCopy (region : Nat) (late : Bool) (s : State) : Host.Outcome State Fault Refusal :=
  onUnit (decide (region < 8)) s
    (whenDue s.running (fun s =>
     let s := { s with trk := { s.trk with
       mirror := (upTo 2048).foldl (fun m i => Sparse.set (fun _ => none) m (region * 2048 + i) (s.slot region i)) s.trk.mirror,
       mirrorWords := (voterWords region).foldl (fun m id => Sparse.set resetWord m id (s.word id)) s.trk.mirrorWords } }
     s.flagIf late (tkId region 5) 2) s)

/-- Slot `i` of a logical region as the mirror holds it; the failures of its track's tile, which the builder counts, stay (R224). -/
def State.mirrored (s : State) (lr i : Nat) : Option Slot :=
  (Sparse.get (fun _ => none) s.trk.mirror (lr * 2048 + i)).map fun t => { t with tileFails := max t.tileFails (s.tileFailures lr i t.id) }

/-- The live slots and sensor state of a logical region loaded from the mirror (R183, R391, R393).
(log 17, DEDUCED; 59, DEDUCED) -/
def State.loadMirror (s : State) (lr : Nat) : State :=
  let s := { s with trk := { s.trk with
    slots := (upTo 2048).foldl (fun m i => Sparse.set (fun _ => none) m (lr * 2048 + i) (s.mirrored lr i)) s.trk.slots } }
  forEach (voterWords lr) (fun s id => s.setWord id (Sparse.get resetWord s.trk.mirrorWords id)) s

/-! ### Applying the refinement (R205, R207) -/

/-- Least-squares slope of errors on abscissas. (log 21, DESIGN CHOICE) -/
def slopeOf (k : Nat) (xs es : List F32) : F32 :=
  let n := f32OfInt xs.length
  let mx := f32Div (fsum k xs) n
  let me := f32Div (fsum k es) n
  let dx := xs.map fun x => f32Sub x mx
  let den := fsum k (dx.map fun d => f32Mul d d)
  if f32Abs den = 0 then Config.noSlope k
  else f32Div (fsum k (List.zipWith (fun d e => f32Mul d (f32Sub e me)) dx es)) den

/-- A change clamped to its rate limit, then its total limit; whether the total limit clamped it (R207). -/
def limited (old change : Int) (rate total : Nat) : Int × Bool :=
  let d := clampInt (-(rate : Int)) rate change
  let v := clampInt (-(total : Int)) total (old + d)
  (v, decide (v ≠ old + d))

/-- Four targets of R207 in units of the words TA, TL, ROT, SCALE. -/
def State.refineTargets (s : State) (p k : Nat) (rs : List RefSample) : List Int :=
  let ac := f32OfInt (s.fld (pid 3 p 0x1307) 0 16)
  let al := rs.filterMap fun r => r.along.map fun e => (f32Sub r.a ac, e)
  let mean := fun (xs : List F32) => if xs.isEmpty then 0 else f32Div (fsum k xs) (f32OfInt xs.length)
  let scaled := fun (n : Nat) (x : F32) => f32ToInt (f32Mul (f32OfInt (2 ^ n : Nat)) x)
  [scaled 8 (mean (rs.map (·.across))), scaled 8 (mean (al.map (·.2))),
   if al.isEmpty then 0 else scaled 25 (slopeOf k (al.map (·.1)) (al.map (·.2))),
   scaled 24 (slopeOf k (rs.map fun r => f32Sub r.a ac) (rs.map (·.across)))]

/-- One port refined at a whole second (R207). (log 20, DEDUCED) -/
def State.refinePort (s : State) (p : Nat) (unfinished : Bool) : State :=
  let c := pid 3 p 0x1300
  let rs := Sparse.get (fun _ => []) s.trk.refine p
  if !s.bitAt c 0 || s.bitAt c 1 || s.bitAt (pid 3 p 0x1301) 0 || rs.length < s.fld c 2 8 then s
  else if unfinished then s.flag (pid 3 p 0x1314) 1
  else
    let (k, s) := s.takeFree
    let old := (upTo 4).map fun i => (s.word (pid 3 p (0x1310 + i))).toInt
    let rate := [s.fld (pid 3 p 0x1302) 0 16, s.fld (pid 3 p 0x1302) 16 16, s.fld (pid 3 p 0x1303) 0 16,
      s.fld (pid 3 p 0x1303) 16 16]
    let total := [s.fld (pid 3 p 0x1304) 0 16, s.fld (pid 3 p 0x1304) 16 16, s.fld (pid 3 p 0x1305) 0 16,
      s.fld (pid 3 p 0x1305) 16 16]
    let ch := s.refineTargets p k rs
    let new := (upTo 4).map fun i => limited (old.getD i 0) (ch.getD i 0) (rate.getD i 0) (total.getD i 0 * 256)
    let from_ := s.stepOfCount s.pos.hw + 1
    let s := s.onPort p fun q => { q with
      oldRefs := (q.oldRefs.filter fun r => decide (s.pos.openK < r.1)) ++ [(from_, old)] }
    let s := forEach (upTo 4) (fun s i => s.setWord (pid 3 p (0x1310 + i)) (BitVec.ofInt 32 (new.getD i (0, false)).1)) s
    let s := s.flagIf (new.any (·.2)) (pid 3 p 0x1314) 0
    { s with trk := { s.trk with
        refine := Sparse.set (fun _ => []) s.trk.refine p [],
        alignLog := s.trk.alignLog ++ [⟨s.dev, p, new.map (·.1), rs.length⟩] } }

/-- REFINE_APPLY: a whole second of device time (R207). -/
def execRefineApply (unfinished : BitVec 4) (s : State) : Host.Outcome State Fault Refusal :=
  let sec := s.dev.fdiv 1000000000
  .next (whenDue (s.running && !s.restarting && s.trk.refineSec != some sec) (fun s =>
    forEach (upTo 4) (fun s p => s.refinePort p (bitOf unfinished.toNat p))
      { s with trk := { s.trk with refineSec := some sec } }) s)

end Sys2Proof.Machine
end

