-- ==== Sys2Proof/Machine/Fusion.lean ====
section
/-!
DEFINITION. The fusion voters (07_tracking_fusion.md R198 to R204): decision sources, the vote, conflict policies, residuals
and the voting out of sensors.
-/

namespace Sys2Proof.Machine

/-- FUSION word `i` of logical region `lr`, and of the module. -/
def fuId (lr i : Nat) : Nat := pid 7 lr i
def fuModId (i : Nat) : Nat := pid 7 0x10 i

/-- A decision source that votes: 0 QUERN, 1 to 8 RULE0 to RULE7 (R198). -/
structure Source where
  num : Nat
  cls : Nat
  conf : Nat
  weight : Nat
  decisive : Bool
  sensor : Nat
  deriving DecidableEq, Repr

/-- RULEk's vote, were its sensor not voted out: enabled and FEAT[slot] in [LO, HI]. -/
def State.ruleReads (s : State) (lr i : Nat) (t : Slot) (k : Nat) : Option Source :=
  let w := (s.word (fuId lr (0x10 + 4 * k))).toNat
  let f := s.feat lr i t (bitsOf w 1 3)
  if bitOf w 0 && f32Le (s.word (fuId lr (0x11 + 4 * k))) f && f32Le f (s.word (fuId lr (0x12 + 4 * k))) then
    some ⟨k + 1, bitsOf w 4 8, 255, bitsOf w 12 4, bitOf w 16, bitsOf w 17 6⟩
  else none

/-- The sources that vote for an object (R198). -/
def State.sources (s : State) (lr i : Nat) (t : Slot) (cls conf : Nat) : List Source :=
  let c := fuId lr 0
  ⟨0, cls, conf, s.fld c 0 4, decide (s.fld c 4 8 ≤ conf), 63⟩ ::
    ((upTo 8).filterMap (s.ruleReads lr i t)).filter fun r => r.sensor == 63 || !s.sensorOut lr r.sensor

/-- What the voter reaches: class, confidence, CONFLICT, UNCERTAIN, and the source applied under TRUST_PRIORITY. -/
structure VoteResult where
  cls : Nat
  conf : Nat
  conflict : Bool
  uncertain : Bool
  applied : Option Nat
  deriving DecidableEq, Repr

/-- Weight of a class, in units of 1/255 (R198). -/
def weightOf (ss : List Source) (c : Nat) : Nat := ((ss.filter (·.cls == c)).map fun x => x.weight * x.conf).sum

/-- The policy of a flat contradiction on lane `l` (R199). -/
def State.conflictVote (s : State) (l : Nat) (ss : List Source) : VoteResult :=
  let w := fuModId (0x10 + l / 2)
  let o := 16 * (l % 2)
  let reject : VoteResult := ⟨s.fld (fuModId 0) 0 8, 0, true, false, none⟩
  match s.fld w o 2 with
  | 1 =>
    match ss.find? fun x => x.num == s.fld w (o + 2) 4 && x.decisive with
    | some x => ⟨x.cls, x.conf, true, false, some x.num⟩
    | none => reject
  | 2 => ⟨s.fld (fuModId 0) 8 8, 0, true, true, none⟩
  | _ => reject

/-- The vote (R198); `i` is a free-value index. (log 21, DESIGN CHOICE) -/
def State.voteOf (s : State) (lr i lane : Nat) (ss : List Source) : VoteResult :=
  let dec := ss.filter (·.decisive)
  if dec.any fun x => dec.any fun y => x.cls != y.cls then s.conflictVote lane ss
  else if ss.isEmpty then ⟨s.fld (fuModId 0) 0 8, 0, false, true, none⟩
  else
    let top := ((ss.map fun x => weightOf ss x.cls)).foldl max 0
    let total := (ss.map fun x => x.weight * x.conf).sum
    if total = 0 then ⟨0, Config.zeroWeight i % 256, false, true, none⟩
    else
      let best := ((ss.filter fun x => weightOf ss x.cls == top).map (·.cls))
      let cls := best.foldl min 255
      let conf := 255 * top / total
      ⟨cls, conf, false, decide (conf < s.fld (fuId lr 0) 12 8) || best.any (· != cls), none⟩

/-! ### Sensors (R202 to R204) -/

/-- Camera port `j` is the last one not voted out that feeds a source of the region (R204). (log 20, DEDUCED) -/
def State.lastCamera (s : State) (lr j : Nat) : Bool :=
  j < 4 && ((upTo 4).any fun q => s.bitAt (sourceId lr q 0) 0 && s.sourcePort lr q == some j) && !((upTo 4).any fun q => s.bitAt (sourceId lr q 0) 0 &&
    (s.sourcePort lr q).any fun p => p != j && !s.sensorOut lr p)

/-- A residual counted in the sensor's histogram (R202). -/
def State.histogram (s : State) (lr j : Nat) (r : F32) : State :=
  let q := f32Div r (s.word (fuId lr (0x140 + j)))
  let b := if f32Lt (f32OfInt 31) q then 31 else (clampInt 0 31 (f32ToFloor q)).toNat
  s.bump (fuId lr (0x200 + 32 * j + b))

/-- A sensor's run counters after one object, and what they make of OUT (R203, R204). (log 20, DEDUCED) -/
def State.runSensor (s : State) (lr j : Nat) (bad : Bool) : State :=
  let w := sensorId lr j
  let c := fuId lr (0x100 + j)
  let rb := if bad then min (s.fld w 1 8 + 1) 255 else 0
  let rg := if bad then 0 else min (s.fld w 9 8 + 1) 255
  let s := (s.setFld w 1 8 rb).setFld w 9 8 rg
  if s.fld c 16 2 != 0 then s
  else if !s.bitAt w 0 && decide (s.fld c 0 8 ≤ rb) then
    if s.lastCamera lr j then (s.setFld w 17 1 1).report 0x07 lr 0x0D j
    else (s.setFld w 0 1 1).report 0x07 lr 0x0D j
  else if s.bitAt w 0 && decide (s.fld c 8 8 ≤ rg) then (s.setFld w 0 1 0).report 0x07 lr 0x0E j
  else s

/-- FORCE written for a sensor: it sets OUT or clears it at once (R204). (log 20, DEDUCED) -/
def State.forceSensor (s : State) (lr j : Nat) : State :=
  match s.fld (fuId lr (0x100 + j)) 16 2 with
  | 1 => s.setFld (sensorId lr j) 0 1 1
  | 2 => s.setFld (sensorId lr j) 0 1 0
  | _ => s

/-- The residual of sensor `j` for an object: mean d2 of a camera port, agreement of an auxiliary channel's rules (R202).
(log 35, DESIGN CHOICE) -/
def State.residual (s : State) (lr i : Nat) (t : Slot) (cls j : Nat) : Option F32 :=
  if j < 4 then
    match t.d2.getD j [] with
    | [] => none
    | ds => some (f32Div (fsum i ds) (f32OfInt ds.length))
  else
    match ((upTo 8).filterMap (s.ruleReads lr i t)).filter (·.sensor == j) with
    | [] => none
    | rs => some (if rs.all (·.cls == cls) then 0 else f32One)

/-- Every sensor judged once for an object (R199, R202, R203). (log 20, DEDUCED) -/
def State.judgeSensors (s : State) (lr i : Nat) (t : Slot) (ss : List Source) (v : VoteResult) : State :=
  forEach ((upTo 32).filter isSensor) (fun s j =>
    let counted := v.conflict && ss.any fun x => x.decisive && x.sensor == j && some x.num != v.applied
    match s.residual lr i t v.cls j with
    | some r => ((s.sample 7 (32 * lr + j) (f32RneSat (-2147483648) 2147483647 0 (f32Mul (f32OfInt 256) r))).histogram lr j r).runSensor lr j (f32Lt (s.word (fuId lr (0x120 + j))) r || counted)
    | none => if counted then s.runSensor lr j true else s) s

/-! ### The vote's command -/

/-- Classifications of logical region `lr` whose class the post unit has delivered. -/
def State.postedOf (s : State) (lr id : Nat) : Option Scored :=
  ((upTo 8).flatMap fun u => (s.dense u).done).find? fun r => r.lr == lr && r.id == id && r.posted.isSome

/-- A finished classification leaves its unit. -/
def State.dropScored (s : State) (lr id : Nat) : State :=
  forEach (upTo 8) (fun s u => s.onDense u fun x => { x with done := x.done.filter fun r => !(r.lr == lr && r.id == id) }) s

/-- FUSION_VOTE: the voter of logical region `region` combines the sources of an object and hands the vote to the Tailrace
(R198 to R203, R266). A vote that comes after the LATE default is discarded (R194). -/
def execFusionVote (region : Nat) (object : Word) (s : State) : Host.Outcome State Fault Refusal :=
  onUnit (decide (region < 8)) s
    (match s.postedOf region object.toNat with
     | none => s
     | some r =>
       let s := s.dropScored region r.id
       match s.pendOf r.id, s.slot region r.slot, r.posted with
       | some e, some t, some (cls, conf) =>
         if s.deadline e ≤ s.dev || t.id != r.id then s.bump (tkId region 0x405)
         else
           let (i, s) := s.takeFree
           let ss := s.sources region i t cls conf
           let v := s.voteOf region i e.home ss
           let s := (s.bump (fuId region 0x51)).bumpIf v.conflict (fuId region 0x50)
           let s := s.judgeSensors region i t ss v
           s.takeVote region t v.cls v.conf v.conflict v.uncertain r.boxes
       | _, _, _ => s.bump (tkId region 0x405))

end Sys2Proof.Machine
end

