-- ==== Sys2Proof/Machine/Tiles.lean ====
section
/-!
DEFINITION. Tile builders (08_tiles_arithmetic.md R210 to R224): the event history, the rendering of channels, the side
vector, and the life of a tile in the store.
-/

namespace Sys2Proof.Machine

/-- TILE word `i`. -/
def tileId (r i : Nat) : Nat := pid 8 r i

/-! ### Event history (R211 to R214) -/

/-- A history record (R212): across, belt, value, source, polarity, and the stamp below high water. -/
def histRec (across belt : Nat) (value : Int) (src : Nat) (pol : Bool) (dstamp : Nat) : Nat :=
  across % 2 ^ 16 + belt % 2 ^ 22 * 2 ^ 16 + codeOf 8 value * 2 ^ 38 + src * 2 ^ 46 + bit pol * 2 ^ 49 + min dstamp 8191 * 2 ^ 50

/-- The record of an ingest event in a step of high-water position `hw` (R110, R211). -/
def ingestRec (hw : Nat) (e : Ev) : Nat :=
  let st := e.stamp / 65536
  histRec e.across (codeOf 48 (st - e.along)) (if e.pol then 1 else -1) e.port e.pol (posDiff hw st).toNat

/-- The record of a tapped event of tap `t` (R211); Pref(n) is cut to whole counts. (log 22, DEDUCED) -/
def State.tapRec (s : State) (lr t hw : Nat) (h : Held) : Nat :=
  let c := tileId lr (0x20 + t)
  let r := pid 4 0x10 (0x20 + 2 * lr)
  let i := bitsOf h.src 2 15 - s.fld c 6 15
  let x := i % 2 ^ s.fld c 25 4
  let y := i / 2 ^ s.fld c 25 4
  let sx := s.fld r 16 4
  let sy := s.fld r 20 4
  let across := s.fld r 0 16 + x * 2 ^ sx + 2 ^ sx / 2
  let pref : Int := (2 * ((hw : Int) - s.guard) - s.stepLen).fdiv 2
  histRec across (codeOf 48 (pref - (s.sfld (r + 1) 0 16 + y * 2 ^ sy + 2 ^ sy / 2))) h.value (4 + t) false 0

/-- Tap `t` of logical region `lr` takes an emitted event (R211). -/
def State.tapTakes (s : State) (lr t : Nat) (h : Held) : Bool :=
  let c := tileId lr (0x20 + t)
  let n := bitsOf h.src 2 15
  s.bitAt c 0 && bitsOf h.src 21 3 == lr && bitsOf h.src 17 4 == s.fld c 1 4 && h.src % 4 == s.fld c 5 1 &&
  decide (s.fld c 6 15 ≤ n) && decide (n < s.fld c 6 15 + 2 ^ s.fld c 21 4)

/-- Bytes a step record takes in the ring: 64 per occupied bucket, 64 more, and 8 per event. -/
def HistStep.bytes (shift : Nat) (h : HistStep) : Nat :=
  64 + 64 * ((h.recs.map fun r => bitsOf r 0 16 / 2 ^ shift).eraseDups).length + 8 * h.recs.length

/-- The oldest step records overwritten until the ring holds the rest (R213). -/
def trimHist (shift size : Nat) : List HistStep → Option Nat → List HistStep × Option Nat
  | [], l => ([], l)
  | h :: rest, l =>
    if size < ((h :: rest).map (HistStep.bytes shift)).sum then trimHist shift size rest (some h.top) else (h :: rest, l)

/-- The newest stamp that step `st`'s record can hold: the high-water position where it takes tapped events or closes for the
backstop, else the last position of its position step (R47, R53, R211). -/
def State.histTop (s : State) (lr : Nat) (st : FabStep) : Nat :=
  if st.backstop || (upTo 4).any fun t => s.bitAt (tileId lr (0x20 + t)) 0 then st.hw
  else codeOf 48 ((st.closePos : Int) - s.guard - 1)

/-- HISTORY_APPEND: a step's ingest and tapped events become its record (R211, R213). -/
def State.appendHist (s : State) (lr : Nat) (st : FabStep) (emitted : List Held) : State :=
  if !s.bitAt (tileId lr 0) 0 then s.onHist lr fun h => { h with pend := [] }
  else
    let h := s.hist lr
    let taps := (upTo 4).flatMap fun t => (emitted.filter (s.tapTakes lr t)).map (s.tapRec lr t st.hw)
    let step : HistStep := ⟨st.hw, s.histTop lr st, h.pend.map (ingestRec st.hw) ++ taps⟩
    let (steps, lost) := trimHist (s.fld (tileId lr 4) 16 4) (s.fld (tileId lr 3) 0 24 * 4096) (h.steps ++ [step]) h.lost
    s.onHist lr fun h => { h with steps := steps, lost := lost, pend := [] }

/-! ### Rendering (R215, R216) -/

/-- A record placed on a pixel: its column, row, age in 1/65,536 count, value, source and polarity. -/
structure Pixel where
  i : Nat
  j : Nat
  age : Nat
  value : Int
  src : Nat
  pol : Bool
  deriving DecidableEq, Repr

/-- What a tile is built around: reference position, centre, anchor of its track. -/
structure TileFrame where
  lr : Nat
  tref : Nat
  ca : Int
  cb : Nat
  anchor : Nat
  w : Nat
  h : Nat
  deriving DecidableEq, Repr

/-- Row of a belt position in 1/65,536 count; none outside the tile (R215). -/
def State.tileRow (s : State) (f : TileFrame) (belt : Nat) : Option Nat :=
  let j := (pos64Diff belt (f.cb * 65536)).fdiv ((s.fld (tileId f.lr 0) 21 6 + 1) * 65536 : Nat) + (f.h / 2 : Nat)
  if 0 ≤ j ∧ j < f.h then some j.toNat else none

/-- The steps a build reads: high water beyond TREF - WINDOW - LENGTH - GUARD, none released after TREF (R214). -/
def State.stepRead (s : State) (f : TileFrame) (hw : Nat) : Bool :=
  let d := pos64Diff (hw * 65536) f.tref
  decide (-((s.fld (tileId f.lr 4) 0 16 + s.stepLen + s.guard) * 65536 : Nat) < d) &&
  decide (d ≤ (s.guard * 65536 + s.stepLen * 32768 : Nat))

/-- The pixel of a history record, none outside the window or the tile (R212 to R215). -/
def State.pixelOf (s : State) (f : TileFrame) (hw r : Nat) : Option Pixel :=
  let age := pos64Diff f.tref (codeOf 48 ((hw : Int) - bitsOf r 50 13) * 65536)
  let belt := codeOf 48 (f.anchor + signedOf 22 (codeOf 22 ((bitsOf r 16 22 : Int) - f.anchor)))
  let i := ((bitsOf r 0 16 : Int) - f.ca).fdiv (s.fld (tileId f.lr 0) 15 6 + 1 : Nat) + (f.w / 2 : Nat)
  if age < 0 ∨ (s.fld (tileId f.lr 4) 0 16 * 65536 : Nat) ≤ age ∨ i < 0 ∨ (f.w : Int) ≤ i then none
  else (s.tileRow f (belt * 65536)).map fun j =>
    ⟨i.toNat, j, age.toNat, signedOf 8 (bitsOf r 38 8), bitsOf r 46 3, bitOf r 49⟩

/-- Every pixel record of a build. -/
def State.pixels (s : State) (f : TileFrame) : List Pixel :=
  ((s.hist f.lr).steps.filter fun h => s.stepRead f h.hw).flatMap fun h => h.recs.filterMap (s.pixelOf f h.hw)

/-- rne(127 x 2^(-a / 2^tau)) for an age `a` in 1/65,536 count (R216). -/
def tsurf (a tau : Nat) : Int :=
  let unit := 65536 * 2 ^ tau
  let n := a / unit
  if 9 ≤ n then 0
  else if a % unit = 0 then rneDiv 127 (2 ^ n)
  else
    let r := 0xB17217F7D1CF79ABC9E3B39803F2F6AF * (a % unit) / unit
    rneDiv ((127 * 2 ^ 128 : Nat) : Int) (expTaylor 40 1 r (2 ^ 128) (2 ^ 128) * 2 ^ n)

/-- A valid sample record of a ring: value, SEQ, stamp. -/
structure RingSample where
  value : Int
  seq : Nat
  stamp : Nat
  deriving DecidableEq, Repr

/-- Valid samples that the ring of channel `c` holds (R292). -/
def State.ringSamples (s : State) (c : Nat) : List RingSample :=
  let n := 2 ^ s.fld (pid 0x0F 0x10 3) 0 5
  let base := s.wide (pid 0x0F 0x10 1) + c * n * 16
  (upTo n).filterMap fun i =>
    let bs := s.readBytes (base + 16 * i) 16
    if bitOf (leAt bs 0 4) 20 && bitsOf (leAt bs 0 4) 16 4 == c then
      some ⟨signedOf 16 (leAt bs 0 2), leAt bs 4 4, leAt bs 8 8⟩ else none

/-- The later of two samples of a row: the latest stamp, of equal stamps the later arrival (R216). -/
def laterSample (tref : Nat) (a b : RingSample) : RingSample :=
  let da := pos64Diff a.stamp tref
  let db := pos64Diff b.stamp tref
  if da < db || (da == db && signedOf 32 (codeOf 32 ((b.seq : Int) - a.seq)) > 0) then b else a

/-- The sample shown in each row by an AUX_ROW channel (R216). (log 22, DEDUCED) -/
def State.auxRows (s : State) (f : TileFrame) (c : Nat) : Sparse RingSample :=
  let offs := s.sfld (tkId f.lr (0x310 + c)) 0 16
  (s.ringSamples c).foldl (fun (m : Sparse RingSample) r =>
    match s.tileRow f (wrapPos (r.stamp - offs * 65536)) with
    | none => m
    | some j => match m.find? (·.1 == j) with
      | some (_, o) => Sparse.put j (laterSample f.tref o r) m
      | none => Sparse.put j r m) []

/-- The element of one pixel in one channel from its selected records (R216). -/
def renderPixel (kind shift tau tap : Nat) (sel all : List Pixel) : Int :=
  match kind with
  | 1 => min ((sel.length / 2 ^ shift : Nat) : Int) 127
  | 2 => satInt 8 ((((sel.filter (·.pol)).length : Int) - (sel.filter (!·.pol)).length).fdiv (2 ^ shift : Nat))
  | 3 => match sel with
    | [] => 0
    | p :: ps => tsurf (ps.foldl (fun a q => min a q.age) p.age) tau
  | 4 => satInt 8 ((((all.filter fun (p : Pixel) => p.src == 4 + tap).map Pixel.value).foldl (· + ·) 0).fdiv (2 ^ shift : Nat))
  | _ => 0

/-- The elements of channel `k` (R216): column, row, value. -/
def State.renderChannel (s : State) (f : TileFrame) (px : List Pixel) (feats : List F32) (k : Nat) : Nat → Nat → Int :=
  let c := tileId f.lr (0x10 + k)
  let kind := s.fld c 0 4
  let shift := s.fld c 16 5
  match kind with
  | 5 =>
    let ch := s.fld c 12 4
    let rows := s.auxRows f ch
    let w := tkId f.lr (0x320 + ch)
    fun i j =>
      let a := f.ca + ((i : Int) - (f.w / 2 : Nat)) * (s.fld (tileId f.lr 0) 15 6 + 1 : Nat)
      if a < s.fld w 0 16 ∨ (s.fld w 16 16 : Int) < a then 0
      else match rows.find? (·.1 == j) with
        | some (_, r) => satInt 8 (r.value.fdiv (2 ^ shift : Nat))
        | none => 0
  | 6 =>
    let v := f32RneSat (-128) 127 0
      (f32Mul (feats.getD (s.fld c 25 3) 0) (f32OfRat 1 1 ((shift : Int) - 16)))
    fun _ _ => v
  | _ =>
    let ports := s.fld c 4 4
    let pol := s.fld c 8 2
    let sel := px.filter fun p => decide (p.src < 4) && bitOf ports p.src &&
      (pol == 0 || (pol == 1 && p.pol) || (pol == 2 && !p.pol))
    fun i j =>
      let at_ := fun (p : Pixel) => p.i == i && p.j == j
      renderPixel kind shift (s.fld c 21 4) (s.fld c 10 2) (sel.filter at_) (px.filter at_)

/-- The tile's bytes in HWC order, those that are not 0 (R217). (log 22, DEDUCED) -/
def State.renderTile (s : State) (f : TileFrame) (cpad : Nat) (feats : List F32) : Sparse Byte :=
  let px := s.pixels f
  (upTo (s.fld (tileId f.lr 0) 11 4 + 1)).foldl (fun (m : Sparse Byte) k =>
    let g := s.renderChannel f px feats k
    (upTo (f.w * f.h)).foldl (fun m p =>
      Sparse.set (fun _ => 0) m (p / f.w * f.w * cpad + p % f.w * cpad + k) (BitVec.ofInt 8 (g (p % f.w) (p / f.w)))) m) []

/-- The side vector from FEAT at maturity and the state vector at TREF (R218). (log 22, DEDUCED) -/
def State.sideVector (s : State) (lr : Nat) (feats x : List F32) (t : Slot) : List Nat :=
  let bf := fun (x : F32) => (bf16OfF32 x).toNat
  let dec := fun e =>
    if s.bitAt (tileId lr 0x30) (8 * e + 7) then
      f32OfInt (Sparse.get (fun _ => 0) (s.hist lr).sideDec (s.fld (tileId lr 0x30) (8 * e) 7)) else 0
  let vel := fun i => if s.stateDim lr < 4 then 0 else x.getD i 0
  (feats.map bf) ++ (upTo 4).map (fun e => bf (dec e)) ++
    [bf (vel 2), bf (vel 3), bf (f32OfInt t.hits), bf (f32OfInt t.age)]

/-! ### The life of a tile (R210, R214, R220 to R224) -/

/-- Progress of a plan that has not started. -/
def Plan.fresh (p : Plan) : List LayerRun :=
  p.layers.map fun l =>
    { jobs := List.replicate (match l.kind with | .array _ => l.stripes.length | _ => 1) .waiting, aborted := [], remade := false,
      plane := none, vec := [] }

/-- Requests and tiles of the plan of another generation are still in work (R398). -/
def State.oldWork (s : State) : Bool :=
  (upTo 8).any fun u => (s.dense u).reqs.any (fun r => r.gen != s.obj.gen) || (s.dense u).live.any (fun e => e.2.gen != s.obj.gen)

/-- An object's position rounded to a count, ties to even: ANCHOR + x (R210). -/
def roundAlong (anchor : Nat) (x : F32) : Nat :=
  codeOf 48 (match f32Ratio x with
    | some (n, d) => rneDiv (anchor * d + n) d
    | none => Config.noInteger x.toNat)

/-- What a track's tile is made from when its build starts (R210). -/
def State.originOf (s : State) (lr i : Nat) (t : Slot) : TileOrigin :=
  ⟨codeOf 64 (fixedAlong t.anchor t.lastRef), f32ToInt (t.x.getD 0 0), roundAlong t.anchor (t.x.getD 1 0),
   (upTo 8).map (s.feat lr i t), t.x⟩

/-- Part of the stamp range (TREF - WINDOW, TREF] has been overwritten (R214). (log 22, DEDUCED) -/
def State.shortHist (s : State) (lr tref : Nat) : Bool :=
  match (s.hist lr).lost with
  | some top => decide (-(s.fld (tileId lr 4) 0 16 * 65536 : Nat) < pos64Diff (top * 65536) tref)
  | none => false

/-- The builder takes a request: reference position, centre, pages, and the tile's elements (R210, R214 to R217, R220).
(log 22, DEDUCED) -/
def State.startTile (s : State) (u : Nat) (r : TileReq) (i : Nat) (t : Slot) : State :=
  let (w, h, cpad, n) := s.tileSize r.lr
  let o := r.redo.getD (s.originOf r.lr i t)
  let f : TileFrame := ⟨r.lr, o.tref, o.ca, o.cb, t.anchor, w, h⟩
  let d := ((upTo 256).find? fun d => ((s.dense u).tile d).isNone).getD 0
  let s := if s.shortHist r.lr o.tref then
    (((s.flag (tileId u 0x40) 1).bump (tileId u 0x102)).onSlot r.lr r.slot fun t => { t with degraded := true }) else s
  let tile : Tile :=
    { lr := r.lr, slot := r.slot, id := r.id, matureSsn := r.matureSsn, gen := r.gen, origin := o,
      pages := (s.freePages u).take n, ready := false, refs := 0, builderRef := true, cancelled := false,
      data := s.renderTile f cpad o.feats, feats := r.feats, w := w, h := h, cpad := cpad,
      side := s.sideVector r.lr r.feats o.x t, layers := (s.planOf r.gen).fresh, segment := none, input := none, asked := r.asked }
  s.onDense u fun x => { x.setTile d (some tile) with reqs := x.reqs.drop 1 }

/-- TILE_BUILD_START (R210, R214, R220). -/
def execTileBuildStart (region : Nat) (s : State) : Host.Outcome State Fault Refusal :=
  onUnit (decide (region < 8)) s
    (match (s.dense region).reqs with
     | [] => s
     | r :: _ =>
       whenDue (s.tileRoom region r.lr && !(r.gen == s.obj.gen && s.oldWork)) (fun s =>
         match s.slot r.lr r.slot with
         | some t =>
           if t.id = r.id then let (i, s) := s.takeFree; s.startTile region r i t
           else s.onDense region fun x => { x with reqs := x.reqs.drop 1 }
         | none => s.onDense region fun x => { x with reqs := x.reqs.drop 1 }) s)

/-! ### Jobs -/

/-- The layer that layer `i` reads; none where it reads the tile or a continuation's input. A vector layer with no source named
follows the one before it (R251). -/
def Layer.source (l : Layer) (i : Nat) : Option Nat :=
  match l.kind, l.src with
  | .fc _, none | .softmax, none => if i = 0 then none else some (i - 1)
  | _, k => k

/-- The layer that layer `i` reads has finished (R246). -/
def Tile.srcDone (t : Tile) (l : Layer) (i : Nat) : Bool :=
  match l.source i with
  | none => true
  | some k => match t.layers[k]? with | some r => r.jobs.all (· == .done) | none => false

/-- The first job of a tile that is ready and whose kind `ok` takes: layer and job number (R246). -/
def State.readyJob (s : State) (t : Tile) (ok : LayerKind → Bool) : Option (Nat × Nat) :=
  if !t.ready || t.cancelled then none
  else ((s.tilePlan t).layers.zip t.layers).zipIdx.findSome? fun ((l, r), i) =>
    if ok l.kind && t.srcDone l i then
      (r.jobs.zipIdx.find? fun j => j.1 == .waiting || j.1 == .again).map fun j => (i, j.2)
    else none

/-- Live tiles in the order of R210. -/
def DenseUnit.inOrder (x : DenseUnit) : List (Nat × Tile) :=
  sortBy (fun (a b : Nat × Tile) => decide (a.2.matureSsn < b.2.matureSsn) ||
    (a.2.matureSsn == b.2.matureSsn && decide (a.2.slot ≤ b.2.slot))) x.live

/-- The next job of the oldest tile that has one ready (R246). (log 23, DEDUCED) -/
def State.nextJob (s : State) (u : Nat) (ok : LayerKind → Bool) : Option RunJob :=
  (s.dense u).inOrder.findSome? fun e => (s.readyJob e.2 ok).map fun j => ⟨e.1, j.1, j.2⟩

/-- A tile's job at a new state. -/
def Tile.setJob (t : Tile) (layer job : Nat) (j : JobState) : Tile :=
  { t with layers := updateAt t.layers layer fun r => { r with jobs := updateAt r.jobs job fun _ => j } }

/-- The state of a tile's job. -/
def Tile.job (t : Tile) (layer job : Nat) : JobState :=
  match t.layers[layer]? with | some r => r.jobs.getD job .waiting | none => .waiting

/-- The unit with a tile changed, its references settled (R222). -/
def DenseUnit.onTile (x : DenseUnit) (d : Nat) (f : Tile → Tile) : DenseUnit :=
  match x.tile d with
  | some t => settleTile d (x.setTile d (some (f t)))
  | none => x

/-- A job starts: it takes its reference, unless it runs again and still holds it (R222, R247). -/
def Tile.start (t : Tile) (j : RunJob) : Tile :=
  let again := t.job j.layer j.stripe == .again
  { t.setJob j.layer j.stripe .running with refs := if again then t.refs else t.refs + 1 }

/-- Kinds of layer the edge engine runs as a layer group of its own. -/
def edgeKind : LayerKind → Bool
  | .array _ => false
  | .fc true => false
  | _ => true

/-- An idle edge engine takes the next layer group (R246). -/
def State.kickEdge (s : State) (u : Nat) : State :=
  if (s.dense u).edge.isSome then s
  else match s.nextJob u edgeKind with
    | none => s
    | some j => s.onDense u fun x => { x.onTile j.tile (·.start j) with edge := some j }

/-- TILE_READY: the tile's last element and its side vector are written (R218, R221, R222). -/
def execTileReady (region tile : Nat) (s : State) : Host.Outcome State Fault Refusal :=
  onUnit (decide (region < 8) && decide (tile < 256)) s
    (match (s.dense region).tile tile with
     | some t =>
       whenDue (!t.ready) (fun s =>
         let side := match s.slot t.lr t.slot with
           | some k => (t.side.take 8) ++ ((s.sideVector t.lr t.feats t.origin.x k).drop 8).take 4 ++ t.side.drop 12
           | none => t.side
         ((s.onDense region fun x => x.onTile tile fun t => { t with ready := true, refs := 1, side := side }).bump
           (tileId region 0x100)).kickEdge region |>.sample 0xC region (locDiff s.loc t.asked)) s
     | none => s)

/-- Jobs that read a tile abort: they leave the array and the edge engine. -/
def DenseUnit.abortTile (x : DenseUnit) (d : Nat) : DenseUnit :=
  { x with subs := x.subs.filter fun e => !(e.2.any (·.tile == d)), edge := x.edge.filter (·.tile != d) }

/-- TILE_UE: a double-bit error in a tile word; the tile is made once more, from what it was made from (R224). -/
def execTileUe (region tile : Nat) (s : State) : Host.Outcome State Fault Refusal :=
  onUnit (decide (region < 8) && decide (tile < 256)) s
    (match (s.dense region).tile tile with
     | some t =>
       let s := (((s.bump (tileId region 0x103)).flag (tileId region 0x40) 2).countUe 1).report 0x08 region 1 tile
       let s := s.onDense region fun x => (x.abortTile tile).setTile tile none
       let again := s.tileFailures t.lr t.slot t.id = 0 ∧ t.cancelled = false
       let s := s.onSlot t.lr t.slot fun k => if k.id = t.id then { k with tileFails := k.tileFails + 1 } else k
       let s := if again then
         (s.bump (tileId region 0x104)).onDense region fun x =>
           { x with reqs := ⟨t.lr, t.slot, t.id, t.matureSsn, t.gen, t.feats, some t.origin, t.asked⟩ :: x.reqs }
         else s
       s.kickEdge region
     | none => s)

end Sys2Proof.Machine
end

