-- ==== Sys2Proof/Machine/Converters.lean ====
section
/-!
DEFINITION. Converter units (05_spiking_fabric.md R152 to R155), kept per logical region: value-to-event encoders and
event-to-value decoders.
-/

namespace Sys2Proof.Machine

/-! ### Encoders -/

/-- Encoder `k` of a converter unit. -/
def Conv.enc (c : Conv) (k : Nat) : Encoder := Sparse.get (fun _ => ⟨none, []⟩) c.encs k

/-- The unit with encoder `k`'s reference at `x`. (log 26, DEDUCED) -/
def Conv.setRef (c : Conv) (k : Nat) (x : Option Int) : Conv :=
  { c with encs := Sparse.modify (fun _ => (⟨none, []⟩ : Encoder)) c.encs k fun e => { e with xref := x } }

/-- DELTA: the reference after input `x` and the value emitted, if any (R153). -/
def deltaStep (th : Nat) (ref : Option Int) (x : Int) : Int × Option Int :=
  match ref with
  | none => (x, none)
  | some r =>
    let d := x - r
    if th ≤ d.natAbs then
      let k : Int := (min (d.natAbs / th) 127 : Nat)
      (r + signInt d * k * th, some (signInt d * k))
    else (r, none)

/-- RATE: the LFSR after input `x` and the value emitted, if any (R153). -/
def rateStep (lfsr : Nat) (x : Int) : Nat × Option Int :=
  let l := lfsrNext lfsr
  (l, if l % 2 ^ 15 < x.natAbs then some (signInt x) else none)

/-- The event word of encoder `k` of logical region `lr`; as an emission of fabric step `ssn` it is input to the next
one (R143, R153). -/
def State.encoderEvent (s : State) (lr k ssn : Nat) (v : Int) : Held :=
  { src := s.addr * 2 ^ 24 + lr * 2 ^ 21 + k * 4 + 3, value := v, delay := 0, tag := (ssn + 1) % 65536,
    pending := false, halo := false, blocks := 0, ev := none }

/-- One run of encoder `k` on input `x` (R153). (log 26, DEDUCED) -/
def State.runEncoder (s : State) (lr k ssn : Nat) (x : Int) : State :=
  let w := convId lr (0x100 + k)
  let (s, v) :=
    if s.bitAt w 1 then
      let (l, v) := rateStep (s.conv lr).lfsr x
      (s.onConv lr fun c => { c with lfsr := l }, v)
    else
      let (r, v) := deltaStep (s.fld w 7 16) ((s.conv lr).enc k).xref x
      (s.onConv lr fun c => c.setRef k (some r), v)
  match v with
  | none => s
  | some v =>
    let r := s.hostOf lr
    s.sendEvent (ringPos r) r (s.encoderEvent lr k ssn v)

/-- Auxiliary channel at rest. (log 5, DESIGN CHOICE) -/
def AuxChan.empty : AuxChan :=
  { cfg := 0, ints := List.replicate 5 0, combs := List.replicate 5 0, cicPhase := 0, fir := [], firOdd := false, h1 := [],
    h1Odd := false, h2 := [], h2Odd := false, badWord := [], outs := 0, clip := false, last := none, run := 0, stuck := false,
    edge := 0, resets := [], seq := 0, record := 0, snap := 0, valid := [] }

/-- Auxiliary channel `c`. -/
def State.chan (s : State) (c : Nat) : AuxChan := Sparse.get (fun _ => AuxChan.empty) s.aux c

/-- The state with auxiliary channel `c` changed. -/
def State.onChan (s : State) (c : Nat) (f : AuxChan → AuxChan) : State :=
  { s with aux := Sparse.modify (fun _ => AuxChan.empty) s.aux c f }

/-- The input an encoder takes at the end of step `st`: the latest valid sample stamped before its closure position, or the latest
value that the tracker wrote before it closed; none while the channel's sensor is voted out (R152, R204). (log 26, DEDUCED) -/
def State.encoderInput (s : State) (lr k : Nat) (st : FabStep) : Option Int :=
  let w := convId lr (0x100 + k)
  let c := s.fld w 3 4
  if s.bitAt w 2 then (((s.conv lr).enc k).tracker.find? fun v => !ssnReached v.1 st.ssn).map (·.2)
  else if s.sensorOut lr (16 + c) then none
  else ((s.chan c).valid.find? fun v => decide (0 < pos64Diff (st.closePos * 65536) v.1)).map (·.2)

/-- Every enabled encoder of a logical region at the end of fabric step `st` (R152). -/
def State.encodersEnd (s : State) (st : FabStep) (lr : Nat) : State :=
  forEach (upTo 32) (fun s k =>
    if s.bitAt (convId lr (0x100 + k)) 0 then
      match s.encoderInput lr k st with
      | some x => s.runEncoder lr k st.ssn x
      | none => s
    else s) s

/-- A new valid sample of an auxiliary channel at the encoders of a region that runs asynchronously (R152). (log 26, DEDUCED) -/
def State.encodersAsync (s : State) (c : Nat) (x : Int) (lr : Nat) : State :=
  if s.regionAsync (s.hostOf lr) && !s.sensorOut lr (16 + c) then
    forEach (upTo 32) (fun s k =>
      let w := convId lr (0x100 + k)
      if s.bitAt w 0 && !s.bitAt w 2 && s.fld w 3 4 == c then s.runEncoder lr k s.ssnDone x else s) s
  else s

/-! ### Decoders -/

/-- Decoder words of channel `k`. -/
def decId (lr k i : Nat) : Nat := convId lr (0x200 + 2 * k + i)

/-- Decoder `k` taps an emitted event (R154). -/
def State.decTaps (s : State) (lr k : Nat) (h : Held) : Bool :=
  let w := decId lr k 0
  let n := bitsOf h.src 2 15
  bitsOf h.src 21 3 == lr && bitsOf h.src 17 4 == s.fld w 2 4 && h.src % 4 == s.fld w 6 1 &&
  decide (s.fld w 7 15 ≤ n) && decide (n < s.fld w 7 15 + 2 ^ s.fld w 22 4)

/-- The step's sums S, SX and SY of the tapped events (R154). -/
def State.decSums (s : State) (lr k : Nat) (emitted : List Held) : Int × Int × Int :=
  let w := decId lr k 0
  (emitted.filter (s.decTaps lr k)).foldl (fun (a : Int × Int × Int) h =>
    let i := bitsOf h.src 2 15 - s.fld w 7 15
    let x : Int := (i % 2 ^ s.fld w 26 4 : Nat)
    let y : Int := (i / 2 ^ s.fld w 26 4 : Nat)
    (satInt 24 (a.1 + h.value), satInt 32 (a.2.1 + h.value * x), satInt 32 (a.2.2 + h.value * y))) (0, 0, 0)

/-- A decoder at rest. -/
def Decoder.zero : Decoder := ⟨0, 0, 0, 0⟩

/-- COUNT or LEAKY: the decoder after a step's sums, and what it posts (R154). (log 26, DEDUCED) -/
def Decoder.step (d : Decoder) (leaky : Bool) (window shift : Nat) (x : Int × Int × Int) :
    Decoder × Option (Int × Int × Int) :=
  let sh := fun (y : Int) => y.fdiv (2 ^ shift : Nat)
  if leaky then
    let n : Decoder := ⟨satInt 24 (d.s - sh d.s + x.1), satInt 32 (d.sx - sh d.sx + x.2.1),
      satInt 32 (d.sy - sh d.sy + x.2.2), d.w⟩
    (n, if n.s = 0 then none else some (n.s, n.sx, n.sy))
  else
    let n : Decoder := ⟨satInt 24 (d.s + x.1), satInt 32 (d.sx + x.2.1), satInt 32 (d.sy + x.2.2), d.w + 1⟩
    if n.w = window then (.zero, some (n.s, n.sx, n.sy)) else (n, none)

/-- A posted record taken by its consumer (R155, R184, R218). -/
def State.consumeRec (s : State) (lr : Nat) (r : DecRec) : State :=
  if r.consumer = 0 then s.onTracker lr fun t => { t with inbox := t.inbox ++ [r] }
  else s.onHist lr fun h => { h with sideDec := Sparse.set (fun _ => 0) h.sideDec r.channel r.value }

/-- A record posted: it waits behind its decoder's held records, or while the tracker's input is full; that of a tile builder never
is (R155, R218). (log 27, DESIGN CHOICE) -/
def State.postRec (s : State) (lr : Nat) (r : DecRec) : State :=
  let behind := (s.conv lr).held.any fun h => h.channel == r.channel
  let (i, s) := s.takeFree
  if behind || (r.consumer == 0 && Config.consumerFull i) then s.onConv lr fun c => { c with held := c.held ++ [r] }
  else s.consumeRec lr r

/-- Every enabled decoder of a logical region at the end of fabric step `ssn` (R154). -/
def State.decodersEnd (s : State) (ssn : Nat) (emitted : List Held) (lr : Nat) : State :=
  forEach (upTo 128) (fun s k =>
    let w := decId lr k 0
    if s.bitAt w 0 then
      let x := s.decSums lr k emitted
      let (d, post) := (Sparse.get (fun _ => Decoder.zero) (s.conv lr).decs k).step (s.bitAt w 1)
        (s.fld (decId lr k 1) 0 6 + 1) (s.fld (decId lr k 1) 6 5) x
      let s := s.onConv lr fun c => { c with decs := Sparse.set (fun _ => Decoder.zero) c.decs k d }
      match post with
      | none => s
      | some (v, sx, sy) => s.postRec lr ⟨k, s.bitAt w 1, ssn % 2 ^ 24, v, sx, sy, s.fld w 30 1⟩
    else s) s

/-- Holds that last past the end of the next step, fabric step `ssn` being the one that ends (R155). (log 27, DESIGN CHOICE) -/
def State.countStalls (s : State) (ssn lr : Nat) : State :=
  s.bump (convId lr 3) ((s.conv lr).held.filter fun h => (h.ssn + 1) % 2 ^ 24 == ssn % 2 ^ 24).length

/-- DECODER_RECORD_RELEASE: the consumer has room and takes the oldest held record (R155); in step mode only (R181). -/
def execDecoderRecordRelease (region : Nat) (s : State) : Host.Outcome State Fault Refusal :=
  onUnit (decide (region < 8)) s
    (whenDue s.stepMode (fun s => match (s.conv region).held with
     | [] => s
     | r :: rest => (s.onConv region fun c => { c with held := rest }).consumeRec region r) s)

end Sys2Proof.Machine
end

