-- ==== Sys2Proof/Machine/Dense.lean ====
section
/-!
DEFINITION. The arithmetic of the dense units: formats, lowering and multiply-accumulate (R226 to R233, R241, R242, R245,
R248), requantisation and conversion (R234 to R236), pooling (R249) and the last layers (R251).
-/

namespace Sys2Proof.Machine

/-! ### Elements -/

/-- Blocks of 32 channels. -/
def blocks32 (c : Nat) : Nat := ceilDiv c 32

/-- Code of an element of a plane. -/
def Plane.code (p : Plane) (x y c : Nat) : Nat := Sparse.get (fun _ => 0) p.data ((y * p.w + x) * p.c + c)

/-- Scale byte of the block of an element. -/
def Plane.scale (p : Plane) (x y b : Nat) : Nat := Sparse.get (fun _ => 0) p.scales ((y * p.w + x) * blocks32 p.c + b)

/-- The integer an INT8, INT4 or BSI4 code stands for (R227, R229). -/
def intCode (f : NumFmt) (c : Nat) : Int := match f with | .int8 => signedOf 8 c | _ => signedOf 4 c

/-- c x 2^(S - 127) in binary32 (R229). -/
def bsiValue (c s : Nat) : F32 := f32OfRat (signedOf 4 c) 1 ((s : Int) - 127)

/-- Code `i` of packed bytes: INT4 and BSI4 two to a byte, the even one in the low bits; BF16 two bytes; the others one
(R227 to R230). -/
def packedCode (f : NumFmt) (bs : List Byte) (i : Nat) : Nat :=
  match f with
  | .int4 | .bsi4 => bitsOf (leAt bs (i / 2) 1) (4 * (i % 2)) 4
  | .bf16 => leAt bs (2 * i) 2
  | _ => leAt bs i 1

/-- Codes packed into bytes (R227, R229). -/
def packCodes (f : NumFmt) (cs : List Nat) : List Byte :=
  match f with
  | .int4 | .bsi4 => (upTo (ceilDiv cs.length 2)).map fun m =>
      BitVec.ofNat 8 (cs.getD (2 * m) 0 % 16 + cs.getD (2 * m + 1) 0 % 16 * 16)
  | .bf16 => cs.flatMap (leBytes 2)
  | _ => cs.map (BitVec.ofNat 8)

/-- Codes that a pixel of `c` channels takes in memory: whole blocks of 32 in BSI4 (R229). -/
def pixelCodes (f : NumFmt) (c : Nat) : Nat := if f = .bsi4 then 32 * blocks32 c else c

/-- A plane with its codes packed. -/
def Plane.pack (p : Plane) : PackedPlane :=
  let n := p.w * p.h
  let m := pixelCodes p.fmt p.c
  { w := p.w, h := p.h, c := p.c, fmt := p.fmt,
    codes := packCodes p.fmt ((upTo (n * m)).map fun i => if i % m < p.c then Sparse.get (fun _ => 0) p.data (i / m * p.c + i % m) else 0),
    scales := if p.fmt = .bsi4 then (upTo (n * blocks32 p.c)).map fun i => BitVec.ofNat 8 (Sparse.get (fun _ => 0) p.scales i) else [] }

/-- The plane that packed codes spell. -/
def PackedPlane.plane (p : PackedPlane) : Plane :=
  let n := p.w * p.h
  let table := fun (m : Nat) (g : Nat → Nat) => (upTo m).foldl (fun (a : Sparse Nat) i => Sparse.set (fun _ => 0) a i (g i)) []
  { w := p.w, h := p.h, c := p.c, fmt := p.fmt, data := table (n * p.c) (fun i => packedCode p.fmt p.codes (i / p.c * pixelCodes p.fmt p.c + i % p.c)),
    scales := if p.fmt = .bsi4 then table (n * blocks32 p.c) (fun i => leAt p.scales i 1) else [] }

/-- Code of weight `i` of a layer. -/
def Layer.weight (l : Layer) (i : Nat) : Nat := packedCode l.wfmt l.weights i

/-- The value of an element in binary32, exact (R228 to R230). -/
def codeValue (f : NumFmt) (c s : Nat) : F32 :=
  match f with
  | .int8 | .int4 => f32OfInt (intCode f c)
  | .bsi4 => bsiValue c s
  | .e4m3 => f32OfFp8 false (BitVec.ofNat 8 c)
  | .e5m2 => f32OfFp8 true (BitVec.ofNat 8 c)
  | .bf16 => f32OfBf16 (BitVec.ofNat 16 c)

/-- The value of a plane's element in binary32. -/
def Plane.value (p : Plane) (x y c : Nat) : F32 := codeValue p.fmt (p.code x y c) (p.scale x y (c / 32))

/-- A tile as a plane of INT8 (R217). -/
def Tile.plane (t : Tile) : Plane :=
  { w := t.w, h := t.h, c := t.cpad, fmt := .int8, data := t.data.map fun e => (e.1, e.2.toNat), scales := [] }

/-! ### Lowering and products (R241, R245, R248) -/

/-- Output size of a window in one dimension; 0 or less has none (R242). -/
def outSize (n p0 p1 dil k stride : Nat) : Int :=
  ((n : Int) + p0 + p1 - dil * (k - 1) - 1).fdiv (stride : Nat) + 1

def Layer.hout (l : Layer) : Nat := (outSize l.hin l.pt l.pb l.dil l.kh l.sh).toNat
def Layer.wout (l : Layer) : Nat := (outSize l.win l.pl l.pr l.dil l.kw l.sw).toNat

/-- Channels per group, and elements of the reduction. -/
def Layer.cing (l : Layer) : Nat := l.cin / l.groups
def Layer.red (l : Layer) : Nat := l.kh * l.kw * l.cing

/-- One element of an expanded row: the input pixel and channel it copies; none where the row holds 0 (R241, R248). -/
def Layer.inputAt (l : Layer) (ox oy o e : Nat) : Option (Nat × Nat × Nat) :=
  let tap := e / l.cing
  let c := o / (l.cout / l.groups) * l.cing + e % l.cing
  let xi : Int := (ox * l.sw + tap % l.kw * l.dil : Nat) - (l.pl : Int)
  let yi : Int := (oy * l.sh + tap / l.kw * l.dil : Nat) - (l.pt : Int)
  if 0 ≤ xi ∧ xi < l.win ∧ 0 ≤ yi ∧ yi < l.hin then some (xi.toNat, yi.toNat, c) else none

/-- Density of a layer's cells, and the height of a sub-array in reduction elements (R239). -/
def Layer.density (l : Layer) : Nat := match l.wfmt with | .int4 | .bsi4 => 2 | _ => 1
def Layer.height (l : Layer) (mode : Nat) : Nat := 128 / 2 ^ mode * l.density

/-- Groups that share one pass of a sub-array under the diagonal mapping (R248). -/
def Layer.packedGroups (l : Layer) : Nat :=
  match l.kind with
  | .array (m + 1) =>
    if l.groups ≤ 1 then 1 else max 1 (min (l.height (m + 1) / l.red) (64 / (l.cout / l.groups)))
  | _ => 1

/-- A channel of each other group of the pass that computes output channel `o`: its first (R248). -/
def Layer.passMates (l : Layer) (o : Nat) : List Nat :=
  let m := l.cout / l.groups
  let g := o / m
  let n := l.packedGroups
  ((upTo n).map fun i => g / n * n + i).filterMap fun h => if h != g && decide (h < l.groups) then some (h * m) else none

/-- An accumulator: an exact sum modulo 2^32 as INT32, or FP32 (R231 to R233). -/
inductive Acc where
  | int (x : Int)
  | float (x : F32)
  deriving DecidableEq, Repr

/-- The integer products of an output (R231). -/
def Layer.intDot (l : Layer) (p : Plane) (ox oy o : Nat) : Int :=
  signedOf 32 (codeOf 32 ((upTo l.red).foldl (fun (a : Int) e =>
    match l.inputAt ox oy o e with
    | some (x, y, c) => a + intCode p.fmt (p.code x y c) * intCode l.wfmt (l.weight (o * l.red + e))
    | none => a) 0))

/-- A sum into a cleared accumulator, in free order (R232, R245). -/
def accSum (k : Nat) (xs : List F32) : F32 := fsum k (0 :: xs)

/-- An element of an expanded row as a value; +0 in the padding (R241). -/
def Layer.rowValue (l : Layer) (p : Plane) (ox oy o e : Nat) : F32 :=
  match l.inputAt ox oy o e with
  | some (x, y, c) => p.value x y c
  | none => 0

/-- The floating-point products of an output: its group's, and the other groups' of the pass with weight 0 (R232, R245, R248). -/
def Layer.floatDot (l : Layer) (k : Nat) (p : Plane) (ox oy o : Nat) : F32 :=
  accSum k (((upTo l.red).map fun e => f32Mul (l.rowValue p ox oy o e) (codeValue l.wfmt (l.weight (o * l.red + e)) 0)) ++
    (l.passMates o).flatMap fun q => (upTo l.red).map fun e => f32Mul (l.rowValue p ox oy q e) 0)

/-- The scaled block sums of an output of a BSI4 layer, in free order (R229, R233). A block of weights that meets channels of two
blocks of activations, as in a group that begins within one, makes a sum with each, so that each block keeps its scale (R241).
(log 23, DEDUCED) -/
def Layer.bsiDot (l : Layer) (k : Nat) (p : Plane) (ox oy o : Nat) : F32 :=
  let nb := blocks32 l.cing
  accSum k ((upTo (l.kh * l.kw * nb)).flatMap fun b =>
    match l.inputAt ox oy o (b / nb * l.cing + b % nb * 32) with
    | none => []
    | some (x, y, c) =>
      let es := upTo (min 32 (l.cing - b % nb * 32))
      let at_ := o * (l.kh * l.kw * nb) + b
      (es.map fun i => (c + i) / 32).eraseDups.map fun q =>
        let sum := (es.filter fun i => (c + i) / 32 == q).foldl
          (fun (a : Int) i => a + signedOf 4 (p.code x y (c + i)) * signedOf 4 (l.weight (at_ * 32 + i))) 0
        f32OfRat sum 1 ((p.scale x y q : Int) + l.wscales.getD at_ 0 - 254))

/-- The accumulator of output pixel (ox, oy), channel o, by the operand pair the descriptor names (R226). -/
def Layer.acc (l : Layer) (k : Nat) (p : Plane) (ox oy o : Nat) : Acc :=
  match l.wfmt, l.afmt with
  | .int8, .int8 | .int4, .int8 => .int (l.intDot p ox oy o)
  | .bsi4, _ => .float (l.bsiDot k p ox oy o)
  | _, _ => .float (l.floatDot k p ox oy o)

/-! ### Requantisation and conversion (R234 to R236) -/

/-- What a conversion counts: SAT_INT, SAT_FP, NAN_OUT (R238). -/
structure ConvCount where
  satInt : Nat
  satFp : Nat
  nanOut : Nat
  deriving DecidableEq, Repr

def ConvCount.zero : ConvCount := ⟨0, 0, 0⟩
def ConvCount.add (a b : ConvCount) : ConvCount := ⟨a.satInt + b.satInt, a.satFp + b.satFp, a.nanOut + b.nanOut⟩

/-- An output of a layer before its format: an INT8 value, or FP32 after the clamp of R235. -/
inductive Out where
  | int (x : Int)
  | float (x : F32)
  deriving DecidableEq, Repr

/-- An INT32 accumulator requantised to INT8 (R234). -/
def requant (bias m : Int) (sh : Nat) (lo hi acc : Int) : Int × Bool :=
  let y := rneDiv ((acc + bias) * m) (2 ^ sh)
  (clampInt (max lo (-128)) (min hi 127) y, decide (y < -128) || decide (127 < y))

/-- Steps 1 to 3 of R235. -/
def Layer.scaled (l : Layer) (o : Nat) (x : F32) : F32 :=
  let t := f32Mul (f32Add x (BitVec.ofInt 32 (l.bias.getD o 0))) (l.scale.getD o f32One)
  if l.clampOn then f32Min (f32Max t l.flo) l.fhi else t

/-- An accumulator's bias, requantisation or scaling (R234, R235). -/
def Layer.drain (l : Layer) (o : Nat) (a : Acc) : Out × Nat :=
  match a with
  | .int x =>
    let (y, sat) := requant (l.bias.getD o 0) (l.mul.getD o 1) (l.shift.getD o 0) l.lo l.hi x
    (.int y, bit sat)
  | .float x => (.float (l.scaled o x), 0)

/-- An output in its format, other than BSI4 (R235 step 4). -/
def encode (f : NumFmt) (x : Out) : Nat × ConvCount :=
  match x with
  | .int y => (codeOf 8 y, .zero)
  | .float v =>
    match f with
    | .e4m3 => let r := fp8E4m3OfF32 v; (r.byte.toNat, ⟨0, bit r.saturated, bit r.nan⟩)
    | .e5m2 => let r := fp8E5m2OfF32 v; (r.byte.toNat, ⟨0, bit r.saturated, bit r.nan⟩)
    | _ => ((bf16OfF32 v).toNat, ⟨0, 0, bit (f32IsNan v)⟩)

/-- The smallest e in [-127, 127] with m x 2^-e < 7.5 (R236). -/
def bsiExp (m : F32) : Int :=
  match f32Ratio m with
  | none => 127
  | some (n, d) =>
    let lt := fun (e : Int) => if 0 ≤ e then decide (2 * n.natAbs < 15 * d * 2 ^ e.toNat)
      else decide (2 * n.natAbs * 2 ^ (-e).toNat < 15 * d)
    let e0 := floorLog n.natAbs d 0 - 3
    clampInt (-127) 127 (((upTo 4).map fun i => e0 + (i : Nat)).find? lt |>.getD (e0 + 4))

/-- rne(x x 2^-e) clamped to [-8, 7], exact until the rounding; an infinity clamps by its sign (R236). -/
def bsiCode (e : Int) (x : F32) : Int :=
  match f32Ratio x with
  | some (n, d) => clampInt (-8) 7 (if 0 ≤ e then rneDiv n (d * 2 ^ e.toNat) else rneDiv (n * 2 ^ (-e).toNat) d)
  | none => if f32Lt x 0 then -8 else 7

/-- A block of 32 outputs in BSI4: scale byte, codes, whether it held a NaN (R236). -/
def encodeBsi (xs : List F32) : Nat × List Nat × Bool :=
  let m := xs.foldl (fun a x => f32Max a (f32Abs x)) 0
  let nan := xs.any f32IsNan
  if nan || f32Abs m = 0 then (0, xs.map fun _ => 0, nan)
  else
    let e := bsiExp m
    ((e + 127).toNat, xs.map fun x => codeOf 4 (bsiCode e x), false)

/-- The FP32 reading of an output. -/
def Out.toF32 : Out → F32
  | .int x => f32OfInt x
  | .float x => x

/-- The codes of one output pixel's channels, with BSI4 scales (R235, R236). -/
def encodePixel (f : NumFmt) (xs : List Out) : List Nat × List Nat × ConvCount :=
  match f with
  | .bsi4 =>
    let bs := (chunksOf 32 xs).map fun b => encodeBsi (b.map Out.toF32)
    (bs.flatMap (·.2.1), bs.map (·.1), ⟨0, 0, (bs.filter (·.2.2)).length⟩)
  | _ =>
    let cs := xs.map (encode f)
    (cs.map (·.1), [], cs.foldl (fun a c => a.add c.2) .zero)

/-! ### Pooling (R249) -/

/-- Pooled rows and columns of a layer's convolution output. -/
def PoolSpec.outH (p : PoolSpec) (h : Nat) : Nat := (outSize h p.pt p.pb 1 p.kh p.sh).toNat
def PoolSpec.outW (p : PoolSpec) (w : Nat) : Nat := (outSize w p.pl p.pr 1 p.kw p.sw).toNat

/-- A window's valid outputs reduced (R249). -/
def poolWindow (k : Nat) (p : PoolSpec) (xs : List Out) : Out :=
  let n := if p.countPad then p.kh * p.kw else xs.length
  match xs with
  | [] => .int 0
  | .int x :: rest =>
    let is := x :: rest.map fun o => match o with | .int y => y | .float _ => 0
    .int (if p.avg then rneDiv (is.foldl (· + ·) 0) n else is.foldl max x)
  | .float x :: rest =>
    let fs := x :: rest.map Out.toF32
    .float (if p.avg then f32Div (fsum k fs) (f32OfInt n) else fs.foldl f32Max x)

/-- Rows of pooled output that a stripe of convolution rows makes: those whose window starts there, and in the last stripe those
whose window starts in the padding below (R249). -/
def PoolSpec.rowsOf (p : PoolSpec) (h row0 rows : Nat) : List Nat :=
  (upTo (p.outH h)).filter fun y => row0 ≤ y * p.sh && (y * p.sh < row0 + rows || decide (h ≤ row0 + rows))

/-- Convolution rows a stripe computes: its own, or those its pooling windows need (R249). -/
def Layer.stripeRows (l : Layer) (st : Stripe) : List Nat :=
  match l.pool with
  | none => (upTo l.hout).filter fun y => st.row0 ≤ y && y < st.row0 + st.rows
  | some p =>
    let ys := p.rowsOf l.hout st.row0 st.rows
    (upTo l.hout).filter fun r => ys.any fun y => decide (y * p.sh ≤ r + p.pt) && decide (r + p.pt < y * p.sh + p.kh)

/-- Width and height of a layer's output plane. -/
def Layer.outDims (l : Layer) : Nat × Nat :=
  match l.pool with | none => (l.wout, l.hout) | some p => (p.outW l.wout, p.outH l.hout)

/-- An empty output plane of a layer. -/
def Layer.emptyPlane (l : Layer) : Plane :=
  { w := l.outDims.1, h := l.outDims.2, c := l.cout, fmt := l.ofmt, data := [], scales := [] }

/-- A pixel's channels written into a plane. -/
def Plane.put (p : Plane) (x y : Nat) (codes scales : List Nat) : Plane :=
  { p with
    data := codes.zipIdx.foldl (fun m c => Sparse.set (fun _ => 0) m ((y * p.w + x) * p.c + c.2) c.1) p.data,
    scales := scales.zipIdx.foldl (fun m c => Sparse.set (fun _ => 0) m ((y * p.w + x) * blocks32 p.c + c.2) c.1) p.scales }

/-- Convolution outputs of one row: per column, per channel, with the saturations counted. -/
def Layer.convRow (l : Layer) (k : Nat) (p : Plane) (oy : Nat) : List (List (Out × Nat)) :=
  (upTo l.wout).map fun ox => (upTo l.cout).map fun o => l.drain o (l.acc k p ox oy o)

/-- A stripe's outputs written to the layer's plane (R245, R249). -/
def Layer.runStripe (l : Layer) (k : Nat) (src out : Plane) (st : Stripe) : Plane × ConvCount :=
  let rows := (l.stripeRows st).map fun y => (y, l.convRow k src y)
  let sat := (rows.flatMap fun r => r.2.flatMap fun c => c.map (·.2)).sum
  let at_ := fun (y x o : Nat) => match rows.find? (·.1 == y) with
    | some (_, r) => ((r.getD x []).getD o (.int 0, 0)).1
    | none => .int 0
  let pixels : List (Nat × Nat × List Out) := match l.pool with
    | none => rows.flatMap fun r => (upTo l.wout).map fun x => (x, r.1, (upTo l.cout).map fun o => at_ r.1 x o)
    | some p => (p.rowsOf l.hout st.row0 st.rows).flatMap fun y => (upTo (p.outW l.wout)).map fun x =>
      (x, y, (upTo l.cout).map fun o => poolWindow k p ((upTo (p.kh * p.kw)).filterMap fun i =>
        let r : Int := (y * p.sh + i / p.kw : Nat) - (p.pt : Int)
        let c : Int := (x * p.sw + i % p.kw : Nat) - (p.pl : Int)
        if 0 ≤ r ∧ r < l.hout ∧ 0 ≤ c ∧ c < l.wout then some (at_ r.toNat c.toNat o) else none))
  pixels.foldl (fun (a : Plane × ConvCount) q =>
    let (codes, scales, n) := encodePixel l.ofmt q.2.2
    (a.1.put q.1 q.2.1 codes scales, a.2.add n)) (out, ⟨sat, 0, 0⟩)

/-- Input rows a stripe's windows read (R244). -/
def Layer.inputRows (l : Layer) (st : Stripe) : List Nat :=
  let ys := l.stripeRows st
  (upTo l.hin).filter fun r => ys.any fun y => (upTo l.kh).any fun ky => y * l.sh + ky * l.dil == r + l.pt

/-- Input rows stripe `i` re-fetches: those the stripe before it reads too (R244). -/
def Layer.haloRows (l : Layer) (i : Nat) : Nat :=
  match i with
  | 0 => 0
  | j + 1 => match l.stripes[j]?, l.stripes[j + 1]? with
    | some a, some b => let before := l.inputRows a; ((l.inputRows b).filter before.contains).length
    | _, _ => 0

/-! ### Last layers (R251) -/

/-- Global pooling of a plane, with the side vector appended (R251). -/
def globalPool (k : Nat) (avg side : Bool) (p : Plane) (sv : List Nat) : List F32 :=
  let n := p.w * p.h
  let v := (upTo p.c).map fun c =>
    let xs := (upTo n).map fun i => p.value (i % p.w) (i / p.w) c
    if avg then f32Div (fsum k xs) (f32OfInt n) else xs.foldl f32Max (xs.headD 0)
  if side then v ++ sv.map fun b => f32OfBf16 (BitVec.ofNat 16 b) else v

/-- A fully connected layer on a vector (R251). (log 23, DEDUCED) -/
def Layer.runFc (l : Layer) (k : Nat) (v : List F32) : List F32 × ConvCount :=
  let n := l.cin
  let ints := v.map fun x => match f32Ratio x with
    | some (m, 1) => if -128 ≤ m ∧ m ≤ 127 then m else satInt 8 (Config.toInt8 x.toNat)
    | _ => satInt 8 (Config.toInt8 x.toNat)
  let outs := (upTo l.cout).map fun o =>
    let ws := (upTo n).map fun i => l.weight (o * n + i)
    match l.wfmt with
    | .int8 => l.drain o (.int (signedOf 32 (codeOf 32 ((List.zipWith (fun a w => a * signedOf 8 w) ints ws).foldl (· + ·) 0))))
    | _ => l.drain o (.float (accSum k (List.zipWith (fun a w =>
        f32Mul (f32OfBf16 (bf16OfF32 a)) (f32OfBf16 (BitVec.ofNat 16 w))) v ws)))
  let (codes, scales, n) := encodePixel l.ofmt (outs.map (·.1))
  (codes.zipIdx.map fun c => codeValue l.ofmt c.1 (scales.getD (c.2 / 32) 0), n.add ⟨(outs.map (·.2)).sum, 0, 0⟩)

/-- exp, within 2 ulp (R251). (log 23, DEDUCED) -/
def softExp (k : Nat) (x : F32) : F32 :=
  let y := expNear x
  if f32Abs y = 0 ∨ f32IsNan y ∨ y = f32Inf false then y else f32Ulps y (clampInt (-2) 2 (Config.expUlp (k * 2 ^ 32 + x.toNat)))

/-- Softmax in FP32 (R251). -/
def softmax (k : Nat) (v : List F32) : List F32 :=
  let m := v.foldl f32Max (v.headD 0)
  let es := v.map fun x => softExp k (f32Sub x m)
  let t := fsum k es
  es.map fun e => f32Div e t

/-- The value of a vector layer that follows another, and the counts it makes. -/
def Layer.runVec (l : Layer) (k : Nat) (v : List F32) : List F32 × ConvCount :=
  match l.kind with
  | .softmax => (softmax k v, .zero)
  | _ => l.runFc k v

end Sys2Proof.Machine
end

