-- ==== Sys2Proof/Machine/Quern.lean ====
section
/-!
DEFINITION. The array and the edge engine at work (09_layer_mapping.md R240 to R252): modes, stripes, aborts, layer groups and
streamed batches.
-/

namespace Sys2Proof.Machine

/-- Job that sub-array `k` runs. -/
def DenseUnit.sub (x : DenseUnit) (k : Nat) : Option RunJob := Sparse.get (fun _ => none) x.subs k

/-- The unit with sub-array `k`'s job replaced. -/
def DenseUnit.setSub (x : DenseUnit) (k : Nat) (j : Option RunJob) : DenseUnit :=
  { x with subs := Sparse.set (fun _ => none) x.subs k j }

/-- Array layers. -/
def arrayKind : LayerKind → Bool
  | .array _ => true
  | _ => false

/-- Mode of the layer of a job. -/
def State.jobMode (s : State) (u : Nat) (j : RunJob) : Option Nat :=
  match (s.dense u).tile j.tile with
  | some t => match (s.tilePlan t).layers[j.layer]? with
    | some l => match l.kind with | .array m => some m | _ => none
    | none => none
  | none => none

/-- Mode of the next array job, none when no job is ready. -/
def State.nextMode (s : State) (u : Nat) : Option Nat := (s.nextJob u arrayKind).bind (s.jobMode u)

/-- QUERN_MODE_SWITCH: with every sub-array idle, the array takes the mode of the next job (R240). -/
def execQuernModeSwitch (region mode : Nat) (s : State) : Host.Outcome State Fault Refusal :=
  onUnit (decide (region < 8) && decide (mode < 3)) s
    (whenDue ((s.dense region).subs.isEmpty && (s.dense region).mode != mode && s.nextMode region == some mode)
      (fun s => (s.onDense region fun x => { x with mode := mode }).bump (pid 9 region 0x105)) s)

/-- STRIPE_START: a free sub-array takes the next job of the oldest tile that has one ready (R222, R241, R246). -/
def execStripeStart (region sub : Nat) (s : State) : Host.Outcome State Fault Refusal :=
  onUnit (decide (region < 8) && decide (sub < 4)) s
    (let x := s.dense region
     match s.nextJob region arrayKind with
     | some j =>
       whenDue (decide (sub < 2 ^ x.mode) && (x.sub sub).isNone && s.jobMode region j == some x.mode)
         (fun s => s.onDense region fun x => (x.onTile j.tile (·.start j)).setSub sub (some j)) s
     | none => s)

/-- The plane a layer reads. -/
def Tile.srcPlane (t : Tile) (l : Layer) : Plane :=
  match l.src with
  | none => t.input.getD t.plane
  | some k => ((t.layers[k]?).bind (·.plane)).getD ⟨0, 0, 0, .int8, [], []⟩

/-- Every value of a plane in order. -/
def Plane.values (p : Plane) : List F32 :=
  (upTo (p.w * p.h * p.c)).map fun i => p.value (i / p.c % p.w) (i / p.c / p.w) (i % p.c)

/-- The vector a last layer reads: its source's, or what a continuation was sent. -/
def Tile.srcVec (t : Tile) (l : Layer) (i : Nat) : List F32 :=
  match l.source i with
  | some k => match t.layers[k]? with | some r => r.vec | none => []
  | none => match t.input with | some p => p.values | none => []

/-- A tile's record of a layer changed. -/
def Tile.onLayer (t : Tile) (i : Nat) (f : LayerRun → LayerRun) : Tile := { t with layers := updateAt t.layers i f }

/-- The counts of a conversion added to a unit's counters; `block` is QUERN or EDGE (R238). -/
def State.countConv (s : State) (block u : Nat) (c : ConvCount) : State :=
  ((s.bump (pid block u 0x100) c.satInt).bump (pid block u 0x101) c.satFp).bump (pid block u 0x102) c.nanOut

/-- What the post unit takes of a tile whose jobs have all finished (R253, R254). -/
def State.scoredOf (s : State) (u : Nat) (t : Tile) : Scored :=
  let plane := fun k => ((t.layers[k]?).bind (·.plane)).getD ⟨0, 0, 0, .int8, [], []⟩
  let last := t.layers.getLast?
  { lr := t.lr, slot := t.slot, id := t.id, unit := u,
    scores := match last with
      | some r => (match r.plane with | some p => p.values | none => r.vec)
      | none => [],
    maps := (s.tilePlan t).box.map fun b => (plane b.scores, plane b.regs, b),
    tileW := t.w, tileH := t.h, boxAsked := false, boxes := none, posted := none }

/-- A transfer point of the active image (R394). -/
def State.transfer (s : State) (g : Nat) : Option Transfer :=
  s.mgmt.model.active.bind fun m => m.transfers.find? (·.segment == g)

/-- A finished layer's result sent on as ACTIVATION messages in offset order: to the receiving member, or the final scores to
the module that numbered the object (R334, R394, R396). -/
def State.sendPlane (s : State) (t : Tile) (layer : Nat) : State :=
  forEach ((s.tilePlan t).sends.filter (·.1 == layer)) (fun s e =>
    match s.mgmt.model.active, s.transfer e.2, t.layers[layer]? with
    | some m, some x, some r =>
      let dest := if x.rx = 0xFF then t.id / 2 ^ 24 else m.addrs.getD x.dest 0
      let chunks := chunksOf 4096 (padTo x.bytes (Config.planeBytes (r.plane.map Plane.pack) r.vec))
      forEach chunks.zipIdx (fun s c =>
        (s.sendTo dest 2 6 0 (leBytes 4 t.id ++ leBytes 4 e.2 ++ leBytes 4 (c.2 * 4096) ++ c.1)).getD s) s
    | _, _, _ => s) s

/-- The plan's last layer goes to another member, so the classification does not end here (R394). -/
def Plan.leaves (p : Plan) : Bool := p.sends.any fun e => e.1 + 1 == p.layers.length

/-- The planes that a tile still needs: of layers with a reader that has not finished, of the last layer and of the box stage;
a layer with no reader keeps its plane (R246). -/
def Tile.keepsPlane (t : Tile) (p : Plan) (k : Nat) : Bool :=
  let readers := p.layers.zipIdx.filter fun e => e.1.source e.2 == some k
  readers.isEmpty || k + 1 == p.layers.length || (p.box.any fun b => b.scores == k || b.regs == k) ||
    readers.any fun e => !((t.layers[e.2]?).any fun r => r.jobs.all (· == .done))

/-- A tile with the planes freed that every reader has finished with (R246). -/
def Tile.freePlanes (t : Tile) (p : Plan) : Tile :=
  { t with layers := t.layers.zipIdx.map fun e => if t.keepsPlane p e.2 then e.1 else { e.1 with plane := none } }

/-- Layer `k` runs once more, and before it every layer whose plane it reads and that has been freed (R246, R247).
(log 23, DEDUCED) -/
def Tile.remake (t : Tile) (p : Plan) (k : Nat) : Nat → Tile
  | 0 => t
  | n + 1 =>
    let t := t.onLayer k fun r => { r with remade := true, jobs := r.jobs.map fun _ => .waiting }
    match (p.layers[k]?).bind (·.src) with
    | some q => if (t.layers[q]?).any (·.plane.isNone) then t.remake p q n else t
    | none => t

/-- A job has finished: it gives back its reference; with the plan's last job the classification goes to the post unit, and
the edge engine takes its next group (R222, R246). -/
def State.jobDone (s : State) (u : Nat) (j : RunJob) (f : Tile → Tile) : State :=
  match (s.dense u).tile j.tile with
  | none => s
  | some t =>
    let t := (if t.cancelled then t else f t).setJob j.layer j.stripe .done
    let layerOver := !t.cancelled && (t.layers[j.layer]?).any fun r => r.jobs.all (· == .done)
    let s := if layerOver && !((t.layers[j.layer]?).any (·.remade)) then s.sendPlane t j.layer else s
    let t := if layerOver then t.freePlanes (s.tilePlan t) else t
    let ended := !t.cancelled && !(s.tilePlan t).leaves && t.layers.all fun r => r.jobs.all (· == .done)
    let s := s.onDense u fun x =>
      let x := if ended then { x with done := x.done ++ [s.scoredOf u t] } else x
      settleTile j.tile (x.setTile j.tile (some t.give))
    s.kickEdge u

/-- STRIPE_DONE (R231 to R236, R239, R244 to R249). -/
def execStripeDone (region sub : Nat) (s : State) : Host.Outcome State Fault Refusal :=
  onUnit (decide (region < 8) && decide (sub < 4)) s
    (match (s.dense region).sub sub with
     | none => s
     | some j =>
       let s := s.onDense region fun x => x.setSub sub none
       match (s.dense region).tile j.tile with
       | none => s
       | some t =>
         match (s.tilePlan t).layers[j.layer]? with
         | none => s
         | some l =>
           let (k, s) := s.takeFree
           let st := l.stripes.getD j.stripe ⟨0, 0⟩
           let out := ((t.layers[j.layer]?).bind (·.plane)).getD l.emptyPlane
           let (p, c) := l.runStripe k (t.srcPlane l) out st
           let s := ((s.bump (pid 9 region 0x103)).bump (pid 9 region 0x104) (l.haloRows j.stripe)).countConv 9 region c
           s.jobDone region j fun t => t.onLayer j.layer fun r => { r with plane := some p })

/-- A tile whose classification is abandoned (R224, R247). (log 23, DEDUCED) -/
def State.abandon (s : State) (u d : Nat) : State :=
  s.onDense u fun x => x.onTile d fun t => t.cancel

/-- STRIPE_ABORT: a double-bit error aborts a stripe; it runs once more, or with a bad plane the layer that made it does; a
second failure abandons the classification (R247). -/
def execStripeAbort (region sub : Nat) (planeBad : Bool) (s : State) : Host.Outcome State Fault Refusal :=
  onUnit (decide (region < 8) && decide (sub < 4)) s
    (match (s.dense region).sub sub with
     | none => s
     | some j =>
       let s := (((s.onDense region fun x => x.setSub sub none).bump (pid 9 region 0x106)).countUe 1).report 0x09 region 1 j.layer
       match (s.dense region).tile j.tile with
       | none => s
       | some t =>
         let plan := s.tilePlan t
         let src := if planeBad then (plan.layers[j.layer]?).bind (·.src) else none
         let again := ((t.layers[j.layer]?).all (·.aborted.contains j.stripe)) ||
           (match src with | some k => (t.layers[k]?).all (·.remade) | none => false)
         if t.cancelled || again then
           (s.onDense region fun x => x.onTile j.tile fun t => (t.setJob j.layer j.stripe .done).give.cancel).kickEdge region
         else
           let s := s.onDense region fun x => x.onTile j.tile fun t =>
             let t := (t.setJob j.layer j.stripe .again).onLayer j.layer fun r => { r with aborted := r.aborted ++ [j.stripe] }
             match src with
             | some k => t.remake plan k plan.layers.length
             | none => t
           s.kickEdge region)

/-! ### Edge engine (R250 to R252) -/

/-- An edge layer run on a tile: its record with the result, and what its conversions counted. -/
def Layer.runEdge (l : Layer) (k i : Nat) (t : Tile) (r : LayerRun) : LayerRun × ConvCount :=
  match l.kind with
  | .array _ | .edgeConv =>
    let (p, c) := l.runStripe k (t.srcPlane l) l.emptyPlane ⟨0, l.hout⟩
    ({ r with plane := some p }, c)
  | .globalPool avg side => ({ r with vec := globalPool k avg side (t.srcPlane l) t.side }, .zero)
  | .fc _ | .softmax => let (v, c) := l.runVec k (t.srcVec l i); ({ r with vec := v }, c)

/-- The edge engine's work on one job done (R250, R251). (log 23, DEDUCED) -/
def State.edgeDone (s : State) (u : Nat) (j : RunJob) : State :=
  match (s.dense u).tile j.tile with
  | none => s
  | some t =>
    match (s.tilePlan t).layers[j.layer]?, t.layers[j.layer]? with
    | some l, some r =>
      let (k, s) := s.takeFree
      let (r, c) := l.runEdge k j.layer t r
      ((s.bump (pid 0x0A u 0x103)).countConv 0x0A u c).jobDone u j fun t => t.onLayer j.layer fun _ => r
    | _, _ => s

/-- EDGE_LAYER_GROUP_DONE (R250, R251). -/
def execEdgeLayerGroupDone (region : Nat) (s : State) : Host.Outcome State Fault Refusal :=
  onUnit (decide (region < 8)) s
    (match (s.dense region).edge with
     | none => s
     | some j => ((s.onDense region fun x => { x with edge := none }).edgeDone region j).kickEdge region)

/-- Tiles whose streamed layer is ready, oldest first, up to 16, all at the layer of the oldest (R252). -/
def State.fcBatch (s : State) (u : Nat) : List RunJob :=
  let stream := fun (k : LayerKind) => k == .fc true
  let ready := (s.dense u).inOrder.filterMap fun e => (s.readyJob e.2 stream).map fun j => (e.2.gen, (⟨e.1, j.1, j.2⟩ : RunJob))
  match ready with
  | [] => []
  | (g, j) :: _ => ((ready.filter fun e => e.1 == g && e.2.layer == j.layer).map (·.2)).take 16

/-- FC_BATCH_STREAM: the weights of a fully connected layer stream once for a batch (R252). -/
def execFcBatchStream (region : Nat) (s : State) : Host.Outcome State Fault Refusal :=
  onUnit (decide (region < 8)) s
    (let js := s.fcBatch region
     whenDue (!js.isEmpty && (s.dense region).edge.isNone) (fun s =>
       let s := s.onDense region fun x => js.foldl (fun x j => x.onTile j.tile (·.start j)) { x with lastBatch := js.length }
       (forEach js (fun s j => s.edgeDone region j) (s.bump (pid 0x0A region 0x104))).kickEdge region) s)

end Sys2Proof.Machine
end

