-- ==== Sys2Proof/Machine/Replies.lean ====
section
/-!
DEFINITION. Command packets and replies (14_commands.md R350, R353, R354, R356, R358, R377), and what the loss of a route does to
the commands and sessions that need it.
-/

namespace Sys2Proof.Machine

/-! ### Packets (R353, R354) -/

/-- A packet's fields; `reserved` is false when a reserved bit of its header is 1. -/
structure Packet where
  version : Nat
  reply : Bool
  bcast : Bool
  status : Nat
  opcode : Nat
  tag : Nat
  dest : Nat
  src : Nat
  reserved : Bool
  length : Nat
  payload : List Byte
  deriving DecidableEq, Repr

/-- SYNC and HCHECK are good (check 1 of R355). -/
def headerGood (b : List Byte) : Bool :=
  decide (16 ≤ b.length) && leAt b 0 1 == 0xC7 && leAt b 14 2 == crc16 (b.take 14)

/-- The fields of a packet with a good header. -/
def parsePacket (b : List Byte) : Packet :=
  let n := leAt b 10 2
  { version := leAt b 1 1, reply := bitOf (leAt b 2 1) 0, bcast := bitOf (leAt b 2 1) 1, status := leAt b 3 1,
    opcode := leAt b 4 2, tag := leAt b 6 2 % 4096, dest := leAt b 8 1, src := leAt b 9 1,
    reserved := leAt b 2 1 < 4 && leAt b 6 2 < 4096 && leAt b 12 2 == 0, length := n, payload := (b.drop 16).take n }

/-- The trailer over header and payload is good (R354). -/
def trailerGood (b : List Byte) (n : Nat) : Bool := leAt b (16 + n) 4 == crc32c (b.take (16 + n))

/-- A whole packet (R353, R354). (log 46, DEDUCED) -/
def packetBytes (version : Nat) (reply bcast : Bool) (status opcode tag dest src : Nat) (payload : List Byte) : List Byte :=
  let h := leBytes 1 0xC7 ++ leBytes 1 version ++ leBytes 1 (bit reply + 2 * bit bcast) ++ leBytes 1 status ++
    leBytes 2 opcode ++ leBytes 2 tag ++ leBytes 1 dest ++ leBytes 1 src ++ leBytes 2 payload.length ++ leBytes 2 0
  let h := h ++ leBytes 2 (crc16 h)
  h ++ payload ++ leBytes 4 (crc32c (h ++ payload))

/-- VERSION that packets carry (R377). -/
def State.packetVersion (s : State) : Nat := if s.compat then 1 else 2

/-! ### The reply queue (R350, R356, R358) -/

/-- The state with its host attachment changed. -/
def State.onHost (s : State) (f : HostState → HostState) : State := { s with host := f s.host }

/-- The state with its SDIO device changed. -/
def State.onSdio (s : State) (f : SdioState → SdioState) : State := s.onHost fun h => { h with sdio := f h.sdio }

/-- The tag that marks a waiting reply of no command in flight at this module. -/
def noTag : Nat := 4096

/-- The reply of MODULE_RESET enters the outbox (R375). -/
def State.outboxHead (s : State) : State :=
  match s.host.replies.head?, s.host.resetReply with
  | some b, some r => if b == r && !r.isEmpty then s.onHost fun h => { h with resetAt := s.loc } else s
  | _, _ => s

/-- A reply enters the reply queue of 256, or waits for room (R350). -/
def State.pushReply (s : State) (tag : Nat) (b : List Byte) : State :=
  if s.host.replies.length < 256 then
    let s' := s.onHost fun h => { h with replies := h.replies ++ [b] }
    if s.host.replies.isEmpty then s'.outboxHead else s'
  else s.onHost fun h => { h with stalled := h.stalled ++ [(tag, b)] }

/-- The packet of a reply (R358). -/
def State.replyBytes (s : State) (opcode tag dest : Nat) (st : Status) (payload : List Byte) : List Byte :=
  packetBytes s.packetVersion true false st.code opcode tag dest s.addr payload

/-- A reply sent toward module `dest`: into the own reply queue, where it holds tag `held` in flight while it waits for room, or on a
spoke link; with no route it is discarded and counted (R340, R356, R358). -/
def State.sendReplyAs (s : State) (held opcode tag dest : Nat) (st : Status) (payload : List Byte) : State :=
  let b := s.replyBytes opcode tag dest st payload
  if dest = s.addr then s.pushReply held b
  else match s.sendTo dest 0 3 0 b with
    | some s => s
    | none => s.bump (chainId 0x100)

/-- The reply of a packet that has been accepted. -/
def State.sendReply (s : State) (opcode tag dest : Nat) (st : Status) (payload : List Byte) : State :=
  s.sendReplyAs tag opcode tag dest st payload

/-- The refusal of a packet that is not accepted: its tag is not in flight (R356). -/
def State.refusePacket (s : State) (opcode tag dest : Nat) (st : Status) : State := s.sendReplyAs noTag opcode tag dest st []

/-- The reply of a command (R358). -/
def State.answer (s : State) (opcode : Nat) (r : Req) (st : Status) (payload : List Byte) : State :=
  s.sendReply opcode r.tag.toNat r.src.toNat st payload

/-! ### Loss of a route (R340, R361) -/

/-- No link leads to module `d` any more. -/
def State.routeLost (s : State) (d : Nat) : Bool := d != s.addr && !((s.route d).any s.spkUp)

/-- Bulk sessions whose route is lost end; an opening command that still waits for its reply is answered NOT_PRESENT (R361).
(log 45, DEDUCED) -/
def State.endSessions (s : State) : State :=
  let gone := s.host.forwarded.filter fun f => (f.opcode == 0x0200 || f.opcode == 0x0703) && s.routeLost f.dest
  let s := s.onHost fun h => { h with
    bulkIn := h.bulkIn.filter fun x => !s.routeLost x.dest, bulkOut := h.bulkOut.filter fun x => !s.routeLost x.dest,
    remoteIn := h.remoteIn.filter fun x => !s.routeLost x.1, remoteOut := h.remoteOut.filter fun x => !s.routeLost x,
    forwarded := h.forwarded.filter fun f => !gone.contains f }
  forEach gone (fun s f => s.pushReply noTag (s.replyBytes f.opcode f.tag s.addr .notPresent [])) s

end Sys2Proof.Machine
end

