-- ==== Sys2Proof/Machine/Wake.lean ====
section
/-!
DEFINITION. Running commands and their replies (14_commands.md R355 to R358), the transitions of a power domain and the wakes of
an access (16_power.md R407 to R414).
-/

namespace Sys2Proof.Machine

/-! ### Running commands (R355 to R358) -/

/-- The packet of a command among those accepted (R355). -/
def State.acceptedOf (s : State) (opcode : Nat) (r : Req) : Option Accepted :=
  s.host.accepted.find? fun a => a.opcode == opcode && a.req == r

/-- A command that has started and answers later (R357). (log 49, DEDUCED) -/
def State.startRunning (s : State) (opcode : Nat) (r : Req) (status : Status) (note : List Byte) : State :=
  let took := ((s.acceptedOf opcode r).map (·.took)).getD s.loc
  s.onHost fun h => { h with running := h.running ++ [⟨opcode, r, took, s.loc, status.code, note⟩] }

/-- A running command leaves the list. -/
def State.endRunning (s : State) (r : Running) : State := s.onHost fun h => { h with running := h.running.erase r }

/-- A running command is answered. (log 49, DEDUCED) -/
def State.finish (s : State) (r : Running) (st : Status) (payload : List Byte) : State :=
  (s.endRunning r).answer r.opcode r.req st payload

/-- The running command of an opcode. -/
def State.runningOf (s : State) (opcode : Nat) : Option Running := s.host.running.find? fun r => r.opcode == opcode

/-- A running command answered, if there is one; during a warm restart none is, for its end answers them all (R376, R425). -/
def State.finishOpt (s : State) (r : Option Running) (st : Status) (payload : List Byte) : State :=
  match r with
  | some r => if s.restarting then s else s.finish r st payload
  | none => s

/-! ### Transitions (R407 to R411) -/

/-- POWER word `i` of domain `d`. -/
def pwId (d i : Nat) : Nat := pid 0x14 d i

/-- The running POWER_SET that waits for domain `d`. -/
def State.powerCmd (s : State) (d : Nat) : Option Running :=
  s.host.running.find? fun r => r.opcode == 0x0400 && leAt r.req.payload 0 1 == d

/-- A pending target starts next; not during a warm restart, when power requests wait (R407, R425). -/
def State.startPending (s : State) (d : Nat) : State :=
  match (s.pdom d).pend with
  | none => s
  | some t =>
    if s.restarting then s
    else s.onPdom d fun x =>
      { x with pend := none, target := t, retry := none, move := if x.st == t then none else some ⟨t, false, false⟩,
               result := if x.st == t then 0 else x.result }

/-- Result of a domain's transition recorded, the transition ended, and a pending target started (R407). -/
def State.endMove (s : State) (d : Nat) (st : Status) : State :=
  (s.onPdom d fun x => { x with move := none, result := st.code }).startPending d

/-- A transition toward `t` starts (R407, R410). -/
def State.startMove (s : State) (d : Nat) (t : PwrState) : State :=
  s.onPdom d fun x => { x with move := some ⟨t, false, false⟩, retry := none }

/-- The next domain of a region being parked enters the requested state: it waits for a transition in progress there, and one that
is already in that state is passed; with none left the command ends (R407, R414). (log 59, DEDUCED) -/
def State.parkNext (s : State) : State :=
  match s.mgmt.power.park with
  | some q =>
    if !q.switched || s.restarting then s
    else
      let rest := q.rest.dropWhile fun d => (s.pdom d).st == q.goal && (s.pdom d).move.isNone
      match rest with
      | [] =>
        let r := s.runningOf 0x0402
        let st := (r.bind fun r => Status.ofCode r.status).getD .ok
        (s.onPower fun p => { p with park := none }).finishOpt r st []
      | d :: _ =>
        let s := s.onPower fun p => { p with park := some { q with rest := rest } }
        if (s.pdom d).move.isSome then s else (s.onPdom d fun x => { x with target := q.goal }).startMove d q.goal
  | none => s

/-- Domain `d` makes the entry that a park in progress asked of it. -/
def State.parks (s : State) (d : Nat) : Bool :=
  s.mgmt.power.park.any fun q => q.switched && q.rest.head? == some d && (s.pdom d).move.any fun m => m.goal == q.goal

/-- The entry that a park asked of a domain has ended, and the next one follows; `st` marks the command's reply when it is not OK.
(log 59, DEDUCED) -/
def State.parkStep (s : State) (st : Option Status) : State :=
  let s := match st, s.runningOf 0x0402 with
    | some e, some r => s.onHost fun h => { h with running := h.running.map fun x => if x = r then { x with status := e.code } else x }
    | _, _ => s
  (s.onPower fun p => { p with park := p.park.map fun q => { q with rest := q.rest.drop 1 } }).parkNext

/-- A domain's transition has ended without the entry of a park, which goes on. -/
def State.parkAfter (s : State) (own : Bool) (st : Option Status) : State := if own then s.parkStep st else s.parkNext

/-- A park in progress ends with a refusal of its domain (R414). -/
def State.parkRefused (s : State) (own : Bool) (st : Status) (payload : List Byte) : State :=
  if own then (s.onPower fun p => { p with park := none }).finishOpt (s.runningOf 0x0402) st payload else s.parkNext

/-- An entry refused by block `code` of instance `inst` (R408). -/
def State.refuseEntry (s : State) (d code inst : Nat) : State :=
  let payload := leBytes 1 d ++ leBytes 1 code ++ leBytes 2 inst
  let cmd := s.powerCmd d
  let own := s.parks d
  let s := s.onPdom d fun x => { x with target := x.st, refCode := code, refInst := inst % 256 }
  let s := (s.endMove d .refused).bump (pwId d 0x102)
  (s.finishOpt cmd .refused payload).parkRefused own .refused payload

/-- An entry that would put a shared memory OFF in which a queue has been enabled meanwhile ends RESOURCE_HELD, and the target
is the present state again (R298). (log 48, DEDUCED) -/
def State.refuseHeld (s : State) (d : Nat) : State :=
  let cmd := s.powerCmd d
  let own := s.parks d
  let s := (s.onPdom d fun x => { x with target := x.st }).endMove d .resourceHeld
  (s.finishOpt cmd .resourceHeld []).parkRefused own .resourceHeld []

/-- A wake event before commit ends the entry; the target stays, and a new entry follows (R408, R410). -/
def State.wakeEntry (s : State) (d : Nat) : State :=
  let cmd := s.powerCmd d
  let own := s.parks d
  let s := s.onPdom d fun x => { x with refCode := 0, refInst := 0, retry := some s.loc }
  ((s.endMove d .pending).finishOpt cmd .pending []).parkAfter own (some .pending)

/-- The domain is in an entry that has not passed commit. -/
def State.entering (s : State) (d : Nat) : Bool := (s.pdom d).move.any fun m => m.goal != .on && !m.committed

/-- A wake event before commit: it ends the entry, and the one that a pending target starts in its place (R407, R408).
(log 47, DEDUCED) -/
def State.endEntry (s : State) (d : Nat) : State :=
  let s := s.wakeEntry d
  if s.entering d then s.wakeEntry d else s

/-- A wake that an access caused starts (R410). (log 47, DEDUCED) -/
def State.startWake (s : State) (d : Nat) : State := (s.startMove d .on).bump (pwId d 0x104)

/-- An access that needs a block of domain `d`: it wakes a domain in RET, whose wake POWER_TRANSITION_DONE ends, and the access
takes its effect at once (R409, R410). (log 47, DEDUCED) -/
def State.accessWake (s : State) (d : Nat) : State :=
  match (s.pdom d).move with
  | some m =>
    if m.goal == .on then s
    else if m.committed then s.onPdom d fun x => { x with move := some { m with wake := true } }
    else
      let s := s.endEntry d
      if (s.pdom d).st == .ret && (s.pdom d).move.isNone then s.startWake d else s
  | none =>
    match (s.pdom d).st with
    | .on => if (s.pdom d).retry.isSome then s.onPdom d fun x => { x with retry := some s.loc } else s
    | .ret => s.startWake d
    | .off => s

end Sys2Proof.Machine
end

