-- ==== Sys2Proof/Machine/QueueAccess.lean ====
section
/-! DEFINITION. Accesses to a queue's storage, and the hardware's writes (12_queues_checkvalues.md R298 to R305). -/

namespace Sys2Proof.Machine

/-- An access of the host to a queue: it wakes the shared memory that stores it, and compares the pointers (R298, R304, R410). -/
def State.queueAccess (s : State) (q : Nat) (pointers : PtrCheck) : State :=
  if s.qEnabled q then (s.accessWake (4 * s.qRegion q + 3)).pointerCheck q pointers else s

/-- Producer code of QCFG.PRODUCER (R301). -/
def producerCode : Producer → Nat
  | .headraceDiag => 1 | .postBox => 2 | .firmware => 3

/-- The port whose diagnostic output names queue `q`. -/
def State.diagPort (s : State) (q : Nat) : Option Nat :=
  (upTo 4).find? fun p => s.bitAt (pid 2 p 3) 12 && s.fld (pid 2 p 3) 0 12 == q

/-- The detection region whose box output names queue `q`: region 0 or 4 (POST.BOX_QUEUE, 09_layer_mapping.md). -/
def State.boxRegion (s : State) (q : Nat) : Option Nat :=
  [0, 4].find? fun r => s.bitAt (pid 0x0B r 0x11) 12 && s.fld (pid 0x0B r 0x11) 0 12 == q

/-- A packet that a hardware writer discards for lack of room (R96, R257). -/
def State.countDiscard (s : State) (q : Nat) (p : Producer) : State :=
  match p with
  | .headraceDiag => match s.diagPort q with | some i => s.bump (pid 2 i 0x10C) | none => s
  | .postBox => match s.boxRegion q with | some r => s.bump (pid 0x0B r 0x103) | none => s
  | .firmware => s

/-- QUEUE_HW_WRITE: a hardware producer writes a whole packet after testing for room, or discards it, and wakes a shared memory in RET;
firmware, which waits for room, may write a packet in parts (R298, R301, R302, R304, R305, R410). -/
def execQueueHwWrite (queue : Nat) (producer : Producer) (words : List (BitVec 64)) (eop : Bool) (pointers : PtrCheck)
    (s : State) : Host.Outcome State Fault Refusal :=
  onUnit (decide (queue < 4096)) s
    (whenDue (s.qEnabled queue && s.qProducer queue == producerCode producer && (eop || producer == .firmware)) (fun s =>
      let s := s.queueAccess queue pointers
      if s.packetFits queue words.length then s.pushWords queue words eop else s.countDiscard queue producer) s)

end Sys2Proof.Machine
end

