-- ==== Sys2Proof/Machine/Post.lean ====
section
/-!
DEFINITION. Post units (09_layer_mapping.md R253 to R257): class and confidence, box decoding, suppression and box records.
-/

namespace Sys2Proof.Machine

/-- POST word `i`. -/
def postId (r i : Nat) : Nat := pid 0x0B r i

/-! ### Class and confidence (R253) -/

/-- A score as the post unit reads it: NaN is minus infinity. -/
def scoreOf (x : F32) : F32 := if f32IsNan x then f32Inf true else x

/-- Index of the largest score, ties to the lower. -/
def argmax (xs : List F32) : Nat :=
  (xs.zipIdx.foldl (fun (b : F32 × Nat) x => if f32Lt b.1 x.1 then x else b) (xs.headD 0, 0)).2

/-- rne(255 x p), at most 255. -/
def conf255 (p : F32) : Nat := (f32RneSat 0 255 0 (f32Mul (f32OfInt 255) p)).toNat

/-- MARGIN confidence from the two largest scores (R253). -/
def marginConf (s1 s2 : F32) (scale : Nat) : Nat :=
  let x := f32Div (f32Mul (f32Sub s1 s2) (f32OfInt scale)) (f32OfInt 16)
  (f32RneSat 0 255 (clampInt 0 255 (Config.noInteger x.toNat)) x).toNat

/-- Class and confidence of a score vector; none when every score is NaN (R253). -/
def State.classify (s : State) (lr : Nat) (scores : List F32) : Option (Nat × Nat) :=
  let c := postId lr 0
  let xs := scores.take (s.fld c 0 8 + 1)
  if xs.all f32IsNan then none
  else
    let ys := xs.map scoreOf
    let i := argmax ys
    let s1 := ys.getD i 0
    some (i, if s.bitAt c 8 then
        marginConf s1 ((ys.eraseIdx i).foldl f32Max (f32Inf true)) (s.fld c 9 8)
      else conf255 s1)

/-- POST_CLASSIFY: the post unit of region `region` delivers class and confidence; with a box stage, once the box count is
there (R253, R254). -/
def execPostClassify (region : Nat) (object : Word) (s : State) : Host.Outcome State Fault Refusal :=
  onUnit (decide (region < 8)) s
    (match (s.dense region).done.find? fun r => r.id == object.toNat && r.posted.isNone with
     | none => s
     | some r =>
       whenDue (r.maps.isNone || r.boxes.isSome) (fun s =>
         let c := s.classify r.lr r.scores
         let s := s.bumpIf c.isNone (postId region 0x100)
         s.onDense region fun x =>
           { x with done := x.done.map fun q => if q = r then { r with posted := some (c.getD (0, 0)) } else q }) s)

/-! ### Boxes (R254 to R257) -/

/-- A candidate box. -/
structure Box where
  score : F32
  cls : Nat
  cell : Nat
  anchor : Nat
  cx : F32
  cy : F32
  w : F32
  h : F32
  deriving DecidableEq, Repr

/-- The sigmoid in FP32. -/
def sigmoid (k : Nat) (x : F32) : F32 := f32Div f32One (f32Add f32One (softExp k (f32Neg x)))

/-- Candidate (i, j, a), none where R255 discards it. The channels of the score map
hold the classes of each anchor, those of the regression map four terms of each.
(log 24, DEDUCED) -/
def State.candidate (s : State) (r k : Nat) (sm rm : Plane) (bm : BoxMaps) (i j a : Nat) : Option Box :=
  let c := postId r 0x10
  let raw := (upTo bm.classes).map fun q => scoreOf (sm.value i j (bm.first + a * bm.classes + q))
  let cls := argmax raw
  let x := raw.getD cls 0
  let score := if s.bitAt c 6 then sigmoid k x else x
  if !f32Ge score (f32Div (f32OfInt (s.fld c 8 8)) (f32OfInt 256)) then none
  else
    let t := fun q => rm.value i j (bm.regFirst + 4 * a + q)
    let b := f32OfInt bm.stride
    let half := f32Div f32One (f32OfInt 2)
    let aw := f32Div (f32OfInt (s.fld (postId r (0x20 + a)) 0 16)) (f32OfInt 16)
    let ah := f32Div (f32OfInt (s.fld (postId r (0x20 + a)) 16 16)) (f32OfInt 16)
    let cell := j * sm.w + i
    if !s.bitAt c 1 then
      some ⟨score, cls, cell, a, f32Add (f32Mul (f32Add (f32OfInt i) half) b) (f32Mul (t 0) aw),
        f32Add (f32Mul (f32Add (f32OfInt j) half) b) (f32Mul (t 1) ah), f32Mul aw (softExp k (t 2)), f32Mul ah (softExp k (t 3))⟩
    else
      let w := f32Mul (t 2) b
      let h := f32Mul (t 3) b
      if f32Le w 0 || f32Le h 0 then none
      else some ⟨score, cls, cell, a, f32Mul (f32Add (f32Add (f32OfInt i) half) (t 0)) b,
        f32Mul (f32Add (f32Add (f32OfInt j) half) (t 1)) b, w, h⟩

/-- Every candidate, in the order of R256: descending score, ascending cell, ascending anchor. (log 24, DEDUCED) -/
def State.candidates (s : State) (r k : Nat) (sm rm : Plane) (bm : BoxMaps) : List Box :=
  sortBy (fun (x y : Box) => f32Lt y.score x.score || (!f32Lt x.score y.score &&
      (decide (x.cell < y.cell) || (x.cell == y.cell && decide (x.anchor ≤ y.anchor)))))
    ((upTo (sm.w * sm.h)).flatMap fun p => (upTo (s.fld (postId r 0x10) 2 4 + 1)).filterMap fun a =>
      s.candidate r k sm rm bm (p % sm.w) (p / sm.w) a)

/-- Overlap of two spans given by centre and size. -/
def spanOverlap (c1 w1 c2 w2 : F32) : F32 :=
  let two := f32OfInt 2
  let hi := f32Min (f32Add c1 (f32Div w1 two)) (f32Add c2 (f32Div w2 two))
  let lo := f32Max (f32Sub c1 (f32Div w1 two)) (f32Sub c2 (f32Div w2 two))
  f32Max 0 (f32Sub hi lo)

/-- IoU of two boxes (R256). -/
def iou (x y : Box) : F32 :=
  let inter := f32Mul (spanOverlap x.cx x.w y.cx y.w) (spanOverlap x.cy x.h y.cy y.h)
  f32Div inter (f32Sub (f32Add (f32Mul x.w x.h) (f32Mul y.w y.h)) inter)

/-- The boxes that suppression emits (R256). -/
def State.suppress (s : State) (r : Nat) (bs : List Box) : List Box :=
  let c := postId r 0x10
  let th := f32Div (f32OfInt (s.fld c 16 8)) (f32OfInt 256)
  ((bs.take 256).foldl (fun (out : List Box) b =>
    if out.any fun e => (!s.bitAt c 7 || e.cls == b.cls) && f32Lt th (iou e b) then out else out ++ [b]) []).take
      (s.fld c 24 6 + 1)

/-- Nearest 1/16 pixel of a coordinate in pixels, saturated. (log 24, DEDUCED) -/
def sixteenth (lo hi : Int) (x : F32) : Int := f32RneSat lo hi (clampInt lo hi (Config.noInteger x.toNat)) (f32Mul (f32OfInt 16) x)

/-- The 16-byte record of a box (R257). (log 24, DEDUCED) -/
def boxRecord (id tw th rank : Nat) (b : Box) : List Byte :=
  let mid := fun (n : Nat) => f32Div (f32OfInt n) (f32OfInt 2)
  leBytes 2 (codeOf 16 (sixteenth (-32768) 32767 (f32Sub b.cx (mid tw)))) ++
  leBytes 2 (codeOf 16 (sixteenth (-32768) 32767 (f32Sub b.cy (mid th)))) ++
  leBytes 2 (sixteenth 0 65535 b.w).toNat ++ leBytes 2 (sixteenth 0 65535 b.h).toNat ++
  leBytes 4 (b.cls % 256 + conf255 b.score * 2 ^ 8 + rank % 64 * 2 ^ 16) ++ leBytes 4 id

/-- Records written to the box queue, each a packet; one that finds no room is dropped (R257, R298, R304). (log 24, DEDUCED) -/
def State.writeBoxes (s : State) (r : Nat) (recs : List (List Byte)) (pointers : PtrCheck) : State :=
  let c := postId r 0x11
  if !s.bitAt c 12 then s
  else
  let q := s.fld c 0 12
  let s := if recs.isEmpty then s else s.queueAccess q pointers
  forEach recs (fun s b =>
    let ws := packWords b
    if s.packetFits q ws.length then s.pushWords q ws true else s.bump (postId r 0x103)) s

/-- The detection region that serves region `u` (R254). -/
def State.boxServer (s : State) (u : Nat) : Nat :=
  let home := if u < 4 then 0 else 4
  if s.region home ≤ 1 && !s.selfTesting home then home else 4 - home

/-- BOX_REQUEST: a finished plan with a box stage asks a detection-capable post unit (R254). -/
def execBoxRequest (region : Nat) (object : Word) (s : State) : Host.Outcome State Fault Refusal :=
  onUnit (decide (region < 8)) s
    (match (s.dense region).done.find? fun r => r.id == object.toNat && r.maps.isSome && !r.boxAsked with
     | none => s
     | some r =>
       let s := s.onDense region fun x => { x with done := x.done.map fun q => if q = r then { r with boxAsked := true } else q }
       s.onDense (s.boxServer region) fun x => { x with boxReqs := x.boxReqs ++ [(region, r.id)] })

/-- Requests waiting at a region that leaves service pass to the other (R254). -/
def State.passBoxes (s : State) (u : Nat) : State :=
  if u = 0 ∨ u = 4 then
    let rs := (s.dense u).boxReqs
    (s.onDense u fun x => { x with boxReqs := [] }).onDense (4 - u) fun x => { x with boxReqs := x.boxReqs ++ rs }
  else s

/-- BOX_DECODE_DONE: the first request of a detection region is served (R255 to R257). -/
def execBoxDecodeDone (box : BoxDone) (s : State) : Host.Outcome State Fault Refusal :=
  onUnit (box.region == 0 || box.region == 4) s
    (match (s.dense box.region).boxReqs with
     | [] => s
     | (u, id) :: rest =>
       let s := s.onDense box.region fun x => { x with boxReqs := rest }
       match (s.dense u).done.find? fun r => r.id == id with
       | some r =>
         match r.maps with
         | some (sm, rm, bm) =>
           let (k, s) := s.takeFree
           let cs := s.candidates box.region k sm rm bm
           let out := s.suppress box.region cs
           let s := (s.bump (postId box.region 0x101)).bump (postId box.region 0x102) (cs.length - 256)
           let s := s.writeBoxes box.region (out.zipIdx.map fun b => boxRecord id r.tileW r.tileH b.2 b.1) box.pointers
           s.onDense u fun x => { x with done := x.done.map fun q => if q = r then { r with boxes := some out.length } else q }
         | none => s
       | none => s)

end Sys2Proof.Machine
end

