-- ==== Sys2Proof/Machine/Install.lean ====
section
/-!
DEFINITION. Placement of a model image: block stores, translation sets and the changes of the map between fabric steps
(15_models.md R386, R390 to R393; 07_tracking_fusion.md R183; 08_tiles_arithmetic.md R223).
-/

namespace Sys2Proof.Machine

/-! ### Translation sets (R390) -/

/-- Regions other than `e`, ascending. -/
def survivors (e : Nat) : List Nat := (upTo 8).filter (· != e)

/-- Physical block of logical block `l` under set `m` (R390). -/
def setPlace (m l : Nat) : Nat :=
  if m = 0 then l
  else if l / 16 + 1 = m && l % 16 < 14 then (survivors (m - 1)).getD (l % 16 / 2) 0 * 16 + 14 + l % 2
  else l

/-- The nine translation sets. -/
def transSets : Sparse Nat :=
  (upTo 9).foldl (fun t m => (upTo 14).foldl (fun (t : Sparse Nat) b =>
    if m = 0 then t else Sparse.set transDefault t (m * 128 + (m - 1) * 16 + b) (setPlace m ((m - 1) * 16 + b))) t) []

/-! ### Block stores -/

/-- NEURON words of block `b` that an image loads: class words and programs. -/
def blockWords (b : Nat) : List Nat := (upTo 64).map (fun i => pid 5 b (0x10 + i)) ++ (upTo 256).map fun i => pid 5 b (0x100 + i)

/-- Block `b` at its reset content: class words at reset, stores and states 0 (R125, R389). -/
def State.clearBlock (s : State) (b : Nat) : State :=
  { s with
    regs := s.regs.filter fun e => !((blockWords b).contains e.1),
    fab := { s.fab with blocks := Sparse.modify (fun _ => Block.empty) s.fab.blocks b fun x => { Block.empty with lfsr := x.lfsr } } }.sleepIdle b

/-- A block that the image does not name: neurons of class 0, as at arming (R125). -/
def State.blankBlock (s : State) (b : Nat) : State :=
  let s := s.clearBlock b
  s.onBlock b (s.fillBlock b)

/-- Logical block `ib` of the image loaded into block `b`: class store and synapse store, states as at arming (R125, R391). -/
def State.loadBlock (s : State) (b : Nat) (ib : ImageBlock) : State :=
  let s := s.clearBlock b
  let s := forEach ib.words (fun s w => s.setWord (pid 5 b w.1) (BitVec.ofNat 32 w.2)) s
  let s := s.onBlock b fun x => { x with classes := ib.classes, syn := ib.syn }
  s.onBlock b (s.fillBlock b)

/-- The image's content for logical block `l`. -/
def State.imageBlock (s : State) (l : Nat) : Option ImageBlock :=
  s.mgmt.model.active.bind fun m => m.blocks.find? fun ib => ib.place == l

/-- Logical blocks of region `e` that a derailleur map moves, with their spare blocks. -/
def guests (e : Nat) : List (Nat × Nat) := (upTo 14).map fun b => (e * 16 + b, setPlace (e + 1) (e * 16 + b))

/-- Spare blocks loaded for the guests of region `e`. -/
def State.loadGuests (s : State) (e : Nat) : State :=
  forEach (guests e) (fun s g => match s.imageBlock g.1 with | some ib => s.loadBlock g.2 ib | none => s) s

/-- Blocks of region `e` loaded for the places the active map gives them there (R405). -/
def State.loadRegion (s : State) (e : Nat) : State :=
  forEach (upTo 16) (fun s i =>
    let b := e * 16 + i
    let l := (upTo 128).find? fun l => s.physOf s.rtr.activeSet l == some b
    match l.bind s.imageBlock with
    | some ib => s.loadBlock b ib
    | none => if s.mgmt.model.active.isSome then s.blankBlock b else s.clearBlock b) s

/-- Neuron states and recheck marks of block `p` copied to block `q` (R393). -/
def State.copyStates (s : State) (p q : Nat) : State :=
  let x := s.block p
  s.onBlock q fun y => { y with fill := x.fill, states := x.states, recheck := x.recheck, badState := x.badState }

/-! ### Changes of the map (R391 to R393) -/

/-- A switch under way or in force excludes region `e`. -/
def State.setMap (s : State) (m : Nat) : State :=
  { s with rtr := { s.rtr with nextSet := m, activeSet := m }, obj := { s.obj with rotate := 0 } }

/-- Dense work of logical region `e` in region `e` abandoned, and its MATURE slots requested again (R223). (log 59, DEDUCED) -/
def State.redealTiles (s : State) (e : Nat) : State :=
  let x := s.dense e
  let n := ((x.live.filter fun t => t.2.lr == e).map fun t => t.2.waiting).sum
  let x := (x.live.filter fun t => t.2.lr == e).foldl (fun x t => settleTile t.1 (x.setTile t.1 (some t.2.cancel))) x
  let x := { x with
    reqs := x.reqs.filter fun r => r.lr != e, done := x.done.filter fun r => r.lr != e }
  let s := (s.onDense e fun _ => x).bump (pid 8 e 0x105) n
  if !s.bitAt (pid 8 e 0) 0 then s
  else forEach ((s.slotsOf e).filter fun t => t.2.st == .mature && decide (t.2.tileFails < 2)) (fun s t =>
    s.requestTile ⟨e, t.1, t.2.id, t.2.matureSsn, ((s.pendOf t.2.id).map (·.gen)).getD s.obj.gen, t.2.matFeats, none, s.loc⟩) s

/-- Region `e` has failed: the map that excludes it; the host takes the steps that `e`'s tracker had still to take, without the
records lost with it (R191, R391). -/
def State.derail (s : State) (e : Nat) : State :=
  let s := s.loadGuests e
  let s := if s.stepMode then s.loadMirror e else s
  let s := (s.onTracker e fun t => { t with inbox := [] }).onConv e fun c => { Conv.empty with lfsr := c.lfsr }
  let s := ((s.setMap (e + 1)).setRegion e 2).bump (pid 1 0 0x120)
  let s := (s.redealTiles e).passBoxes e
  s.onPower fun p => { p with failing := p.failing.filter (· != e) }

/-- Region `e` is parked by a planned switch, which counts as a switch (R391, R393, R414). -/
def State.parkMap (s : State) (e : Nat) : State :=
  let s := s.loadGuests e
  let s := forEach (guests e) (fun s g => s.copyStates g.1 g.2) s
  let s := ((s.setMap (e + 1)).setRegion e 3).bump (pid 1 0 0x120)
  let s := (s.redealTiles e).passBoxes e
  s.onPower fun p => { p with park := p.park.map fun q => { q with switched := true } }

/-- The return of logical region `e` to its own region under set 0 by a planned switch, which counts (R391, R393); after a fault its blocks start from their arming
state (R419). -/
def State.unparkMap (s : State) (e : Nat) : State :=
  let s := forEach (guests e) (fun s g => match s.imageBlock g.1 with
    | some ib =>
      let s := s.loadBlock g.1 ib
      (if s.mgmt.power.failing.isEmpty then s.copyStates g.2 g.1 else s).clearBlock g.2
    | none => s) s
  let moved := (survivors e).flatMap fun u => (s.dense u).reqs.filter fun r => r.lr == e
  let s := forEach (survivors e) (fun s u => s.onDense u fun x => { x with reqs := x.reqs.filter fun r => r.lr != e }) s
  let s := ((s.setMap 0).setRegion e 1).bump (pid 1 0 0x120)
  let s := s.onDense e fun x => { x with reqs := moved.foldl (fun rs r => insertBy TileReq.le r rs) x.reqs }
  s.onPower fun p => { p with resume := if p.resume = some e then none else p.resume }

/-- One switch of the map, made between fabric steps. -/
def State.switchMap (s : State) (w : MapSwitch) : State :=
  match w with
  | .derail e => s.derail e
  | .park e => s.parkMap e
  | .resume e | .returned e => s.unparkMap e

/-- Every switch that waits for the boundary, in order (R177, R391, R393, R419). -/
def State.switchMaps (s : State) : State :=
  let ws := s.mgmt.power.switches
  forEach ws (fun s w => s.switchMap w) (s.onPower fun p => { p with switches := [] })

/-! ### Installing an image (R386, R398) -/

/-- Region excluded from the normal placement, none in the normal one (R33). -/
def State.excluded (s : State) : Option Nat := (upTo 8).find? fun r => s.region r == 2 || s.region r == 3 || s.mgmt.fault.retest == some r

/-- The stores, subscriptions, translation sets and PARAMS words of an image written; a FORCE among these acts at once (R204,
R386 step 7, R398). -/
def State.installStores (s : State) (m : Model) : State :=
  let set := match s.excluded with | some e => e + 1 | none => 0
  let s := s.onModel fun x => { x with active := some m }
  let subs := m.subs.foldl (fun (t : Sparse Nat) e => Sparse.set (fun _ => 0) t e.1 e.2) []
  let s := { s with rtr := { s.rtr with subs := subs, trans := transSets } }.setMap set
  let s := forEach (upTo 128) (fun s b => s.blankBlock b) s
  let s := forEach m.blocks (fun s ib => match s.physOf set ib.place with | some b => s.loadBlock b ib | none => s) s
  let s := forEach m.params (fun s w =>
    match lookup w.1 with
    | .word fs => s.setWord w.1 (mergeWrite fs (s.word w.1) (BitVec.ofNat 32 w.2))
    | _ => s) s
  forEach (upTo 8) (fun s lr => forEach (upTo 32) (fun s j => s.forceSensor lr j) s) s

/-- Regions that carry their part of the placement (R32). -/
def State.placeRegions (s : State) (m : Model) : State :=
  forEach (upTo 8) (fun s r =>
    if s.region r = 0 || s.region r = 1 then s.setRegion r (bit (bitOf m.needs.lregions r)) else s) s

/-- The plan in use replaced; tiles already asked for finish under the old one (R398). -/
def State.installPlan (s : State) (p : Plan) : State :=
  { s with obj := { s.obj with plan := p, oldPlan := s.obj.plan, gen := s.obj.gen + 1 } }

/-- An image installed (R386 step 7). -/
def State.installModel (s : State) (m : Model) : State := ((s.installStores m).placeRegions m).installPlan m.plan

/-- The active image unloaded: block stores at reset content, translation set 0 (R125, R389). -/
def State.unloadModel (s : State) : State :=
  let s := forEach (upTo 128) (fun s b => s.clearBlock b) s
  let s := forEach (upTo 8) (fun s r => if s.region r = 1 then s.setRegion r 0 else s) s
  let s := { s with rtr := { s.rtr with subs := [] } }.setMap 0
  (s.installPlan ⟨[], none, []⟩).onModel fun x => { x with active := none }

end Sys2Proof.Machine
end

