-- ==== Sys2Proof/Machine/AuxFilter.lean ====
section
/-!
DEFINITION. Auxiliary sensor channels (11_aux_filters.md): the filter chain, synchronising resets, invalid samples, stamps,
records and their delivery.
-/

namespace Sys2Proof.Machine

/-- AUXFILT word `i` of channel `c`, and module word `i`. -/
def auxId (c i : Nat) : Nat := pid 0x0F c i
def auxModId (i : Nat) : Nat := pid 0x0F 0x10 i

/-- A preset's chain (R280). -/
structure Preset where
  log2R : Nat
  lf : Nat
  lh1 : Nat
  /-- 0 where the chain has one half-band stage -/
  lh2 : Nat
  /-- span in input bits -/
  span : Nat
  /-- fill length in samples -/
  fill : Nat
  deriving DecidableEq, Repr

/-- The four chains (R280). -/
def presetOf : Nat → Preset
  | 0 => ⟨6, 31, 23, 35, 13756, 26⟩
  | 1 => ⟨5, 23, 15, 23, 4572, 17⟩
  | 2 => ⟨4, 15, 11, 0, 620, 9⟩
  | _ => ⟨3, 7, 7, 0, 180, 5⟩

/-- Total decimation ratio D (R280). -/
def Preset.ratio (p : Preset) : Nat := 2 ^ p.log2R * (if p.lh2 = 0 then 4 else 8)

/-- Fields of a CFG word. -/
def cfgEnable (w : Nat) : Bool := bitOf w 0
def cfgPreset (w : Nat) : Nat := bitsOf w 1 2
def cfgInvert (w : Nat) : Bool := bitOf w 5
def cfgExtra (w : Nat) : Nat := bitsOf w 6 8

/-- The modulator clock a CFG word selects: its divider, and whether it runs (R278, R279). -/
def State.auxDiv (s : State) (w : Nat) : Nat := if bitOf w 3 then s.fld (auxModId 0) 9 8 else s.fld (auxModId 0) 0 8
def State.auxClock (s : State) (w : Nat) : Bool := if bitOf w 3 then s.bitAt (auxModId 0) 17 else s.bitAt (auxModId 0) 8

/-- Local count from which the edges of clock `k` are counted. -/
def State.mclkPhase (s : State) (k : Bool) : Nat := if k then s.mclk.2 else s.mclk.1

/-- The first rising edge after local count `l` of the clock a CFG word selects: edges stand DIV ns apart (R278).
(log 28, DEDUCED) -/
def State.edgeAfter (s : State) (w l : Nat) : Nat :=
  let d := s.auxDiv w
  let p := s.mclkPhase (bitOf w 3)
  p + ((l - p) / d + 1) * d

/-- Level of MCLK0 (`k` false) or MCLK1: high in the first half of each period while its clock runs (R278).
(log 28, DEDUCED) -/
def State.mclkLevel (s : State) (k : Bool) : Bool :=
  let w := 8 * bit k
  s.domOn 42 && s.auxClock w && decide (s.mclkPhase k + s.auxDiv w ≤ s.loc) && decide (2 * ((s.loc - s.mclkPhase k) % s.auxDiv w) < s.auxDiv w)

/-! ### The chain (R282, R283) -/

/-- One integrator stage after the other, modulo 2^32: the new values and the last one. -/
def integrate (x : Nat) : List Nat → List Nat
  | [] => []
  | a :: rest => let y := (a + x) % 2 ^ 32; y :: integrate y rest

/-- Comb stages of differential delay 1: the new delays and the output. -/
def comb (x : Nat) : List Nat → List Nat × Nat
  | [] => ([], x)
  | a :: rest => let (ds, y) := comb ((x + 2 ^ 32 - a) % 2 ^ 32) rest; (x :: ds, y)

/-- Scaling of the CIC output to 24 bits: full scale 2^22 (R283). -/
def cicScale (log2R : Nat) (c : Int) : Int :=
  if 22 < 5 * log2R then rneShift c (5 * log2R - 22) else c * (2 ^ (22 - 5 * log2R) : Nat)

/-- A coefficient of the ROM as 18 bits signed. -/
def romTap (preset stage i : Nat) : Int := signedOf 18 (Config.auxCoef preset stage i)

/-- Taps of one side of a filter, the outermost first, in units of 2^-17: stage 0 is the FIR, the others are half-band filters,
whose taps at an even distance from the middle are 0 and whose side sums to 1/4 (R280, R283). -/
def romSide (preset stage taps : Nat) : List Int :=
  let m := (taps - 1) / 2
  let xs := (upTo m).map (romTap preset stage)
  if stage = 0 then
    let mid := 131072 - 2 * xs.sum
    if -131072 ≤ mid ∧ mid < 131072 then xs else List.replicate (m - 1) 0 ++ [1]
  else
    let ys := (xs.take (m - 1)).zipIdx.map fun x => if (m - x.2) % 2 = 0 then 0 else x.1
    let near := 32768 - ys.sum
    if -131072 ≤ near ∧ near < 131072 then ys ++ [near] else List.replicate (m - 1) 0 ++ [32768]

/-- The taps of a linear-phase filter of passband gain 1: mirrored about the middle, they sum to 2^17 (R280, R283). The
coefficients are free but for that and the half-band form. (log 28, DEDUCED) -/
def romRow (preset stage taps : Nat) : List Int :=
  let xs := romSide preset stage taps
  xs ++ [131072 - 2 * xs.sum] ++ xs.reverse

/-- A filter output before its clamp: the delay line, newest first, weighted and shifted by 17 (R283). -/
def firSum (preset stage taps : Nat) (xs : List Int) : Int := rneShift (List.zipWith (· * ·) (romRow preset stage taps) xs).sum 17

/-- A decimating stage takes an input: its delay line, its phase, and every second input an output with a clamp flag and
whether a bad ROM word went into it, `bad` being whether this output uses one (R281, R283). -/
def decimate (preset stage taps : Nat) (bad : Bool) (xs : List (Int × Bool)) (odd : Bool) (x : Int × Bool) :
    List (Int × Bool) × Bool × Option ((Int × Bool) × Bool) :=
  let xs := (x :: xs).take taps
  if odd then
    let y := firSum preset stage taps (xs.map (·.1))
    (xs, false, some ((satInt 24 y, bad || xs.any (·.2)), satInt 24 y != y))
  else (xs, true, none)

/-- The channel after stage `k` has made an output: a bad word waiting for it is spent (R281). -/
def AuxChan.spend (a : AuxChan) (k : Nat) : AuxChan := { a with badWord := a.badWord.filter (· != k) }

/-- One bit through the chain; the last half-band output when it completes one, with whether a bad ROM word went into it
(R281, R283). -/
def AuxChan.bit (a : AuxChan) (b : Int) : AuxChan × Option (Int × Bool) :=
  let p := presetOf (cfgPreset a.cfg)
  let k := cfgPreset a.cfg
  let ints := integrate (codeOf 32 b) a.ints
  if a.cicPhase + 1 < 2 ^ p.log2R then ({ a with ints := ints, cicPhase := a.cicPhase + 1 }, none)
  else
    let (combs, c) := comb (ints.getD 4 0) a.combs
    let a := { a with ints := ints, combs := combs, cicPhase := 0 }
    let (fir, o, y) := decimate k 0 p.lf (a.badWord.contains 0) a.fir a.firOdd (cicScale p.log2R (signedOf 32 c), false)
    let a := { a with fir := fir, firOdd := o }
    match y with
    | none => (a, none)
    | some (f, c0) =>
      let a := a.spend 0
      let (h1, o, y) := decimate k 1 p.lh1 (a.badWord.contains 1) a.h1 a.h1Odd f
      let a := { a with h1 := h1, h1Odd := o, clip := a.clip || c0 }
      match y with
      | none => (a, none)
      | some (g, c1) =>
        let a := { a.spend 1 with clip := a.clip || c1 }
        if p.lh2 = 0 then (a, some g)
        else
          let (h2, o, y) := decimate k 2 p.lh2 (a.badWord.contains 2) a.h2 a.h2Odd g
          let a := { a with h2 := h2, h2Odd := o }
          match y with
          | none => (a, none)
          | some (h, c2) => ({ a.spend 2 with clip := a.clip || c2 }, some h)

/-- The trim stage before its clamp (R283). -/
def trim (gain : Nat) (offset h : Int) : Int := rneShift (h * gain) 21 - offset

/-! ### Samples -/

/-- A history cleared by a synchronising reset, under the channel's CFG word now (R285). (log 28, DEDUCED) -/
def AuxChan.clear (a : AuxChan) (cfg : Nat) : AuxChan :=
  { AuxChan.empty with
    cfg := cfg, last := a.last, run := a.run, stuck := a.stuck, seq := a.seq, record := a.record, snap := a.snap,
    valid := a.valid, edge := a.edge, resets := a.resets }

/-- A sample record of 128 bits (R290). -/
def sampleRecord (c : Nat) (value : Int) (valid clip : Bool) (seq stamp : Nat) : Nat :=
  codeOf 16 value + c * 2 ^ 16 + bit valid * 2 ^ 20 + bit clip * 2 ^ 21 + seq * 2 ^ 32 + stamp * 2 ^ 64

/-- The record written to the channel's ring (R292). -/
def State.ringWrite (s : State) (c seq r : Nat) : State :=
  let n := 2 ^ s.fld (auxModId 3) 0 5
  if s.bitAt (auxModId 3) 5 then s.writeBytes (s.wide (auxModId 1) % 2 ^ 48 + c * n * 16 + seq % n * 16) (leBytes 16 r) else s

/-- A valid sample taken by the consumers of every region (R152, R196, R287, R291). -/
def State.auxConsume (s : State) (c stamp : Nat) (value : Int) : State :=
  let s := s.onChan c fun a => { a with valid := (stamp, value) :: a.valid }
  let s := forEach (upTo 8) (fun s lr => s.encodersAsync c value lr) s
  if s.stepMode then forEach (upTo 8) (fun s lr => s.auxFeed lr c stamp value) s else s

/-- Output `h` of the chain, completed by the bit of the edge at local count `l`: trimmed, stamped, recorded and delivered
(R283 to R292). (log 28, DEDUCED) -/
def State.auxOutput (s : State) (c l : Nat) (h : Int × Bool) : State :=
  let a := s.chan c
  let p := presetOf (cfgPreset a.cfg)
  let y := trim (s.fld (auxId c 1) 0 16) (s.sfld (auxId c 1) 16 16) h.1
  let clip := a.clip || satInt 16 y != y
  let (i, s) := if h.2 then s.takeFree else (0, s)
  let value := if h.2 then signedOf 16 (Config.badRomValue i) else satInt 16 y
  let valid := decide (p.fill + cfgExtra a.cfg < a.outs + 1) && !a.stuck && !h.2
  let g : Int := ((p.span - 1) * s.auxDiv a.cfg / 2 : Nat)
  let (stamp, s) := s.stampOf (s.devAt l - g + s.sfld (auxId c 2) 0 24)
  let seq := (a.seq + 1) % 2 ^ 32
  let r := sampleRecord c value valid clip seq stamp
  let s := s.onChan c fun a => { a with outs := a.outs + 1, clip := false, seq := seq, record := r }
  let s := (s.bump (auxId c 0x100)).bumpIf (!valid) (auxId c 0x101)
  let s := (s.bumpIf clip (auxId c 0x102)).flagIf clip (auxId c 3) 2
  let s := s.ringWrite c seq r
  if valid then s.auxConsume c stamp value else s

/-- The stuck rule on the bit of the edge at local count `l`; a recovery asks for a reset at the edge after it (R288).
(log 28, DEDUCED) -/
def State.auxStuckRule (s : State) (c l : Nat) (b : Bool) : State :=
  let a := s.chan c
  if a.last == some b then
    let s := s.onChan c fun a => { a with run := a.run + 1 }
    if a.run + 1 = 4096 then
      ((((s.onChan c fun a => { a with stuck := true }).flag (auxId c 3) 1).bump (auxId c 0x103))).report 0x0F c 5 c
    else s
  else s.onChan c fun a => { a with last := some b, run := 1, stuck := false, resets := if a.stuck then (l + 1) :: a.resets else a.resets }

/-- One sampled bit, of the edge the channel has come to (R279, R285 to R288): the running history takes it, and a reset that
takes effect at this edge then starts the new history with it. (log 28, DEDUCED) -/
def State.auxBit (s : State) (c : Nat) (b : Bool) : State :=
  let l := (s.chan c).edge
  let s := s.auxStuckRule c l b
  let feed := fun (s : State) =>
    let a := s.chan c
    if cfgEnable a.cfg then
      let (a, y) := a.bit (if b == cfgInvert a.cfg then -1 else 1)
      let s := s.onChan c fun _ => a
      match y with
      | some h => s.auxOutput c l h
      | none => s
    else s
  let s := feed s
  let s := if (s.chan c).resets.any fun r => decide (r ≤ l) then
      feed ((s.onChan c fun a =>
        { a.clear (s.word (auxId c 0)).toNat with resets := a.resets.filter fun r => decide (l < r) }).bump (auxId c 0x104))
    else s
  s.onChan c fun a => { a with edge := l + s.auxDiv (s.word (auxId c 0)).toNat }

/-- The channel has sampled `n` bits by now: AUX is ON, its clock runs, it is in use or about to change, and the last of the next `n`
edges has come (R278, R279, R285). (log 28, DEDUCED) -/
def State.auxRuns (s : State) (c n : Nat) : Bool :=
  let w := (s.word (auxId c 0)).toNat
  s.domOn 42 && s.auxClock w && (cfgEnable (s.chan c).cfg || !(s.chan c).resets.isEmpty) &&
    decide ((s.chan c).edge + n * s.auxDiv w ≤ s.loc + s.auxDiv w)

/-- Bits sampled at the channel's next edges (R289). (log 28, DEDUCED) -/
def State.auxBits (s : State) (c : Nat) (bits : List Bool) : State := forEach bits (fun s b => s.auxBit c b) s

/-- A coefficient ROM parity error in a word of stage `k` of channel `c`'s preset: the next output of that stage of each enabled
channel with that preset is computed with it (R281). (log 28, DEDUCED) -/
def State.romError (s : State) (c k : Nat) : State :=
  let p := cfgPreset (s.chan c).cfg
  let k := min k (if (presetOf p).lh2 = 0 then 1 else 2)
  let s := (s.bump (auxModId 0x100)).report 0x0F c 2 c
  forEach (upTo 16) (fun s i =>
    if cfgEnable (s.chan i).cfg && cfgPreset (s.chan i).cfg == p then
      (s.onChan i fun a => { a with badWord := a.badWord.filter (· != k) ++ [k] }).flag (auxId i 3) 3
    else s) s

/-- AUX_SAMPLE_OUTPUT (R279 to R292). -/
def execAuxSampleOutput (channel : Nat) (bits : List Bool) (rom : Option Nat) (s : State) : Host.Outcome State Fault Refusal :=
  onUnit (decide (channel < 16)) s
    (whenDue (s.auxRuns channel bits.length) (fun s =>
      (match rom with | some k => s.romError channel k | none => s).auxBits channel bits) s)

/-- AUX_STUCK: the bits bring the channel's run of equal bits to 4,096 (R288). -/
def execAuxStuck (channel : Nat) (bits : List Bool) (s : State) : Host.Outcome State Fault Refusal :=
  let t := s.auxBits channel bits
  onUnit (decide (channel < 16)) s
    (whenDue (s.auxRuns channel bits.length && !(s.chan channel).stuck && (t.chan channel).stuck) (fun _ => t) s)

/-- AUX_STUCK_RECOVER: the first bit that differs from its predecessor (R288). -/
def execAuxStuckRecover (channel : Nat) (bit : Bool) (s : State) : Host.Outcome State Fault Refusal :=
  onUnit (decide (channel < 16)) s
    (whenDue (s.auxRuns channel 1 && (s.chan channel).stuck && (s.chan channel).last != some bit)
      (fun s => s.auxBits channel [bit]) s)

/-! ### Effects of writes and reads (R285, R293) -/

/-- A synchronising reset asked for, at the first edge from local count `l` on; a channel that did not run samples from the first
edge after now (R285). -/
def State.auxReset (s : State) (c l : Nat) : State :=
  let fresh := !cfgEnable (s.chan c).cfg && (s.chan c).resets.isEmpty
  s.onChan c fun a =>
    { a with resets := l :: a.resets, edge := if fresh then s.edgeAfter (s.word (auxId c 0)).toNat s.loc else a.edge }

/-- Clock `k` starts anew: its edges are counted from now, and the channels on it sample from its first edge (R278).
(log 28, DEDUCED) -/
def State.mclkRestart (s : State) (k : Bool) : State :=
  let s := { s with mclk := if k then (s.mclk.1, s.loc) else (s.loc, s.mclk.2) }
  forEach (upTo 16) (fun s c =>
    let w := (s.word (auxId c 0)).toNat
    if bitOf w 3 == k then (s.onChan c fun a => { a with edge := s.edgeAfter w s.loc }).auxReset c (s.loc + 1) else s) s

/-- Effect of an accepted write of AUXFILT word `i` of unit `u`, `old` being its word before: SYNC, or a change of CFG or of
a clock's DIVk or ENk; the reset comes at the first edge after the write (R285). -/
def State.auxWritten (s : State) (u i : Nat) (old v : Word) : State :=
  if u = 16 && i = 4 then
    forEach (upTo 16) (fun s c =>
      if bitOf v.toNat c && cfgEnable (s.word (auxId c 0)).toNat then s.auxReset c (s.loc + 1) else s) s
  else if u = 16 && i = 0 then
    let w := s.word (auxModId 0)
    let s := if bitsOf w.toNat 0 9 != bitsOf old.toNat 0 9 then s.mclkRestart false else s
    if bitsOf w.toNat 9 9 != bitsOf old.toNat 9 9 then s.mclkRestart true else s
  else if u < 16 && i = 0 && s.word (auxId u 0) != old then
    let w := (s.word (auxId u 0)).toNat
    let s := if bitOf w 3 != bitOf old.toNat 3 || !cfgEnable old.toNat then s.onChan u fun a => { a with edge := s.edgeAfter w s.loc } else s
    s.auxReset u (s.loc + 1)
  else s

/-- A read of LAST: its first word takes the snapshot the others return (R293); FILL_LEFT and STUCK of CH_STATUS. -/
def State.auxRead (s : State) (u i : Nat) : Option (Word × State) :=
  if 16 ≤ u then none
  else
    let a := s.chan u
    match i with
    | 3 =>
      let f := (presetOf (cfgPreset a.cfg)).fill + cfgExtra a.cfg - a.outs
      some (BitVec.ofNat 32 ((s.word (auxId u 3)).toNat + bit a.stuck + (if cfgEnable a.cfg then f else 0) * 16), s)
    | 4 => some (BitVec.ofNat 32 a.record, s.onChan u fun a => { a with snap := a.record })
    | 5 | 6 | 7 => some (BitVec.ofNat 32 (a.snap / 2 ^ (32 * (i - 4))), s)
    | _ => none

/-- Bytes of the rings that AUXFILT.RING would place: outside a claim the host holds, or misaligned, they are refused
(R292). (log 48, DEDUCED) -/
def auxRingRefuses (s : State) (base log2 : Nat) : Bool :=
  base % 4096 != 0 || !s.hostRange base (16 * 2 ^ log2 * 16)

end Sys2Proof.Machine
end

