-- ==== Sys2Proof/Machine/Domains.lean ====
section
/-!
DEFINITION. Power domains and clock domains as state: the domain each parameter lies in (16_power.md R401, R402), the state
of a domain, and the lock bit of each clock domain (01_architecture.md R29, R34).
-/

namespace Sys2Proof.Machine

/-- Power domain that holds the parameters of unit `u` of a block; none for the always-on domain (R401, R402). -/
def domainOf (block u : Nat) : Option Nat :=
  match block with
  | 0x02 => if u < 4 then some (32 + u) else if 0x10 ≤ u && u < 0x14 then some (32 + (u - 0x10)) else some 43
  | 0x03 | 0x04 | 0x0C => some 43
  | 0x05 => if u < 0x80 then some (4 * (u / 16)) else some (4 * (u - 0x80))
  | 0x06 | 0x07 => if u < 8 then some (4 * u + 3) else none
  | 0x08 | 0x0A | 0x0B => some (4 * u + 2)
  | 0x09 => some (4 * u + 1)
  | 0x0D => if u = 0x10 ∨ u = 0x11 then some (40 + (u - 0x10)) else none
  | 0x0F => some 42
  | 0x12 => if u < 4 then some (36 + u) else none
  | 0x13 => some (40 + u)
  | _ => none

/-- Power domain of a parameter ID. -/
def idDomain (id : Nat) : Option Nat := domainOf (id / 0x1000000) (id / 0x10000 % 256)

/-- Clock domain `i` is running and its source is locked (R29, R34). The lane clocks of a camera port run once the port is
enabled with that lane; the receive lanes of a spoke port are locked from ALIGN on, and the Ethernet receive domain while the
port holds block lock (assumption 40). (log 40, DEDUCED) -/
def State.clockLock (s : State) (i : Nat) : Bool :=
  !s.mgmt.fault.clocksLost.contains i &&
  (if i < 8 then s.domOn (4 * i) || s.domOn (4 * i + 2) || s.domOn (4 * i + 3)
   else if i < 16 then s.domOn (4 * (i - 8) + 1)
   else if i < 24 then s.domOn (4 * (i - 16) + 2)
   else if i < 32 then s.domOn (4 * (i - 24) + 3)
   else if i < 43 || i = 44 then s.domOn 43
   else if i = 43 then true
   else if i < 49 then s.domOn (32 + (i - 45)) && s.bitAt (pid 2 (i - 45) 0) 0
   else if i < 65 then
     let p := (i - 49) / 4
     s.domOn (32 + p) && s.bitAt (pid 2 p 0) 0 && decide ((i - 49) % 4 < 2 ^ s.fld (pid 2 p 0) 1 2)
   else if i < 85 then
     let p := (i - 65) / 5
     let st := (s.spk p).state
     s.domOn (36 + p) && s.bitAt (spkId p 0) 0 &&
       ((i - 65) % 5 == 0 || st == .align || st == .exchange || st == .up)
   else if i < 89 then
     let p := (i - 85) / 2
     s.domOn (40 + p) && s.bitAt (pid 0x13 p 0) 0 && ((i - 85) % 2 == 0 || s.bitAt (pid 0x13 p 1) 0)
   else if i = 94 then s.domOn 42 && s.bitAt (auxModId 0) 8
   else if i = 95 then s.domOn 42 && s.bitAt (auxModId 0) 17
   else if i = 96 then s.domOn 42
   else true)

/-- `n` bits of a function of their number, from bit 0 on. -/
def bitsWord (n : Nat) (f : Nat → Bool) : Nat := (upTo n).foldl (fun w i => if f i then w + 2 ^ i else w) 0

/-- CLKDOM_LOCKk (R34). (log 40, DEDUCED) -/
def State.clockWord (s : State) (k : Nat) : Nat := bitsWord (if k < 3 then 32 else 4) fun i => s.clockLock (32 * k + i)

/-- REGION_STATE: four bits a region; a region in its normal placement reads TEST while its slices run (R32, R451). -/
def State.regionWord (s : State) : Nat :=
  (upTo 8).foldl (fun w r => w + (if s.region r ≤ 1 && s.selfTesting r then 4 else s.region r) * 16 ^ r) 0

end Sys2Proof.Machine
end

