-- ==== Sys2Proof/Machine/Headrace.lean ====
section
/-!
DEFINITION. Event ingest (04_headrace.md): CSI-2 packets, the unpacker and its format descriptors, the filters, time and
position stamps, alignment, the recorder, the Sluice, step admission, addressing, replay and CAMx_SYNC.
-/

namespace Sys2Proof.Machine

/-- Parameter word `i` of camera port `p`. -/
def hpId (p i : Nat) : Nat := pid 2 p i

/-! ### Format descriptors (R97 to R101) -/

/-- LSB and WIDTH of a descriptor field. -/
structure FmtField where
  lsb : Nat
  width : Nat
  deriving DecidableEq, Repr

/-- A format descriptor (HEADRACE.FMTd). -/
structure Fmt where
  enable : Bool
  vc : Nat
  dt : Nat
  wordBits : Nat
  typeLsb : Nat
  typeBits : Nat
  split : Nat
  advance : Bool
  acts : List Nat
  x : FmtField
  tlow : FmtField
  y : FmtField
  thigh : FmtField
  pol : FmtField
  bitmap : FmtField
  deriving DecidableEq, Repr

/-- The low or high field pair of a descriptor word. -/
def fmtField (w : Word) (off : Nat) : FmtField := ⟨bitsOf w.toNat off 6, bitsOf w.toNat (off + 6) 6⟩

/-- Descriptor `d` of port `p`. -/
def State.fmt (s : State) (p d : Nat) : Fmt :=
  let w := fun i => s.word (hpId p (0x10 + 8 * d + i))
  let w0 := (w 0).toNat
  { enable := bitOf w0 0, vc := bitsOf w0 1 2, dt := bitsOf w0 3 3, wordBits := 16 * 2 ^ bitsOf w0 6 2,
    typeLsb := bitsOf w0 8 6, typeBits := bitsOf w0 14 2 + 1, split := bitsOf w0 16 6, advance := bitOf w0 22,
    acts := (upTo 8).map (fun i => bitsOf (w 1).toNat (3 * i) 3) ++ (upTo 8).map fun i => bitsOf (w 2).toNat (3 * i) 3,
    x := fmtField (w 3) 0, tlow := fmtField (w 3) 12, y := fmtField (w 4) 0, thigh := fmtField (w 4) 12,
    pol := fmtField (w 5) 0, bitmap := fmtField (w 5) 12 }

/-- A field is present (R98). -/
def FmtField.present (f : FmtField) : Bool := f.width != 0
/-- The field's value in a payload word (R98). -/
def FmtField.of (f : FmtField) (w : Nat) : Nat := bitsOf w f.lsb f.width

/-- The required fields of an action are present (R101). -/
def Fmt.actOk (f : Fmt) : Nat → Bool
  | 1 => f.thigh.present
  | 2 => f.x.present && f.y.present
  | 3 => f.x.present
  | 4 => f.bitmap.present
  | _ => true

/-- A descriptor is consistent (R101). -/
def Fmt.consistent (f : Fmt) : Bool :=
  ([f.x, f.tlow, f.y, f.thigh, f.pol, f.bitmap].all fun g => !g.present || decide (g.lsb + g.width ≤ f.wordBits)) &&
  decide (f.typeLsb + f.typeBits ≤ f.wordBits) && decide (f.split + f.thigh.width ≤ 48) &&
  (f.acts.take (2 ^ f.typeBits)).all f.actOk

/-- An event in sensor coordinates and sensor time. -/
structure RawEvent where
  x : Nat
  y : Nat
  pol : Bool
  ts : Nat
  deriving DecidableEq, Repr

/-- One payload word: the unpacker registers after it and the events it emits (R98, R99). -/
def Fmt.step (f : Fmt) (r : VcRegs) (w : Nat) : VcRegs × List RawEvent :=
  let ts := (r.th * 2 ^ f.split ||| (if f.tlow.present then f.tlow.of w else 0)) % 2 ^ 48
  let pol := if f.pol.present then bitOf (f.pol.of w) 0 else r.bp
  match f.acts.getD (bitsOf w f.typeLsb f.typeBits) 0 with
  | 1 => ({ r with th := f.thigh.of w }, [])
  | 2 => ({ r with bx := f.x.of w, by_ := f.y.of w, bp := pol }, [])
  | 3 => (r, [⟨f.x.of w, if f.y.present then f.y.of w else r.by_, pol, ts⟩])
  | 4 =>
    let m := f.bitmap.of w
    (if f.advance then { r with bx := (r.bx + f.bitmap.width) % 2 ^ 32 } else r,
     (upTo f.bitmap.width).filterMap fun i => if bitOf m i then some ⟨r.bx + i, r.by_, pol, ts⟩ else none)
  | _ => (r, [])

/-- A payload's words in order (R97). -/
def Fmt.unpack (f : Fmt) (r : VcRegs) (words : List Nat) : VcRegs × List RawEvent :=
  words.foldl (fun a w => let (r', es) := f.step a.1 w; (r', a.2 ++ es)) (r, [])

/-! ### Filters (R102 to R104) -/

/-- The hot-pixel map masks the pixel, or its word is in error (R24, R102). (log 63, DEDUCED) -/
def State.hotPixel (s : State) (p x y : Nat) : Bool :=
  let id := pid 2 (0x10 + p) (y * 64 + x / 32)
  s.badId id || s.bitAt id (x % 32)

/-- Refractory cell of a pixel (R103). -/
def refractCell (x y : Nat) : Nat := x / 4 + 512 * (y / 4)

/-- The refractory filter: whether the event passes, and the state with the cell's stamp (R103). -/
def State.refract (s : State) (p x y ts : Nat) : Bool × State :=
  let w := hpId p 2
  let period := s.fld w 0 12
  let u := ts / 2 ^ s.fld w 12 2
  let c := refractCell x y
  let old := Sparse.get (fun _ => 0) (s.port p).refract c
  let pass := period = 0 || old < 32768 || decide (period ≤ (u + 32768 - old % 32768) % 32768)
  (pass, if pass then s.onPort p fun q =>
    { q with refract := Sparse.set (fun _ => 0) q.refract c (32768 + u % 32768) } else s)

/-! ### Alignment (R108 to R111, R205) -/

/-- Bilinear distortion at a pixel, in 1/256 pixel; `at_` is 0 for DX and 16 for DY (R108). -/
def State.gridShift (s : State) (p x y at_ : Nat) : Int :=
  let sx := s.fld (pid 3 p 0x1200) 0 5 + 1
  let sy := s.fld (pid 3 p 0x1200) 5 4 + 1
  let i := x / sx; let a := x % sx; let j := y / sy; let b := y % sy
  let node := fun (i j : Nat) => s.sfld (pid 3 p (65 * j + i)) at_ 16
  rneDiv ((sx - a : Nat) * (sy - b : Nat) * node i j + a * (sy - b : Nat) * node (i + 1) j +
    (sx - a : Nat) * b * node i (j + 1) + a * b * node (i + 1) (j + 1)) (sx * sy)

/-- A node of the grid cell that holds a pixel is in error (R24, R108). (log 63, DEDUCED) -/
def State.gridBad (s : State) (p x y : Nat) : Bool :=
  let i := x / (s.fld (pid 3 p 0x1200) 0 5 + 1)
  let j := y / (s.fld (pid 3 p 0x1200) 5 4 + 1)
  [(i, j), (i + 1, j), (i, j + 1), (i + 1, j + 1)].any fun n => s.badId (pid 3 p (65 * n.2 + n.1))

/-- Refinement values TA, TL, ROT, SCALE that hold for position step `k` (R111, R205). (log 20, DEDUCED) -/
def State.refineAt (s : State) (p : Nat) (k : Int) : List Int :=
  match (s.port p).oldRefs.find? fun r => s.stepMode && decide (k < r.1) with
  | some r => r.2
  | none => (upTo 4).map fun i => (s.word (pid 3 p (0x1310 + i))).toInt

/-- ACROSS and ALONG of a pixel for an event of position step `k`; none where R109 drops it (R108, R109, R205). -/
def State.align (s : State) (p x y : Nat) (k : Int) : Option (Nat × Int) :=
  let u : Int := 256 * x + s.gridShift p x y 0
  let v : Int := 256 * y + s.gridShift p x y 16
  let h := fun i => (s.word (pid 3 p (0x1100 + i))).toInt
  let xn := h 0 * u + h 1 * v + h 2 * 2 ^ 20
  let yn := h 3 * u + h 4 * v + h 5 * 2 ^ 20
  let wn := h 6 * u + h 7 * v + h 8 * 2 ^ 28
  if wn ≤ 0 || s.gridBad p x y then none else
  let an := xn * 2 ^ 20
  let ln := yn * 2 ^ 20
  let r := if s.bitAt (pid 3 p 0x1300) 1 then [] else s.refineAt p k
  let ta := r.getD 0 0; let tl := r.getD 1 0; let rot := r.getD 2 0; let sc := r.getD 3 0
  let ac : Int := s.fld (pid 3 p 0x1307) 0 16
  let d := wn.toNat * 2 ^ 25
  let across := rneDiv (an * 2 ^ 25 + ta * wn * 2 ^ 17 + sc * (an - ac * wn) * 2 - rot * 4 * ln) d
  let along := rneDiv (ln * 2 ^ 25 + tl * wn * 2 ^ 17 + sc * ln * 2 + rot * (an - ac * wn)) d
  if 0 ≤ across ∧ across ≤ 65535 ∧ -32768 ≤ along ∧ along ≤ 32767 then some (across.toNat, along) else none

/-! ### Event words and the recorder (R112, R113, R117, R118) -/

/-- The 64-bit word of a normalised event (R112). -/
def Ev.word (e : Ev) : Nat :=
  e.across + codeOf 16 e.along * 2 ^ 16 + e.stamp / 65536 % 2 ^ 22 * 2 ^ 32 + e.stamp % 65536 / 2048 * 2 ^ 54 +
  e.port * 2 ^ 59 + bit e.pol * 2 ^ 61 + bit e.replay * 2 ^ 62

/-- Full stamp of a 22-bit count and 5-bit fraction beside a high-water count (R113). -/
def fullStamp (hw stamp frac : Nat) : Nat :=
  codeOf 48 (hw + signedOf 22 (codeOf 22 ((stamp : Int) - hw))) * 65536 + frac * 2048

/-- The event of a word, its stamp beside high-water count `hw` (R112, R113). -/
def Ev.ofWord (hw w : Nat) : Ev :=
  { across := bitsOf w 0 16, along := signedOf 16 (bitsOf w 16 16), stamp := fullStamp hw (bitsOf w 32 22) (bitsOf w 54 5),
    port := bitsOf w 59 2, pol := bitOf w 61, replay := bitOf w 62 }

/-- Recorder words: ring base and size in bytes. -/
def State.recBase (s : State) : Nat := s.wide (pid 2 0x21 1)
def State.recBytes (s : State) : Nat := (s.word (pid 2 0x21 3)).toNat * 4096

/-- REC_WRITE follows the next write offset (R121). -/
def State.setRecWrite (s : State) : State :=
  let a := s.recBase + s.head.recOff
  (s.setWord (pid 2 0x21 4) (BitVec.ofNat 32 a)).setWord (pid 2 0x21 5) (BitVec.ofNat 32 (a / 2 ^ 32))

/-- One word written to the recording ring (R117). -/
def State.recWord (s : State) (w : Nat) : State :=
  if s.head.recFull then s
  else
    let s := s.writeBytes (s.recBase + s.head.recOff) (leBytes 8 w)
    let off := s.head.recOff + 8
    let s := if off < s.recBytes then { s with head := { s.head with recOff := off } }
      else if s.fld (pid 2 0x21 0) 0 2 = 2 then ({ s with head := { s.head with recOff := off, recFull := true } }).flag (pid 2 0x21 6) 0
      else { s with head := { s.head with recOff := 0 } }
    s.setRecWrite

/-- A GAP marker for the events lost since the last written word (R118). -/
def State.gapMarker (s : State) : State :=
  if s.head.recLost = 0 then s
  else ({ s with head := { s.head with recLost := 0 } }).recWord (2 ^ 63 + 2 ^ 60 + s.head.recLost % 2 ^ 32)

/-- The record tap. Whether the memory takes the event in time is free; one it does not take is lost. Markers go before the
event where R117 and R118 ask for them. (log 69, DESIGN CHOICE) -/
def State.recordTap (s : State) (e : Ev) : State :=
  let c := pid 2 0x21 0
  if s.fld c 0 2 = 0 || !bitOf (s.fld c 2 4) e.port || s.head.recFull then s
  else
    let (i, s) := s.takeFree
    if s.recBytes = 0 || Config.recordLost i then { s with head := { s.head with recLost := s.head.recLost + 1 } }
    else
      let s := s.gapMarker
      let s := if s.head.recHw == some s.pos.hw then s
        else ({ s with head := { s.head with recHw := some s.pos.hw } }).recWord (2 ^ 63 + s.pos.hw)
      s.recWord e.word

/-! ### Sluice, step admission and addressing (R48, R57, R114 to R116, R165, R169) -/

/-- Position step an event enters: the one that holds its stamp while open, else the oldest open one (R48). -/
def State.entryStep (s : State) (e : Ev) : Int := max (s.stepOfCount (e.stamp / 65536)) s.pos.openK

/-- One Sluice rule on an event: whether it drops it, and the state with its counter (R115). -/
def State.sluiceRule (s : State) (k : Nat) (e : Ev) : Bool × State :=
  let id := pid 2 0x20 (0x10 + 2 * k)
  if !bitOf (s.fld id 3 4) e.port then (false, s) else
  match s.fld id 0 3 with
  | 1 =>
    let n := s.fld id 8 8 + 1
    let key := k * 4 + e.port
    let c := Sparse.get (fun _ => 0) s.head.sub key
    (c != 0, { s with head := { s.head with sub := Sparse.set (fun _ => 0) s.head.sub key ((c + 1) % n) } })
  | 2 => (e.pol == s.bitAt id 7, s)
  | 3 => (!s.bitAt (id + 1) (e.across / 2048), s)
  | 4 => (true, s)
  | _ => (false, s)

/-- The Sluice at its level: every active rule sees the event (R115). -/
def State.sluice (s : State) (e : Ev) : Bool × State :=
  (upTo s.head.level).foldl (fun a k => let (d, s) := a.2.sluiceRule k e; (a.1 || d, s)) (false, s)

/-- An event dropped by the Sluice or at the lag ceiling, with its SHED mark (R116). -/
def State.sluiceDrop (s : State) (e : Ev) : State :=
  (s.bump (pid 2 0x20 1)).markPos (s.entryStep e) (bandMask e.across e.across)

/-- Address of an event in logical region `g`, none when it falls outside the raster (R165). -/
def State.ingestSrc (s : State) (g dev : Nat) (remote : Bool) (e : Ev) : Option Nat :=
  let id := pid 4 0x10 (0x20 + 2 * g)
  let sw := s.fld id 24 4
  let x := ((e.across : Int) - s.fld id 0 16).fdiv (2 ^ s.fld id 16 4 : Nat)
  let y := (e.along - s.sfld (id + 1) 0 16).fdiv (2 ^ s.fld id 20 4 : Nat)
  let n := y * (2 ^ sw : Nat) + x
  if x < 0 ∨ (2 ^ sw : Nat) ≤ x ∨ y < 0 ∨ 32768 ≤ n then none
  else some (dev * 2 ^ 24 + g * 2 ^ 21 + bit remote * 2 ^ 19 + e.port * 2 ^ 17 + n.toNat * 4 + 2)

/-- An admitted event given one address per logical region whose extended band holds it (R165, R172). -/
def State.addressEvent (s : State) (dev : Nat) (remote : Bool) (e : Ev) (tag : Nat) (pending : Bool) : State :=
  let no := s.head.admitted
  let s := { s with head := { s.head with admitted := no + 1 } }
  let gs := (upTo 8).filter fun g => match s.extBand g with
    | some (lo, hi) => decide (lo ≤ e.across) && decide ((e.across : Int) ≤ hi)
    | none => false
  if gs.isEmpty then s.bump (pid 4 8 0x103)
  else forEach gs (fun s g =>
    match s.ingestSrc g dev remote e with
    | none => s.bump (pid 4 8 0x104)
    | some src =>
      let b := pid 4 0x10 (0x10 + g)
      let halo := remote || decide (e.across < s.fld b 0 16) || decide (s.fld b 16 16 < e.across)
      s.sendEvent 0 8 { src := src, value := if e.pol then 1 else -1, delay := 0, tag := tag, pending := pending,
                        halo := halo, blocks := 0, ev := some e, no := no }) s

/-- An event of port `p` passed the Sluice: EVENT_RATE's channels count it (R433). -/
def State.countPassed (s : State) (p : Nat) : State :=
  let m := (s.watching 6 p).foldl (fun (m : Sparse Nat) n => Sparse.modify (fun _ => 0) m n (· + 1)) s.head.passed
  { s with head := { s.head with passed := m } }

/-- Module-edge copies of an event that passed step admission (R169). -/
def State.edgeCopies (s : State) (e : Ev) : State :=
  forEach [0, 1] (fun s k =>
    let id := pid 4 0x10 (0x40 + 2 * k)
    if s.bitAt (id + 1) 0 && decide (s.fld id 0 16 ≤ e.across) && decide (e.across ≤ s.fld id 16 16) then
      let a := (e.across : Int) + s.sfld (id + 1) 15 17
      if a < 0 ∨ 65535 < a then s.bump (pid 4 8 0x106)
      else match s.sendHalo (s.fld (id + 1) 1 2) { e with across := a.toNat }.word with
        | some s => s
        | none => s.bump (pid 4 8 0x106)
    else s) s

/-- Step admission and addressing of an event, own or received (R48, R165, R170). -/
def State.takeEvent (s : State) (dev : Nat) (remote : Bool) (e : Ev) : State :=
  if s.stepMode then
    let late := decide (s.stepOfCount (e.stamp / 65536) < s.pos.openK)
    let k := s.entryStep e
    (s.bumpIf late (posId 0x10)).addressEvent dev remote e (codeOf 16 k) true
  else s.addressEvent dev remote e 0 false

/-- A normalised event of the module at the Sluice input (R57, R90, R114, R169). (log 11, DEDUCED) -/
def State.sluiceInput (s : State) (e : Ev) : State :=
  if s.stepMode && s.lag = 64 then (s.sluiceDrop e).flag (posId 0x0F) 13
  else
    let (drop, s) := if s.head.engaged then s.sluice e else (false, s)
    if drop then s.sluiceDrop e
    else
      let s := s.countPassed e.port
      (s.takeEvent s.addr false e).edgeCopies e

/-! ### The pipeline of one camera event (R90) -/

/-- Sensor time valid since arming, and the device time of the event; none where TIME_DROPS takes it (R106, R107). -/
def State.rebase (s : State) (p ts : Nat) : Option Int × State :=
  let q := s.port p
  match q.t0 with
  | none => (none, s)
  | some t0 =>
    let now := s.dev
    let synced := q.synced || (decide (t0 ≤ now) && decide ((ts : Int) * 1000 ≤ now - t0 + 1000000))
    if !synced then (none, s)
    else
      let s := s.onPort p fun q => { q with synced := true }
      let t := t0 + 1000 * ts + s.sfld (hpId p 1) 0 24
      (if now + 1000000 < t then none else some t, s)

/-- One unpacked event through the stages of R90. -/
def State.ingest (s : State) (p : Nat) (r : RawEvent) : State :=
  let cfg := hpId p 0
  let sx := s.fld (pid 3 p 0x1200) 0 5 + 1
  let sy := s.fld (pid 3 p 0x1200) 5 4 + 1
  let s := s.bump (hpId p 0x100)
  if s.fld cfg 7 11 < r.x || s.fld cfg 18 10 < r.y || 64 * sx ≤ r.x || 64 * sy ≤ r.y then s.bump (hpId p 0x107)
  else if s.hotPixel p r.x r.y then s.bump (hpId p 0x108)
  else
    let (pass, s) := s.refract p r.x r.y r.ts
    if !pass then s.bump (hpId p 0x109)
    else match s.rebase p r.ts with
      | (none, s) => s.bump (hpId p 0x10A)
      | (some t, s) =>
        let (stamp, s) := s.stampOf t
        let k := max (s.stepOfCount (stamp / 65536)) s.pos.openK
        match s.align p r.x r.y k with
        | none => s.bump (hpId p 0x10B)
        | some (across, along) =>
          let e : Ev := ⟨across, along, stamp / 2048 * 2048, p, r.pol, false⟩
          (s.recordTap e).sluiceInput e

/-! ### CSI-2 packets (R92 to R100, R484) -/

/-- The header names a packet the receiver takes further (R92, R94). -/
def State.csiSupported (s : State) (p : Nat) (k : CsiPacket) : Bool :=
  decide (k.vc < 4) && bitOf (s.fld (hpId p 0) 3 4) k.vc &&
  (if k.isLong then (k.dt == 0x12 || inRange 0x30 8 k.dt) && decide (4 ≤ k.payload.length) &&
      decide (k.payload.length ≤ 16384)
   else decide (k.dt < 4))

/-- An embedded-data packet goes whole to the diagnostic queue or is discarded (R96, R298, R304). -/
def State.diagPacket (s : State) (p : Nat) (bs : List Byte) (pointers : PtrCheck) : State :=
  let ws := packWords bs
  let q := s.fld (hpId p 3) 0 12
  let s := if s.bitAt (hpId p 3) 12 then s.queueAccess q pointers else s
  if s.bitAt (hpId p 3) 12 && s.packetFits q ws.length then s.pushWords q ws true else s.bump (hpId p 0x10C)

/-- Registers of virtual channel `vc` of port `p`. -/
def HeadPort.vc (q : HeadPort) (vc : Nat) : VcRegs := Sparse.get (fun _ => ⟨0, 0, 0, false⟩) q.vcs vc

/-- A long event packet unpacked by its descriptor (R97 to R99). -/
def State.eventPacket (s : State) (p : Nat) (k : CsiPacket) : State :=
  match (upTo 8).find? (fun d => let f := s.fmt p d; f.enable && f.vc == k.vc && k.dt == 0x30 + f.dt) with
  | none => s.bump (hpId p 0x105)
  | some d =>
    let f := s.fmt p d
    let n := f.wordBits / 8
    let chunks := chunksOf n k.payload
    let s := s.bumpIf (chunks.any fun c => decide (c.length < n)) (hpId p 0x106)
    let (regs, evs) := f.unpack ((s.port p).vc k.vc) ((chunks.filter fun c => c.length == n).map ofLe)
    let s := s.onPort p fun q => { q with vcs := Sparse.set (fun _ => ⟨0, 0, 0, false⟩) q.vcs k.vc regs }
    forEach evs (fun s r => s.ingest p r) s

/-- A packet at an enabled receiver (R94 to R97, R484). (log 10, DEDUCED) -/
def State.csiPacket (s : State) (p : Nat) (k : CsiPacket) : State :=
  match k.header with
  | .bad => (s.bump (hpId p 0x102)).flag (hpId p 4) 2
  | h =>
    let s := s.bumpIf (h == .corrected) (hpId p 0x101)
    if !s.csiSupported p k then s.bump (hpId p 0x105)
    else if !k.isLong then s
    else if k.buffersFull then
      let s := (s.bump (hpId p 0x104)).flag (hpId p 4) 2
      if s.stepMode then s.markPos s.pos.openK (2 ^ 32 - 1) else s
    else if !k.crcOk then (s.bump (hpId p 0x103)).flag (hpId p 4) 2
    else if k.dt == 0x12 then s.diagPacket p k.payload k.pointers
    else if s.armed then s.eventPacket p k
    else s

/-- CSI2_PACKET_RX; the events of a port whose camera supply has tripped stop (R90 to R120, R165, R169, R472).
(log 75, DEDUCED) -/
def execCsi2PacketRx (port : Nat) (packet : CsiPacket) (s : State) : Host.Outcome State Fault Refusal :=
  onUnit (decide (port < 4)) s
    (whenDue (s.running && s.domOn (32 + port) && !bitOf s.mgmt.board.tripped port) (fun s =>
      let s := s.onPort port fun q => { q with lastRx := some s.loc }
      if !s.bitAt (hpId port 0) 0 || packet.begunBefore || (s.armed && s.pos.src == .replay) then s
      else (s.relocked ((45 + port) :: (upTo 4).map (49 + 4 * port + ·))).csiPacket port packet) s)

/-- REFRACT_SWEEP: a cell whose stamp is at least 2^14 units old, by device time since T0, is cleared (R104).
(log 70, DEDUCED) -/
def execRefractSweep (port cell : Nat) (s : State) : Host.Outcome State Fault Refusal :=
  onUnit (decide (port < 4) && decide (cell < 131072)) s
    (let q := s.port port
     let old := Sparse.get (fun _ => 0) q.refract cell
     match q.t0 with
     | none => s
     | some t0 =>
       let u := ((s.dev - t0).fdiv 1000).toNat / 2 ^ s.fld (hpId port 2) 12 2
       if 32768 ≤ old && decide (16384 ≤ (u + 32768 - old % 32768) % 32768) then
         s.onPort port fun q => { q with refract := Sparse.set (fun _ => 0) q.refract cell (old - 32768) }
       else s)

/-- CAM_SYNC_PULSE: the next rising edge of CAMx_SYNC at T0 + k ms (R105). -/
def execCamSyncPulse (port : Nat) (s : State) : Host.Outcome State Fault Refusal :=
  onUnit (decide (port < 4)) s
    (match (s.port port).t0 with
     | some t0 =>
       whenDue (s.armed && s.bitAt (hpId port 0) 0 && decide (t0 + (s.port port).edge * 1000000 ≤ s.dev))
         (fun s => (s.onPort port fun q =>
           { q with sync := true, edge := q.edge + 1, syncEnd := s.loc + s.fld (hpId port 1) 25 5 * 1000 }).captureEdge
             (4 + port) (s.bitAt (hpId port 1) 24)) s
     | none => s)

/-- Level of the CAMx_SYNC pin at the connector (R105). -/
def State.syncPin (s : State) (p : Nat) : Bool := (s.port p).sync != s.bitAt (hpId p 1) 24

/-- A CAMx_SYNC pulse ends; capture units on the pin see the edge as it is driven (R83, R105). -/
def State.endSync (s : State) (p : Nat) : State :=
  if (s.port p).sync then
    (s.onPort p fun q => { q with sync := false }).captureEdge (4 + p) (!s.bitAt (hpId p 1) 24)
  else s

/-! ### Replay (R60, R113, R120) -/

/-- REPLAY_START and REPLAY_END. -/
def State.replayStart (s : State) : Nat := s.wide (pid 2 0x21 0x11)
def State.replayEnd (s : State) : Nat := s.wide (pid 2 0x21 0x13)

/-- A word at `a` is still to be replayed: REPLAY_END below REPLAY_START lies beyond the ring's end (R120). (log 58, DEDUCED) -/
def State.replayLeft (s : State) (a : Nat) : Bool :=
  decide (a + 8 ≤ s.replayEnd) ||
  (decide (s.replayEnd < s.replayStart) && decide (s.replayStart ≤ a) && decide (a + 8 ≤ s.recBase + s.recBytes))

/-- The offset of the word after the one at `a` (R120). (log 58, DEDUCED) -/
def State.replayNext (s : State) (a : Nat) : Nat :=
  if s.replayEnd < s.replayStart ∧ a + 8 = s.recBase + s.recBytes then s.recBase else a + 8

/-- A POSITION marker drives the counter; it makes one log entry, however far it moves the count (R35, R44, R120).
(log 58, DEDUCED) -/
def State.replayMarker (s : State) (c : Nat) : State :=
  let d := posDiff c s.pos.count
  let s := { s with head := { s.head with repMark := c } }
  if d = 0 then s
  else
    let s := { s with pos := { s.pos with
      count := c, load := none, log := (LogEntry.mk s.dev c (signInt d) :: s.pos.log).take 8192 } }
    (s.updateSpeed.followHw).replayFree

/-- The pointer past the word just read (R120). -/
def State.replayMoved (s : State) : State :=
  { s with head := { s.head with repOff := s.replayNext s.head.repOff } }

/-- A word of the ring is taken: a POSITION marker, a GAP marker, or an event of camera input (R120). -/
def State.replayTaken (s : State) (w : Nat) : State :=
  if bitOf w 63 then
    if bitsOf w 60 3 = 0 then s.replayMarker (bitsOf w 0 48)
    else if bitsOf w 60 3 = 1 then s.bump (pid 2 0x21 7)
    else s
  else s.sluiceInput { Ev.ofWord s.head.repMark w with replay := true }

/-- REPLAY_WORD: the next word of the ring, unless a closure waits for its pace (R60, R120). (log 58, DEDUCED) -/
def execReplayWord (s : State) : Host.Outcome State Fault Refusal :=
  .next (whenDue (s.armed && s.pos.src == .replay && s.replayLeft s.head.repOff && !s.replayDue)
    (fun s => s.replayMoved.replayTaken (ofLe (s.readBytes s.head.repOff 8))) s)

end Sys2Proof.Machine
end

