-- ==== Sys2Proof/Machine/SpokeBlock.lean ====
section
/-!
DEFINITION. What a spoke port puts on its four lanes (13_spoke_links.md R317, R321): control blocks, the scrambler, and the
blocks of a flit with their order on the lanes.
-/

namespace Sys2Proof.Machine

/-- A 66-bit block before scrambling: whether it is a control block, and its payload of 8 bytes (R317). -/
structure LaneBlock where
  control : Bool
  payload : List Byte
  deriving DecidableEq, Repr

/-- Sync header of a block (R317). -/
def LaneBlock.header (b : LaneBlock) : Nat := if b.control then 2 else 1

/-- One block period: the blocks of lanes 0 to 3. -/
abbrev LaneGroup := List LaneBlock

/-- A control block of a type, its content filled up with 0 (R317). -/
def controlBlock (type : Byte) (content : List Byte) : LaneBlock := ⟨true, type :: padTo 7 content⟩

/-- IDLE on all four lanes (R317). -/
def idleGroup : LaneGroup := List.replicate 4 (controlBlock 0x1E [])

/-- TS1 of a port on all four lanes (R317). -/
def ts1Group (port : Nat) : LaneGroup :=
  (upTo 4).map fun l => controlBlock 0x2D ([BitVec.ofNat 8 l, BitVec.ofNat 8 port] ++ List.replicate 5 0x4A)

/-- TS2 on all four lanes (R317). -/
def ts2Group (t : Ts2) : LaneGroup :=
  [controlBlock 0x33 (leBytes 1 (t.epoch % 64) ++ leBytes 1 (bit t.hostAttached + 2 * bit t.addrValid) ++ [t.addr]),
   controlBlock 0x33 ((t.dedicated.take 4 ++ [t.shared]).map (BitVec.ofNat 8)), controlBlock 0x33 [], controlBlock 0x33 []]

/-- The group a port sends in a block period that carries no flit; none while it is quiet (R317, R318, R321). -/
def SpokePort.lineGroup (x : SpokePort) (port : Nat) : Option LaneGroup :=
  match x.state with
  | .disabled | .hold => none
  | .detect | .lock | .align => some (ts1Group port)
  | .exchange => x.ts2.map ts2Group
  | .up => some idleGroup

/-! ### The scrambler x^58 + x^39 + 1 (R317) -/

/-- Bits of payloads in the order they are sent, lowest first. -/
def bitsOfBytes (bs : List Byte) : List Bool := bs.flatMap fun b => (upTo 8).map b.toNat.testBit

/-- The register after a scrambled bit: the last 58 of them, the newest in bit 0. -/
def scramShift (r : Nat) (b : Bool) : Nat := (2 * r + bit b) % 2 ^ 58

/-- What the register adds to a bit. -/
def scramMask (r : Nat) : Bool := r.testBit 38 ^^ r.testBit 57

/-- Payload bits scrambled from a register. -/
def scramble : Nat → List Bool → List Bool
  | _, [] => []
  | r, d :: ds => let b := d ^^ scramMask r; b :: scramble (scramShift r b) ds

/-- Scrambled bits restored: the register follows what is received. -/
def descramble : Nat → List Bool → List Bool
  | _, [] => []
  | r, b :: bs => (b ^^ scramMask r) :: descramble (scramShift r b) bs

/-! ### Flits on the lanes (R321, R322) -/

/-- The 128 bytes of a flit (R322). -/
def flitBytes (f : SpokeFlit) : List Byte :=
  leBytes 8 (flitHeader f) ++ (padTo 116 f.payload).take 116 ++ leBytes 4 f.check.toNat

/-- The four block periods of 128 bytes: bytes 32m + 8l to 32m + 8l + 7 in period m on lane l (R321). -/
def flitGroups (bs : List Byte) : List LaneGroup :=
  (upTo 4).map fun m => (upTo 4).map fun l => ⟨false, (bs.drop (32 * m + 8 * l)).take 8⟩

/-- The bytes of data groups in the order of R321. -/
def groupBytes (gs : List LaneGroup) : List Byte := gs.flatMap fun g => g.flatMap (·.payload)

/-- A flit's 128 bytes read field by field (R322). -/
def flitOf (bs : List Byte) : SpokeFlit :=
  let h := ofLe (bs.take 8)
  { vc := bitsOf h 0 2, mtype := bitsOf h 2 3, last := bitOf h 5, abort := bitOf h 6, bcast := bitOf h 7,
    dest := BitVec.ofNat 8 (bitsOf h 8 8), src := BitVec.ofNat 8 (bitsOf h 16 8), seq := BitVec.ofNat 10 (bitsOf h 24 10),
    ack := BitVec.ofNat 10 (bitsOf h 34 10), ackValid := bitOf h 44, credVc := bitsOf h 45 2, credN := bitsOf h 47 5,
    hops := bitsOf h 52 8, payload := (bs.drop 8).take 116, check := BitVec.ofNat 32 (leAt bs 124 4) }

/-- A data group of a flit: four data blocks. -/
def LaneGroup.isData (g : LaneGroup) : Bool := g.all fun b => !b.control

/-- What a receiver reads from block periods: four data periods a flit, IDLE groups only between flits; none where another group
stands (R321). -/
def readGroups : List LaneGroup → Option (List SpokeFlit)
  | [] => some []
  | g :: gs =>
    if g = idleGroup then readGroups gs
    else match gs with
      | b :: c :: d :: rest =>
        if [g, b, c, d].all LaneGroup.isData then (readGroups rest).map (flitOf (groupBytes [g, b, c, d]) :: ·) else none
      | _ => none

/-- Flits as a transmitter puts them on the lanes, `run` block periods after its last IDLE group: one goes in before a flit that
would make 2,048 periods without it (R321). -/
def lineOf : Nat → List SpokeFlit → List LaneGroup
  | _, [] => []
  | run, f :: fs =>
    if 2048 ≤ run + 4 then idleGroup :: flitGroups (flitBytes f) ++ lineOf 4 fs
    else flitGroups (flitBytes f) ++ lineOf (run + 4) fs

/-- Everything a port has sent in its UP states as block periods, oldest first. -/
def SpokePort.line (x : SpokePort) : List LaneGroup := lineOf 0 x.sent.reverse

end Sys2Proof.Machine
end

