-- ==== Sys2Proof/Machine/Signature.lean ====
section
/-!
DEFINITION. The signatures that 18_security.md names (R440 to R448): ECDSA on P-384 with SHA-384, and LMS with
LMS_SHA256_M32_H20 and LMOTS_SHA256_N32_W8. Curve and steps are those of FIPS 186-5 and RFC 8554, which the manual names and does
not repeat. (log 52, PRESUMED)
-/

namespace Sys2Proof.Machine

/-! ### P-384 -/

/-- The field's prime, the curve's `b`, its order and its base point; `a` is -3. -/
def p384 : Nat := 2 ^ 384 - 2 ^ 128 - 2 ^ 96 + 2 ^ 32 - 1
def p384B : Nat :=
  0xB3312FA7E23EE7E4988E056BE3F82D19181D9C6EFE8141120314088F5013875AC656398D8A2ED19D2A85C8EDD3EC2AEF
def p384Order : Nat :=
  0xFFFFFFFFFFFFFFFFFFFFFFFFFFFFFFFFFFFFFFFFFFFFFFFFC7634D81F4372DDF581A0DB248B0A77AECEC196ACCC52973
def p384Base : Nat × Nat :=
  (0xAA87CA22BE8B05378EB1C71EF320AD746E1D3B628BA79B9859F741E082542A385502F25DBF55296C3A545E3872760AB7,
   0x3617DE4A96262C6F5D9E98BF9292DC29F8F41DBD289A147CE9DA3113B5F0B8C00A60B1CE1D7E819D7A431D7C90EA0E5F)

/-- A power modulo `m`, by the exponent's low `n` bits. -/
def powMod (m : Nat) : Nat → Nat → Nat → Nat
  | 0, _, _ => 1
  | n + 1, x, e =>
    let r := powMod m n (x * x % m) (e / 2)
    if e % 2 = 1 then x * r % m else r

/-- The inverse modulo a prime of at most 384 bits. -/
def invMod (m x : Nat) : Nat := powMod m 384 (x % m) (m - 2)

/-- A point in Jacobian coordinates, Z = 0 at infinity. -/
structure JPoint where
  x : Nat
  y : Nat
  z : Nat
  deriving DecidableEq, Repr

/-- A difference modulo the field's prime. -/
def subMod (a b : Nat) : Nat := (a + (p384 - b % p384)) % p384

/-- A point doubled. -/
def JPoint.double (q : JPoint) : JPoint :=
  if q.z = 0 || q.y = 0 then ⟨1, 1, 0⟩
  else
    let zz := q.z * q.z % p384
    let yy := q.y * q.y % p384
    let m := 3 * subMod q.x zz * ((q.x + zz) % p384) % p384
    let s := 4 * q.x * yy % p384
    let x := subMod (m * m) (2 * s)
    ⟨x, subMod (m * subMod s x) (8 * yy * yy), 2 * q.y * q.z % p384⟩

/-- Two points added. -/
def JPoint.add (a b : JPoint) : JPoint :=
  if a.z = 0 then b
  else if b.z = 0 then a
  else
    let za := a.z * a.z % p384
    let zb := b.z * b.z % p384
    let ua := a.x * zb % p384
    let ub := b.x * za % p384
    let sa := a.y * b.z * zb % p384
    let sb := b.y * a.z * za % p384
    if ua = ub then (if sa = sb then a.double else ⟨1, 1, 0⟩)
    else
      let h := subMod ub ua
      let r := subMod sb sa
      let hh := h * h % p384
      let v := ua * hh % p384
      let x := subMod (r * r) (h * hh + 2 * v)
      ⟨x, subMod (r * subMod v x) (sa * h * hh), h * a.z * b.z % p384⟩

/-- A multiple of a point, by the factor's low `n` bits. -/
def JPoint.mul (q : JPoint) : Nat → Nat → JPoint
  | 0, _ => ⟨1, 1, 0⟩
  | n + 1, k =>
    let r := (JPoint.mul q.double n (k / 2))
    if k % 2 = 1 then q.add r else r

/-- Affine coordinates, none at infinity. -/
def JPoint.affine (q : JPoint) : Option (Nat × Nat) :=
  if q.z = 0 then none
  else
    let i := invMod p384 q.z
    let ii := i * i % p384
    some (q.x * ii % p384, q.y * ii * i % p384)

/-- The multiple of the base point by `k`. -/
def baseMul (k : Nat) : JPoint := JPoint.mul ⟨p384Base.1, p384Base.2, 1⟩ 384 k

/-- A point X ‖ Y of the curve, other than infinity. -/
def pointOf (key : List Byte) : Option (Nat × Nat) :=
  let x := ofBe (key.take 48)
  let y := ofBe ((key.drop 48).take 48)
  if key.length = 96 && decide (x < p384) && decide (y < p384) && y * y % p384 == subMod (x * x * x + p384B) (3 * x) then some (x, y)
  else none

/-- The number that ECDSA takes from a message's SHA-384 digest. -/
def digestNumber (msg : List Byte) : Nat := ofBe (leBytes 48 (sha384 msg))

/-- An ECDSA signature r ‖ s of a message verifies against a key X ‖ Y (R442). (log 52, PRESUMED) -/
def ecdsaOk (key msg sig : List Byte) : Bool :=
  let r := ofBe (sig.take 48)
  let s := ofBe ((sig.drop 48).take 48)
  match pointOf key with
  | none => false
  | some (x, y) =>
    let w := invMod p384Order s
    let q := (baseMul (digestNumber msg * w % p384Order)).add (JPoint.mul ⟨x, y, 1⟩ 384 (r * w % p384Order))
    sig.length == 96 && decide (0 < r) && decide (r < p384Order) && decide (0 < s) && decide (s < p384Order) &&
      q.affine.any fun a => a.1 % p384Order == r

/-- The secret scalar that a drawn number gives. -/
def scalarOf (drawn : Nat) : Nat := drawn % (p384Order - 1) + 1

/-- The public key of a secret scalar in uncompressed SEC1 form (R447). (log 52, PRESUMED) -/
def publicKey (secret : Nat) : List Byte :=
  match (baseMul secret).affine with
  | some (x, y) => [0x04] ++ beBytes 48 x ++ beBytes 48 y
  | none => List.replicate 97 0

/-- An ECDSA signature of a message by a secret scalar with a drawn one-time scalar (R448). (log 52, PRESUMED) -/
def ecdsaSign (secret once : Nat) (msg : List Byte) : List Byte :=
  let r := ((baseMul once).affine.map (·.1)).getD 0 % p384Order
  let s := invMod p384Order once * ((digestNumber msg + r * secret) % p384Order) % p384Order
  beBytes 48 r ++ beBytes 48 s

/-! ### LMS -/

/-- Type codes of LMS_SHA256_M32_H20 and LMOTS_SHA256_N32_W8. -/
def lmsType : Nat := 8
def lmotsType : Nat := 4

/-- An LMS public key's types are those of R442. (log 52, PRESUMED) -/
def lmsKeyOk (key : List Byte) : Bool := key.length == 56 && ofBe (key.take 4) == lmsType && ofBe ((key.drop 4).take 4) == lmotsType

/-- The rest of a hash chain from step `255 - n` on; `pre` is the identifier, the leaf and the chain number. -/
def lmotsChain (pre : List Byte) : Nat → List Byte → List Byte
  | 0, v => v
  | n + 1, v => lmotsChain pre n (sha256 (pre ++ beBytes 1 (254 - n) ++ v))

/-- The one-time public key that a one-time signature of a message gives: `c` its randomiser, `ys` its 34 chain values. -/
def lmotsKey (id : List Byte) (q : Nat) (msg c : List Byte) (ys : List (List Byte)) : List Byte :=
  let pre := id ++ beBytes 4 q
  let d := sha256 (pre ++ beBytes 2 0x8181 ++ c ++ msg)
  let sum := (d.map fun b => 255 - b.toNat).sum
  let zs := (ys.zip (d ++ beBytes 2 sum)).zipIdx.map fun e => lmotsChain (pre ++ beBytes 2 e.2) (255 - e.1.2.toNat) e.1.1
  sha256 (pre ++ beBytes 2 0x8080 ++ zs.flatten)

/-- The root above node `node` with value `v`, by the path to it. -/
def lmsRoot (id : List Byte) (node : Nat) (v : List Byte) : List (List Byte) → List Byte
  | [] => v
  | p :: ps =>
    let both := if node % 2 = 1 then p ++ v else v ++ p
    lmsRoot id (node / 2) (sha256 (id ++ beBytes 4 (node / 2) ++ beBytes 2 0x8383 ++ both)) ps

/-- An LMS signature of a message verifies against a key (R442). (log 52, PRESUMED) -/
def lmsOk (key msg sig : List Byte) : Bool :=
  let id := (key.drop 8).take 16
  let q := ofBe (sig.take 4)
  let c := (sig.drop 8).take 32
  let ys := chunksOf 32 ((sig.drop 40).take 1088)
  let path := chunksOf 32 ((sig.drop 1132).take 640)
  let k := lmotsKey id q msg c ys
  let leaf := sha256 (id ++ beBytes 4 (2 ^ 20 + q) ++ beBytes 2 0x8282 ++ k)
  lmsKeyOk key && sig.length == 1772 && decide (q < 2 ^ 20) && ofBe ((sig.drop 4).take 4) == lmotsType &&
    ofBe ((sig.drop 1128).take 4) == lmsType && lmsRoot id (2 ^ 20 + q) leaf path == key.drop 24

/-- Owner keys X ‖ Y ‖ LMS that a move to DEPLOYED may install (R440). (log 52, PRESUMED) -/
def ownerKeysValid (keys : List Byte) : Bool := (pointOf (keys.take 96)).isSome && lmsKeyOk (keys.drop 96)

end Sys2Proof.Machine
end

