-- ==== Sys2Proof/Machine/SpokeChain.lean ====
section
/-!
DEFINITION. Systems of modules (13_spoke_links.md R337 to R344): the ENUM messages, the root's exploration, its node table,
the spanning tree and the routes.
-/

namespace Sys2Proof.Machine

/-- The identity key is temporary: in BLANK and RETURNED (R447). (log 66, DEDUCED) -/
def State.keyTemporary (s : State) : Bool := s.mgmt.sec.lc == 0 || s.mgmt.sec.lc == 3

/-- The identity public key, 97 bytes (R447). (log 66, DEDUCED) -/
def State.identityKey (s : State) : List Byte :=
  publicKey (scalarOf (if s.keyTemporary then Config.tempSecret s.mgmt.sec.powerUps else Config.identitySecret s.mgmt.sec.keys))

/-- The module's own identity digest (R338). -/
def State.ownDigest (s : State) : Nat := sha384 s.identityKey

/-- The module's own host is attached: it has selected the card (R339). (log 34, DEDUCED) -/
def State.hostAttached (s : State) : Bool := s.host.sdio.selected

/-- Ports that are UP, as a mask. -/
def State.upMask (s : State) : Nat := (upTo 4).foldl (fun m p => if s.spkUp p then m + 2 ^ p else m) 0

/-- The module's IDENTIFY body on its port `p` (R338, R339). -/
def State.identifyBody (s : State) (p : Nat) : List Byte :=
  padTo 56 (leBytes 48 s.ownDigest ++ leBytes 1 (bit s.hostAttached + 2 * bit s.chain.isSome) ++ leBytes 1 p ++
    leBytes 1 s.upMask ++ leBytes 1 s.addr)

/-- Next hop of address `a` in the module's own table. -/
def State.setRoute (s : State) (a v : Nat) : State :=
  { s with spoke := { s.spoke with routes := Sparse.set (fun _ => 7) s.spoke.routes a v } }

/-- ROLE of a port set. -/
def State.setRole (s : State) (p v : Nat) : State := s.setFld (spkId p 4) 3 3 v

/-! ### The root's tables -/

/-- Entry `a` of the node table. -/
def State.chainNode (s : State) (a : Nat) : Option ChainNode := Sparse.get (fun _ => none) s.spoke.nodes a

/-- The node table with entry `a` at `n`. -/
def State.setNode (s : State) (a : Nat) (n : Option ChainNode) : State :=
  { s with spoke := { s.spoke with nodes := Sparse.set (fun _ => none) s.spoke.nodes a n } }

/-- Addresses in the node table. -/
def State.nodesList (s : State) : List (Nat × ChainNode) := s.spoke.nodes.filterMap fun e => e.2.map fun n => (e.1, n)

/-- The lowest address not in the node table (R338, R342). (log 34, DEDUCED) -/
def State.freeAddr (s : State) : Option Nat := (upTo 256).find? fun a => (s.chainNode a).isNone

/-- A link recorded once, whichever end found it. -/
def State.addLink (s : State) (l : ChainLink) : State :=
  if s.spoke.links.any fun x => x == l || x == ⟨l.b, l.q, l.a, l.p⟩ then s
  else { s with spoke := { s.spoke with links := s.spoke.links ++ [l] } }

/-- Ends of the links at module `a`: own port, partner and the partner's port, in port order. -/
def State.linksAt (s : State) (a : Nat) : List (Nat × Nat × Nat) :=
  sortBy (fun x y => decide (x.1 ≤ y.1)) (s.spoke.links.filterMap fun l =>
    if l.a = a then some (l.p, l.b, l.q) else if l.b = a then some (l.q, l.a, l.p) else none)

/-! ### Spanning tree and routes (R337, R338, R344) -/

/-- An edge of the spanning tree: child, its port, the parent, the parent's port, and the child's hops. -/
structure TreeEdge where
  child : Nat
  up : Nat
  parent : Nat
  down : Nat
  hops : Nat
  deriving DecidableEq, Repr

/-- The depth-first walk of R338 over recorded links, from a stack of ports to try: address, port, partner, partner's port,
hops. -/
def State.treeGo (s : State) : Nat → List (Nat × Nat × Nat × Nat × Nat) → List TreeEdge → List TreeEdge
  | 0, _, acc => acc
  | _ + 1, [], acc => acc
  | fuel + 1, (a, p, b, q, h) :: rest, acc =>
    if b = 0 || acc.any (·.child == b) then s.treeGo fuel rest acc
    else
      let more := ((s.linksAt b).filter fun x => x.1 != q).map fun x => (b, x.1, x.2.1, x.2.2, h + 2)
      s.treeGo fuel (more ++ rest) (acc ++ [⟨b, q, a, p, h + 1⟩])

/-- The spanning tree from the root. -/
def State.tree (s : State) : List TreeEdge :=
  s.treeGo 2200 ((s.linksAt 0).map fun x => (0, x.1, x.2.1, x.2.2, 0)) []

/-- The port on which module `m` reaches address `x`: down the subtree that holds it, else up; none where it is not in the
tree. -/
def hopOf (t : List TreeEdge) (m : Nat) : Nat → Nat → Nat
  | 0, _ => 7
  | fuel + 1, x =>
    match t.find? (·.child == x) with
    | some e => if e.parent = m then e.down else hopOf t m fuel e.parent
    | none => if x = 0 then (match t.find? (·.child == m) with | some e => e.up | none => 7) else 7

/-- Next hop of `x` in the ROUTES table of module `m` (R338). -/
def routeOf (t : List TreeEdge) (m x : Nat) : Nat :=
  if m = x then 4
  else if x = 0 || t.any (·.child == x) then hopOf t m 257 x
  else 7

/-- Tree ports of module `m`, as a mask. -/
def treePorts (t : List TreeEdge) (m : Nat) : Nat :=
  t.foldl (fun a e => if e.child = m then a ||| 2 ^ e.up else if e.parent = m then a ||| 2 ^ e.down else a) 0

/-- ROUTES body for module `m`. -/
def routesBody (t : List TreeEdge) (m : Nat) : List Byte :=
  padTo 104 (leBytes 96 ((upTo 256).foldl (fun n a => n + routeOf t m a * 2 ^ (3 * a)) 0) ++ leBytes 1 (treePorts t m))

/-- Roles of the ports after new routes: PARENT toward address 0, CHILD for the other tree ports, CLOSURE back to the root, BOUNDARY
for a partner with a host of its own, CLOSURE for a partner of this system, EXCESS for one without an address (R337, R338).
(log 34, DEDUCED) -/
def State.takeRoles (s : State) (tree : Nat) : State :=
  forEach (upTo 4) (fun s p =>
    if !s.spkUp p then s.setRole p 0
    else if bitOf tree p then s.setRole p (if s.route 0 == some p then 1 else 2)
    else if !s.spoke.root && s.partner p == some 0 then s.setRole p 3
    else if (s.spk p).partnerHost then s.setRole p 4
    else if (s.partner p).isSome then s.setRole p 3
    else s.setRole p 5) s

/-- The flit that ends a forwarded message on its output: ABORT and LAST, holding no entry (R328). -/
def Waiting.abort (w : Waiting) : Waiting :=
  ⟨w.req, none, { w.flit with last := true, abort := true, payload := List.replicate 116 0 }⟩

/-- The new routes no longer take a forwarded flit over port `p` (R338, R340). -/
def State.offRoute (s : State) (p : Nat) (f : SpokeFlit) : Bool :=
  if f.bcast then !s.spoke.tree.contains p else s.route f.dest.toNat != some p

/-- The rest of the message that input `r` brings on channel `v` goes to `w`. -/
def State.reflow (s : State) (r v : Nat) (w : Flow) : State :=
  s.onSpk r fun x => { x with flow := updateAt x.flow v fun _ => some w }

/-- Where the rest of a message goes that no longer leaves on port `p`. -/
def Flow.without (p : Nat) : Flow → Flow
  | .port q => if q = p then .discard else .port q
  | .spread qs => .spread (qs.filter (· != p))
  | w => w

/-- A message in progress on port `p`, channel `v`, whose route is gone: what waits of it is discarded, and it ends with ABORT
(R328). -/
def State.abortMessage (s : State) (p v : Nat) (w : Waiting) : State :=
  let ws := (s.spk p).waiting.filter fun u => u.req == w.req && u.flit.vc == v
  let whole := ws.any (·.flit.last)
  let cur := ws.take ((ws.findIdx? (·.flit.last)).getD ws.length + 1)
  let s := s.dropWaiting p cur.contains
  let s := if whole then s else match (s.spk w.req).flow.getD v none with
    | some f => s.reflow w.req v (f.without p)
    | none => s
  s.onSpk p fun x => { x with waiting := w.abort :: x.waiting }

/-- A flit that waits for port `p`, of a message not begun there, takes the new route; without one it is discarded (R340, R341).
(log 34, DEDUCED) -/
def State.moveWaiting (s : State) (p : Nat) (w : Waiting) : State :=
  let s := s.onSpk p fun x => { x with waiting := x.waiting.erase w }
  let hop := if w.flit.bcast then none else s.route w.flit.dest.toNat
  let s := if w.flit.last then s else match (s.spk w.req).flow.getD w.flit.vc none with
    | some (.port q) => if q = p then s.reflow w.req w.flit.vc (match hop with | some t => .port t | none => .discard) else s
    | some f => s.reflow w.req w.flit.vc (f.without p)
    | none => s
  match hop with
  | some t => s.onSpk t fun x => { x with waiting := x.waiting ++ [w] }
  | none => s.freeWaiting w

/-- The flits of a list that begin a message, `mid` being the requesters and channels in the midst of one. -/
def headFlits (mid : List (Nat × Nat)) : List Waiting → List Waiting
  | [] => []
  | w :: ws =>
    let k := (w.req, w.flit.vc)
    let next := if w.flit.last then mid.filter (· != k) else k :: mid
    if mid.contains k then headFlits next ws else w :: headFlits next ws

/-- A message that begins with `w` has no route any more: it is counted, and a command packet is answered NOT_PRESENT (R340).
(log 34, DEDUCED) -/
def State.unrouted (s : State) (w : Waiting) : State :=
  if w.flit.bcast || (s.route w.flit.dest.toNat).isSome then s
  else
    let s := s.bump (chainId 0x100)
    let b := w.flit.payload.drop 4
    let k := parsePacket b
    if w.flit.mtype == 3 && w.flit.vc == 0 && headerGood b && !k.reply then s.refusePacket k.opcode k.tag k.src .notPresent else s

/-- Forwarded messages on ports that the new routes no longer name: one in progress ends with ABORT, the others take their new
route (R328, R340). -/
def State.abortRerouted (s : State) : State :=
  forEach (upTo 4) (fun s p =>
    let s := forEach (upTo 4) (fun s v =>
      match (s.spk p).owner.getD v none with
      | some w => if w.req < 4 && s.offRoute p w.flit then s.abortMessage p v w else s
      | none => s) s
    let started := fun (w : Waiting) => ((s.spk p).owner.getD w.flit.vc none).any (·.req == w.req)
    let ws := (s.spk p).waiting.filter fun w => w.req < 4 && !started w && s.offRoute p w.flit
    forEach (headFlits [] ws) (fun s w => s.unrouted w) (forEach ws (fun s w => s.moveWaiting p w) s)) s

/-- A ROUTES table taken into use (R338). -/
def State.takeRoutes (s : State) (body : List Byte) : State :=
  let n := ofLe (body.take 96)
  let tree := (leAt body 96 1) % 16
  let s := { s with spoke := { s.spoke with
    routes := (upTo 256).foldl (fun m a => Sparse.set (fun _ => 7) m a (bitsOf n (3 * a) 3)) [],
    tree := (upTo 4).filter fun p => bitOf tree p } }
  (s.takeRoles tree).abortRerouted.endSessions

/-- Node-table entries given their tree path, those off the tree LOST (R343, R344). (log 34, DEDUCED) -/
def State.markNodes (s : State) (t : List TreeEdge) : State :=
  forEach s.nodesList (fun s e =>
    if e.1 = 0 then s
    else match t.find? (·.child == e.1) with
      | some x =>
        s.setNode e.1 (some { e.2 with
          hops := x.hops, port := routeOf t 0 e.1,
          state := if e.2.state != 2 then e.2.state else if e.2.found = e.2.digest then 1 else 3 })
      | none => (s.setNode e.1 (some { e.2 with state := 2 })).flagIf (e.2.state != 2) (chainId 1) 1) s

/-- ROUTES sent to every module of the tree, and taken by the root itself (R338, R344). -/
def State.sendRoutes (s : State) : State :=
  let t := s.tree
  let s := s.markNodes t
  let s := s.takeRoutes (routesBody t 0)
  (forEach t (fun s e => (s.sendTo e.child 0 2 6 (routesBody t e.child)).getD s) s).pumpAll

/-! ### Exploration (R338, R342, R343) -/

/-- DISCOVER sent across the link of an own port. -/
def State.discoverOn (s : State) (p : Nat) : State := (s.sendOn p 0 2 2 0 (padTo 8 (leBytes 1 p))).pumpAll

/-- The root turns to the next port to explore; with none left it sends the routes. -/
def State.exploreNext (s : State) : State :=
  match s.spoke.todo with
  | [] => { s.sendRoutes with spoke := { s.sendRoutes.spoke with exploring := false } }
  | (a, p) :: _ =>
    if a = 0 then s.discoverOn p
    else match s.sendTo a 0 2 1 (leBytes 1 p) with
      | some s => s
      | none => s

/-- The current port has been explored; `more` ports come first after it. -/
def State.exploreDone (s : State) (more : List (Nat × Nat)) : State :=
  { s with spoke := { s.spoke with todo := more ++ s.spoke.todo.drop 1 } }

/-- ASSIGN of address `b` to the partner on port `p` of module `a`; the modules on the way learn the next hop. -/
def State.assignTo (s : State) (a p b : Nat) : State :=
  if a = 0 then ((s.setRoute b p).sendOn p 0 2 5 b (padTo 8 (leBytes 1 p ++ leBytes 1 b))).pumpAll
  else
    let s := s.setRoute b ((s.route a).getD 7)
    (s.sendTo a 0 2 5 (padTo 8 (leBytes 1 p ++ leBytes 1 b))).getD s

/-- What an IDENTIFY body says: digest, HOST_ATTACHED, own port, UP ports. -/
structure Identity where
  digest : Nat
  host : Bool
  port : Nat
  ups : Nat
  deriving DecidableEq, Repr

/-- The fields of an IDENTIFY body. -/
def identityOf (b : List Byte) : Identity :=
  ⟨leAt b 0 48, bitOf (leAt b 48 1) 0, leAt b 49 1 % 4, leAt b 50 1 % 16⟩

/-- Ports of module `b` to explore after its arrival port `q`. -/
def portsBeside (b q ups : Nat) : List (Nat × Nat) :=
  ((upTo 4).filter fun p => p != q && bitOf ups p).map fun p => (b, p)

/-- A module taken into the tree at address `b`, found on port `p` of module `a`; its own ports come next. -/
def State.adopt (s : State) (a p b : Nat) (n : ChainNode) (i : Identity) : State :=
  let s := (s.setNode b (some n)).addLink ⟨a, p, b, i.port⟩
  let s := if a = 0 then s.setRole p 2 else s
  ((s.assignTo a p b).exploreDone (portsBeside b i.port i.ups)).exploreNext

/-- The root takes the answer of the partner on port `p` of module `a` (R338, R339, R342, R343). (log 34, DEDUCED) -/
def State.explored (s : State) (a p : Nat) (i : Identity) : State :=
  let hops := ((s.chainNode a).map (·.hops)).getD 0 + 1
  let hop := if a = 0 then p else ((s.chainNode a).map (·.port)).getD 7
  let known := s.nodesList.find? fun e => e.2.parent == some (a, p)
  let same := s.nodesList.find? fun e => e.2.digest == i.digest && e.2.state != 2
  if i.digest = s.ownDigest then ((s.addLink ⟨a, p, 0, i.port⟩).exploreDone []).exploreNext
  else if i.host then ((if a = 0 then s.setRole p 4 else s).exploreDone []).exploreNext
  else match known with
    | some (b, n) =>
      if n.digest = i.digest then
        s.adopt a p b { n with state := 1, found := i.digest, hops := hops, port := hop } i
      else
        (s.flag (chainId 1) 0).adopt a p b { n with state := 3, found := i.digest, hops := hops, port := hop } i
    | none =>
      match same with
      | some (b, _) => ((s.addLink ⟨a, p, b, i.port⟩).exploreDone []).exploreNext
      | none =>
        match s.freeAddr with
        | none => (((if a = 0 then s.setRole p 5 else s).flag (chainId 1) 3).exploreDone []).exploreNext
        | some b =>
          s.adopt a p b { state := 1, digest := i.digest, found := i.digest, parent := some (a, p), hops := hops, port := hop } i

/-- The answer to the port the root is exploring; any other is too late and changes nothing. -/
def State.exploredIf (s : State) (a p : Nat) (i : Identity) : State :=
  if s.spoke.root && s.spoke.exploring && s.spoke.todo.head? == some (a, p) then s.explored a p i else s

/-- The root begins an enumeration: it takes address 0 and explores from its own ports (R338). (log 34, DEDUCED) -/
def State.startEnumeration (s : State) : State :=
  let ports := (upTo 4).filter s.spkUp
  let s := { s with chain := some 0, spoke := { s.spoke with
    root := true, exploring := true, enumerating := true, routes := [(0, 4)], tree := [], links := [],
    nodes := [(0, some { state := 1, digest := s.ownDigest, found := s.ownDigest, parent := none, hops := 0, port := 4 })],
    todo := ports.map fun p => (0, p) } }
  let s := forEach (upTo 4) (fun s p => s.setRole p 0) s
  s.exploreNext

/-- The root recomputes the tree and sends new routes (R344). -/
def State.heal (s : State) : State :=
  let s := s.sendRoutes.flag (chainId 1) 2
  s.flagIf (s.nodesList.any fun e => e.2.state == 2) (chainId 1) 4

/-- Ports that can no longer be explored leave the list: port `p` of module `a`, and those of modules now LOST.
(log 34, DEDUCED) -/
def State.dropTodo (s : State) (a p : Nat) : State :=
  let todo := s.spoke.todo.filter fun x => x != (a, p) && (s.chainNode x.1).any (·.state != 2)
  let t := { s with spoke := { s.spoke with todo := todo } }
  if todo.head? = s.spoke.todo.head? then t else t.exploreNext

/-- The root learns that the state of port `p` of module `a` has changed: a new link is explored, a lost one healed
(R342, R344). -/
def State.rootNotify (s : State) (a p st : Nat) : State :=
  if st = 5 then
    if (s.chainNode a).isNone then s
    else
      let idle := s.spoke.todo.isEmpty
      let s := { s with spoke := { s.spoke with todo := s.spoke.todo ++ [(a, p)], exploring := true } }
      if idle then s.exploreNext else s
  else
    let had := s.spoke.links.any fun l => (l.a == a && l.p == p) || (l.b == a && l.q == p)
    let s := { s with spoke := { s.spoke with
      links := s.spoke.links.filter fun l => !((l.a == a && l.p == p) || (l.b == a && l.q == p)) } }
    (if had then s.heal else s).dropTodo a p

/-- A change of an own port's state reported to the root, after a warm restart that runs (R328, R342, R425). -/
def State.notifyRoot (s : State) (p st : Nat) : State :=
  match s.chain with
  | none => s
  | some _ =>
    if s.restarting then { s with spoke := { s.spoke with notices := s.spoke.notices ++ [(p, st)] } }
    else if s.spoke.root then s.rootNotify 0 p st
    else (s.sendTo 0 0 2 7 (leBytes 1 p ++ leBytes 1 st)).getD s

end Sys2Proof.Machine
end

