-- ==== Sys2Proof/Machine/Spoke.lean ====
section
/-!
DEFINITION. The spoke ports' commands (13_spoke_links.md): training, loss of a link, receipt of flits, heartbeats, and the
messages of enumeration, module-edge events and relayed verdicts.
-/

namespace Sys2Proof.Machine

/-! ### Training (R317 to R320, R323, R326) -/

/-- Port state set. -/
def State.setLink (s : State) (p : Nat) (x : LinkState) : State := s.onSpk p fun q => { q with state := x }

/-- An attempt is under way. -/
def LinkState.training (x : LinkState) : Bool := x == .detect || x == .lock || x == .align || x == .exchange

/-- PORT_EN.ENABLE. -/
def State.spkEnabled (s : State) (p : Nat) : Bool := s.bitAt (spkId p 0) 0

/-- The port whose turn it is to train: the first in order that is enabled, has power and is not waiting out its time in HOLD, while
no other attempt is under way (R318, R320, R403). (log 33, DEDUCED) -/
def State.trainTurn (s : State) : Option Nat :=
  if (upTo 4).any fun p => (s.spk p).state.training then none
  else s.spoke.order.find? fun p =>
    s.spkEnabled p && !s.domOff (36 + p) && ((s.spk p).state == .disabled ||
      ((s.spk p).state == .hold && decide (1000000 ≤ locDiff s.loc (s.spk p).holdAt)))

/-- An attempt starts on a port: it leaves the order of turns. -/
def State.startAttempt (s : State) (p : Nat) : State :=
  { s.onSpk p fun x => { x with state := .detect, attemptAt := s.loc } with
    spoke := { (s.onSpk p fun x => { x with state := .detect, attemptAt := s.loc }).spoke with
      order := s.spoke.order.filter (· != p) } }

/-- The next port in turn starts its attempt. -/
def State.trainNext (s : State) : State :=
  match s.trainTurn with
  | some p => s.startAttempt p
  | none => s

/-- A port waits for its turn, and starts at once when no other attempt is under way (R320, R329). (log 33, DEDUCED) -/
def State.queueAttempt (s : State) (p : Nat) : State :=
  let s := s.setLink p .disabled
  State.trainNext { s with spoke := { s.spoke with order := s.spoke.order.filter (· != p) ++ [p] } }

/-- The start-up order reaches a port that waits in DISABLED (R318, R320). (log 33, DEDUCED) -/
def State.trainKick (s : State) : State :=
  match s.trainTurn with
  | some p => if (s.spk p).state == .disabled then s.startAttempt p else s
  | none => s

/-- A port enters HOLD and waits behind the others for its next turn (R318, R320). -/
def State.enterHold (s : State) (p : Nat) : State :=
  let s := s.onSpk p fun x => { x with state := .hold, holdAt := s.loc }
  { s with spoke := { s.spoke with order := (s.spoke.order.filter (· != p)) ++ [p] } }

/-- The port's logic has power, and the link stands in state `x` (R403). -/
def State.linkIn (s : State) (p : Nat) (x : LinkState) : Bool := (s.spk p).state == x && !s.domOff (36 + p)

/-- SPOKE_SIGNAL_DETECT: signal on all four lanes of a port in DETECT, or of the port the start-up order has reached (R318,
R320). -/
def execSpokeSignalDetect (port : Nat) (s : State) : Host.Outcome State Fault Refusal :=
  onUnit (decide (port < 4)) s
    (if !s.running || s.domOff (36 + port) then s
     else if (s.spk port).state == .detect then s.setLink port .lock
     else whenDue ((s.spk port).state == .disabled && s.trainTurn == some port)
       (fun s => (s.startAttempt port).setLink port .lock) s)

/-- SPOKE_LOCK_DONE: block lock on every lane, with the lanes found inverted (R318, R319). -/
def execSpokeLockDone (port : Nat) (inverted : BitVec 4) (s : State) : Host.Outcome State Fault Refusal :=
  onUnit (decide (port < 4)) s
    (whenDue (s.linkIn port .lock)
      (fun s => ((s.setLink port .align).setFld (spkId port 4) 7 4 inverted.toNat).relocked ((upTo 5).map (65 + 5 * port + ·))) s)

/-- Dedicated entries of channel `v` of a port: 4 and the claim's (R326). -/
def State.dedicated (s : State) (p v : Nat) : Nat := 4 + ((s.claimOn 9 (4 * p + v)).map (·.amount)).getD 0

/-- What the port announces in TS2: its EPOCH, the module's host and address, and the 128 entries of its receive buffer as
dedicated and shared ones (R317, R323, R326). -/
def State.ownTs2 (s : State) (p : Nat) : Ts2 :=
  let ds := (upTo 4).map (s.dedicated p)
  ⟨(s.spk p).epoch, s.hostAttached, s.chain.isSome, BitVec.ofNat 8 s.addr, ds, 128 - ds.sum⟩

/-- SPOKE_ALIGN_DONE: lane order and skew of TS1; identity order or full reversal within 8 blocks goes on (R319, R323). -/
def execSpokeAlignDone (port : Nat) (lanes : List Nat) (skew : Nat) (s : State) : Host.Outcome State Fault Refusal :=
  onUnit (decide (port < 4)) s
    (whenDue (s.linkIn port .align) (fun s =>
      let order := lanes == [0, 1, 2, 3] || lanes == [3, 2, 1, 0]
      if order && decide (skew ≤ 8) then
        let s := s.onSpk port fun x => { x with state := .exchange, epoch := (x.epoch + 1) % 64 }
        let s := s.onSpk port fun x => { x with ts2 := some (s.ownTs2 port) }
        (s.setFld (spkId port 4) 6 1 (bit (lanes == [3, 2, 1, 0]))).bump (spkId port 0x106)
      else ((s.flagIf (!order) (spkId port 4) 13).enterHold port).trainNext) s)

/-- A port comes UP with the partner's counts, and nothing sent or received yet; flits that wait for it go on waiting (R318,
R324, R326, R329). -/
def State.linkUp (s : State) (p : Nat) (t : Ts2) : State :=
  let s := s.haloShed.onSpk p fun x =>
    { x with
      state := .up, rxEpoch := t.epoch % 64, seqTx := 0, seqRx := 0, accepted := none, ackOwed := false, nakSent := false,
      retry := [], sentAt := [], resends := 0, progressAt := s.loc, dedicated := t.dedicated.take 4,
      credits := t.dedicated.take 4, shared := t.shared, owed := [0, 0, 0, 0], hbRx := s.loc, hbTx := s.loc,
      partnerHost := t.hostAttached, drain := none }
  let ds := match (s.spk p).ts2 with | some o => o.dedicated | none => (upTo 4).map (s.dedicated p)
  let s := s.setWord (spkId p 5) (BitVec.ofNat 32 (ds.zipIdx.foldl (fun w d => w + d.1 * 2 ^ (8 * d.2)) 0))
  let s := (s.setFld (spkId p 4) 20 8 t.addr.toNat).setFld (spkId p 4) 28 1 (bit t.addrValid)
  ((s.notifyRoot p 5).pumpAll).trainNext

/-- SPOKE_TS2_EXCHANGE_DONE (R318). -/
def execSpokeTs2ExchangeDone (port : Nat) (ts2 : Ts2) (s : State) : Host.Outcome State Fault Refusal :=
  onUnit (decide (port < 4)) s (whenDue (s.linkIn port .exchange) (fun s => s.linkUp port ts2) s)

/-- SPOKE_TRAINING_TIMEOUT: 10 ms from DETECT without UP (R318). -/
def execSpokeTrainingTimeout (port : Nat) (s : State) : Host.Outcome State Fault Refusal :=
  onUnit (decide (port < 4)) s
    (whenDue ((s.spk port).state.training && !s.domOff (36 + port) && decide (10000000 ≤ locDiff s.loc (s.spk port).attemptAt))
      (fun s => (s.enterHold port).trainNext) s)

/-- SPOKE_HOLD_EXPIRY: 1 ms in HOLD has passed, and the port tries again when its turn comes (R318, R320). -/
def execSpokeHoldExpiry (port : Nat) (s : State) : Host.Outcome State Fault Refusal :=
  onUnit (decide (port < 4)) s
    (whenDue ((s.spk port).state == .hold && s.trainTurn == some port) (fun s => s.startAttempt port) s)

/-! ### Loss of a link (R328) -/

/-- Messages that arrive on port `p` and are being forwarded end on their outputs with ABORT. -/
def State.abortForwards (s : State) (p : Nat) : State :=
  forEach (upTo 4) (fun s q => forEach (upTo 4) (fun s v =>
    if q = p then s
    else
      let x := s.spk q
      let ws := x.waiting.filter fun w => w.req == p && w.flit.vc == v
      let open_ := match ws.getLast?, x.owner.getD v none with
        | some w, _ => if w.flit.last then none else some w
        | none, some w => if w.req == p then some w else none
        | none, none => none
      match open_ with
      | some w => s.onSpk q fun x => { x with waiting := x.waiting ++ [w.abort] }
      | none => s) s) s

/-- Partial planes that were arriving on a port are discarded (R396). -/
def State.dropPlanes (s : State) (keep : PartPlane → Bool) : State :=
  let gone := (s.planes.filter fun x => !keep x).length
  { s.bump (pid 1 0 0x122) gone with planes := s.planes.filter keep }

/-- Messages of other inputs that were to leave on port `p` go nowhere from now on (R328). -/
def State.cutFlows (s : State) (p : Nat) : State :=
  forEach (upTo 4) (fun s r => s.onSpk r fun x => { x with flow := x.flow.map fun w => w.map (Flow.without p) }) s

/-- Relays of this module that had not been sent on port `p` are not delivered (R275, R333). -/
def State.countRelays (s : State) (p : Nat) : State :=
  let n := ((s.spk p).waiting.filter fun w => w.req == 4 && w.flit.mtype == 5).length
  (s.bump (tailId 0x10A) n).flagIf (n != 0) (tailId 0x20) 2

/-- A link goes down: the port's retry buffer, waiting flits and partial messages are discarded, forwarded messages ended,
the bulk sessions that need it end, and the change is reported (R275, R328, R336, R342, R361,
R396). -/
def State.linkDown (s : State) (p : Nat) (next : LinkState) : State :=
  let lost := (s.spk p).retry.length
  let s := (((s.abortForwards p).cutFlows p).countRelays p).dropWaiting p fun _ => true
  let s := s.onSpk p fun x => { SpokePort.reset with epoch := x.epoch, sent := x.sent, state := next, holdAt := s.loc }
  let s := if next == .hold then s.enterHold p else s
  let s := (s.bump (spkId p 0x104) lost).flag (spkId p 4) 11
  let s := ((s.setFld (spkId p 4) 3 3 0).setFld (spkId p 4) 28 1 0).dropPlanes fun x => x.port != p
  let s := (s.report 0x12 p 4 p).endSessions
  ((s.notifyRoot p next.code).pumpAll).trainNext

/-- SPOKE_LOCK_LOSS (R328). -/
def execSpokeLockLoss (port : Nat) (s : State) : Host.Outcome State Fault Refusal :=
  onUnit (decide (port < 4)) s (whenDue (s.spkUp port) (fun s => s.linkDown port .hold) s)

/-- A resend sequence; RETRY_LIMIT of them without progress take the link down (R325, R328). (log 33, DEDUCED) -/
def State.resend (s : State) (p : Nat) : State :=
  let s := s.resendAll p
  if s.fld (spkId p 1) 11 4 ≤ (s.spk p).resends then s.linkDown p .hold else s

/-- SPOKE_ACK_TIMEOUT: no acknowledgement progress for PORT_CFG.ACK_TIMEOUT (R325). -/
def execSpokeAckTimeout (port : Nat) (s : State) : Host.Outcome State Fault Refusal :=
  onUnit (decide (port < 4)) s
    (whenDue (s.spkUp port && !(s.spk port).retry.isEmpty &&
        decide (s.fld (spkId port 1) 15 8 * 100 ≤ locDiff s.loc (s.spk port).progressAt)) (fun s => s.resend port) s)

/-- The retry buffer of a draining port is empty, and it goes to DETECT with all that waits kept; or 10 us have passed (R329). -/
def execRetrainDrainDone (port : Nat) (s : State) : Host.Outcome State Fault Refusal :=
  onUnit (decide (port < 4)) s
    (match (s.spk port).drain with
     | none => s
     | some d =>
       if (s.spk port).retry.isEmpty then
         ((s.onSpk port fun x => { x with drain := none }).flag (spkId port 4) 12).queueAttempt port
       else if 10000 ≤ locDiff s.loc d then s.linkDown port .hold
       else s)

/-- A planned retrain begins (R329). -/
def State.startRetrain (s : State) (p : Nat) : State := s.onSpk p fun x => { x with drain := some s.loc }

/-! ### Receipt (R324 to R326, R330, R331, R340) -/

/-- Acknowledged flits leave the retry buffer (R325). (log 33, DEDUCED; 35, DESIGN CHOICE) -/
def State.takeAck (s : State) (p : Nat) (f : SpokeFlit) : State :=
  if !f.ackValid then s
  else
    let r := (s.spk p).retry
    match r.findIdx? fun g => g.seq == f.ack with
    | none => s
    | some i =>
      let s := s.sample 0xD p (locDiff s.loc ((s.spk p).sentAt.getD i s.loc))
      s.onSpk p fun x => { x with retry := r.drop (i + 1), sentAt := x.sentAt.drop (i + 1), resends := 0, progressAt := s.loc }

/-- Credits a flit returns (R326). (log 33, DEDUCED) -/
def State.takeCredits (s : State) (p : Nat) (f : SpokeFlit) : State :=
  s.onSpk p fun x => (upTo f.credN).foldl (fun x _ => x.giveCredit f.credVc) x

/-- A receiver that discards a sequenced flit sends one NAK until it has accepted another (R325). (log 33, DEDUCED) -/
def State.sendNak (s : State) (p : Nat) : State :=
  if (s.spk p).nakSent then s else (s.onSpk p fun x => { x with nakSent := true }).sendPlain p (linkFlit true)

/-- A message before the module holds an address is taken only when it is an ENUM message (R330).
(log 34, DEDUCED) -/
def State.addressedOk (s : State) (f : SpokeFlit) : Bool := s.chain.isSome || decide (f.mtype ≤ 2)

/-- A flit of an ENUM message by its SUB. -/
def enumFlit (sub : Nat) (f : SpokeFlit) : Bool := f.mtype == 2 && leAt f.payload 2 1 == sub

/-- One-link messages: module-edge events, and the ENUM messages between partners (R332, R338). -/
def oneLink (f : SpokeFlit) : Bool :=
  f.mtype == 4 || enumFlit 2 f || enumFlit 3 f ||
  (enumFlit 5 f && leAt f.payload 5 1 == f.dest.toNat)

/-- Where a message goes, from its first flit (R330, R340). (log 34, DEDUCED) -/
def State.flowOf (s : State) (p : Nat) (f : SpokeFlit) : Flow :=
  if !s.addressedOk f then .discard
  else if oneLink f then .sink
  else if f.bcast then .spread (s.spoke.tree.filter fun q => q != p && s.spkUp q)
  else if s.chain == some f.dest then .sink
  else match s.route f.dest.toNat with
    | some q => .port q
    | none => .discard

/-- A flit forwarded on ports waits there; it keeps its entry until the last copy has gone (R326, R340). -/
def State.forwardFlit (s : State) (p : Nat) (qs : List Nat) (f : SpokeFlit) : State :=
  let w : Waiting := ⟨p, some (s.spk p).epoch, { f with hops := f.hops + 1 }⟩
  if qs.isEmpty then s.freeEntryOf p f.vc
  else forEach qs (fun s q => s.onSpk q fun x => { x with waiting := x.waiting ++ [w] }) s

/-- A flit taken by this module: the message it completes, if any (R331). -/
def State.assemble (s : State) (p : Nat) (f : SpokeFlit) : Option Message × State :=
  let x := s.spk p
  let clear := fun (s : State) => s.onSpk p fun x => { x with parts := updateAt x.parts f.vc fun _ => none }
  if f.abort then (none, (clear s).bump (spkId p 0x107))
  else
    let part := match x.parts.getD f.vc none with
      | none => { first := f, length := leAt f.payload 0 2 % 8192, sub := leAt f.payload 2 1, body := f.payload.drop 4 }
      | some (r : Partial) => { r with body := r.body ++ f.payload }
    if f.last then
      (some ⟨p, f.vc, f.mtype, part.sub, f.dest, f.src.toNat, f.bcast, f.hops, part.body.take part.length⟩, clear s)
    else (none, s.onSpk p fun x => { x with parts := updateAt x.parts f.vc fun _ => some part })

/-- An accepted flit goes where its message goes; one that arrives with HOPS = 255 is discarded (R340). -/
def State.routeFlit (s : State) (p : Nat) (f : SpokeFlit) : Option Message × State :=
  let new := ((s.spk p).flow.getD f.vc none).isNone
  let w := ((s.spk p).flow.getD f.vc none).getD (s.flowOf p f)
  let s := s.onSpk p fun x => { x with flow := updateAt x.flow f.vc fun _ => if f.last then none else some w }
  if f.hops = 255 then (none, (s.bump (chainId 0x101)).freeEntryOf p f.vc)
  else match w with
    | .discard => (none, (s.bumpIf new (chainId 0x100)).freeEntryOf p f.vc)
    | .port q => (none, (if enumFlit 5 f then s.setRoute (leAt f.payload 5 1) q else s).forwardFlit p [q] f)
    | .sink => (s.freeEntryOf p f.vc).assemble p f
    | .spread qs => (s.forwardFlit p qs f).assemble p f

/-- A flit received on a port that is UP: check value, protocol, acknowledgement and credits, order; the message it
completes at this module (R324 to R326, R330). -/
def State.rx (s : State) (p : Nat) (f : SpokeFlit) : Option Message × State :=
  if f.check != flitCheck (s.spk p).rxEpoch f then
    let s := s.bump (spkId p 0x102)
    (none, if sequenced f then s.sendNak p else s)
  else if !flitLegal f then (none, (s.flag (spkId p 4) 13).linkDown p .hold)
  else
    let s := s.takeAck p f
    if !sequenced f then
      let s := s.takeCredits p f
      (none, if f.mtype == 0 && bitOf (leAt f.payload 0 1) 0 then s.resend p else s)
    else if f.seq.toNat != (s.spk p).seqRx then (none, s.sendNak p)
    else
      let s := (s.takeCredits p f).onSpk p fun x =>
        { x with seqRx := (x.seqRx + 1) % 1024, accepted := some f.seq.toNat, ackOwed := true, nakSent := false }
      (s.bump (spkId p 0x101)).routeFlit p f

/-- A flit of the kind a row names, received on an UP port; `take` handles a message it completes here. -/
def flitRow (p : Nat) (f : SpokeFlit) (kind : Bool) (take : Message → State → State) (s : State) :
    Host.Outcome State Fault Refusal :=
  onUnit (decide (p < 4)) s
    (whenDue (s.spkUp p && kind) (fun s =>
      let (m, s) := s.rx p f
      (match m with
       | some m => take m s
       | none => s).pumpAll) s)

/-- LINK_RX: acknowledgement, NAK or credits (R325, R326, R330). -/
def execLinkRx (port : Nat) (flit : SpokeFlit) (s : State) : Host.Outcome State Fault Refusal :=
  flitRow port flit (flit.mtype == 0) (fun _ s => s) s

/-- SPOKE_FLIT_DISCARD: a flit whose check value is bad, a sequenced one out of order, or one of MTYPE 0x7, a protocol error
(R324, R325, R330). -/
def execSpokeFlitDiscard (port : Nat) (flit : SpokeFlit) (s : State) : Host.Outcome State Fault Refusal :=
  flitRow port flit (flit.check != flitCheck (s.spk port).rxEpoch flit ||
    (sequenced flit && flit.seq.toNat != (s.spk port).seqRx) || decide (6 < flit.mtype)) (fun _ s => s) s

/-! ### Heartbeats (R335, R336) -/

/-- HEARTBEAT_SEND: the port's next HEARTBEAT (R335). -/
def execHeartbeatSend (port : Nat) (s : State) : Host.Outcome State Fault Refusal :=
  onUnit (decide (port < 4)) s
    (whenDue (s.spkUp port && decide (s.fld (spkId port 1) 0 8 * 1000 ≤ locDiff s.loc (s.spk port).hbTx)) (fun s =>
      let b := bit s.chain.isSome + 2 * bit s.armed + 4 * bit s.spoke.root
      (s.onSpk port fun x => { x with hbTx := s.loc }).sendPlain port
        (freshFlit 0 1 0 s.addr [BitVec.ofNat 8 s.addr, BitVec.ofNat 8 b])) s)

/-- What a HEARTBEAT says of the partner; open steps are marked a last time before its halo counts again (R335, R336). -/
def State.takeHeartbeat (s : State) (p : Nat) (f : SpokeFlit) : State :=
  let b := leAt f.payload 1 1
  let s := s.haloShed
  let s := s.onSpk p fun x => { x with hbRx := s.loc, partnerArmed := bitOf b 1 }
  (s.setFld (spkId p 4) 20 8 (leAt f.payload 0 1)).setFld (spkId p 4) 28 1 (bit (bitOf b 0))

/-- HEARTBEAT_RX (R324, R335, R336). -/
def execHeartbeatRx (port : Nat) (flit : SpokeFlit) (s : State) : Host.Outcome State Fault Refusal :=
  onUnit (decide (port < 4)) s
    (whenDue (s.spkUp port && flit.mtype == 1) (fun s =>
      let good := flit.check == flitCheck (s.spk port).rxEpoch flit && flitLegal flit
      let (_, s) := s.rx port flit
      (if good then s.takeHeartbeat port flit else s).pumpAll) s)

/-- HEARTBEAT_TIMEOUT: none for HB_MISS * HB_INTERVAL (R328). -/
def execHeartbeatTimeout (port : Nat) (s : State) : Host.Outcome State Fault Refusal :=
  onUnit (decide (port < 4)) s
    (whenDue (s.spkUp port && decide (s.fld (spkId port 1) 8 3 * s.fld (spkId port 1) 0 8 * 1000 ≤
        locDiff s.loc (s.spk port).hbRx)) (fun s => (s.bump (spkId port 0x105)).linkDown port .hold) s)

/-! ### Module-edge events and relayed verdicts (R170, R332, R333) -/

/-- A received module-edge event: dropped and marked at lag 64, else admitted without the Sluice; outside step mode it is
addressed at once (R57, R59, R116, R170). (log 11, DEDUCED; 72, DEDUCED) -/
def State.remoteEvent (s : State) (dev w : Nat) : State :=
  let e := Ev.ofWord (if s.stepMode then s.pos.hw else s.pos.count) w
  if s.stepMode && s.lag = 64 then
    ((s.bump (pid 4 8 0x107)).markPos (s.entryStep e) (bandMask e.across e.across)).flag (posId 0x0F) 13
  else s.takeEvent dev true e

/-- HALO_EVENTS (R332); a message for another address is a protocol error. -/
def execHaloEvents (port : Nat) (flit : SpokeFlit) (s : State) : Host.Outcome State Fault Refusal :=
  flitRow port flit (flit.mtype == 4) (fun m s =>
    if s.chain != some flit.dest then (s.flag (spkId port 4) 13).linkDown port .hold
    else forEach (upTo m.sub) (fun s i => s.remoteEvent m.src (leAt m.body (8 * i) 8)) s) s

/-- The record of a relay entry (R270, R275, R333). -/
def entryRec (src : Nat) (b : List Byte) : VerdictRec :=
  { lane := leAt b 0 1, cls := leAt b 1 1, conf := leAt b 2 1, flags := leAt b 3 1, id := leAt b 4 4, target := leAt b 8 8,
    arr := 0, launch := (leAt b 32 8 : Nat) * 1000000000 + (leAt b 40 4 : Nat), slotIx := signedOf 16 (leAt b 26 2),
    boxes := leAt b 28 1, group := leAt b 44 1 % 8, src := src, relayed := true }

/-- VERDICT_RELAY: each entry enters the store (R275, R333). -/
def execVerdictRelay (port : Nat) (flit : SpokeFlit) (s : State) : Host.Outcome State Fault Refusal :=
  flitRow port flit (flit.mtype == 5) (fun m s =>
    forEach (chunksOf 48 (m.body.take (48 * m.sub))) (fun s b => s.relayIn (entryRec m.src b)) s) s

/-! ### Enumeration (R338 to R344) -/

/-- IDENTIFY: the owning module passes it to the root, or is the root (R338). -/
def State.takeIdentify (s : State) (p : Nat) (m : Message) : State :=
  let i := identityOf m.body
  let s := s.onSpk p fun x => { x with partnerHost := i.host }
  if s.spoke.root then s.exploredIf 0 p i
  else (s.sendTo 0 0 2 4 (leBytes 1 p ++ padTo 56 m.body)).getD s

/-- ASSIGN: the module takes the address, or passes it to the partner on the port named; a module with its own host attached
takes none (R338, R339). Every module on the way learns the next hop of the new address. (log 34, DEDUCED) -/
def State.takeAssign (s : State) (p : Nat) (m : Message) : State :=
  let b := leAt m.body 1 1
  if b = m.dest.toNat then
    if s.hostAttached then s
    else
      let s := { s with chain := some m.dest, spoke := { s.spoke with root := false, routes := [] } }
      ((s.setRoute b 4).setRoute 0 p).setRole p 1
  else
    let q := leAt m.body 0 1 % 4
    ((s.setRoute b q).setRole q 2).sendOn q 0 2 5 b (padTo 8 m.body)

/-- An ENUM message taken by this module, by its SUB (R338 to R344). -/
def State.takeEnum (s : State) (m : Message) : State :=
  match m.sub with
  | 1 => s.discoverOn (leAt m.body 0 1 % 4)
  | 2 => s.sendOn m.port 0 2 3 0 (s.identifyBody m.port)
  | 3 => s.takeIdentify m.port m
  | 4 => s.exploredIf m.src (leAt m.body 0 1 % 4) (identityOf (m.body.drop 1))
  | 5 => s.takeAssign m.port m
  | 6 => s.takeRoutes m.body
  | 7 => if s.spoke.root then s.rootNotify m.src (leAt m.body 0 1 % 4) (leAt m.body 1 1 % 8) else s
  | _ => s

/-- An ENUM row: the message of SUB `sub` it completes, which waits for the end of a warm restart (R425). -/
def enumRow (sub port : Nat) (flit : SpokeFlit) (s : State) : Host.Outcome State Fault Refusal :=
  flitRow port flit (enumFlit sub flit) (fun m s =>
    if s.restarting then { s with spoke := { s.spoke with deferred := s.spoke.deferred ++ [m] } } else s.takeEnum m) s

/-- EXPLORE: the module sends DISCOVER on the port named (R338). -/
def execExplore (port : Nat) (flit : SpokeFlit) (s : State) : Host.Outcome State Fault Refusal := enumRow 1 port flit s
/-- DISCOVER: the module answers with IDENTIFY on the same link (R338, R339). -/
def execDiscover (port : Nat) (flit : SpokeFlit) (s : State) : Host.Outcome State Fault Refusal := enumRow 2 port flit s
/-- IDENTIFY (R338). -/
def execIdentify (port : Nat) (flit : SpokeFlit) (s : State) : Host.Outcome State Fault Refusal := enumRow 3 port flit s
/-- REPORT: the root takes an answer (R338, R342, R343). -/
def execReport (port : Nat) (flit : SpokeFlit) (s : State) : Host.Outcome State Fault Refusal := enumRow 4 port flit s
/-- ASSIGN (R338). -/
def execAssign (port : Nat) (flit : SpokeFlit) (s : State) : Host.Outcome State Fault Refusal := enumRow 5 port flit s
/-- ROUTES (R338, R344). -/
def execRoutes (port : Nat) (flit : SpokeFlit) (s : State) : Host.Outcome State Fault Refusal := enumRow 6 port flit s
/-- NOTIFY: the root learns of a port's new state (R342, R344). -/
def execNotify (port : Nat) (flit : SpokeFlit) (s : State) : Host.Outcome State Fault Refusal := enumRow 7 port flit s

/-! ### Writes and reads of SPOKE words -/

/-- Effect of a PORT_EN write (R318). (log 33, DEDUCED) -/
def State.portEnWritten (s : State) (p : Nat) : State :=
  if s.spkEnabled p then
    if (s.spk p).state == .disabled && !s.spoke.order.contains p then
      State.trainNext { s with spoke := { s.spoke with order := s.spoke.order ++ [p] } }
    else s
  else
    let s := if s.spkUp p then s.linkDown p .disabled else s.setLink p .disabled
    State.trainNext { s with spoke := { s.spoke with order := s.spoke.order.filter (· != p) } }

/-- ACCEPT is refused unless the node is DEVICE_CHANGED (R343). -/
def State.acceptRefuses (s : State) (v : Word) : Option Status :=
  if bitOf v.toNat 8 && ((s.chainNode (bitsOf v.toNat 0 8)).map (·.state)) != some 3 then some .wrongState else none

/-- ACCEPT records the new identity (R343). -/
def State.acceptWritten (s : State) (v : Word) : State :=
  let a := bitsOf v.toNat 0 8
  if bitOf v.toNat 8 then
    match s.chainNode a with
    | some n => s.setNode a (some { n with state := 1, digest := n.found })
    | none => s
  else s

/-- A read of a SPOKE word that the state holds elsewhere. -/
def State.spokeRead (s : State) (u i : Nat) : Option Word :=
  if u < 4 && i = 4 then
    some (BitVec.ofNat 32 (withBits (withBits (s.word (spkId u 4)).toNat 0 3 (s.spk u).state.code) 14 6 (s.spk u).epoch))
  else if u = 0x10 && i = 0 then
    some (BitVec.ofNat 32 (s.addr + bit s.chain.isSome * 2 ^ 8 + bit s.spoke.root * 2 ^ 9 + bit s.spoke.exploring * 2 ^ 10 +
      bit s.hostAttached * 2 ^ 11 + s.nodesList.length * 2 ^ 12))
  else if u = 0x20 then
    some (match s.chainNode i with
      | some n => BitVec.ofNat 32 (n.state + n.hops * 4 + n.port * 2 ^ 10)
      | none => 0)
  else if u = 0x21 then
    some (match s.chainNode (i / 12) with
      | some n => BitVec.ofNat 32 (n.digest / 2 ^ (32 * (i % 12)))
      | none => 0)
  else none

end Sys2Proof.Machine
end

