-- ==== Sys2Proof/Machine/Packets.lean ====
section
/-!
DEFINITION. The opcode table, and the checks and the running of a command at the module that executes it (14_commands.md R355
to R363, R372, R376).
-/

namespace Sys2Proof.Machine

/-! ### Tags and opcodes (R356, R363) -/

/-- Tags in flight at this module (R356). -/
def State.tags (s : State) : List Nat :=
  s.host.accepted.map (fun a => a.req.tag.toNat) ++ s.host.running.map (fun a => a.req.tag.toNat) ++
    (s.host.stalled.map (·.1)).filter (· != noTag)

/-- A row of R363: command states that accept it, and its notes L, B and C. -/
structure OpRow where
  code : Nat
  safe : Bool
  early : Bool
  ready : Bool
  armed : Bool
  long : Bool
  bcast : Bool
  subset : Bool
  deriving DecidableEq, Repr

/-- A row from masks: states S 8, E 4, R 2, A 1; notes L 4, B 2, C 1. -/
def opRow (code states notes : Nat) : OpRow :=
  ⟨code, bitOf states 3, bitOf states 2, bitOf states 1, bitOf states 0, bitOf notes 2, bitOf notes 1, bitOf notes 0⟩

/-- The table of R363. -/
def opTable : List OpRow :=
  [opRow 0x0000 15 3, opRow 0x0001 3 0, opRow 0x0002 7 1, opRow 0x0003 7 3, opRow 0x0100 3 1, opRow 0x0101 3 3,
   opRow 0x0102 3 0, opRow 0x0103 3 2, opRow 0x0200 3 1, opRow 0x0201 2 5, opRow 0x0202 2 5, opRow 0x0203 3 0,
   opRow 0x0204 3 1, opRow 0x0205 1 4, opRow 0x0300 2 7, opRow 0x0301 1 3, opRow 0x0302 7 1, opRow 0x0303 3 0] ++
  [opRow 0x0304 3 0, opRow 0x0305 3 0, opRow 0x0306 3 0, opRow 0x0307 3 0, opRow 0x0400 3 0, opRow 0x0401 3 0,
   opRow 0x0402 3 4, opRow 0x0403 3 4, opRow 0x0500 7 3, opRow 0x0600 3 1, opRow 0x0601 3 0, opRow 0x0700 3 1,
   opRow 0x0701 3 2, opRow 0x0702 7 1, opRow 0x0703 6 1, opRow 0x0704 2 0, opRow 0x0705 3 0, opRow 0x0800 7 0,
   opRow 0x0801 7 4] ++
  [opRow 0x0802 7 0, opRow 0x0803 2 4, opRow 0x0804 2 4, opRow 0x0900 2 4, opRow 0x0901 2 0, opRow 0x0A00 15 1,
   opRow 0x0A01 3 0, opRow 0x0A02 2 4]

/-- The row of an opcode. -/
def opOf (code : Nat) : Option OpRow := opTable.find? (·.code == code)

/-- The row accepts its opcode in a command state. -/
def OpRow.allows (o : OpRow) : CmdState → Bool
  | .safe => o.safe | .early => o.early | .ready => o.ready | .armed => o.armed | _ => false

/-- A command is long. -/
def isLong (code : Nat) : Bool := (opOf code).any (·.long)

/-- A long command is running, the commit of a stored image among them (R357, R480). -/
def State.longRuns (s : State) : Bool := s.mgmt.board.reload.isSome || s.host.running.any fun r => isLong r.opcode

/-- A model image swap is accepted and neither cut nor cancelled (R399). -/
def State.swapping (s : State) : Bool := s.mgmt.model.swap.isSome

/-- What a running long command shuts out (R357). -/
def shutOut (code : Nat) : Bool := isLong code || code == 0x0101 || code == 0x0103 || code / 256 == 2

/-- Checks 10 and 11 of R355; a swap that waits for its cut shuts out IMAGE_COMMIT and IMAGE_UNLOAD with RESOURCE_HELD (R399).
(log 56, DEDUCED) -/
def State.startRefuses (s : State) (code : Nat) : Option Status :=
  if s.swapping && inRange 0x0201 2 code then some .resourceHeld
  else if !((opOf code).any fun o => o.allows s.cmd) then some .wrongState
  else if s.longRuns && shutOut code then some .resourceHeld
  else none

/-- Checks 6 to 11 of R355, then the check of BCAST (R360); none when the command is accepted. (log 6, DEDUCED; 46, DEDUCED) -/
def State.serviceRefuses (s : State) (code tag : Nat) (bcast : Bool) : Option Status :=
  let row := opOf code
  if s.cmd == .boot || s.cmd == .restart || (s.cmd == .early && !(row.any (·.early))) then some .busyBooting
  else if s.cmd == .safe && code != 0 && code != 0x0A00 then some .wrongState
  else if row.isNone || (s.compat && !(row.any (·.subset))) then some .badOpcode
  else if s.tags.contains tag then some .resourceHeld
  else match s.startRefuses code with
    | some e => some e
    | none => if bcast && !(row.any (·.bcast)) then some .badParam else none

/-- A refusal at acceptance counted: that of LIFECYCLE_SET (R455). -/
def State.countRefused (s : State) (opcode : Nat) : State := s.bumpIf (opcode == 0x0803) (pid 0x16 0 0x101)

/-! ### Running a command (R355 to R358) -/

/-- A command's own work: its reply and the state, or no reply when one comes later. -/
abbrev Body := Req → State → Option (Status × List Byte) × State

/-- A reply with no payload. -/
def reply (st : Status) (s : State) : Option (Status × List Byte) × State := (some (st, []), s)

/-- An accepted packet leaves the line. -/
def State.released (s : State) (opcode : Nat) (r : Req) : State :=
  s.onHost fun h => { h with accepted := h.accepted.eraseP fun a => a.opcode == opcode && a.req == r }

/-- The accepted command at the head of the line starts: checks 10 and 11 hold now as well, then its own work. Its tag stays
in flight while it runs (R356). (log 6, DEDUCED) -/
def State.runCommand (s : State) (a : Accepted) (body : Body) : State :=
  match s.startRefuses a.opcode with
  | some e => ((s.released a.opcode a.req).countRefused a.opcode).answer a.opcode a.req e []
  | none =>
    match body a.req s with
    | (some (st, p), s) => (s.released a.opcode a.req).answer a.opcode a.req st p
    | (none, s) => s.released a.opcode a.req

/-- The meaning of an opcode's row (assumption 6): an accepted command runs when it is the oldest one waiting, and not during a
warm restart, whose end answers it (R376); one that is not waiting yet is first checked and accepted here. (log 6, DEDUCED) -/
def State.commandRow (s : State) (opcode : Nat) (r : Req) (body : Body) : State :=
  if !s.powered then s
  else match s.acceptedOf opcode r with
    | some a => if s.host.accepted.head? == some a && !s.restarting then s.runCommand a body else s
    | none =>
      match s.serviceRefuses opcode r.tag.toNat r.bcast with
      | some e => (s.countRefused opcode).refusePacket opcode r.tag.toNat r.src.toNat e
      | none =>
        let a : Accepted := ⟨opcode, r, s.loc⟩
        let s := s.onHost fun h => { h with accepted := h.accepted ++ [a] }
        if s.host.accepted.head? == some a then s.runCommand a body else s

/-- A payload of exactly `n` bytes. (log 46, DEDUCED) -/
def withLength (n : Nat) (body : Body) : Body := fun r s => if r.payload.length = n then body r s else reply .badLength s

end Sys2Proof.Machine
end

