-- ==== Sys2Proof/Machine/Power.lean ====
section
/-!
DEFINITION. The power domains (16_power.md): requests, entries, wakes, restores, and the parking of regions.
-/

namespace Sys2Proof.Machine

/-! ### Conditions (R401, R406) -/

/-- A queue that is enabled is stored in region `r`. -/
def State.queueIn (s : State) (r : Nat) : Bool := s.configured.any fun q => s.qEnabled q && s.qRegion q == r

/-- The active image has a box stage (R382). -/
def State.hasBox (s : State) : Bool := s.mgmt.model.active.any (·.box)

/-- Ethernet port `p` is named by an enabled group or by a PTP domain that is not DISABLED. -/
def State.ethNamed (s : State) (p : Nat) : Bool :=
  ((upTo 8).any fun g => s.bitAt (groupId g 0) 0 && bitOf (s.fld (groupId g 0) 2 2) p) ||
  ([0, 1].any fun d => (s.domain d).state != .disabled && bitOf (s.domPorts d) p)

/-- The "in use" condition of a domain, but for stored queues. -/
def State.domUsed (s : State) (d : Nat) : Bool :=
  if d < 32 then
    let r := d / 4
    s.region r == 1 || s.region r == 4 || s.selfTesting r ||
      (d % 4 == 2 && (r == 0 || r == 4) && s.armed && s.hasBox && s.region (4 - r) != 1)
  else if d < 36 then s.bitAt (hpId (d - 32) 0) 0
  else if d < 40 then s.spkUp (d - 36) && s.armed
  else if d < 42 then s.armed && s.ethNamed (d - 40)
  else if d = 42 then (upTo 16).any fun c => s.bitAt (auxId c 0) 0
  else s.armed || (upTo 8).any fun r => !s.domOff (4 * r + 3)

/-- Refusal of POWER_SET at acceptance (R406). -/
def State.powerRefuses (s : State) (d t : Nat) : Option Status :=
  if 44 ≤ d || 3 ≤ t then some .badParam
  else if t != 0 && d < 32 && d % 4 == 3 && s.queueIn (d / 4) then some .resourceHeld
  else if t != 0 && s.domUsed d then some .wrongState
  else if t == 0 && d < 32 && s.region (d / 4) == 3 then some .wrongState
  else none

/-- The state a code names (R406). -/
def pwrOf (t : Nat) : PwrState := if t = 0 then .on else if t = 1 then .ret else .off

/-! ### Contents (R404, R405) -/

/-- A counter that an entry into OFF keeps, rather than a measured value. -/
def keptCounter (id : Nat) (fs : List Field) : Bool :=
  fs == counterWord && id / 0x1000000 != 3 && !(id / 0x10000 == 0x221 && id % 0x10000 < 7)

/-- What a stored word of a domain reads after a restore: RW and RWL fields and counters kept, W1C bits and measured RO
fields at reset (R404). -/
def restoredWord (id : Nat) (w : Word) : Word :=
  match lookup id with
  | .word fs =>
    if keptCounter id fs then w
    else BitVec.ofNat 32 (fs.foldl (fun a f => match f.acc with
      | .ro | .w1c => withBits a f.lsb f.width f.rst
      | _ => a) w.toNat)
  | _ => w

/-- The stored words of domain `d` as a restore leaves them. (log 59, DEDUCED) -/
def State.restoreWords (s : State) (d : Nat) : State :=
  forEach ((Sparse.keys s.regs).filter fun id => idDomain id == some d) (fun s id => s.setWord id (restoredWord id (s.word id))) s

/-- Words of the queues stored in region `r`, whose SRAM has been written with zero (R405, R451). (log 59, DEDUCED) -/
def State.zeroQueues (s : State) (r : Nat) : State :=
  forEach (s.configured.filter fun q => s.qRegion q == r) (fun s q => s.onQueue q fun x =>
    { x with words := x.words.map fun _ => ⟨0, false⟩, bad := [] }) s

/-- Operating state of a domain whose SRAM starts from zero (R405). (log 59, DEDUCED) -/
def State.rebuildSram (s : State) (d : Nat) : State :=
  if d < 32 then
    let r := d / 4
    match d % 4 with
    | 0 => s.loadRegion r
    | 1 => s.onDense r fun x => { x with mode := 0, subs := [] }
    | 2 => s.onDense r fun x => { x with tiles := [], edge := none, lastBatch := 0 }
    | _ =>
      let s := s.zeroQueues r
      if s.hostOf r = r then
        { s with trk := { s.trk with slots := s.trk.slots.filter fun e => e.1 / 2048 != r } }.onTracker r fun t =>
          { t with inbox := [], todo := [] }
      else s
  else if d < 36 then s.onPort (d - 32) fun q => { q with refract := [], vcs := [] }
  else if d < 40 then
    let p := d - 36
    let s := s.onSpk p fun x => { SpokePort.reset with epoch := x.epoch, sent := x.sent }
    if s.spkEnabled p then s.queueAttempt p else s
  else if d < 42 then (s.setLaunchQ (d - 40) []).setFld (pid 0x13 (d - 40) 1) 0 2 0
  else if d = 42 then forEach (upTo 16) (fun s c =>
    let s := s.onChan c fun x => { AuxChan.empty with seq := x.seq }
    if s.bitAt (auxId c 0) 0 then s.auxReset c s.loc else s) s
  else
    let s := s.clearRouter
    { s with tail := .reset, head := { s.head with engaged := false, level := 0 } }

/-- A domain restored after OFF: parameters and operating state (R404, R405). -/
def State.rebuild (s : State) (d : Nat) : State :=
  ((s.restoreWords d).onFault fun f => { f with badIds := f.badIds.filter fun id => idDomain id != some d }).rebuildSram d

/-- What the commit of an entry into OFF takes with it at once: a spoke link (R328), an Ethernet port's block lock. -/
def State.loseDomain (s : State) (d : Nat) : State :=
  if 36 ≤ d && d < 40 && s.spkUp (d - 36) then s.linkDown (d - 36) .disabled
  else if 40 ≤ d && d < 42 then s.setFld (pid 0x13 (d - 40) 1) 0 2 0
  else s

/-- Every domain of region `e` is ON, so its switch back to set 0 waits for the next boundary (R415); the switch that excludes
a region which failed meanwhile follows it (R419). -/
def State.resumeReady (s : State) : State :=
  match s.mgmt.power.resume with
  | some e =>
    if ((upTo 4).all fun i => (s.pdom (4 * e + i)).st == .on && (s.pdom (4 * e + i)).move.isNone) && !s.mgmt.power.switches.contains (.resume e) then
      s.onPower fun p => { p with switches := p.switches ++ [.resume e] ++ p.failing.map MapSwitch.derail }
    else s
  | none => s

/-- The switches of the map that wait are made now when no fabric step is in evaluation; a park goes on with its domains and a
resumption is answered (R414, R415). -/
def State.settleSwitches (s : State) : State :=
  let s := if s.pos.cur.isNone then s.switchMaps else s
  let s := s.parkNext
  if s.mgmt.power.resume.isNone then s.finishOpt (s.runningOf 0x0403) .ok [] else s

/-! ### Commands -/

/-- POWER_SET's own work (R406, R407). -/
def powerSetBody : Body := withLength 4 fun r s =>
  let d := leAt r.payload 0 1
  let t := leAt r.payload 1 1
  if leAt r.payload 2 2 != 0 then reply .badParam s
  else match s.powerRefuses d t with
    | some e => reply e s
    | none =>
      let x := s.pdom d
      let t := pwrOf t
      match x.move with
      | some m =>
        if m.goal == t then reply .pending (s.onPdom d fun x => { x with pend := none })
        else reply .pending ((s.bumpIf x.pend.isSome (pwId d 0x103)).onPdom d fun x => { x with pend := some t })
      | none =>
        let s := s.onPdom d fun x => { x with target := t, retry := none }
        if x.st == t then reply .ok (s.onPdom d fun x => { x with result := 0 })
        else (none, (s.startMove d t).startRunning 0x0400 r .ok [])

/-- POWER_SET. -/
def execPowerSet (req : Req) (s : State) : Host.Outcome State Fault Refusal := .next (s.commandRow 0x0400 req powerSetBody)

/-- DOMAIN_STATUS of domain `d`. -/
def State.domainStatus (s : State) (d : Nat) : Word :=
  let x := s.pdom d
  BitVec.ofNat 32 ((if x.move.isSome then 3 else x.st.code) + x.target.code * 4 + bit x.pend.isSome * 16 +
    ((x.pend.map PwrState.code).getD 0) * 32 + bit (x.move.any (·.committed)) * 128 + x.result % 256 * 256 +
    x.refCode % 256 * 65536 + x.refInst % 256 * 16777216)

/-- POWER_STATUS returns DOMAIN_STATUS (R363, R416). -/
def powerStatusBody : Body := withLength 1 fun r s =>
  let d := leAt r.payload 0 1
  if d < 44 then (some (.ok, leBytes 4 (s.domainStatus d).toNat), s) else reply .badParam s

/-- POWER_STATUS. -/
def execPowerStatus (req : Req) (s : State) : Host.Outcome State Fault Refusal := .next (s.commandRow 0x0401 req powerStatusBody)

/-- Another region than `e` is out of the normal placement or about to leave it: FAILED_OUT, PARKED, in TEST, reported failed
before its switch, or being parked (R33). (log 59, DEDUCED) -/
def State.otherOut (s : State) (e : Nat) : Bool :=
  ((upTo 8).any fun r => r != e && (s.region r == 2 || s.region r == 3 || s.region r == 4)) ||
    !s.mgmt.power.failing.isEmpty || s.mgmt.power.park.isSome

/-- REGION_PARK's own work (R413, R414). -/
def regionParkBody : Body := withLength 2 fun r s =>
  let e := leAt r.payload 0 1
  let t := leAt r.payload 1 1
  if 8 ≤ e || (t != 1 && t != 2) then reply .badParam s
  else if s.otherOut e || s.region e != 1 then reply .wrongState s
  else if s.swapping then reply .resourceHeld s
  else if !s.armed || s.mgmt.model.active.isNone then reply .wrongState s
  else if (upTo 4).any fun i => (s.pdom (4 * e + i)).move.isSome || (s.pdom (4 * e + i)).pend.isSome then reply .resourceHeld s
  else if t == 2 && s.queueIn e then reply .resourceHeld s
  else
    let s := s.onPower fun p => { p with
      park := some ⟨e, pwrOf t, false, [4 * e, 4 * e + 2, 4 * e + 1, 4 * e + 3]⟩, switches := p.switches ++ [.park e] }
    (none, (s.startRunning 0x0402 r .ok []).settleSwitches)

/-- REGION_PARK. -/
def execRegionPark (req : Req) (s : State) : Host.Outcome State Fault Refusal := .next (s.commandRow 0x0402 req regionParkBody)

/-- A parked region's domains begin to wake (R415). -/
def State.startResume (s : State) (e : Nat) : State :=
  let s := s.onPower fun p => { p with resume := some e }
  let s := forEach (upTo 4) (fun s i =>
    let d := 4 * e + i
    let s := s.onPdom d fun x => { x with target := .on, pend := none, retry := none }
    if (s.pdom d).st == .on && (s.pdom d).move.isNone then s
    else match (s.pdom d).move with
      | some m => if m.goal == .on then s
        else if m.committed then s.onPdom d fun x => { x with pend := some .on } else (s.endEntry d).startMove d .on
      | none => s.startMove d .on) s
  s.resumeReady

/-- REGION_RESUME's own work (R399, R415). -/
def regionResumeBody : Body := withLength 1 fun r s =>
  let e := leAt r.payload 0 1
  if 8 ≤ e then reply .badParam s
  else if s.swapping then reply .resourceHeld s
  else if s.region e != 3 then reply .wrongState s
  else (none, ((s.startRunning 0x0403 r .ok []).startResume e).settleSwitches)

/-- REGION_RESUME. -/
def execRegionResume (req : Req) (s : State) : Host.Outcome State Fault Refusal := .next (s.commandRow 0x0403 req regionResumeBody)

/-! ### Events of a domain -/

/-- Codes of a domain's blocks in the order in which they are asked to stop (R401, R408). (log 59, DEDUCED) -/
def stopOrder (d : Nat) : List Nat :=
  if d < 32 then
    match d % 4 with
    | 0 => [5]
    | 1 => [9]
    | 2 => [8, 0x0A, 0x0B]
    | _ => [6, 7]
  else if d < 36 then [2]
  else if d < 40 then [0x12]
  else if d < 42 then [0x13, 0x0D]
  else if d = 42 then [0x0F]
  else [2, 3, 4, 0x0C]

/-- Whether a block cannot reach its idle point, where the state shows it: a job running, a tile being built, sent flits not
acknowledged, a frame in transmission or a launch queue not empty (R408). (log 59, DEDUCED) -/
def State.blockBusy (s : State) (d code : Nat) : Option Bool :=
  match code with
  | 9 => some ((upTo 4).any fun k => ((s.dense (d / 4)).sub k).isSome)
  | 8 => some ((s.dense (d / 4)).live.any fun t => !t.2.ready)
  | 0x0A => some (s.dense (d / 4)).edge.isSome
  | 0x12 => some !(s.spk (d - 36)).retry.isEmpty
  | 0x13 => some (!(s.launchQ (d - 40)).isEmpty || decide (s.dev < s.lineEnd (d - 40)))
  | _ => none

/-- Some block of the domain cannot stop. -/
def State.domBusy (s : State) (d : Nat) : Bool := (stopOrder d).any fun c => s.blockBusy d c == some true

/-- The blocks asked before block `code` have stopped, and it is not known to be idle: it may refuse. Those that have stopped restart
in reverse order, which leaves the domain as it was (R408). (log 59, DEDUCED) -/
def State.mayRefuse (s : State) (d code : Nat) : Bool :=
  (((stopOrder d).takeWhile (· != code)).all fun c => s.blockBusy d c != some true) && s.blockBusy d code != some false

/-- POWER_ENTRY_COMMIT: every block of the domain has stopped and its outputs are isolated (R298, R404, R408, R409). -/
def execPowerEntryCommit (domain : Nat) (s : State) : Host.Outcome State Fault Refusal :=
  onUnit (decide (domain < 44)) s
    (match (s.pdom domain).move with
     | some m =>
       whenDue (m.goal != .on && !m.committed && !s.domOff domain && !s.domBusy domain && !s.restarting) (fun s =>
         if m.goal == .off && domain < 32 && domain % 4 == 3 && s.queueIn (domain / 4) then s.refuseHeld domain
         else
           let s := (s.onPdom domain fun x => { x with move := some { m with committed := true } }).bump (pwId domain 0x100)
           if m.goal == .off then s.loseDomain domain else s) s
     | none => s)

/-- POWER_BLOCK_STOP_TIMEOUT: a block of the domain refuses or is not idle within 5 us (R408). -/
def execPowerBlockStopTimeout (domain blockCode unit : Nat) (s : State) : Host.Outcome State Fault Refusal :=
  onUnit (decide (domain < 44)) s
    (match (s.pdom domain).move with
     | some m =>
       whenDue (m.goal != .on && !m.committed && domainOf blockCode unit == some domain && s.mayRefuse domain blockCode &&
           !s.restarting)
         (fun s => s.refuseEntry domain blockCode unit) s
     | none => s)

/-- POWER_ACCESS_WAKE: a hardware access needs a block of the domain (R409, R410). -/
def execPowerAccessWake (domain : Nat) (s : State) : Host.Outcome State Fault Refusal :=
  onUnit (decide (domain < 44)) s (s.accessWake domain)

/-- POWER_RET_HOLD_EXPIRY: RET_HOLD us without access after a wake, and the domain enters its target again (R410). -/
def execPowerRetHoldExpiry (domain : Nat) (s : State) : Host.Outcome State Fault Refusal :=
  onUnit (decide (domain < 44)) s
    (let x := s.pdom domain
     match x.retry with
     | some t =>
       whenDue (x.move.isNone && x.target != .on && !s.restarting && decide (s.fld (pwId domain 0) 0 16 * 1000 ≤ locDiff s.loc t))
         (fun s => s.startMove domain x.target) s
     | none => s)

/-- A restore, retention or supply fault: the domain stays OFF (R412). -/
def State.restoreLost (s : State) (d : Nat) : State :=
  let cmd := s.powerCmd d
  let s := s.onPdom d fun x => { x with st := .off, target := .off }
  ((s.endMove d .internal).report 0x14 d 9 d).finishOpt cmd .internal []

/-- A transition to ON has completed (R405, R410). -/
def State.wokeUp (s : State) (d : Nat) : State :=
  let cmd := s.powerCmd d
  let was := s.domOff d
  let s := s.onPdom d fun x => { x with st := .on, retry := if x.target == .on then none else some s.loc }
  let s := if was then s.rebuild d else s
  ((((s.bump (pwId d 0x101)).endMove d .ok).finishOpt cmd .ok []).resumeReady).settleSwitches

/-- An entry has completed; a wake event held since its commit follows at once (R409). -/
def State.entered (s : State) (d : Nat) (m : PwrMove) : State :=
  let cmd := s.powerCmd d
  let own := s.parks d
  let s := s.onPdom d fun x => { x with st := m.goal }
  let s := ((s.endMove d .ok).finishOpt cmd .ok []).parkAfter own none
  if !m.wake then s
  else
    let s := if s.entering d then s.endEntry d else s
    if (s.pdom d).move.isNone then s.startWake d else s

end Sys2Proof.Machine
end

