-- ==== Sys2Proof/Machine/Access.lean ====
section
/-!
DEFINITION. Reading and writing one parameter word (R5 to R12, R365): the words the module computes when they are read, what
the owning chapters refuse beyond the common checks, and what an accepted write brings about.
-/

namespace Sys2Proof.Machine

/-! ### Computed words -/

/-- A stored word with fields replaced: place, width, value. -/
def State.withFlds (s : State) (id : Nat) (fs : List (Nat × Nat × Nat)) : Word :=
  BitVec.ofNat 32 (fs.foldl (fun w f => withBits w f.1 f.2.1 f.2.2) (s.word id).toNat)

/-- Base of the fatal dump area (R28, R427). (log 2, DESIGN CHOICE) -/
def dumpBase : Nat := 512 * 1048576

/-- The dump header reads VALID = 1. -/
def State.dumpHeld (s : State) : Bool := bitOf (s.readByte (dumpBase + 7)).toNat 0

/-- Level on pin AUX_IOn (R467). (log 64, DEDUCED) -/
def State.auxPin (s : State) (n : Nat) : Bool :=
  match s.fld (pid 1 0 (0x180 + n)) 0 2 with
  | 0 => Config.pinLevel s.free n
  | 1 => s.bitAt (pid 1 0 0x190) n
  | 2 => s.pos.pulse.any fun l => decide (locDiff s.loc l < 1000)
  | _ => s.time.pps

/-- MILLER words computed at a read; AUX_IO_IN takes a free value for the pins the module does not drive. -/
def State.millerRead (s : State) (i : Nat) : Option (Word × State) :=
  let m := s.mgmt.model
  let id := pid 1 0 i
  match i with
  | 0x101 => some (BitVec.ofNat 32 s.regionWord, s)
  | 0x102 | 0x103 | 0x104 | 0x105 => some (BitVec.ofNat 32 (s.clockWord (i - 0x102)), s)
  | 0x110 =>
    some (s.withFlds id [(0, 1, bit m.active.isSome), (1, 1, bit (m.staged.any fun x => x.kind == 0 && x.complete)),
      (2, 1, bit (m.active.any fun x => decide (1 < x.members))), (3, 4, (m.active.map (·.member)).getD 0),
      (7, 4, ((m.active.map (·.members)).getD 1) - 1), (11, 1, bit (m.swapResult == 0x0C)),
      (12, 1, bit (m.active.any (·.degraded))), (13, 8, m.swapResult)], s)
  | 0x111 => some (BitVec.ofNat 32 ((m.active.map (·.slotHold)).getD 0), s)
  | 0x112 => some (BitVec.ofNat 32 ((m.active.map (·.needs.minLead)).getD 0 % 2 ^ 24), s)
  | 0x131 => some (s.withFlds id [(3, 1, bit s.dumpHeld)], s)
  | 0x142 | 0x145 =>
    let (k, s) := s.takeFree
    let s := s.bump id (Config.foundCorrected k)
    some (s.word id, s)
  | 0x191 => some (BitVec.ofNat 32 (bitsWord 16 s.auxPin), s.takeFree.2)
  | 0x1A1 => some (s.withFlds id [(1, 1, bit s.mgmt.board.store.isSome)], s)
  | _ => none

/-- A word of the queue block computed at a read. -/
def State.queueRead (s : State) (u i : Nat) : Option Word :=
  if u < 0x40 then
    let q := u * 64 + i / 16
    let x := s.queue q
    match i % 16 with
    | 1 => some (s.withFlds (queId q 1) [(0, 1, bit x.words.isEmpty), (1, 1, bit (s.qEnabled q && s.qRoom q == 0)),
        (16, 16, (x.words.filter (·.eop)).length)])
    | 2 => some (BitVec.ofNat 32 (x.words.length + bit (x.mid || x.discarding) * 65536))
    | _ => none
  else if u = 0x41 then
    match i with
    | 1 => some (BitVec.ofNat 32 genBase)
    | 2 => some (BitVec.ofNat 32 (genBase / 2 ^ 32))
    | 3 => some (BitVec.ofNat 32 genSize)
    | 4 => some (BitVec.ofNat 32 (genSize / 2 ^ 32))
    | 5 => some (BitVec.ofNat 32 s.claims.length)
    | _ => none
  else if u = 0x42 then
    some (match s.claim (i / 4) with
      | none => 0
      | some c => match i % 4 with
        | 0 => BitVec.ofNat 32 (1 + bit c.image * 2 + c.kind * 256 + c.unit * 65536)
        | 1 => BitVec.ofNat 32 c.amount
        | 2 => BitVec.ofNat 32 c.base
        | _ => BitVec.ofNat 32 (c.base / 2 ^ 32))
  else none

/-- SECURITY.STATUS (18_security.md). -/
def State.securityWord (s : State) : Word :=
  let c := s.mgmt.sec
  let run := if c.running = 0 then c.copyA else c.copyB
  let owner := !c.ownerKeys.isEmpty && sha384 c.ownerKeys == c.ownerDigest
  BitVec.ofNat 32 (c.lc + bit owner * 4 + bit s.keyTemporary * 8 + bit c.erasePending * 16 + c.running * 32 +
    c.fuseSvn * 64 + c.revoked * 2 ^ 12 + c.recycles * 2 ^ 16 + ((run.map (·.svn)).getD 0) * 2 ^ 18)

/-- Words of the smaller blocks computed at a read. -/
def State.viewRead (s : State) (b u i : Nat) : Option Word :=
  let id := pid b u i
  match b with
  | 0x02 =>
    if u < 4 && i = 4 then
      let q := s.port u
      some (s.withFlds id [(0, 1, bit (q.lastRx.any fun t => decide (locDiff s.loc t ≤ 1000000))), (1, 1, bit q.synced)])
    else if u = 0x20 && i = 0 then some (BitVec.ofNat 32 (bit s.head.engaged + s.head.level * 2))
    else none
  | 0x04 =>
    if u = 0x10 then (if i = 0 then some (BitVec.ofNat 32 s.rtr.activeSet) else none)
    else if i = 1 then some (s.withFlds id [(0, 1, bit (decide (u < 8) && !(s.node u).spill.isEmpty))])
    else if i = 2 then some (BitVec.ofNat 32 (s.node u).sram.length)
    else if i = 3 then some (BitVec.ofNat 32 (s.node u).spill.length)
    else none
  | 0x06 => if u < 8 && i = 5 then some (s.withFlds id [(4, 12, (s.slotsOf u).length)]) else none
  | 0x07 =>
    if u = 0x10 && i = 1 then some (BitVec.ofNat 32 (bitsWord 32 fun j => (upTo 8).any fun lr => s.sensorOut lr j)) else none
  | 0x08 =>
    if i = 0x40 then
      some (s.withFlds id [(4, 9, (s.freePages u).length), (13, 9, s.tilePages u), (22, 9, ((s.dense u).live.filter fun e => decide (e.1 < 256)).length)])
    else none
  | 0x09 => if i = 0 then some (BitVec.ofNat 32 ((s.dense u).mode + bitsWord 4 (fun k => ((s.dense u).sub k).isSome) * 4)) else none
  | 0x0A => if i = 0 then some (BitVec.ofNat 32 (bit (s.dense u).edge.isSome + (s.dense u).lastBatch * 2)) else none
  | 0x0C => if u = 0 && i = 0x20 then some (s.withFlds id [(4, 16, s.storeUsed)]) else none
  | 0x10 => s.queueRead u i
  | 0x12 => s.spokeRead u i
  | 0x14 => if i = 1 then some (s.domainStatus u) else none
  | 0x16 => if i = 0 then some s.securityWord else none
  | 0x17 =>
    if i = 0 then
      some (s.withFlds id [(0, 1, bit s.mgmt.test.bootDone), (1, 1, bit ((s.runningOf 0x0A02).isSome || s.mgmt.fault.retest.isSome))])
    else none
  | 0x18 =>
    if i = 1 then some (BitVec.ofNat 32 (s.cmd.code + bit s.host.bulkIn.isSome * 8 + bit s.host.bulkOut.isSome * 16 +
      s.tags.length * 65536))
    else none
  | _ => none

/-- POSITION words computed at a read (R62, R63). -/
def State.positionRead (s : State) (i : Nat) : Option (Word × State) :=
  match i with
  | 8 => some s.readCount
  | 9 => some (BitVec.ofNat 32 s.pos.snapHi, s)
  | 0x0F => some (s.withFlds (posId 0x0F) [(0, 7, s.lag)], s)
  | _ => none

/-- Value of a parameter word, with the snapshots its read takes (R62, R88, R293, R315). -/
def State.valueOf (s : State) (id : Nat) : Word × State :=
  let b := id / 0x1000000
  let u := id / 0x10000 % 256
  let i := id % 0x10000
  let v := match b with
    | 0x01 => s.millerRead i
    | 0x0D => s.timeRead u i
    | 0x0E => s.positionRead i
    | 0x0F => s.auxRead u i
    | 0x11 => s.cvRead u i
    | _ => (s.viewRead b u i).map fun w => (w, s)
  v.getD (s.word id, s)

/-- Status of a word that does not exist, or that lies in a domain in OFF (R5, R6, R404). (log 47, DEDUCED) -/
def State.absent (s : State) (id : Nat) : Option Status :=
  match lookup id with
  | .badParam => some .badParam
  | .notPresent => some .notPresent
  | .word _ => if (idDomain id).any s.domOff then some .wrongState else none

/-- The node table and the identity digests exist at the root only (13_spoke_links.md, Parameters). (log 48, DEDUCED) -/
def State.rootRefuses (s : State) (id : Nat) : Bool :=
  (id / 0x10000 == 0x1220 || id / 0x10000 == 0x1221) && !s.spoke.root

/-- What refuses a read of a word. -/
def State.readRefuses (s : State) (id : Nat) : Option Status :=
  match s.absent id with
  | some e => some e
  | none => if s.rootRefuses id then some .wrongState else none

/-- A domain in RET wakes for an access of the host (R410). -/
def State.wakeFor (s : State) (id : Nat) : State := match idDomain id with | some d => s.accessWake d | none => s

/-- A word read. -/
def State.readWord (s : State) (id : Nat) : Status × Word × State :=
  match s.readRefuses id with
  | some e => (e, 0, s)
  | none =>
    let (w, s) := (s.wakeFor id).valueOf id
    (.ok, w, s)

/-! ### Writes -/

/-- Words that a chapter locks while armed whatever their access class: COUNT_SET and DOMAIN_RELOCK (R43, R72). -/
def lockedWord (id : Nat) : Bool := id == posId 0x0A || id == posId 0x0B || id == domId 0 8 || id == domId 1 8

/-- The common checks of a write, in the order of R365. -/
def State.writeRefuses (s : State) (id : Nat) (v : Word) : Option Status :=
  match s.absent id with
  | some e => some e
  | none =>
    match lookup id with
    | .word fs =>
      if s.rootRefuses id then some .wrongState
      else if s.armed && (lockedWord id || lockRefuses fs (s.word id) v) then some .locked
      else if rangeAllows fs (s.word id) v then none else some .badParam
    | _ => some .badParam

/-- `first` refusal of a list of conditions with their statuses. -/
def refusal : List (Bool × Status) → Option Status
  | [] => none
  | (c, e) :: rest => if c then some e else refusal rest

/-- A word of a descriptor that is enabled, or that the write enables, would leave it inconsistent (R101). -/
def State.fmtRefuses (s : State) (p i : Nat) (v : Word) : Bool :=
  let k := (i - 0x10) / 8
  let f := (s.setWord (hpId p i) v).fmt p k
  ((s.fmt p k).enable || f.enable) && !f.consistent

/-- What HEADRACE refuses beyond the common checks (R101, R119 to R121); `fin` holds every word of the command. -/
def State.headRefuses (s fin : State) (u i : Nat) (v : Word) : Option Status :=
  if u < 4 && inRange 0x10 64 i then refusal [(s.fmtRefuses u i v, .badParam)]
  else if u = 0x21 then
    match i with
    | 0 => refusal [(s.armed && s.pos.src == .replay, .wrongState)]
    | 1 | 2 | 3 => refusal [(s.fld (pid 2 0x21 0) 0 2 != 0, .wrongState),
        (fin.recBytes != 0 && !fin.hostRange fin.recBase fin.recBytes, .badParam)]
    | _ => none
  else none

/-- The domain is OFF, or will be: the commit of an entry into OFF has passed. -/
def State.goesOff (s : State) (d : Nat) : Bool := s.domOff d || (s.pdom d).move.any fun m => m.committed && m.goal == .off

/-- What QUEUE refuses beyond the common checks (R295, R296, R298, R306): a queue is not enabled in a shared memory that is
OFF or past the commit of an entry into OFF. (log 48, DEDUCED) -/
def State.queueRefuses (s : State) (u i : Nat) (v : Word) : Option Status :=
  if u < 0x40 then
    let q := u * 64 + i / 16
    match i % 16 with
    | 0 =>
      let s' := s.setWord (queId q 0) v
      let r := s'.qRegion q
      let have_ := ((s.claims.filter fun c => c.kind == 4 && c.unit == r).map (·.amount)).sum
      refusal [(!s.claimed 5 q, .wrongState), (bitOf v.toNat 0 && s.goesOff (4 * r + 3), .resourceHeld),
        (bitOf v.toNat 0 && decide (have_ < s.pagesUsed r q + s'.qPages q), .noResource)]
    | 3 => refusal [(!s.claimed 5 q, .wrongState)]
    | _ => none
  else if u = 0x40 then
    let n := i / 2
    if i % 2 = 0 then refusal [(!s.claimed 6 n, .wrongState)]
    else refusal [((s.soOp n 1 v.toNat 0).1 != .ok, .badParam)]
  else none

/-- What MILLER refuses beyond the common checks (R420, R467). -/
def State.millerRefuses (s : State) (i : Nat) (v : Word) : Option Status :=
  if inRange 0x180 16 i then refusal [((s.claimOn 1 (i - 0x180)).isNone, .wrongState)]
  else if i = 0x132 then
    refusal [(bitOf v.toNat 3 && !(s.armed && s.region (bitsOf v.toNat 0 3) == 2), .wrongState)]
  else none

/-- Instances a quantity of R433 can name. -/
def quantityInst (quantity inst : Nat) : Bool :=
  match quantity with
  | 3 => decide (inst < 4096)
  | 4 | 0xB | 0xC => decide (inst < 8)
  | 6 | 0xD => decide (inst < 4)
  | 7 => decide (inst < 256) && isSensor (inst % 32)
  | 8 => decide (inst < 8)
  | 9 => decide (inst < 13)
  | 0xE => decide (inst < 2)
  | _ => inst == 0

/-- What the owning chapter refuses a write for, beyond the common checks. A range that several words give is judged on
`fin`, the state with every word of the command stored. (log 48, DEDUCED) -/
def State.ownerRefuses (s fin : State) (id : Nat) (v : Word) : Option Status :=
  let u := id / 0x10000 % 256
  let i := id % 0x10000
  let n := v.toNat
  match id / 0x1000000 with
  | 0x01 => s.millerRefuses i v
  | 0x02 => s.headRefuses fin u i v
  | 0x05 =>
    if 0x80 ≤ u && inRange 0x100 32 i then refusal [(!bitOf n 1 && bitsOf n 7 16 == 0, .badParam)]
    else if 0x80 ≤ u && inRange 0x200 256 i && i % 2 = 0 then
      refusal [(decide (32768 < bitsOf n 7 15 + 2 ^ bitsOf n 22 4), .badParam)]
    else none
  | 0x07 => if u < 8 && inRange 0x100 32 i then refusal [(decide (bitsOf n 8 8 ≤ bitsOf n 0 8), .badParam)] else none
  | 0x08 => if inRange 0x20 4 i then refusal [(decide (32768 < bitsOf n 6 15 + 2 ^ bitsOf n 21 4), .badParam)] else none
  | 0x0B => if i = 0x10 then refusal [(bitsOf n 2 4 != 0 && bitOf n 1, .badParam)] else none
  | 0x0C =>
    if inRange 0x20 8 u && i = 0 then refusal [(bitsOf n 2 2 == 0 && !bitOf n 4, .badParam)]
    else if 0x40 ≤ u && i = 0 then refusal [(s.compat && decide (bitsOf n 1 17 < 200), .badParam)]
    else none
  | 0x0D =>
    match timeUnit u with
    | some .main => if i = 1 then s.switchRefuses v else none
    | some (.domain _) => if i = 0 then refusal [(bitsOf n 8 2 == 2 && bitOf n 10, .badParam)]
        else none
    | some (.tcu c) =>
      if i = 0 then refusal [((s.claimOn 2 c).isNone, .wrongState),
        (decide (0x10 ≤ bitsOf n 0 6) && (s.claimOn 1 (bitsOf n 0 6 - 0x10)).isNone, .wrongState)]
      else none
    | _ => none
  | 0x0F =>
    if u = 16 && inRange 1 3 i then
      refusal [(auxRingRefuses fin (fin.wide (auxModId 1) % 2 ^ 48) (fin.fld (auxModId 3) 0 5), .badParam)]
    else none
  | 0x10 => s.queueRefuses u i v
  | 0x11 => s.cvRefuses u i v
  | 0x12 => if u = 0x10 && i = 2 then s.acceptRefuses v else none
  | 0x13 => if i = 0 then refusal [(bitsOf n 2 2 == 2 && bitOf n 1, .badParam)] else none
  | 0x15 =>
    if u < 64 && i = 0 then refusal [(!quantityInst (bitsOf n 0 8) (bitsOf n 8 16), .notPresent)] else none
  | _ => none

/-- Everything that refuses a write. -/
def State.refusesWrite (s : State) (id : Nat) (v : Word) : Option Status :=
  match s.writeRefuses id v with
  | some e => some e
  | none => s.ownerRefuses (s.setWord id v) id v

/-- Effect of an accepted write of a queue word (R296, R305): enabling, disabling or moving a queue empties it.
(log 48, DEDUCED) -/
def State.queueWritten (s : State) (u i : Nat) (old v : Word) : State :=
  if u < 0x40 then
    let q := u * 64 + i / 16
    match i % 16 with
    | 0 => if bitsOf v.toNat 0 11 = bitsOf old.toNat 0 11 then s else s.onQueue q fun _ => Queue.empty
    | 3 => if bitOf v.toNat 0 then s.onQueue q Queue.flush else s
    | _ => s
  else s

/-- A write of CFG or LO clears a monitor channel and marks its next snapshot (R432). -/
def monitorWritten (s : State) (u i : Nat) : State :=
  if u < 64 && i < 2 then s.onMon u fun c => { c with live := .empty, changed := true } else s

/-- A retest of the failed region begins (R420): the region enters TEST and runs its slices in asynchronous mode. -/
def State.startRetest (s : State) (e : Nat) : State :=
  (s.setRegion e 4).onFault fun f => { f with retest := some e }

/-- What an accepted write brings about beside the stored word; `old` is the word before. A recording begins at the ring's
start when MODE leaves OFF (assumption 69). (log 69, DESIGN CHOICE) -/
def State.written (s : State) (id : Nat) (old v : Word) : State :=
  let u := id / 0x10000 % 256
  let i := id % 0x10000
  match id / 0x1000000 with
  | 0x01 => if i = 0x132 && bitOf v.toNat 3 then s.startRetest (bitsOf v.toNat 0 3) else s
  | 0x02 =>
    if u = 0x21 && inRange 0 4 i && (i != 0 || (bitsOf v.toNat 0 2 != 0 && bitsOf old.toNat 0 2 = 0)) then
      ({ s with head := { s.head with recOff := 0, recLost := 0, recHw := none, recFull := false } }).setRecWrite
    else s
  | 0x07 => if u < 8 && inRange 0x100 32 i && bitsOf v.toNat 16 2 != bitsOf old.toNat 16 2 then s.forceSensor u (i - 0x100) else s
  | 0x0D =>
    match timeUnit u with
    | some .main =>
      if i = 0 then (s.refreshDomain 0).refreshDomain 1
      else if i = 1 then s.switchWritten v else s
    | some (.domain d) => if i = 0 then (s.domainWritten d old.toNat v.toNat).refreshDomain d else if i = 8 && bitOf v.toNat 0 then s.relock d else s
    | _ => s
  | 0x0E =>
    if i = 0x0A then { s with pos := { s.pos with setLo := v.toNat } }
    else if i = 0x0B then s.loadCount (s.pos.setLo + bitsOf v.toNat 0 16 * 2 ^ 32)
    else s
  | 0x0F => s.auxWritten u i old v
  | 0x10 => s.queueWritten u i old v
  | 0x11 => s.cvWritten u i v
  | 0x12 => if u < 4 && i = 0 then s.portEnWritten u else if u = 0x10 && i = 2 then s.acceptWritten v else s
  | 0x13 => if i = 0 && !bitOf v.toNat 0 then s.setFld (pid 0x13 u 1) 0 2 0 else s
  | 0x15 => monitorWritten s u i
  | _ => s

/-- A word written that nothing refuses; it is good again where it was in error. -/
def State.putWord (s : State) (id : Nat) (v : Word) : State :=
  let s := (s.wakeFor id).onFault fun f => { f with badIds := f.badIds.filter (· != id) }
  let old := s.word id
  match lookup id with
  | .word fs => ((if id = timeId 0 then s.reanchor else s).setWord id (mergeWrite fs old v)).written id old v
  | _ => s

/-- A word written, or refused with its status. -/
def State.writeWord (s : State) (id : Nat) (v : Word) : Status × State :=
  match s.refusesWrite id v with
  | some e => (e, s)
  | none => (.ok, s.putWord id v)

/-! ### Commands of one word -/

/-- A single-word access is possible: the command service reads or writes parameters in READY and ARMED (R363, R372).
(log 46, DEDUCED) -/
def State.wordService (s : State) : Bool := s.powered && (s.cmd == .ready || s.cmd == .armed)

/-- Status of a single-word access while the command service is not up. (log 46, DEDUCED) -/
def State.noService (s : State) : Status := if s.cmd == .safe then .wrongState else .busyBooting

/-- A single-word access of an instance of the module; of one that does not exist it is refused with NOT_PRESENT (R6). -/
def onInstance (ok : Bool) (s s' : State) : Host.Outcome State Fault Refusal :=
  .next (if ok then s' else { s with lastStatus := if s.wordService then .notPresent else s.noService })

/-- A single-word write, with its status. -/
def State.wordWrite (s : State) (id : Nat) (v : Word) : State :=
  if !s.wordService then { s with lastStatus := s.noService }
  else
    let (e, s) := s.writeWord id v
    { s with lastStatus := e }

/-- A single-word read, with its value and status. -/
def State.wordRead (s : State) (id : Nat) : State :=
  if !s.wordService then { s with lastStatus := s.noService }
  else
    let (e, w, s) := s.readWord id
    { s with lastWord := w, lastStatus := e }

end Sys2Proof.Machine
end

