-- ==== Sys2Proof/Machine/Host.lean ====
section
/-!
DEFINITION. The host attachment (14_commands.md R347 to R361, R375): the SDIO card and its mailbox, packets taken, forwarded
and received, bulk sessions and the reply queue.
-/

namespace Sys2Proof.Machine

/-! ### Mailbox registers (R348 to R351) -/

/-- The bulk-out session has data to read. -/
def State.bulkReady (s : State) : Bool :=
  s.host.bulkOut.any fun b => decide (b.pos < b.length) && (b.dest == s.addr || !b.data.isEmpty)

/-- MBX_STATUS. -/
def State.mbxStatus (s : State) : Nat :=
  bit s.host.sdio.busy + bit (!s.host.replies.isEmpty) * 2 + s.host.sdio.errors % 8 * 4 + bit s.bulkReady * 32 +
    bit s.mgmt.fault.faultN * 64 + s.cmd.code * 128

/-- CCCR interrupt enables of F1 and the master, and an enabled MBX_STATUS bit: DAT1 is asserted (R351). -/
def State.interrupt (s : State) : Bool :=
  let ien := (Sparse.get (fun _ => (0 : Byte)) s.host.sdio.f0 4).toNat
  bitOf ien 0 && bitOf ien 1 && (s.mbxStatus &&& s.host.sdio.intEn) != 0

/-- An error bit of MBX_STATUS set: 0 IN_OVERRUN, 1 HDR_ERR, 2 BULK_ERR. -/
def State.mbxError (s : State) (i : Nat) : State := s.onSdio fun d => { d with errors := d.errors ||| 2 ^ i }

/-- SDIO counter words. -/
def sdioId (i : Nat) : Nat := pid 0x18 0 i

/-- A discarded write to INBOX or IN_DOORBELL (R349). -/
def State.overrun (s : State) : State := (s.mbxError 0).bump (sdioId 0x102)

/-- IN_DOORBELL written (R349). (log 45, DEDUCED) -/
def State.ringBell (s : State) (n : Nat) : State :=
  if s.host.sdio.busy then s.overrun else s.onSdio fun d => { d with busy := true, doorbell := n }

/-- OUT_ACK released the outbox: the next reply follows, and one that waits takes the room made (R350, R375). -/
def State.outAck (s : State) : State :=
  match s.host.replies with
  | [] => s
  | b :: rest =>
    let reset := s.host.resetReply.any fun r => r == b && !r.isEmpty
    let s := s.onHost fun h => { h with
      replies := rest ++ (h.stalled.take 1).map (·.2), stalled := h.stalled.drop 1,
      resetReply := if reset then some [] else h.resetReply,
      resetAt := if reset then (s.loc + 2 ^ 64 - 10000000) % 2 ^ 64 else h.resetAt }
    s.outboxHead

/-- One byte of F1 read. (log 45, DEDUCED) -/
def State.f1Read (s : State) (a : Nat) : Byte :=
  let out := s.host.replies.headD []
  if inRange 0x1000 0x1000 a then out.getD (a - 0x1000) 0
  else if inRange 0x2004 2 a then BitVec.ofNat 8 (out.length / 256 ^ (a - 0x2004))
  else if inRange 0x200C 2 a then BitVec.ofNat 8 (s.mbxStatus / 256 ^ (a - 0x200C))
  else if inRange 0x2010 2 a then BitVec.ofNat 8 (s.host.sdio.intEn / 256 ^ (a - 0x2010))
  else 0

/-- One byte of F1 written; true when it is discarded because the inbox is busy. IN_DOORBELL takes effect with its higher
byte. (log 45, DEDUCED) -/
def State.f1Write (s : State) (a : Nat) (b : Byte) : Bool × State :=
  if a < 0x1000 then
    if s.host.sdio.busy then (true, s)
    else (false, s.onSdio fun d => { d with inbox := Sparse.set (fun _ => 0) d.inbox a b })
  else if a = 0x2000 then if s.host.sdio.busy then (true, s) else (false, s.onSdio fun d => { d with bellLo := b.toNat })
  else if a = 0x2001 then
    if s.host.sdio.busy then (true, s) else (false, s.ringBell (s.host.sdio.bellLo + b.toNat * 256))
  else if a = 0x2008 then (false, if bitOf b.toNat 0 then s.outAck else s)
  else if a = 0x200C then (false, s.onSdio fun d => { d with errors := d.errors &&& (7 - (b.toNat / 4 % 8 &&& d.errors)) })
  else if inRange 0x2010 2 a then
    (false, s.onSdio fun d => { d with intEn := withBits d.intEn (8 * (a - 0x2010)) 8 b.toNat })
  else (false, s)

/-- Bytes of F0 that software writes: I/O enable, interrupt enable, abort, bus interface, power, speed, driver strength and
interrupt extension (PRESUMED from SDIO 3.0, assumption 44). (log 44, PRESUMED) -/
def f0Writable : List Nat := [2, 4, 6, 7, 0x12, 0x13, 0x15, 0x16]

/-- Where the CIS of a function begins, and its bytes: the common one carries TPLMID_CARD 0x9128, the others one function tuple
each (R348; places and tuple codes PRESUMED from SDIO 3.0). (log 44, PRESUMED) -/
def cisBase (function : Nat) : Nat := 0x1000 + 0x100 * function
def cisBytes (function : Nat) : List Byte :=
  (if function = 0 then [0x20, 4] ++ leBytes 2 Config.sdioMaker ++ leBytes 2 0x9128 else [0x21, 2, 0x0C, 0]) ++ [0xFF]

/-- Bytes of F0 that are fixed by R347 and R348: no read wait and no suspend, block transfers, SDR50 and SDR104 but not DDR50,
the CIS pointers of the card and its two functions, and the block size 512 of F1 and F2. (log 44, PRESUMED) -/
def f0Fixed (a : Nat) : Option Byte :=
  let cis := fun (at_ fn : Nat) => BitVec.ofNat 8 (cisBase fn / 256 ^ (a - at_))
  if a = 8 then some 2
  else if a = 0x14 then some 3
  else if inRange 9 3 a then some (cis 9 0)
  else if inRange 0x109 3 a then some (cis 0x109 1)
  else if inRange 0x209 3 a then some (cis 0x209 2)
  else if a = 0x110 || a = 0x210 then some 0
  else if a = 0x111 || a = 0x211 then some 2
  else (upTo 3).findSome? fun fn => if inRange (cisBase fn) 256 a then (cisBytes fn)[a - cisBase fn]? else none

/-- One byte of F0 read (R348). (log 44, PRESUMED) -/
def State.f0Read (s : State) (a : Nat) : Byte :=
  if f0Writable.contains a then Sparse.get (fun _ => 0) s.host.sdio.f0 a
  else if a = 5 then BitVec.ofNat 8 (2 * bit ((s.mbxStatus &&& s.host.sdio.intEn) != 0))
  else if a = 3 then Sparse.get (fun _ => 0) s.host.sdio.f0 2
  else (f0Fixed a).getD (Config.sdioF0 a)

/-- A bus width or bus mode that the card does not support is not taken: 1 and 4 bits, SDR12 to SDR104 (R347).
(log 44, PRESUMED) -/
def busRefuses (a : Nat) (b : Byte) : Bool :=
  (a = 7 && bitsOf b.toNat 0 2 != 0 && bitsOf b.toNat 0 2 != 2) || (a = 0x13 && decide (3 < bitsOf b.toNat 1 3))

/-- One byte of F0 written; a block size other than 512 is ignored (R348), and RES resets the card's bus state.
(log 44, PRESUMED) -/
def State.f0Write (s : State) (a : Nat) (b : Byte) : State :=
  if a = 6 && bitOf b.toNat 3 then s.onSdio fun d => { d with f0 := [], selected := false, rca := 0 }
  else if f0Writable.contains a && !busRefuses a b then s.onSdio fun d => { d with f0 := Sparse.set (fun _ => 0) d.f0 a b }
  else s

/-! ### Bulk sessions (R352, R361) -/

/-- Base of the image staging area (R28). (log 2, DESIGN CHOICE) -/
def stagingBase : Nat := 1024 * 1048576

/-- A refused F2 access (R352). (log 45, DEDUCED) -/
def State.bulkError (s : State) : State := (s.mbxError 2).bump (sdioId 0x105)

/-- The last byte of a staged image has arrived. -/
def State.arrivedAll (s : State) : State :=
  s.onModel fun m => { m with staged := m.staged.map fun x => { x with arrived := true } }

/-- The message body that carries a part of a session (R361). -/
def bulkBody (tag off : Nat) (data : List Byte) : List Byte :=
  leBytes 2 tag ++ leBytes 2 0 ++ leBytes 8 off ++ leBytes 4 data.length ++ data

/-- A block of a bulk-in session (R352, R361). -/
def State.bulkWrite (s : State) (data : List Byte) : State :=
  match s.host.bulkIn with
  | none => s.bulkError
  | some b =>
    let part := (padTo 512 data).take (b.length - b.got)
    let b' := { b with got := b.got + part.length }
    let s' := s.onHost fun h => { h with bulkIn := if b'.got < b'.length then some b' else none }
    if b.dest = s.addr then
      let s' := s'.writeBytes (stagingBase + b.got) part
      if b'.got < b'.length then s' else s'.arrivedAll
    else match s'.sendTo b.dest 3 3 0 (bulkBody b.tag b.got part) with
      | some s => s
      | none => (s.onHost fun h => { h with bulkIn := none }).bulkError

/-- Of the next `n` bytes of a bulk-out session with another module some have not arrived: the read waits (R352, R361).
(log 45, DEDUCED) -/
def State.bulkWaits (s : State) (n : Nat) : Bool :=
  s.host.bulkOut.any fun b => b.dest != s.addr && decide (b.data.length < min n (b.length - b.pos))

/-- VC3 has no credit toward the module of the bulk-in session: DAT0 is held busy, and no block is taken (R352, R361).
(log 45, DEDUCED) -/
def State.bulkHeld (s : State) : Bool :=
  s.host.bulkIn.any fun b => b.dest != s.addr && (s.route b.dest).any fun q => !(s.spk q).hasCredit 3

/-- A block of a bulk-out session read (R352). -/
def State.bulkRead (s : State) : State :=
  let zero := fun (s : State) => (s.onSdio fun d => { d with readData := List.replicate 512 0 }).bulkError
  match s.host.bulkOut with
  | none => zero s
  | some b =>
    let n := min 512 (b.length - b.pos)
    let own := decide (b.dest = s.addr)
    if !own && b.data.length < n then zero (s.onHost fun h => { h with bulkOut := none })
    else
      let bytes := if own then s.readBytes (dumpBase + b.offset + b.pos) n else b.data.take n
      let b' := { b with pos := b.pos + n, data := b.data.drop n }
      (s.onHost fun h => { h with bulkOut := if b'.pos < b'.length then some b' else none }).onSdio fun d =>
        { d with readData := padTo 512 bytes }

/-- Data of a bulk-in session that module `a` opened here, written from `off` on (R361). (log 45, DEDUCED) -/
def State.remoteWrite (s : State) (a : Nat) (b : BulkIn) (off : Nat) (data : List Byte) : State :=
  let part := data.take (b.length - off)
  let b' := { b with got := b.got + part.length }
  let s := (s.writeBytes (stagingBase + off) part).onHost fun h =>
    { h with remoteIn := if b'.got < b'.length then some (a, b') else none }
  if b'.got < b'.length then s else s.arrivedAll

/-- Data of a bulk-out session with module `src`; before the reply that opens it, it waits with the command (R361).
(log 45, DEDUCED) -/
def State.bulkData (s : State) (src tag : Nat) (data : List Byte) : State :=
  s.onHost fun h =>
    if h.bulkOut.any fun b => b.dest == src && b.tag == tag then
      { h with bulkOut := h.bulkOut.map fun b => { b with data := b.data ++ data } }
    else { h with forwarded := h.forwarded.map fun f =>
      if f.opcode == 0x0703 && f.dest == src && f.tag == tag then { f with early := f.early ++ data } else f }

/-- A part of a session received on VC3: bulk-in data of a session opened from another module, or data of a bulk-out session
with one. -/
def State.bulkMessage (s : State) (src : Nat) (m : List Byte) : State :=
  let tag := leAt m 0 2
  let data := (m.drop 16).take (leAt m 12 4)
  match s.host.remoteIn.filter fun x => x.1 == src && x.2.tag == tag with
  | some (a, b) => s.remoteWrite a b (leAt m 4 8) data
  | none => s.bulkData src tag data

/-! ### Packets (R355, R359, R360) -/

/-- A packet this module executes: checks 6 to 11, and its place in the line (R355, R357). -/
def State.acceptPacket (s : State) (k : Packet) (src : Nat) : State :=
  let r : Req := ⟨BitVec.ofNat 12 k.tag, BitVec.ofNat 8 src, k.bcast, k.payload⟩
  match s.serviceRefuses k.opcode k.tag k.bcast with
  | some e => (s.countRefused k.opcode).refusePacket k.opcode k.tag src e
  | none => s.onHost fun h => { h with accepted := h.accepted ++ [⟨k.opcode, r, s.loc⟩] }

/-- A forwarded packet's reply is waited for (R359). -/
def State.awaitReply (s : State) (dest : Nat) (k : Packet) : State :=
  s.onHost fun h => { h with forwarded := h.forwarded ++ [⟨dest, k.tag, k.opcode, k.payload, s.loc, []⟩] }

/-- A bulk session opened for another module while one of that direction is open (R371). -/
def State.sessionHeld (s : State) (k : Packet) : Bool :=
  let waits := fun op => s.host.forwarded.any fun f => f.opcode == op
  (k.opcode == 0x0200 && (s.host.bulkIn.isSome || waits 0x0200)) || (k.opcode == 0x0703 && (s.host.bulkOut.isSome || waits 0x0703))

/-- A packet of the own host for module `k.dest` (R343, R359, R371). -/
def State.forwardPacket (s : State) (k : Packet) (b : List Byte) : State :=
  let no := fun (s : State) (e : Status) => s.refusePacket k.opcode k.tag s.addr e
  if s.chain.isNone then no s .notPresent
  else if (s.chainNode k.dest).any (fun n => n.state == 3) && k.opcode / 256 != 0 && k.opcode / 256 != 8 then no s .wrongState
  else if s.sessionHeld k then no s .resourceHeld
  else match s.sendTo k.dest 0 3 0 b with
    | some s => s.awaitReply k.dest k
    | none => no (s.bumpIf (s.route k.dest).isNone (chainId 0x100)) .notPresent

/-- The checks of R355 on a packet: `own` when the own host sent it, else the module `src` it came from. -/
def State.takePacket (s : State) (own : Bool) (src : Nat) (len : Nat) (b : List Byte) : State :=
  if !headerGood b then
    (s.bump (sdioId 0x100)).mbxError 1
  else
    let k := parsePacket b
    let no := fun (s : State) (e : Status) => s.refusePacket k.opcode k.tag src e
    let b := b.take (20 + k.length)
    if len != 20 + k.length || 4076 < k.length then no s .badLength
    else if !trailerGood b k.length then no (s.bump (sdioId 0x101)) .badCrc
    else if k.version != s.packetVersion || k.reply || k.status != 0 || !k.reserved then no s .badParam
    else if s.cmd == .restart || s.mgmt.fault.fatal.isSome then no s .busyBooting
    else if !k.bcast && k.dest != s.addr then
      if own then s.forwardPacket k b
      else match s.sendTo k.dest 0 3 0 b with
        | some s => s
        | none => no (s.bumpIf (s.route k.dest).isNone (chainId 0x100)) .notPresent
    else
      let s := if own && k.bcast && s.chain.isSome then
        let s := s.sendBcast b
        forEach (s.nodesList.filter fun e => e.1 != s.addr && e.2.state == 1) (fun s e => s.awaitReply e.1 k) s
      else s
      s.acceptPacket k src

/-- A reply that another module sent: it enters the reply queue, unless it is too late (R359); it opens or closes the own side
of a bulk session with that module (R361). (log 45, DEDUCED) -/
def State.takeReply (s : State) (b : List Byte) : State :=
  let k := parsePacket b
  match s.host.forwarded.find? fun f => f.dest == k.src && f.tag == k.tag with
  | none => s.bump (sdioId 0x104)
  | some f =>
    let s := s.onHost fun h => { h with forwarded := h.forwarded.erase f }
    let s := if k.status != 0 then s
      else match f.opcode with
        | 0x0200 => s.onHost fun h => { h with bulkIn := some ⟨f.tag, f.dest, leAt f.payload 0 1, leAt f.payload 4 8, 0⟩ }
        | 0x0703 => s.onHost fun h => { h with bulkOut := some ⟨f.tag, f.dest, leAt f.payload 0 8, leAt f.payload 8 4, 0, f.early⟩ }
        | 0x0204 => s.onHost fun h => { h with
            bulkIn := h.bulkIn.filter fun x => x.dest != f.dest, bulkOut := h.bulkOut.filter fun x => x.dest != f.dest }
        | 0x0202 =>
          if leAt f.payload 0 4 = 0 then s.onHost fun h => { h with bulkIn := h.bulkIn.filter fun x => x.dest != f.dest || x.kind != 0 }
          else s
        | _ => s
    s.pushReply noTag b

/-! ### Commands of the card (R347, R348) -/

/-- The card answers: it has power, and its start-up has reached the step named (R373). (log 44, PRESUMED) -/
def State.cardReady (s : State) (ns : Nat) : Bool := s.powered && (s.cmd != .boot || decide (ns ≤ s.loc))

/-- SDIO_CMD0: an I/O-only card keeps its state (R347; PRESUMED from SDIO 3.0). (log 44, PRESUMED) -/
def execSdioCmd0 (s : State) : Host.Outcome State Fault Refusal :=
  .next (whenDue (s.cardReady 2000000) (fun s => s.onSdio fun d => { d with readError := false }) s)

/-- SDIO_CMD3: the card publishes a relative card address. -/
def execSdioCmd3 (s : State) : Host.Outcome State Fault Refusal :=
  .next (whenDue (s.cardReady 2000000) (fun s =>
    let (k, s) := s.takeFree
    s.onSdio fun d => { d with rca := Config.cardAddress k % 65536, readError := false }) s)

/-- SDIO_CMD5: answered with card ready from 2 ms on, two functions and S18A = 1 (R347, R348, R373). -/
def execSdioCmd5 (arg : Word) (s : State) : Host.Outcome State Fault Refusal :=
  .next (whenDue (s.cardReady 2000000) (fun s => s.onSdio fun d =>
    { d with readError := false,
             readData := leBytes 4 (2 ^ 31 + 2 * 2 ^ 28 + 2 ^ 24 + (if arg = 0 then Config.sdioOcr % 2 ^ 24 else Config.sdioOcr &&& arg.toNat % 2 ^ 24)) }) s)

/-- SDIO_CMD7: the card whose address it names is selected, every other is not (R339, R347). -/
def execSdioCmd7 (rca : BitVec 16) (s : State) : Host.Outcome State Fault Refusal :=
  .next (whenDue (s.cardReady 2000000) (fun s => s.onSdio fun d =>
    { d with selected := rca.toNat == d.rca && d.rca != 0, readError := false }) s)

/-- SDIO_CMD11: accepted with no change of level (R347). -/
def execSdioCmd11 (s : State) : Host.Outcome State Fault Refusal :=
  .next (whenDue (s.cardReady 2000000) (fun s => s.onSdio fun d => { d with switched := true, readError := false }) s)

/-- SDIO_CMD19: the tuning block (R347). -/
def execSdioCmd19 (s : State) : Host.Outcome State Fault Refusal :=
  .next (whenDue (s.cardReady 2000000 && s.hostAttached)
    (fun s => s.onSdio fun d => { d with tuned := true, readData := Config.tuningBlock, readError := false }) s)

/-- SDIO_ILLEGAL_COMMAND: any command R347 does not list. -/
def execSdioIllegalCommand (index : Nat) (s : State) : Host.Outcome State Fault Refusal :=
  .next (whenDue (s.cardReady 2000000 && !([0, 3, 5, 7, 11, 19, 52, 53].contains index))
    (fun s => s.onSdio fun d => { d with illegal := some index, readError := true }) s)

/-- An access to F0, F1 or F2 that the card cannot make. -/
def State.accessError (s : State) : State := s.onSdio fun d => { d with readError := true }

/-- Bytes written to F0 or F1, one after the other; a write that finds the inbox busy counts once (R349). -/
def State.writeFn (s : State) (function : Nat) (ws : List (Nat × Byte)) : State :=
  if function = 0 then forEach ws (fun s w => s.f0Write w.1 w.2) s
  else
    let (full, s) := ws.foldl (fun (a : Bool × State) w =>
      let (o, s) := a.2.f1Write w.1 w.2
      (a.1 || o, s)) (false, s)
    if full then s.overrun else s

/-- Bytes read from F0 or F1. -/
def State.readFn (s : State) (function : Nat) (as : List Nat) : List Byte :=
  as.map fun a => if function = 0 then s.f0Read a else s.f1Read a

/-- F1 and F2 answer from 5 ms after power-good on (R373). -/
def State.fnReady (s : State) (function : Nat) : Bool :=
  s.hostAttached && (if function = 0 then s.cardReady 2000000 else s.cardReady 5000000)

/-- SDIO_CMD52: one byte of F0 or F1; with `raw` a write answers the byte read back (R347, R348). -/
def execSdioCmd52 (write raw : Bool) (function address : Nat) (data : Byte) (s : State) : Host.Outcome State Fault Refusal :=
  .next
    (whenDue (s.fnReady function) (fun s =>
      if 1 < function then s.accessError
      else
        let s := s.onSdio fun d => { d with readError := false }
        let s := if write then s.writeFn function [(address, data)] else s
        if write && !raw then s.onSdio fun d => { d with readData := [data] }
        else s.onSdio fun d => { d with readData := s.readFn function [address] }) s)

/-- SDIO_CMD53: bytes or blocks of a function; F2 is its data port in block mode with fixed address (R347, R352). -/
def execSdioCmd53 (write blockMode increment : Bool) (function address count : Nat) (data : List Byte) (s : State) :
    Host.Outcome State Fault Refusal :=
  .next
    (whenDue (s.fnReady function) (fun s =>
      let n := if blockMode then 512 * count else count
      let ok := if blockMode then decide (1 ≤ count) && decide (count ≤ 511) && function != 0 else decide (1 ≤ count) && decide (count ≤ 512)
      if !ok || 2 < function then s.accessError
      else
        let s := s.onSdio fun d => { d with readError := false }
        if function = 2 then
          if !blockMode || increment || address != 0 then s.accessError.bulkError
          else if if write then s.bulkHeld else s.bulkWaits n then s
          else if write then forEach (chunksOf 512 (padTo n data)) (fun s b => s.bulkWrite b) s
          else
            let (bytes, s) := (upTo count).foldl (fun (a : List Byte × State) _ =>
              let s := a.2.bulkRead
              (a.1 ++ s.host.sdio.readData, s)) ([], s)
            s.onSdio fun d => { d with readData := bytes }
        else
          let as := (upTo n).map fun i => if increment then address + i else address
          if write then s.writeFn function (as.zip (padTo n data))
          else s.onSdio fun d => { d with readData := s.readFn function as }) s)

/-- IN_DOORBELL_WRITE (R349). -/
def execInDoorbellWrite (length : BitVec 16) (s : State) : Host.Outcome State Fault Refusal :=
  .next (whenDue (s.fnReady 1) (fun s => s.ringBell length.toNat) s)

/-- COMMAND_PACKET_ACCEPT: the packet is taken from the inbox and checked (R349, R355). -/
def execCommandPacketAccept (s : State) : Host.Outcome State Fault Refusal :=
  .next (whenDue (s.powered && s.host.sdio.busy) (fun s =>
    let n := s.host.sdio.doorbell
    let b := (upTo 4096).map fun i => Sparse.get (fun _ => 0) s.host.sdio.inbox i
    (s.onSdio fun d => { d with busy := false }).takePacket true s.addr n b) s)

/-- OUT_ACK_WRITE (R350). -/
def execOutAckWrite (value : Byte) (s : State) : Host.Outcome State Fault Refusal :=
  .next (whenDue (s.fnReady 1 && bitOf value.toNat 0) (fun s => s.outAck) s)

/-- BULK_BLOCK_WRITE (R352). -/
def execBulkBlockWrite (data : List Byte) (s : State) : Host.Outcome State Fault Refusal :=
  .next (whenDue (s.fnReady 2 && !s.bulkHeld) (fun s => s.bulkWrite data) s)

/-- BULK_BLOCK_READ (R352). -/
def execBulkBlockRead (s : State) : Host.Outcome State Fault Refusal := .next (whenDue (s.fnReady 2 && !s.bulkWaits 512) (fun s => s.bulkRead) s)

/-- BULK_IN_COMPLETE: the last byte of the staged image has been written into the staging area (R352). -/
def execBulkInComplete (s : State) : Host.Outcome State Fault Refusal :=
  .next (whenDue (s.powered && s.mgmt.model.staged.any fun x => x.arrived && !x.complete)
    (fun s => s.onModel fun m => { m with staged := m.staged.map fun x => { x with complete := true } }) s)

/-- FWD_TIMEOUT: no reply to a forwarded command within the limit of R359. -/
def execFwdTimeout (dest : Byte) (tag : BitVec 12) (s : State) : Host.Outcome State Fault Refusal :=
  .next (match s.host.forwarded.find? fun f => f.dest == dest.toNat && f.tag == tag.toNat with
    | none => s
    | some f =>
      let limit := s.fld (sdioId 0) 0 16 * 1000000 + (if isLong f.opcode then 30000000000 else 0)
      whenDue (s.powered && decide (limit ≤ locDiff s.loc f.start)) (fun s =>
        let s := (s.onHost fun h => { h with forwarded := h.forwarded.erase f }).bump (sdioId 0x103)
        s.pushReply noTag (s.replyBytes f.opcode f.tag s.addr .timeout [])) s)

/-- A COMMAND_FWD message taken by this module: a command, a reply, or a part of a bulk session (R359, R361, R376). -/
def State.takeFwd (s : State) (m : Message) : State :=
  if m.vc = 3 then s.bulkMessage m.src m.body
  else
    let k := parsePacket m.body
    if headerGood m.body && k.reply then s.takeReply m.body
    else s.takePacket false (if headerGood m.body then k.src else m.src) m.body.length m.body

/-- A command packet that finds no route is answered NOT_PRESENT by this module (R340). -/
def State.unroutable (s : State) (p : Nat) (f : SpokeFlit) : Bool :=
  decide (p < 4) && s.spkUp p && f.mtype == 3 && f.vc == 0 && !f.bcast && f.check == flitCheck (s.spk p).rxEpoch f &&
    f.seq.toNat == (s.spk p).seqRx && s.chain.isSome && ((s.spk p).flow.getD 0 none).isNone && s.flowOf p f == .discard && headerGood (f.payload.drop 4)

/-- COMMAND_FWD (R340, R359 to R361). -/
def execCommandFwd (port : Nat) (flit : SpokeFlit) (s : State) : Host.Outcome State Fault Refusal :=
  let lost := s.unroutable port flit
  match flitRow port flit (flit.mtype == 3) (fun m s => s.takeFwd m) s with
  | .next s =>
    let k := parsePacket (flit.payload.drop 4)
    .next (if lost && !k.reply then s.refusePacket k.opcode k.tag k.src .notPresent else s)
  | o => o

end Sys2Proof.Machine
end

