-- ==== Sys2Proof/Machine/Commands.lean ====
section
/-!
DEFINITION. Commands of the host that need no other chapter's machinery: information, parameters, images and dumps in bulk,
claims, queues, counters, camera buses, the chain and the test reads (14_commands.md R363 to R371; 12_queues_checkvalues.md
R306 to R311, R486).
-/

namespace Sys2Proof.Machine

/-- A reply with a payload. -/
def replyWith (st : Status) (p : List Byte) (s : State) : Option (Status × List Byte) × State := (some (st, p), s)

/-! ### Information (R363, R370, R385) -/

/-- Running Miller firmware's version; 0 in SAFE. -/
def State.fwVersion (s : State) : Nat :=
  let c := s.mgmt.sec
  if s.cmd == .safe then 0 else ((if c.running = 0 then c.copyA else c.copyB).map fun f => Config.fwVersion f.digest).getD 0

/-- SERIAL: the factory record's, or twelve ASCII zeros when its CRC fails (R370, R479). (log 66, DEDUCED) -/
def serialBytes : List Byte := if Config.factoryOk then padTo 12 Config.serial else List.replicate 12 0x30

/-- The info record of R370. -/
def State.infoRecord (s : State) : List Byte :=
  leBytes 2 0x9128 ++ leBytes 1 Config.hwLevel ++ leBytes 1 s.cmd.code ++ leBytes 4 (s.word (pid 1 0 0x100)).toNat ++
    leBytes 4 s.fwVersion ++ leBytes 4 Config.romVersion ++ leBytes 1 s.mgmt.sec.lc ++ leBytes 1 s.addr ++
    leBytes 1 (bit s.chain.isSome + 2 * bit s.compat + 4 * bit s.hostAttached) ++ leBytes 1 0 ++ serialBytes

/-- GET_INFO. -/
def execGetInfo (req : Req) (s : State) : Host.Outcome State Fault Refusal :=
  .next (s.commandRow 0x0000 req (withLength 0 fun _ s => replyWith .ok s.infoRecord s))

/-- The capability descriptor of R385. -/
def State.capsRecord (s : State) : List Byte :=
  let inService := ((upTo 8).filter fun r => s.region r != 2).length
  leBytes 2 1 ++ leBytes 2 4 ++ leBytes 1 8 ++ leBytes 1 inService ++ leBytes 1 16 ++ leBytes 1 16 ++ leBytes 1 32 ++
    leBytes 1 0 ++ leBytes 2 128 ++ leBytes 4 32768 ++ leBytes 4 16384 ++ leBytes 2 128 ++ leBytes 2 64 ++ leBytes 1 7 ++
    leBytes 1 0x3F ++ leBytes 2 4096 ++ leBytes 2 1024 ++ leBytes 2 2048 ++ leBytes 1 6 ++ leBytes 1 4 ++ leBytes 2 432 ++
    leBytes 4 3072 ++ leBytes 4 12288 ++ leBytes 1 64 ++ leBytes 1 0x11 ++ leBytes 2 1800 ++ leBytes 2 128 ++ leBytes 1 32 ++
    leBytes 1 0 ++ leBytes 4 (if s.compat then 200 else 100) ++ leBytes 8 0

/-- GET_CAPS. -/
def execGetCaps (req : Req) (s : State) : Host.Outcome State Fault Refusal :=
  .next (s.commandRow 0x0001 req (withLength 0 fun _ s => replyWith .ok s.capsRecord s))

/-- ECHO. -/
def execEcho (req : Req) (s : State) : Host.Outcome State Fault Refusal :=
  .next (s.commandRow 0x0002 req fun r s => replyWith .ok r.payload s)

/-- GET_STATE: command state, armed, tags in flight with its own. -/
def execGetState (req : Req) (s : State) : Host.Outcome State Fault Refusal :=
  .next (s.commandRow 0x0003 req (withLength 0 fun _ s =>
    replyWith .ok (leBytes 4 (s.cmd.code + 8 * bit s.armed + 65536 * s.tags.length)) s))

/-! ### Parameters (R364, R365) -/

/-- The first word of a list that a check refuses, with its place. (log 47, DEDUCED) -/
def firstRefused {α : Type} (check : α → Option Status) : Nat → List α → Option (Status × Nat)
  | _, [] => none
  | n, x :: xs => match check x with
    | some e => some (e, n)
    | none => firstRefused check (n + 1) xs

/-- Words read in order. -/
def State.readWords (s : State) : List Nat → List Byte × State
  | [] => ([], s)
  | id :: ids =>
    let (_, w, s) := s.readWord id
    let (bs, s) := s.readWords ids
    (leBytes 4 w.toNat ++ bs, s)

/-- Every word checked, then read. -/
def State.readList (s : State) (ids : List Nat) : Option (Status × List Byte) × State :=
  match firstRefused s.readRefuses 0 ids with
  | some (e, n) => replyWith e (leBytes 2 n) s
  | none =>
    let (bs, s) := s.readWords ids
    replyWith .ok bs s

/-- Words written in order, or the first one that its owner refuses, with its place; `fin` holds them all.
(log 47, DEDUCED) -/
def State.writeWords (fin s : State) (n : Nat) : List (Nat × Word) → Except (Status × Nat) State
  | [] => .ok s
  | (id, v) :: ws => match s.ownerRefuses fin id v with
    | some e => .error (e, n)
    | none => fin.writeWords (s.putWord id v) (n + 1) ws

/-- Every word checked, then written; a refusal leaves nothing written. (log 47, DEDUCED) -/
def State.writeList (s : State) (ws : List (Nat × Word)) : Option (Status × List Byte) × State :=
  match firstRefused (fun w => s.writeRefuses w.1 w.2) 0 ws with
  | some (e, n) => replyWith e (leBytes 2 n) s
  | none => match (forEach ws (fun t w => t.setWord w.1 w.2) s).writeWords s 0 ws with
    | .error (e, n) => replyWith e (leBytes 2 n) s
    | .ok s => reply .ok s

/-- A range of words of one instance (R364). -/
def idRange (id n : Nat) : List Nat := (upTo n).map (id + ·)

/-- The header of a range command is refused: COUNT, the reserved bytes, or a range that passes index 0xFFFF.
(log 46, DEDUCED) -/
def rangeBad (p : List Byte) (limit : Nat) : Bool :=
  let n := leAt p 4 2
  n == 0 || decide (limit < n) || leAt p 6 2 != 0 || decide (0x10000 < leAt p 0 2 + n)

/-- PARAM_READ. -/
def execParamRead (req : Req) (s : State) : Host.Outcome State Fault Refusal :=
  .next (s.commandRow 0x0100 req (withLength 8 fun r s =>
    let p := r.payload
    if rangeBad p 1019 then reply .badParam s else s.readList (idRange (leAt p 0 4) (leAt p 4 2))))

/-- PARAM_WRITE's own work. (log 47, DEDUCED) -/
def paramWriteBody : Body := fun r s =>
  let p := r.payload
  let n := leAt p 4 2
  if p.length < 8 || p.length != 8 + 4 * n then reply .badLength s
  else if rangeBad p 1017 then reply .badParam s
  else s.writeList ((upTo n).map fun i => (leAt p 0 4 + i, BitVec.ofNat 32 (leAt p (8 + 4 * i) 4)))

/-- PARAM_WRITE. -/
def execParamWrite (req : Req) (s : State) : Host.Outcome State Fault Refusal :=
  .next (s.commandRow 0x0101 req paramWriteBody)

/-- A list command's length and header (R364). (log 46, DEDUCED) -/
def listChecks (size limit : Nat) (go : Nat → Body) : Body := fun r s =>
  let p := r.payload
  let n := leAt p 0 2
  if p.length < 4 || p.length != 4 + size * n then reply .badLength s
  else if n == 0 || decide (limit < n) || leAt p 2 2 != 0 then reply .badParam s
  else go n r s

/-- PARAM_READ_LIST. -/
def execParamReadList (req : Req) (s : State) : Host.Outcome State Fault Refusal :=
  .next (s.commandRow 0x0102 req (listChecks 4 1018 fun n r s =>
    s.readList ((upTo n).map fun i => leAt r.payload (4 + 4 * i) 4)))

/-- PARAM_WRITE_LIST. -/
def execParamWriteList (req : Req) (s : State) : Host.Outcome State Fault Refusal :=
  .next (s.commandRow 0x0103 req (listChecks 8 509 fun n r s =>
    s.writeList ((upTo n).map fun i => (leAt r.payload (4 + 8 * i) 4, BitVec.ofNat 32 (leAt r.payload (8 + 8 * i) 4)))))

/-! ### Bulk sessions (R352, R371) -/

/-- IMAGE_BEGIN's own work. -/
def imageBeginBody : Body := withLength 12 fun r s =>
  let p := r.payload
  let kind := leAt p 0 1
  let n := leAt p 4 8
  if 2 ≤ kind || leAt p 1 3 != 0 || n == 0 || decide (2 ^ 32 < n) then reply .badParam s
  else if s.swapping || s.host.bulkIn.isSome || s.host.remoteIn.isSome then reply .resourceHeld s
  else
    let b : BulkIn := ⟨r.tag.toNat, s.addr, kind, n, 0⟩
    let s := s.onModel fun m => { m with staged := some ⟨kind, n, false, false⟩ }
    reply .ok (s.onHost fun h =>
      if r.src.toNat = s.addr then { h with bulkIn := some b } else { h with remoteIn := some (r.src.toNat, b) })

/-- IMAGE_BEGIN. -/
def execImageBegin (req : Req) (s : State) : Host.Outcome State Fault Refusal := .next (s.commandRow 0x0200 req imageBeginBody)

/-- Both sessions closed; the bytes not yet transferred are lost, and with them an image that had not arrived whole.
(log 55, DEDUCED) -/
def State.bulkAbort (s : State) : State :=
  (s.onHost fun h => { h with bulkIn := none, bulkOut := none, remoteIn := none, remoteOut := none }).onModel fun m =>
    { m with staged := m.staged.filter (·.arrived) }

/-- BULK_ABORT. -/
def execBulkAbort (req : Req) (s : State) : Host.Outcome State Fault Refusal :=
  .next (s.commandRow 0x0204 req (withLength 0 fun _ s => reply .ok s.bulkAbort))

/-- Data of a bulk-out session sent to another module, in messages of at most 4,096 bytes (R361). -/
def State.sendDump (s : State) (dest tag off : Nat) (bs : List Byte) : State :=
  ((chunksOf 4096 bs).foldl (fun (a : State × Nat) c =>
    ((a.1.sendTo dest 3 3 0 (bulkBody tag a.2 c)).getD a.1, a.2 + c.length)) (s, off)).1

/-- A bulk-out session that another module opened here still has data to send on VC3 (R361, R371). (log 45, DEDUCED) -/
def State.dumping (s : State) : Bool :=
  s.host.remoteOut.any fun a => (upTo 4).any fun p => (s.spk p).waiting.any fun w =>
    w.req == 4 && w.flit.vc == 3 && w.flit.dest.toNat == a

/-- DUMP_READ's own work (R371). (log 74, DESIGN CHOICE) -/
def dumpReadBody : Body := withLength 12 fun r s =>
  let off := leAt r.payload 0 8
  let n := leAt r.payload 8 4
  if n == 0 || decide (256 * 1048576 < off + n) then reply .badParam s
  else if s.dumping || (s.host.bulkOut.any fun b => r.src.toNat == s.addr || b.dest == s.addr) then reply .resourceHeld s
  else if r.src.toNat = s.addr then
    reply .ok (s.onHost fun h => { h with bulkOut := some ⟨r.tag.toNat, s.addr, off, n, 0, []⟩ })
  else
    let t := s.sendDump r.src.toNat r.tag.toNat 0 (s.readBytes (dumpBase + off) n)
    reply .ok (t.onHost fun h => { h with remoteOut := some r.src.toNat })

/-- DUMP_READ. -/
def execDumpRead (req : Req) (s : State) : Host.Outcome State Fault Refusal := .next (s.commandRow 0x0703 req dumpReadBody)

/-! ### Claims (R308 to R311, R486) -/

/-- Objects of a kind claimed in runs. -/
def runLimit (kind : Nat) : Nat := if kind = 5 then 4096 else if kind = 6 then 12288 else 16

/-- Kind, instance, amount and base lie in range (R309). -/
def claimRange (kind unit amount base : Nat) : Bool :=
  match kind with
  | 1 | 2 => decide (unit < 16) && amount == 1 && base == 0
  | 3 | 4 => decide (unit < 8) && inRange 1 432 amount && base == 0
  | 5 | 6 | 7 => decide (1 ≤ amount) && decide (unit + amount ≤ runLimit kind) && base == 0
  | 8 => decide (unit ≤ 10) && inRange 1 8 amount && base == 0
  | 9 => decide (unit < 16) && inRange 1 64 amount && base == 0
  | 0x0A => unit == 0 && decide (1 ≤ amount) && base % 4096 == 0 && decide (genBase ≤ base) &&
      decide (base + amount * 4096 ≤ genBase + genSize)
  | _ => false

/-- Two runs [a, a + n) and [b, b + m) meet. -/
def meets (a n b m : Nat) : Bool := decide (a < b + m) && decide (b < a + n)

/-- An existing claim holds what a claim asks for. -/
def State.claimHeld (s : State) (kind unit amount base : Nat) : Bool :=
  s.claims.any fun c => c.kind == kind &&
    (match kind with
     | 5 | 6 | 7 => meets unit amount c.unit c.amount
     | 0x0A => meets base (amount * 4096) c.base (c.amount * 4096)
     | _ => c.unit == unit)

/-- Sum of the amounts of the claims that meet a condition. -/
def State.claimSum (s : State) (p : Claim → Bool) : Nat := ((s.claims.filter p).map (·.amount)).sum

/-- The pool lacks the amount (R162, R310, R326). -/
def State.poolLacks (s : State) (kind unit amount : Nat) : Bool :=
  match kind with
  | 3 | 4 => decide (432 < amount + s.claimSum fun c => (c.kind == 3 || c.kind == 4) && c.unit == unit)
  | 8 => decide (24 < amount + s.claimSum fun c => c.kind == 8)
  | 9 => decide (96 < amount + s.claimSum fun c => c.kind == 9 && c.unit / 4 == unit / 4)
  | _ => false

/-- A change of a port's reserved credits retrains a port that is UP (R326). -/
def State.creditsChanged (s : State) (kind unit : Nat) : State :=
  if kind = 9 && s.spkUp (unit / 4) then s.startRetrain (unit / 4) else s

/-- CLAIM's own work (R308, R309, R367). -/
def claimBody : Body := withLength 16 fun r s =>
  let p := r.payload
  let kind := leAt p 0 1
  let unit := leAt p 2 2
  let amount := leAt p 4 4
  let base := leAt p 8 8
  if s.armed then reply .locked s
  else if leAt p 1 1 != 0 || !claimRange kind unit amount base then reply .badParam s
  else if s.claimHeld kind unit amount base then reply .resourceHeld s
  else if s.poolLacks kind unit amount then reply .noResource s
  else match s.freeEntry with
    | none => reply .noResource s
    | some e => replyWith .ok (leBytes 2 e) ((s.setClaim e (some ⟨false, kind, unit, amount, base⟩)).creditsChanged kind unit)

/-- CLAIM. -/
def execClaim (req : Req) (s : State) : Host.Outcome State Fault Refusal := .next (s.commandRow 0x0303 req claimBody)

/-- LPDDR5X ranges named by an enabled recorder, history ring, auxiliary ring or checked range: first byte and length. -/
def State.namedRanges (s : State) : List (Nat × Nat) :=
  (if s.fld (pid 2 0x21 0) 0 2 != 0 then [(s.recBase, s.recBytes)] else []) ++
    ((upTo 8).filterMap fun r =>
      if s.bitAt (pid 8 r 0) 0 then some (s.wide (pid 8 r 1) % 2 ^ 48, s.fld (pid 8 r 3) 0 24 * 4096) else none) ++
    (if s.bitAt (auxModId 3) 5 then [(s.wide (auxModId 1) % 2 ^ 48, 16 * 2 ^ s.fld (auxModId 3) 0 5 * 16)] else []) ++
    (upTo 16).filterMap fun c => if (s.cvOf c).busy then some (s.cvOf c).range else none

/-- The resource of a claim is in use (R311). -/
def State.claimUsed (s : State) (c : Claim) : Bool :=
  match c.kind with
  | 2 => s.fld (tcuId c.unit 0) 6 2 != 0
  | 3 => s.bitAt (pid 8 c.unit 0) 0
  | 4 => s.configured.any fun q => s.qEnabled q && s.qRegion q == c.unit
  | 5 => s.configured.any fun q => s.qEnabled q && inRange c.unit c.amount q
  | 6 => (upTo c.amount).any fun i => s.fld (soCfgId (c.unit + i)) 0 2 != 0
  | 7 => (upTo c.amount).any fun i => (s.cvOf (c.unit + i)).busy
  | 0x0A => s.namedRanges.any fun r => meets c.base (c.amount * 4096) r.1 r.2
  | _ => false

/-- RELEASE's own work (R308, R311, R486). -/
def releaseBody : Body := withLength 2 fun r s =>
  let e := leAt r.payload 0 2
  if s.armed then reply .locked s
  else if 1024 ≤ e then reply .badParam s
  else match s.claim e with
    | none => reply .notPresent s
    | some c =>
      if c.image then reply .refused s
      else if s.claimUsed c then reply .wrongState s
      else reply .ok ((s.setClaim e none).creditsChanged c.kind c.unit)

/-- RELEASE. -/
def execRelease (req : Req) (s : State) : Host.Outcome State Fault Refusal := .next (s.commandRow 0x0304 req releaseBody)

/-! ### Queues and counters (R301, R302, R306, R366) -/

/-- The words of a QUEUE_WRITE. -/
def queueWords (p : List Byte) : List (BitVec 64) := packWords (p.drop 4)

/-- Queue of a QUEUE_WRITE. -/
def Running.queue (r : Running) : Option Nat := if r.opcode = 0x0305 then some (leAt r.req.payload 0 2) else none

/-- QUEUE_WRITE's own work: it completes when its packet fits, after earlier writes of the queue (R302). (log 50, DEDUCED) -/
def queueWriteBody (pointers : PtrCheck) : Body := fun r s =>
  let p := r.payload
  let q := leAt p 0 2
  let m := leAt p 2 2
  let n := m % 1024
  if p.length < 4 || p.length != 4 + 8 * n then reply .badLength s
  else if 4096 ≤ q || n == 0 || 509 < n || bitsOf m 10 5 != 0 then reply .badParam s
  else if s.qProducer q != 0 then reply .refused s
  else
    let s := s.queueAccess q pointers
    if s.packetFits q n && !(s.host.running.any fun x => x.queue == some q) then
      reply .ok (s.pushWords q (queueWords p) (!bitOf m 15))
    else (none, s.startRunning 0x0305 r .ok [])

/-- QUEUE_WRITE. -/
def execQueueWrite (req : QueueReq) (s : State) : Host.Outcome State Fault Refusal :=
  .next (s.commandRow 0x0305 req.req (queueWriteBody req.pointers))

/-- A waiting QUEUE_WRITE that can complete: the first of its queue, and its packet fits. (log 50, DEDUCED) -/
def State.queueWriteFits (s : State) (r : Running) : Bool :=
  match r.queue with
  | none => false
  | some q => (s.host.running.find? fun x => x.queue == some q) == some r && s.packetFits q (queueWords r.req.payload).length

/-- A waiting QUEUE_WRITE completes. -/
def State.queueWriteEnds (s : State) (r : Running) (pointers : PtrCheck) : State :=
  let p := r.req.payload
  let s := s.queueAccess (leAt p 0 2) pointers
  (s.pushWords (leAt p 0 2) (queueWords p) (!bitOf (leAt p 2 2) 15)).finish r .ok []

/-- QUEUE_WRITE_TIMEOUT: no room within 100 ms; nothing of the packet is written (R302, R316). -/
def execQueueWriteTimeout (tag : BitVec 12) (s : State) : Host.Outcome State Fault Refusal :=
  .next (match s.host.running.find? fun r => r.opcode == 0x0305 && r.req.tag == tag with
    | none => s
    | some r =>
      whenDue (s.awake && decide (100000000 ≤ locDiff s.loc r.start) && !s.queueWriteFits r)
        (fun s => (s.bump (pid 0x10 0x41 0x102)).finish r .timeout []) s)

/-- `n` words read from a queue, with their status bytes; `ecc` says what SECDED finds, nothing in a word it does not list. -/
def State.popWords (s : State) (q : Nat) (ecc : List EccCheck) : Nat → List Byte × List Byte × State
  | 0 => ([], [], s)
  | n + 1 =>
    let (w, st, s) := s.popWord q (ecc.headD .clean)
    let (ws, sts, s) := s.popWords q ecc.tail n
    (leBytes 8 w.data.toNat ++ ws, leBytes 1 st ++ sts, s)

/-- Words a QUEUE_READ takes (R366). -/
def readCountOf (x : Queue) (n : Nat) (toEop : Bool) : Nat :=
  let upToEop := match x.words.findIdx? (·.eop) with | some i => i + 1 | none => x.words.length
  max 1 (min n (if toEop then upToEop else x.words.length))

/-- QUEUE_READ's own work. (log 50, DEDUCED) -/
def queueReadBody (ecc : List EccCheck) (pointers : PtrCheck) : Body := withLength 4 fun r s =>
  let q := leAt r.payload 0 2
  let m := leAt r.payload 2 2
  let n := m % 1024
  if 4096 ≤ q || n == 0 || 452 < n || bitsOf m 10 5 != 0 then reply .badParam s
  else if s.qConsumer q != 0 then reply .refused s
  else
    let s := s.queueAccess q pointers
    let k := readCountOf (s.queue q) n (bitOf m 15)
    let (ws, sts, s) := s.popWords q ecc k
    replyWith .ok (leBytes 2 k ++ leBytes 2 0 ++ ws ++ sts) s

/-- QUEUE_READ. -/
def execQueueRead (req : QueueReq) (s : State) : Host.Outcome State Fault Refusal :=
  .next (s.commandRow 0x0306 req.req (queueReadBody req.ecc req.pointers))

/-- SYNCOBJ_OP's own work. -/
def syncobjOpBody : Body := withLength 12 fun r s =>
  let p := r.payload
  let n := leAt p 0 2
  if 12288 ≤ n || 16 ≤ leAt p 2 1 || leAt p 3 1 != 0 then reply .badParam s
  else
    let (st, old, s) := s.soOp n (leAt p 2 1) (leAt p 4 4) (leAt p 8 4)
    if st == .ok then replyWith .ok (leBytes 4 old.toNat) s else reply st s

/-- SYNCOBJ_OP. -/
def execSyncobjOp (req : Req) (s : State) : Host.Outcome State Fault Refusal := .next (s.commandRow 0x0307 req syncobjOpBody)

/-! ### Time, camera buses -/

/-- TIME_SNAPSHOT: device time, local counter and position of one instant (R363). -/
def execTimeSnapshot (req : Req) (s : State) : Host.Outcome State Fault Refusal :=
  .next (s.commandRow 0x0500 req (withLength 0 fun _ s =>
    let (p, s) := s.posNow
    replyWith .ok (leBytes 4 (nsOf s.dev) ++ leBytes 8 (secOf s.dev) ++ leBytes 8 s.loc ++ leBytes 8 p) s))

/-- CAM_I2C's own work: it ends with COMMAND_COMPLETION (R369). -/
def camI2cBody : Body := fun r s =>
  let p := r.payload
  let w := leAt p 2 2
  if p.length < 8 || p.length != 8 + w then reply .badLength s
  else if 4 ≤ leAt p 0 1 || 128 ≤ leAt p 1 1 || 256 < w || 256 < leAt p 4 2 || leAt p 6 2 != 0 || w + leAt p 4 2 == 0 then
    reply .badParam s
  else if !s.bitAt (pid 1 0 0x150) (leAt p 0 1) then reply .wrongState s
  else (none, s.startRunning 0x0600 r .ok [])

/-- CAM_I2C. -/
def execCamI2c (req : Req) (s : State) : Host.Outcome State Fault Refusal := .next (s.commandRow 0x0600 req camI2cBody)

/-- The transfer is the first one of its port (R369). -/
def State.i2cFirst (s : State) (r : Running) : Bool :=
  (s.host.running.find? fun x => x.opcode == 0x0600 && leAt x.req.payload 0 1 == leAt r.req.payload 0 1) == some r

/-- How a CAM_I2C transfer ends `ran` ns after its start and `t` ns after its acceptance, none when the stimulus does not fit it:
bytes or a NACK within 50 ms of acceptance, a time-out then or after a bus that stayed low for 25 ms (R369).
(log 49, DEDUCED) -/
def i2cEnd (r : Running) (ran t : Nat) : Completion → Option (Status × List Byte)
  | .i2cBytes data => if data.length = leAt r.req.payload 4 2 && decide (t ≤ 50000000) then some (.ok, data) else none
  | .i2cNack i => if i ≤ leAt r.req.payload 2 2 && decide (t ≤ 50000000) then some (.refused, leBytes 2 i) else none
  | .timedOut => if 25000000 ≤ ran || 50000000 ≤ t then some (.timeout, []) else none
  | _ => none

/-! ### Chain (R329, R338) -/

/-- An enumerated partner is armed by its last HEARTBEAT (R335, R338). (log 34, DEDUCED) -/
def State.partnersArmed (s : State) : Bool :=
  (upTo 4).any fun p => s.spkUp p && (s.partner p).isSome && s.role p != 4 && s.role p != 5 && (s.spk p).partnerArmed

/-- The system has enumerated modules beyond the partners, of whose pipelines no HEARTBEAT tells. (log 34, DEDUCED) -/
def State.farModules (s : State) : Bool :=
  s.chain.isSome && (!s.spoke.root || s.nodesList.any fun e => e.2.state == 1 && decide (1 < e.2.hops))

/-- ENUMERATE's own work: the command must come over SDIO, and no enumerated module may be armed (R338); of a module beyond the
partners that is a free value. -/
def enumerateBody : Body := withLength 0 fun r s =>
  let (k, s) := if s.farModules then s.takeFree else (0, s)
  if r.src.toNat != s.addr || s.armed || s.partnersArmed || (s.farModules && Config.farArmed k) then reply .wrongState s
  else (none, (s.startEnumeration.pumpAll).startRunning 0x0900 r .ok [])

/-- ENUMERATE. -/
def execEnumerate (req : Req) (s : State) : Host.Outcome State Fault Refusal := .next (s.commandRow 0x0900 req enumerateBody)

/-- RETRAIN's own work. -/
def retrainBody : Body := withLength 1 fun r s =>
  let p := leAt r.payload 0 1
  if 4 ≤ p then reply .badParam s
  else if !s.spkUp p then reply .wrongState s
  else reply .ok (s.startRetrain p)

/-- RETRAIN. -/
def execRetrain (req : Req) (s : State) : Host.Outcome State Fault Refusal := .next (s.commandRow 0x0901 req retrainBody)

/-! ### Test reads (R182, R368) -/

/-- The code of a track's STATE (R191). -/
def TrackState.code : TrackState → Nat
  | .tentative => 1 | .confirmed => 2 | .mature => 3 | .closed => 4

/-- The 160 bytes of a track slot (R182). -/
def Slot.bytes (t : Slot) (feats : List F32) : List Byte :=
  let fs := fun (n : Nat) (xs : List F32) => (upTo n).flatMap fun i => leBytes 4 (xs.getD i 0).toNat
  leBytes 4 t.id ++ leBytes 6 t.anchor ++ leBytes 2 0 ++
    leBytes 4 (t.st.code + 8 * bit t.owned + 16 * bit t.degraded + 32 * bit t.boundary + 64 * bit t.covFault +
      256 * (t.hits % 256) + 65536 * (t.misses % 32) + 2097152 * (t.age % 1024)) ++
    leBytes 4 t.lastRef.toNat ++ fs 6 t.x ++ fs 21 t.p ++ fs 8 feats

/-- Logical regions whose tracks stand in the memory of physical region `r` (R183, R392). (log 51, DEDUCED) -/
def State.tracksIn (s : State) (r : Nat) : List Nat := (upTo 8).filter fun lr => s.hostOf lr == r

/-- Bytes of slot `i` of physical region `r`; of a FREE slot only the STATE field is stated, and nothing of a slot that a guest's
tracks may have taken or of a region whose tracks stand elsewhere. (log 51, DEDUCED) -/
def State.slotBytes (s : State) (r i : Nat) : List Byte :=
  match if s.hostOf r = r then s.slot r i else none with
  | some t => t.bytes ((upTo 8).map (s.feat r s.free t))
  | none => (upTo 160).map fun j =>
      let b := Config.freeSlot (s.free * 2048 + i) j
      if j = 12 && s.tracksIn r == [r] then BitVec.ofNat 8 (b.toNat / 8 * 8) else b

/-- A target of TEST_READ: power domain, number of units, most units of one read, bytes of a unit. -/
structure TestTarget where
  dom : Nat
  units : Nat
  most : Nat
  read : State → Nat → List Byte

/-- The targets of R368. (log 51, DEDUCED) -/
def testTarget (t r b : Nat) : Option TestTarget :=
  let k := r * 16 + b
  match t with
  | 0 => some ⟨4 * r, 32768, 509, fun s i => leBytes 8 (Sparse.get (s.block k).base (s.block k).states i)⟩
  | 1 => some ⟨4 * r, 16384, 509, fun s i => leBytes 8 (Sparse.get (fun _ => 0) (s.block k).syn i)⟩
  | 2 => some ⟨43, 328, 254, fun s i => leBytes 16 (Sparse.get (fun _ => 0) s.rtr.subs i)⟩
  | 3 => some ⟨43, 9, 1, fun s i => (upTo 128).map fun l => BitVec.ofNat 8 (Sparse.get transDefault s.rtr.trans (i * 128 + l))⟩
  | 4 => some ⟨4 * r + 3, 2048, 25, fun s i => s.slotBytes r i⟩
  | _ => none

/-- TEST_READ's own work (R368); each unit is read under R19, with what the ECC finds left to SCRUB_ACCESS. (log 51, DEDUCED) -/
def testReadBody : Body := withLength 10 fun r s =>
  let p := r.payload
  let i := leAt p 4 4
  let n := leAt p 8 2
  match testTarget (leAt p 0 1) (leAt p 1 1 % 8) (leAt p 2 1 % 16) with
  | none => reply .badParam s
  | some t =>
    let placed := leAt p 0 1 == 2 || leAt p 0 1 == 3
    if (!placed && (8 ≤ leAt p 1 1 || (leAt p 0 1 < 2 && 16 ≤ leAt p 2 1))) || leAt p 3 1 != 0 || n == 0 || t.most < n ||
      t.units < i + n then reply .badParam s
    else if s.domOff t.dom then reply .wrongState s
    else
      let s := s.accessWake t.dom
      replyWith .ok ((upTo n).flatMap fun j => t.read s (i + j)) s.takeFree.2

/-- TEST_READ. -/
def execTestRead (req : Req) (s : State) : Host.Outcome State Fault Refusal := .next (s.commandRow 0x0A01 req testReadBody)

/-! ### Module reset (R375) -/

/-- MODULE_RESET's own work: the reset follows the release of its reply, or 10 ms after the reply enters the outbox; one that is
already due stays so. (log 32, DEDUCED) -/
def moduleResetBody : Body := withLength 0 fun r s =>
  let own := decide (r.src.toNat = s.addr)
  if s.host.resetReply.isSome then reply .ok s
  else reply .ok (s.onHost fun h => { h with
    resetReply := some (if own then s.replyBytes 0x0302 r.tag.toNat s.addr .ok [] else []), resetAt := s.loc })

/-- MODULE_RESET. -/
def execModuleReset (req : Req) (s : State) : Host.Outcome State Fault Refusal := .next (s.commandRow 0x0302 req moduleResetBody)

end Sys2Proof.Machine
end

