-- ==== Sys2Proof/Machine/Image.lean ====
section
/-!
DEFINITION. What a staged image is checked for: signature block (18_security.md R442 to R444), header, section table and
content of a model image (15_models.md R380 to R387, R394), and the load outcome (R387, R388).
-/

namespace Sys2Proof.Machine

/-- A refusal: status and payload. -/
abbrev Refused := Status × List Byte

/-- A BAD_PARAM reply naming a part and the failing field's offset in it (R386). -/
def badPart (part off : Nat) : Refused := (.badParam, leBytes 2 part ++ leBytes 2 0 ++ leBytes 4 off)

/-- The offset beside the first condition that does not hold. (log 55, DEDUCED) -/
def firstBad : List (Bool × Nat) → Option Nat
  | [] => none
  | (ok, off) :: rest => if ok then firstBad rest else some off

/-- Bytes of a run from offset `off` that are not 0, as checks. -/
def zeroBytes (b : List Byte) (off n : Nat) : List (Bool × Nat) := (upTo n).map fun i => (leAt b (off + i) 1 == 0, off + i)

/-! ### Signature block (R442 to R444) -/

/-- The staged image's bytes. -/
def State.stagedBytes (s : State) (x : Staged) : List Byte := s.readBytes stagingBase x.length

/-- Signature block of an image. -/
def sigBlock (img : List Byte) : List Byte := img.drop (img.length - 2048)

/-- The message M. -/
def sigMessage (img : List Byte) : List Byte := img.take (img.length - 2048 + 64)

/-- Format checks: offset of the first bad field within the block (R443). (log 52, PRESUMED) -/
def sigBad (kind : Nat) (img : List Byte) : Option Nat :=
  let b := sigBlock img
  firstBad ([(decide (2048 ≤ img.length) && leAt b 0 4 == 0x4B474953, 0), (leAt b 4 2 == 1, 4), (leAt b 6 1 == kind, 6),
    (kind == 0 || decide (leAt b 8 1 < 64), 8), (decide (leAt b 9 1 < 16), 9)] ++ zeroBytes b 10 54 ++ zeroBytes b 1932 116)

/-- A Renryn slot's signatures of a message; a revoked or unknown slot signs nothing (R442, R444). (log 52, PRESUMED) -/
def State.renrynSigned (s : State) (slot : Nat) (msg ecdsa lms : List Byte) : Bool :=
  decide (slot < 4) && !bitOf s.mgmt.sec.revoked slot && ecdsaOk (Config.renrynEcdsa slot) msg ecdsa &&
    lmsOk (Config.renrynLms slot) msg lms

/-- The owner keys are present and match their digest in fuses (R441, R442). -/
def State.ownerPresent (s : State) : Bool :=
  let c := s.mgmt.sec
  !c.ownerKeys.isEmpty && sha384 c.ownerKeys == c.ownerDigest

/-- The owner keys' signatures of a message. -/
def State.ownerSigned (s : State) (msg ecdsa lms : List Byte) : Bool :=
  s.ownerPresent && ecdsaOk (s.mgmt.sec.ownerKeys.take 96) msg ecdsa && lmsOk (s.mgmt.sec.ownerKeys.drop 96) msg lms

/-- Both signatures of an image verify: firmware against its Renryn slot, a model image against the owner keys in DEPLOYED
and its Renryn slot otherwise (R442). -/
def State.imageSigned (s : State) (kind : Nat) (img : List Byte) : Bool :=
  let b := sigBlock img
  let e := (b.drop 64).take 96
  let l := (b.drop 160).take 1772
  if kind = 0 && s.mgmt.sec.lc = 2 then s.ownerSigned (sigMessage img) e l
  else s.renrynSigned (leAt b 7 1) (sigMessage img) e l

/-! ### Header and section table (R382, R383) -/

/-- A section: type, length and offset. -/
structure Section where
  kind : Nat
  length : Nat
  offset : Nat
  deriving DecidableEq, Repr

/-- Sections of an image in table order. -/
def sectionsOf (img : List Byte) : List Section :=
  (upTo (leAt img 6 2)).map fun i => ⟨leAt img (64 + 16 * i) 4, leAt img (68 + 16 * i) 4, leAt img (72 + 16 * i) 8⟩

/-- Members of the split set an image names. -/
def membersOf (img : List Byte) : Nat := leAt img 26 2

/-- Checks of the header: conditions with the offsets of their fields. -/
def headerChecks (img : List Byte) : List (Bool × Nat) :=
  let m := membersOf img
  [(leAt img 0 4 == 0x1A474649, 0), (leAt img 4 2 == 2, 4), (inRange 1 32 (leAt img 6 2), 6),
   (leAt img 8 8 == img.length, 8), (decide (leAt img 24 2 < m), 24), (inRange 1 16 m, 26), (decide (leAt img 28 4 < 2), 28),
   (m != 1 || leAt img 32 8 == 0, 32)] ++ zeroBytes img 40 24

/-- Checks of one section entry against those before it. -/
def sectionChecks (img : List Byte) (before : List Section) (i : Nat) (x : Section) : List (Bool × Nat) :=
  let at_ := 64 + 16 * i
  let known := decide (1 ≤ x.kind) && decide (x.kind ≤ 7)
  [((known && !(before.any fun y => y.kind == x.kind)) || (bitOf x.kind 31 && !(before.any fun y => y.kind == x.kind)), at_),
   (decide (x.offset + x.length ≤ img.length - 2048), at_ + 4),
   (x.offset % 8 == 0 && decide (64 + 16 * leAt img 6 2 ≤ x.offset) &&
      !(before.any fun y => meets x.offset x.length y.offset y.length), at_ + 8)]

/-- Checks of the section table; a missing required section is laid to the count of entries. -/
def tableChecks (img : List Byte) : List (Bool × Nat) :=
  let xs := sectionsOf img
  (xs.zipIdx.flatMap fun e => sectionChecks img (xs.take e.2) e.2 e.1) ++
    [(([1, 2, 3, 4, 5] ++ (if membersOf img = 1 then [] else [7])).all fun k => xs.any fun x => x.kind == k, 6)]

/-- A section's position and bytes. -/
def sectionAt (img : List Byte) (kind : Nat) : Option (Nat × List Byte) :=
  let xs := sectionsOf img
  (xs.findIdx? fun x => x.kind == kind).bind fun i => xs[i]?.map fun x => (i, (img.drop x.offset).take x.length)

/-! ### NEEDS (R380, R384, R387) -/

/-- The needs a NEEDS section spells. -/
def needsOf (b : List Byte) : Needs :=
  { lregions := leAt b 0 1, formats := leAt b 1 1, modes := leAt b 2 1, dense := leAt b 4 4, edge := leAt b 8 4,
    slot := leAt b 12 4, minLead := leAt b 16 4, localBuf := leAt b 20 4, jobs := leAt b 24 4,
    regions := (upTo 8).map fun g =>
      ⟨leAt b (32 + 16 * g) 2, leAt b (34 + 16 * g) 2, leAt b (36 + 16 * g) 1, leAt b (37 + 16 * g) 1, leAt b (38 + 16 * g) 2⟩ }

/-- The need of logical region `g`. -/
def Needs.region (n : Needs) (g : Nat) : NeedRegion := n.regions.getD g ⟨0, 0, 0, 0, 0⟩

/-- A need of region `g` with that of its host under the derailleur map (R380). -/
def Needs.both (n : Needs) (f : NeedRegion → Nat) (g : Nat) : Nat := f (n.region g) + f (n.region ((g + 1) % 8))

/-- Checks of the NEEDS section. (log 55, DEDUCED) -/
def needsChecks (b : List Byte) : List (Bool × Nat) :=
  let n := needsOf b
  [(b.length == 160, 0), (decide (n.formats < 64), 1), (decide (n.modes < 8), 2), (leAt b 3 1 == 0, 3),
   (n.dense + n.edge != 0, 4), (inRange 100 99901 n.slot, 12), (decide (n.jobs ≤ 4095), 24)] ++ zeroBytes b 28 4 ++
  (upTo 8).flatMap fun g =>
    [(decide ((n.region g).blocks < 2 ^ 14), 32 + 16 * g), (decide (n.both (·.tracks) g ≤ 2048), 34 + 16 * g),
     (decide (n.both (·.decoders) g ≤ 128), 36 + 16 * g), (decide (n.both (·.encoders) g ≤ 32), 37 + 16 * g)] ++
    zeroBytes b (40 + 16 * g) 8

/-! ### BLOCKS (R141, R149) -/

/-- A synapse store as the canonical map of its words. -/
def storeOf (ws : Sparse Nat) : Sparse Nat :=
  ws.foldl (fun (m : Sparse Nat) w => if w.1 < 16384 then Sparse.set (fun _ => 0) m w.1 (w.2 % 2 ^ 64) else m) []

/-- A synapse store word, none beyond the store. -/
def wordIn (syn : Sparse Nat) (a : Nat) : Option Nat := if a < 16384 then some (Sparse.get (fun _ => 0) syn a) else none

/-- The words [a, a + n) lie in the store and each meets a condition. -/
def wordsIn (syn : Sparse Nat) (a n : Nat) (ok : Nat → Bool) : Bool := (upTo n).all fun i => (wordIn syn (a + i)).any ok

/-- An explicit list is within the store and breaks no range (R147, R149). -/
def listOk (syn : Sparse Nat) (slot : Nat) : Bool :=
  bitOf slot 14 ||
    (bitsOf slot 15 17 == 0 && (wordIn syn (bitsOf slot 0 14)).any fun hd =>
      let n := bitsOf hd 8 13
      n != 0 && bitsOf hd 21 43 == 0 &&
        wordsIn syn (bitsOf slot 0 14 + 1) (ceilDiv n 3) (fun w => bitsOf w 60 4 == 0) &&
        (upTo n).all fun j => (wordIn syn (bitsOf slot 0 14 + 1 + j / 3)).any fun w => !bitOf w (20 * (j % 3) + 19))

/-- A template descriptor is within the store and breaks no range (R148, R149). -/
def templateOk (syn : Sparse Nat) (a : Nat) : Bool :=
  (wordIn syn a).any fun d =>
    let n := bitsOf d 14 9
    n != 0 && bitsOf d 56 8 == 0 && wordsIn syn (bitsOf d 0 14) (ceilDiv n 4) fun _ => true

/-- A source group entry of the store (R146, R149). -/
def groupOk (syn : Sparse Nat) (e : Nat) : Bool :=
  let g := (wordIn syn (2 * e)).getD 0 + (wordIn syn (2 * e + 1)).getD 0 * 2 ^ 64
  let span := 2 ^ bitsOf g 31 4
  !bitOf g 44 ||
    (bitsOf g 45 19 == 0 && bitsOf g 78 50 == 0 && decide (bitsOf g 16 15 + span ≤ 32768) &&
      if bitOf g 39 then templateOk syn (bitsOf g 64 14)
      else (upTo span).all fun i => (wordIn syn (bitsOf g 64 14 + i / 2)).any fun w => listOk syn (bitsOf w (32 * (i % 2)) 32))

/-- A class or program word of an image block. -/
def ImageBlock.wordAt (ib : ImageBlock) (i : Nat) : Word :=
  match ib.words.find? (·.1 == i) with
  | some w => BitVec.ofNat 32 w.2
  | none => resetWord (pid 5 0 i)

/-- Class `c` of an image block. -/
def ImageBlock.classPar (ib : ImageBlock) (c : Nat) : ClassPar :=
  .ofWords (ib.wordAt (0x10 + 4 * c)) (ib.wordAt (0x11 + 4 * c)) (ib.wordAt (0x12 + 4 * c))
    ((upTo 16).map fun i => ib.wordAt (0x100 + 16 * c + i))

/-- A word lies in the ranges of its parameter (R9). -/
def wordFits (id : Nat) (w : Word) : Bool :=
  match lookup id with
  | .word fs => rangeAllows fs (resetWord id) w
  | _ => false

/-- An image block may be loaded. -/
def ImageBlock.ok (ib : ImageBlock) : Bool :=
  decide (ib.place < 128) && decide (ib.place % 16 < 14) &&
    (ib.words.all fun w => (inRange 0x10 64 w.1 || inRange 0x100 256 w.1) && decide (w.2 < 2 ^ 32) && wordFits (pid 5 0 w.1) (BitVec.ofNat 32 w.2)) &&
    ((upTo 16).all fun c => (ib.classPar c).valid) && (ib.classes.all fun r => decide (r.2 < 16)) &&
    (upTo 128).all fun e => groupOk ib.syn e

/-- The blocks of a BLOCKS section, none when it is refused. (log 55, DEDUCED) -/
def loadBlocks (b : List Byte) : Option (List ImageBlock) :=
  (Config.blocksOf b).bind fun ibs =>
    let ibs := ibs.map fun ib => { ib with syn := storeOf ib.syn }
    if ibs.all ImageBlock.ok && decide ((ibs.map (·.place)).Nodup) then some ibs else none

/-- A subscription names no logical block 14 or 15, neither as its source nor in its mask (R166, R380). -/
def subOk (x : Nat × Nat) : Bool :=
  let mask := x.2 % 2 ^ 128
  decide (328 ≤ x.1) || mask == 0 ||
    ((decide (256 ≤ x.1) || decide (x.1 / 2 % 16 < 14)) && (upTo 8).all fun g => bitsOf mask (16 * g + 14) 2 == 0)

/-- The subscription tables of a SUBSCRIPTIONS section, none when they break the reserve (R166, R380). (log 55, DEDUCED) -/
def loadSubs (b : List Byte) : Option (Sparse Nat) :=
  (Config.subsOf b).bind fun xs =>
    if xs.all subOk then
      some (xs.foldl (fun (m : Sparse Nat) x => if x.1 < 328 then Sparse.set (fun _ => 0) m x.1 (x.2 % 2 ^ 128) else m) [])
    else none

/-! ### PLAN (R222, R226, R229, R231, R242 to R244, R249, R251, R253) -/

/-- Formats an array layer may pair (R226). -/
def arrayPair (w a : NumFmt) : Bool :=
  match w, a with
  | .int8, .int8 | .int4, .int8 | .bsi4, .bsi4 => true
  | .e4m3, .e4m3 | .e4m3, .e5m2 | .e5m2, .e4m3 | .e5m2, .e5m2 => true
  | _, _ => false

/-- Elements of an expanded row, padded (R241): BSI4 pads each tap's channels to blocks of 32. -/
def Layer.rowElems (l : Layer) (mode : Nat) : Nat :=
  let he := l.height mode
  let r := if l.afmt = .bsi4 then l.kh * l.kw * (32 * ceilDiv l.cing 32) else l.red
  ceilDiv r he * he

/-- Bytes of an expanded row; a BSI4 row has a scale row beside it (R229, R241). -/
def Layer.rowBytes (l : Layer) (mode : Nat) : Nat :=
  let n := l.rowElems mode
  if l.afmt = .bsi4 then n / 2 + n / 32 else n

/-- A stripe fits its sub-array (R240, R244). -/
def Layer.stripeFits (l : Layer) (mode : Nat) (st : Stripe) : Bool :=
  let px := (l.stripeRows st).length * l.wout
  decide (px ≤ 1024 / 2 ^ mode) && decide (px * l.rowBytes mode ≤ 512 * 1024 / 2 ^ mode)

/-- Geometry common to array and edge layers (R242, R243). -/
def Layer.shapeOk (l : Layer) : Bool :=
  inRange 1 15 l.kh && inRange 1 15 l.kw && inRange 1 8 l.sh && inRange 1 8 l.sw && decide (l.pt < 8) && decide (l.pb < 8) &&
    decide (l.pl < 8) && decide (l.pr < 8) && inRange 1 256 l.hin && inRange 1 256 l.win &&
    decide (0 < outSize l.hin l.pt l.pb l.dil l.kh l.sh) && decide (0 < outSize l.win l.pl l.pr l.dil l.kw l.sw)

/-- A pooling stage is within R249 and leaves an output. -/
def PoolSpec.ok (p : PoolSpec) (h w : Nat) : Bool :=
  inRange 1 8 p.kh && inRange 1 8 p.kw && inRange 1 8 p.sh && inRange 1 8 p.sw && decide (p.pt < 4) && decide (p.pb < 4) &&
    decide (p.pl < 4) && decide (p.pr < 4) && decide (max p.pt p.pb < p.kh) && decide (max p.pl p.pr < p.kw) &&
    decide (0 < outSize h p.pt p.pb 1 p.kh p.sh) && decide (0 < outSize w p.pl p.pr 1 p.kw p.sw)

/-- A layer's output format is one its accumulator is drained to: INT8 under R234, the others under R235 and R236.
(log 55, DEDUCED) -/
def Layer.outOk (l : Layer) : Bool := if l.afmt = .int8 then l.ofmt == .int8 else l.ofmt != .int8 && l.ofmt != .int4

/-- A layer descriptor is accepted. -/
def Layer.ok (l : Layer) : Bool :=
  let scales := l.wfmt != .bsi4 || l.wscales.all fun x => decide (x < 255)
  match l.kind with
  | .array m =>
    decide (m < 3) && l.shapeOk && inRange 1 4 l.dil && inRange 1 4096 l.cin && inRange 1 4096 l.cout && l.groups != 0 &&
      l.cin % l.groups == 0 && l.cout % l.groups == 0 && arrayPair l.wfmt l.afmt &&
      !(l.wfmt == .bsi4 && decide (1 < l.groups) && decide (l.cing < 32)) && scales &&
      (l.afmt != .int8 || decide (l.red ≤ if l.wfmt = .int4 then 2097151 else 131071)) &&
      (l.pool.all fun p => p.ok l.hout l.wout) && l.stripes.all (l.stripeFits m) && l.outOk
  | .edgeConv =>
    l.edgeMode.isNone && l.outOk && l.shapeOk && l.dil == 1 && inRange 1 16 l.cin && inRange 1 256 l.cout && l.groups == 1 &&
      ((l.wfmt == .int8 && l.afmt == .int8) || (l.wfmt == .bf16 && l.afmt == .bf16)) && l.pool.all fun p => p.ok l.hout l.wout
  | .globalPool _ _ => l.edgeMode.isNone && inRange 1 256 l.hin && inRange 1 256 l.win
  | .fc _ => l.edgeMode.isNone && l.outOk && inRange 1 4096 l.cin && inRange 1 1024 l.cout &&
      ((l.wfmt == .int8 && l.afmt == .int8) || (l.wfmt == .bf16 && l.afmt == .bf16))
  | .softmax => l.edgeMode.isNone

/-- Jobs of a plan (R222). -/
def Plan.jobs (p : Plan) : Nat := (p.fresh.map fun r => r.jobs.length).sum

/-- The plan ends in softmax. -/
def Plan.endsSoftmax (p : Plan) : Bool := p.layers.getLast?.any fun l => l.kind == .softmax

/-- A layer that leaves a plane (not a vector). -/
def LayerKind.makesPlane : LayerKind → Bool
  | .array _ | .edgeConv => true
  | _ => false

/-- Length of the vector that layer `i` leaves: a pool's channels and side entries, a layer's outputs (R251). -/
def Plan.vecLen (p : Plan) (i : Nat) : Nat → Nat
  | 0 => 0
  | n + 1 => match p.layers[i]? with
    | none => 0
    | some l => match l.kind with
      | .globalPool _ side => (match l.src.bind fun k => p.layers[k]? with | some q => q.cout | none => l.cin) + (if side then 16 else 0)
      | .softmax => match l.source i with | some k => if k < i then p.vecLen k n else 0 | none => l.cin
      | _ => l.cout

/-- Format of the plane that a continuation is sent: what its layers that read it name, INT8 where the edge engine reads it too
(R226). -/
def Plan.inputFmt (p : Plan) : NumFmt :=
  let fs := (p.layers.filter fun l => l.kind.makesPlane && l.src.isNone).map (·.afmt)
  if fs.contains .int8 then .int8 else fs.headD .int8

/-- What layer `i` reads is there, in the format its operand pair names, and has the number of inputs it names; a tile is INT8,
and only a continuation may start with a vector layer. INT8 reaches a BF16 layer of the edge engine exactly (R226, R246, R250,
R251). (log 55, DEDUCED) -/
def Plan.readsOk (p : Plan) (cont : Bool) (i : Nat) (l : Layer) : Bool :=
  match l.source i with
  | none =>
    let f := if cont then p.inputFmt else .int8
    match l.kind with
    | .array _ => l.afmt == f
    | .edgeConv => l.afmt == f || f == .int8
    | .globalPool _ _ => true
    | .fc _ | .softmax => cont
  | some k => decide (k < i) && (p.layers[k]?).any fun q =>
    match l.kind with
    | .array _ => q.kind.makesPlane && q.ofmt == l.afmt
    | .edgeConv => q.kind.makesPlane && (q.ofmt == l.afmt || q.ofmt == .int8)
    | .globalPool _ _ => q.kind.makesPlane && decide (q.outDims.1 ≤ 256) && decide (q.outDims.2 ≤ 256)
    | .fc _ => !q.kind.makesPlane && p.vecLen k (k + 1) == l.cin
    | .softmax => !q.kind.makesPlane

/-- A plan is accepted, `cont` as a continuation. -/
def Plan.ok (p : Plan) (cont : Bool) : Bool :=
  p.layers.all Layer.ok && (p.layers.zipIdx.all fun e => p.readsOk cont e.2 e.1) && decide (p.jobs ≤ 4095)

/-- A plan whose end a post unit classifies, here or at the object's module, ends in softmax (R253). -/
def Plan.probOk (p : Plan) (ts : List Transfer) : Bool :=
  p.endsSoftmax || p.sends.any fun e => e.1 + 1 == p.layers.length && ts.any fun t => t.segment == e.2 && t.rx != 0xFF

/-- Some used region's POST.CFG selects PROB with the image's PARAMS in force (R253). -/
def State.probUsed (s : State) (lregions : Nat) (params : List (Nat × Nat)) : Bool :=
  (upTo 8).any fun g =>
    bitOf lregions g && !(match params.find? (·.1 == postId g 0) with
      | some w => bitOf w.2 8
      | none => s.bitAt (postId g 0) 8)

/-! ### PARAMS and SPLIT (R383, R394) -/

/-- A PARAMS pair may name this ID. -/
def paramsAllow (id : Nat) : Bool :=
  let u := id / 0x10000 % 256
  let i := id % 0x10000
  match id / 0x1000000 with
  | 0x05 => inRange 0x80 8 u
  | 0x06 | 0x07 => decide (u < 8)
  | 0x08 => decide (u < 8) && !inRange 1 3 i
  | 0x0B => decide (u < 8)
  | 0x0C => u == 1
  | _ => false

/-- Pairs of a PARAMS section. -/
def paramsOf (b : List Byte) : List (Nat × Nat) := (upTo (b.length / 8)).map fun i => (leAt b (8 * i) 4, leAt b (8 * i + 4) 4)

/-- Checks of a PARAMS section. (log 55, DEDUCED) -/
def paramsChecks (b : List Byte) : List (Bool × Nat) :=
  (b.length % 8 == 0, b.length / 8 * 8) ::
    (paramsOf b).zipIdx.flatMap fun e =>
      [(paramsAllow e.1.1, 8 * e.2), (wordFits e.1.1 (BitVec.ofNat 32 e.1.2), 8 * e.2 + 4)]

/-- Transfer points of a SPLIT section. -/
def transfersOf (b : List Byte) : List Transfer :=
  (upTo (leAt b 0 2)).map fun i =>
    let a := 4 + 16 * i
    ⟨leAt b a 2, leAt b (a + 2) 1, leAt b (a + 3) 1, leAt b (a + 4) 4, leAt b (a + 8) 1⟩

/-- Checks of a SPLIT section. (log 55, DEDUCED) -/
def splitChecks (members : Nat) (b : List Byte) : List (Bool × Nat) :=
  [(inRange 1 64 (leAt b 0 2) && decide (4 + 16 * leAt b 0 2 ≤ b.length), 0), (inRange 1 16 (leAt b 2 1), 2), (leAt b 3 1 == 0, 3)] ++
    (transfersOf b).zipIdx.flatMap fun e =>
      let a := 4 + 16 * e.2
      [(decide (e.1.source < members), a + 2), (decide (e.1.dest < members), a + 3), (inRange 1 4194304 e.1.bytes, a + 4),
       (decide (e.1.rx < 8) || e.1.rx == 0xFF, a + 8)] ++ zeroBytes b (a + 9) 7

/-! ### Outcome (R387, R388) -/

/-- Largest value of a need over the regions. -/
def maxOver (f : Nat → Nat) : Nat := (upTo 8).foldl (fun m g => max m (f g)) 0

/-- Need and capability of each resource as exact ratios, with NEED and HAVE in whole units. -/
structure Ratio where
  num : Nat
  den : Nat
  need : Nat
  have_ : Nat
  deriving DecidableEq, Repr

/-- A resource counted in whole units. -/
def wholeRatio (n d : Nat) : Ratio := ⟨n, d, n, d⟩

/-- T of R387. -/
def Needs.t (n : Needs) : Nat := max n.dense n.edge

/-- The eight ratios of R387; the reserve of one region leaves seven of eight regions. -/
def ratiosOf (n : Needs) (footprint : Nat) : List Ratio :=
  [wholeRatio (maxOver fun g => popcount 16 (n.region g).blocks) 14, wholeRatio (maxOver (n.both (·.tracks))) 2048,
   wholeRatio (maxOver (n.both (·.decoders))) 128, wholeRatio (maxOver (n.both (·.encoders))) 32,
   wholeRatio (maxOver fun g => (n.region g).pages) 432, wholeRatio n.localBuf 3072,
   ⟨footprint, 12288 * 1048576, ceilDiv footprint 1048576, 12288⟩,
   ⟨6400000000 * n.t, n.slot * 12600000000, ceilDiv 6400000000 n.slot, 12600000000 / n.t⟩]

/-- `a` is the larger ratio. -/
def Ratio.above (a b : Ratio) : Bool := decide (b.num * a.den < a.num * b.den)

/-- Place of the largest ratio; ties go to the lower code. -/
def bindingOf (rs : List Ratio) : Nat :=
  (rs.zipIdx.foldl (fun (b : Ratio × Nat) r => if r.1.above b.1 then r else b) (⟨0, 1, 0, 1⟩, 0)).2

/-- What R387 gives. -/
structure Outcome where
  status : Status
  slotHold : Nat
  binding : Nat
  k : Nat
  need : Nat
  have_ : Nat
  deriving DecidableEq, Repr

/-- slot_hold of R387. -/
def slotHoldOf (n : Needs) (compat : Bool) : Nat := max (if compat then 200 else 100) (ceilDiv (6400 * n.t) 12600)

/-- The load outcome (R387). -/
def outcomeOf (n : Needs) (footprint : Nat) (compat : Bool) : Outcome :=
  let rs := ratiosOf n footprint
  let b := bindingOf rs
  let r := rs.getD b (wholeRatio 0 1)
  let k := ((rs.take 7).map fun r => ceilDiv r.num r.den).foldl max 0
  let h := slotHoldOf n compat
  let (st, k) := if 1 < k then (Status.capacity, k) else if 100000 < h then (.capacity, ceilDiv h 100000)
    else if n.slot < h then (.degradedOk, 1) else (.ok, 1)
  ⟨st, h, b + 1, k, r.need, r.have_⟩

/-- The reply payload of R388. -/
def Outcome.bytes (o : Outcome) : List Byte :=
  leBytes 4 o.slotHold ++ leBytes 1 o.binding ++ leBytes 1 o.k ++ leBytes 2 0 ++ leBytes 4 o.need ++ leBytes 4 o.have_

end Sys2Proof.Machine
end

