-- ==== Sys2Proof/Machine/Models.lean ====
section
/-!
DEFINITION. Model images: commit, unload, information, the swap on a running line, and the planes of a split model
(15_models.md R386 to R399).
-/

namespace Sys2Proof.Machine

/-! ### Checks of a commit (R386 steps 1 to 6) -/

/-- The first failing check of a part, or what follows it. -/
def partChecks {α : Type} (part : Nat) (cs : List (Bool × Nat)) (next : Except Refused α) : Except Refused α :=
  match firstBad cs with
  | some off => .error (badPart part off)
  | none => next

/-- A section's checks; a section that is absent passes. -/
def sectionPass {α : Type} (img : List Byte) (kind : Nat) (cs : List Byte → List (Bool × Nat)) (next : Except Refused α) :
    Except Refused α :=
  match sectionAt img kind with
  | some (i, b) => partChecks i (cs b) next
  | none => next

/-- A section whose layout the toolchain fixes: what it spells, or the refusal that names its failing field. -/
def sectionRead {α β : Type} (img : List Byte) (kind : Nat) (read : List Byte → Option α) (next : α → Except Refused β) :
    Except Refused β :=
  match sectionAt img kind with
  | some (i, b) => match read b with
    | some x => next x
    | none => .error (badPart i (Config.badOffset kind b))
  | none => .error (badPart 0xFFFF 6)

/-- The plan and its continuations that an image spells, when they are accepted (R386 step 4). -/
def State.loadPlan (s : State) (img : List Byte) (n : Needs) (params : List (Nat × Nat)) (plan : List Byte) :
    Option (Plan × List (Nat × Plan)) :=
  let weights := ((sectionAt img 5).map (·.2)).getD []
  let ts := if membersOf img = 1 then [] else transfersOf (((sectionAt img 7).map (·.2)).getD [])
  (Config.planOf plan weights).bind fun p =>
    if p.1.ok false && (p.2.all fun c => c.2.ok true) &&
      (!s.probUsed n.lregions params || (p.1.probOk ts && p.2.all fun c => c.2.probOk ts)) then some p
    else none

/-- The content checks of step 4, and the model that the image holds with its outcome (step 5). -/
def State.readModel (s : State) (img : List Byte) (addrs : List Nat) : Except Refused (Model × Outcome) :=
  sectionPass img 1 needsChecks <|
  sectionRead img 1 (fun b => some (needsOf b)) fun n =>
  sectionRead img 2 loadBlocks fun blocks =>
  sectionRead img 3 loadSubs fun subs =>
  sectionPass img 6 paramsChecks <|
  let params := paramsOf (((sectionAt img 6).map (·.2)).getD [])
  sectionRead img 4 (s.loadPlan img n params) fun plan =>
  sectionPass img 7 (splitChecks (membersOf img)) <|
  let split := ((sectionAt img 7).map (·.2)).getD []
  let o := outcomeOf n (leAt img 16 8) s.compat
  .ok ({ member := leAt img 24 2, members := membersOf img, footprint := leAt img 16 8, box := bitOf (leAt img 28 4) 0,
         needs := n, blocks := blocks, subs := subs, plan := plan.1, conts := plan.2, params := params,
         transfers := if membersOf img = 1 then [] else transfersOf split, maxHops := leAt split 2 1, addrs := addrs,
         digest := sha384 (sigMessage img), slotHold := o.slotHold, degraded := o.status == .degradedOk }, o)

/-- The staged model image, when it is complete. -/
def State.stagedModel (s : State) : Option Staged := s.mgmt.model.staged.filter fun x => x.kind == 0 && x.complete

/-- A commit's payload fits an image of `m` members: the selector alone, or the selector and the address table (R386 step 3).
(log 55, DEDUCED) -/
def payloadFits (m : Nat) (p : List Byte) : Bool :=
  if m = 1 then p.length == 4 else p.length == 6 + m && leAt p 4 2 == m

/-- Steps 2 to 5 of R386 on an image; `payload` is that of its commit, none for a swap. (log 55, DEDUCED) -/
def State.checkImage (s : State) (img : List Byte) (payload : Option (List Byte)) : Except Refused (Model × Outcome) :=
  match sigBad 0 img with
  | some off => .error (badPart 0xFFFE off)
  | none =>
    if !s.imageSigned 0 img then .error (.authFail, [])
    else
      partChecks 0xFFFF (headerChecks img) <|
      partChecks 0xFFFF (tableChecks img) <|
      partChecks 0xFFFD [(payload.all (payloadFits (membersOf img)), 0)] <|
      s.readModel img (((payload.getD []).drop 6).map (·.toNat))

/-- Steps 1 to 5 of R386 on the staged image. (log 55, DEDUCED) -/
def State.checkModel (s : State) (payload : Option (List Byte)) : Except Refused (Model × Outcome) :=
  match s.stagedModel with
  | none => .error (.wrongState, [])
  | some x => s.checkImage (s.stagedBytes x) payload

/-- A refusal for want of authority is counted (R455). -/
def State.countAuth (s : State) (e : Status) : State := s.bumpIf (e == .authFail) (pid 0x16 0 0x100)

/-- Claims of the active image given up. -/
def State.dropImageClaims (s : State) : State :=
  { s with que := { s.que with claims := s.que.claims.filter fun e => !(e.2.any (·.image)) } }

/-- IMAGE claims of TILE_PAGES for each used region (R386 step 6). -/
def State.imageClaim (s : State) (n : Needs) (g : Nat) : Except Status State :=
  let k := (n.region g).pages
  if !bitOf n.lregions g || k = 0 then .ok s
  else if s.claimHeld 3 g k 0 then .error .resourceHeld
  else if s.poolLacks 3 g k then .error .noResource
  else match s.freeEntry with
    | none => .error .noResource
    | some e => .ok (s.setClaim e (some ⟨true, 3, g, k, 0⟩))

/-- Every region's claim, in order, or the refusal of the first that fails. -/
def State.imageClaims (s : State) (n : Needs) : List Nat → Except Status State
  | [] => .ok s
  | g :: gs => match s.imageClaim n g with
    | .ok s => s.imageClaims n gs
    | .error e => .error e

/-- The staged image leaves the staging area. -/
def State.dropStaged (s : State) : State := s.onModel fun m => { m with staged := none }

/-! ### Commands -/

/-- A long command whose effect is done and whose reply follows with COMMAND_COMPLETION (R357). (log 49, DEDUCED) -/
def later (opcode : Nat) (st : Status) (note : List Byte) (r : Req) (s : State) : Option (Status × List Byte) × State :=
  (none, s.startRunning opcode r st note)

/-- The selector of an image: WHICH, none when a reserved bit is 1. (log 46, DEDUCED) -/
def selectorOf (p : List Byte) : Option Nat := if leAt p 0 4 < 2 then some (leAt p 0 4) else none

/-- Steps 5 and 6 of R386: the claims of an image taken in place of the active one's, or the refusal. -/
def State.claimModel (s : State) (m : Model) (o : Outcome) : Except Refused State :=
  if o.status == .capacity then .error (.capacity, o.bytes)
  else match s.dropImageClaims.imageClaims m.needs (upTo 8) with
    | .error e => .error (e, [])
    | .ok s => .ok s

/-- Step 7 of R386 fails, which no rule says when: no image is active. (log 55, DEDUCED) -/
def State.installFailed (s : State) : State := s.unloadModel.dropImageClaims

/-- The background copy of an installed image into the flash model store starts, when it is enabled and the image is no split
member and at most 48 MiB; a copy that runs goes on beside an image that is not stored (R480). (log 65, DEDUCED) -/
def State.storeImage (s : State) (img : List Byte) (m : Model) : State :=
  if !s.bitAt (pid 1 0 0x1A0) 0 then s
  else
    let big := decide (1 < m.members) || decide (48 * 1048576 < img.length)
    (s.onBoard fun b => { b with storing := if big then b.storing else some img }).setFld (pid 1 0 0x1A1) 2 1 (bit big)

/-- IMAGE_COMMIT's own work (R386). -/
def imageCommitBody : Body := fun r s =>
  let p := r.payload
  if selectorOf p != some 0 then reply .badParam s
  else match s.checkModel (some p) with
    | .error (e, b) => replyWith e b (s.countAuth e)
    | .ok (m, o) => match s.claimModel m o with
      | .error (e, b) => replyWith e b s
      | .ok t =>
        let (k, t) := t.takeFree
        if Config.installFails k then later 0x0201 .internal [] r t.installFailed
        else
          let img := (s.stagedModel.map s.stagedBytes).getD []
          later 0x0201 o.status o.bytes r ((t.installModel m).storeImage img m).dropStaged

/-- A stored image is committed once after start-up, exactly as IMAGE_COMMIT would; it is a long command, and ends after a time
that is free within the 20 s of R386 (R480). (log 65, DEDUCED) -/
def State.storeCommit (s : State) (img : List Byte) : State :=
  let (k, s) := s.takeFree
  let lasts := Config.commitTime k % 20000000001
  let run := fun (s : State) (e : Status) => s.onBoard fun b => { b with reloaded := true, reload := some ⟨s.loc, lasts, e.code⟩ }
  match s.checkImage img (some (leBytes 4 0)) with
  | .error (e, _) => run (s.countAuth e) e
  | .ok (m, o) => match s.claimModel m o with
    | .error (e, _) => run s e
    | .ok t => if Config.installFails k then run t.installFailed .internal else run (t.installModel m) o.status

/-- The commit of the stored image ends, and STORE_RESULT receives its status (R480). (log 65, DEDUCED) -/
def State.storeCommitEnds (s : State) : State :=
  match s.mgmt.board.reload with
  | some x =>
    if s.awake && decide (x.lasts ≤ locDiff s.loc x.start) then
      (s.onBoard fun b => { b with reload := none }).setFld (pid 1 0 0x1A1) 8 8 x.status
    else s
  | none => s

/-- IMAGE_COMMIT. -/
def execImageCommit (req : Req) (s : State) : Host.Outcome State Fault Refusal := .next (s.commandRow 0x0201 req imageCommitBody)

/-- An open bulk-in session of a model image closes, here or on the module that opened it. -/
def State.closeModelSession (s : State) : State :=
  s.onHost fun h => { h with
    bulkIn := h.bulkIn.filter fun b => !(b.kind == 0 && b.dest == s.addr),
    remoteIn := h.remoteIn.filter fun b => b.2.kind != 0 }

/-- IMAGE_UNLOAD's own work (R389). -/
def imageUnloadBody : Body := withLength 4 fun r s =>
  match selectorOf r.payload with
  | some 1 =>
    if s.mgmt.model.active.isNone then reply .wrongState s
    else later 0x0202 .ok [] r s.unloadModel.dropImageClaims
  | some _ =>
    if s.mgmt.model.staged.any fun x => x.kind == 0 then later 0x0202 .ok [] r s.closeModelSession.dropStaged
    else reply .wrongState s
  | none => reply .badParam s

/-- IMAGE_UNLOAD. -/
def execImageUnload (req : Req) (s : State) : Host.Outcome State Fault Refusal := .next (s.commandRow 0x0202 req imageUnloadBody)

/-- Digest of the image a selector names. -/
def State.imageDigest (s : State) (which : Nat) : Option Nat :=
  if which = 1 then s.mgmt.model.active.map (·.digest)
  else s.stagedModel.map fun x => sha384 (sigMessage (s.stagedBytes x))

/-- IMAGE_INFO's own work: the summary of the active or the staged image (R363). (log 54, DESIGN CHOICE) -/
def imageInfoBody : Body := withLength 4 fun r s =>
  match selectorOf r.payload with
  | none => reply .badParam s
  | some w => match s.imageDigest w with
    | some d => replyWith .ok ((Config.imageSummary d).take 4076) s
    | none => reply .wrongState s

/-- IMAGE_INFO. -/
def execImageInfo (req : Req) (s : State) : Host.Outcome State Fault Refusal := .next (s.commandRow 0x0203 req imageInfoBody)

/-! ### Swap (R397 to R399) -/

/-- An enabled lane meets a condition. -/
def State.anyLane (s : State) (f : Nat → Bool) : Bool := (upTo 64).any fun l => s.bitAt (laneId l 0) 0 && f l

/-- A lane is too fast or too short for an image (R389, R397). -/
def State.laneShort (s : State) (slotHold minLead l : Nat) : Bool :=
  decide (s.fld (laneId l 0) 1 17 < slotHold) || decide (s.lead l < minLead)

/-- Pages that IMAGE claims hold in region `g`. -/
def State.imagePages (s : State) (g : Nat) : Nat := s.claimSum fun c => c.image && c.kind == 3 && c.unit == g

/-- What refuses a swap after the checks it shares with a commit; a CAPACITY outcome ends it as it ends a commit (R386 step 5, R388,
R397). (log 56, DEDUCED) -/
def State.swapRefuses (s : State) (m : Model) (o : Outcome) : Option Refused :=
  match s.mgmt.model.active with
  | none => some (.wrongState, [])
  | some old =>
    if o.status == .capacity then some (.capacity, o.bytes)
    else if o.status != .ok then some (.refused, o.bytes)
    else if 1 < m.members || 1 < old.members then some (.refused, [])
    else if s.rtr.activeSet != 0 || s.rtr.nextSet != 0 || s.excluded.isSome then some (.wrongState, [])
    else if ((upTo 8).any fun g => bitOf m.needs.lregions g && decide (s.imagePages g < (m.needs.region g).pages)) ||
        decide (12288 * 1048576 < m.footprint + old.footprint) then some (.noResource, [])
    else if s.anyLane (s.laneShort m.slotHold m.needs.minLead) then some (.badParam, [])
    else none

/-- IMAGE_SWAP's own work: the swap is accepted, its image still to be prepared. (log 56, DEDUCED) -/
def imageSwapBody : Body := withLength 10 fun r s =>
  let p := r.payload
  if selectorOf p != some 0 then reply .badParam s
  else if s.swapping then reply .resourceHeld s
  else match s.checkModel none with
    | .error (e, b) => replyWith e b (s.countAuth e)
    | .ok (m, o) => match s.swapRefuses m o with
      | some (e, b) => replyWith e b s
      | none =>
        let w : Swap := ⟨m, leAt p 4 6, false, false, none, some r, o.bytes⟩
        (none, (s.onModel fun x => { x with swap := some w }).startRunning 0x0205 r .ok o.bytes)

/-- IMAGE_SWAP. -/
def execImageSwap (req : Req) (s : State) : Host.Outcome State Fault Refusal := .next (s.commandRow 0x0205 req imageSwapBody)

/-- The image of a swap is prepared in the model area: the reply says PENDING, or waits for a cut already passed (R398).
(log 56, DEDUCED) -/
def State.swapPrepared (s : State) (r : Running) : State :=
  match s.mgmt.model.swap with
  | none => s
  | some w =>
    if w.prepared then s
    else if w.passed then
      let n := (s.pos.cur.map (·.ssn)).getD s.ssnDone
      s.onModel fun m => { m with swap := some { w with prepared := true, cutSsn := some n } }
    else
      (s.onModel fun m => { m with swap := some { w with prepared := true, req := none }, swapResult := 0x0C }).finish r
        .pending w.outcome

/-- A swap ends with a status, which answers the command when it has not been answered. -/
def State.endSwap (s : State) (st : Status) (note : List Byte) : State :=
  let r := (s.mgmt.model.swap.bind (·.req)).bind fun _ => s.runningOf 0x0205
  (s.onModel fun m => { m with swap := none, swapResult := st.code }).finishOpt r st note

/-- An accepted swap is cancelled; the old image stays active (R399). -/
def State.cancelSwap (s : State) (st : Status) : State := if s.swapping then s.endSwap st [] else s

/-- A held event was emitted by a neuron. -/
def Held.neuron (h : Held) : Bool := decide (srcClass h.src < 2)

/-- Held events of neurons discarded; pending and delayed ingest events stay (R398 step 3). -/
def State.dropNeuronEvents (s : State) : State :=
  let keep := fun (hs : List Held) => hs.filter fun h => !h.neuron
  let s := forEach (upTo 8) (fun s r => s.onNode r fun n => { n with sram := keep n.sram, spill := keep n.spill }) s
  { s with rtr := { s.rtr with ring := s.rtr.ring.filterMap fun f =>
      match f.body with
      | .events evs => if (keep evs).isEmpty then none else some { f with body := .events (keep evs) }
      | _ => some f } }

/-- DEGRADED set on every TENTATIVE and CONFIRMED track (R398 step 4). -/
def State.degradeTracks (s : State) : State :=
  forEach (upTo 8) (fun s lr => forEach (s.slotsOf lr) (fun s e =>
    if e.2.st == .tentative || e.2.st == .confirmed then s.setSlot lr e.1 (some { e.2 with degraded := true }) else s) s) s

/-- SWAP_CUT: between two fabric steps the new image takes the old one's place (R398). (log 56, DEDUCED) -/
def execSwapCut (s : State) : Host.Outcome State Fault Refusal :=
  .next (match s.mgmt.model.swap with
    | none => s
    | some w =>
      whenDue (s.running && s.cutDue) (fun s =>
        let s := ((s.installModel w.model).dropNeuronEvents.degradeTracks.dropStaged).bump (pid 1 0 0x121)
        s.endSwap .ok w.outcome) s)

/-! ### Planes of a split model (R394, R396) -/

/-- The plane that a continuation takes from what was sent: where its layers read it as a plane, in the format they name (R226). -/
def Plan.inputOf (p : Plan) (x : Option PackedPlane) : Option Plane :=
  let reads := p.layers.any fun l => l.kind.makesPlane && l.src.isNone
  x.map fun q => (if reads then { q with fmt := p.inputFmt } else q).plane

/-- A continuation starts in a region that runs logical region `lr`'s tiles: its plane is its input (R392, R396).
(log 56, DEDUCED) -/
def State.startContinuation (s : State) (lr id seg : Nat) (bytes : List Byte) : State :=
  let (u, s) := s.builderFor lr
  let plan := ((s.mgmt.model.active.bind fun m => m.conts.find? (·.1 == seg)).map (·.2)).getD ⟨[], none, []⟩
  let x := s.dense u
  let d := ((upTo (x.live.length + 1)).find? fun i => (x.tile (256 + i)).isNone).getD 0 + 256
  let t : Tile :=
    { lr := lr, slot := 0, id := id, matureSsn := s.ssnClosed, gen := s.obj.gen, origin := ⟨0, 0, 0, [], []⟩,
      pages := [], ready := true, refs := 1, builderRef := true, cancelled := false, data := [], feats := [], w := 0, h := 0,
      cpad := 0, side := [], layers := plan.fresh, segment := some seg, input := plan.inputOf (Config.planeOf seg bytes),
      asked := s.loc }
  (s.onDense u fun x => settleTile d (x.setTile d (some t))).kickEdge u

/-- Final scores come back to the object's own region; those of a track that is CLOSED or gone are discarded as a late vote (R194,
R394, R396). -/
def State.takeScores (s : State) (id seg : Nat) (bytes : List Byte) : State :=
  let lr := bitsOf id 21 3
  match (s.slotsOf lr).find? fun e => e.2.id == id && e.2.st != .closed with
  | none => s.bump (tkId lr 0x405)
  | some (i, _) =>
    let u := s.hostOf lr
    let (w, h, _, _) := s.tileSize lr
    s.onDense u fun x => { x with done := x.done ++
      [{ lr := lr, slot := i, id := id, unit := u, scores := Config.scoresOf seg bytes, maps := none, tileW := w, tileH := h,
         boxAsked := false, boxes := none, posted := none }] }

/-- A whole ACTIVATION message: one at OFFSET 0 begins its plane, the others follow in offset order (R334, R396).
(log 56, DEDUCED) -/
def State.takeActivation (s : State) (m : Message) : State :=
  let discard := s.bump (pid 1 0 0x123)
  let id := leAt m.body 0 4
  let seg := leAt m.body 4 2
  match s.armed, s.transfer seg with
  | true, some x =>
    let mine := fun (p : PartPlane) => p.object == id && p.segment == seg
    let rest := s.planes.filter fun q => !mine q
    let offset := leAt m.body 8 4
    let old := if offset = 0 then none else s.planes.find? mine
    if (old.isNone && 256 ≤ rest.length) || offset != (old.map (·.bytes.length)).getD 0 then discard
    else
      let p : PartPlane := old.getD ⟨id, seg, m.src, m.port, []⟩
      let p := { p with bytes := p.bytes ++ m.body.drop 12 }
      let s := { s with planes := rest }
      if p.bytes.length < x.bytes then { s with planes := s.planes ++ [p] }
      else
        let bytes := p.bytes.take x.bytes
        if x.rx = 0xFF then s.takeScores id seg bytes else s.startContinuation (x.rx % 8) id seg bytes
  | _, _ => discard

/-- ACTIVATION: a flit of a plane for this module, or one to forward; an ABORT discards the plane (R331, R334, R396). -/
def execActivation (port : Nat) (flit : SpokeFlit) (s : State) : Host.Outcome State Fault Refusal :=
  let before := ((s.spk port).parts.getD flit.vc none).filter fun q => q.first.mtype == 6
  match flitRow port flit (flit.mtype == 6) (fun m s => s.takeActivation m) s with
  | .next s' =>
    let took := (s'.spk port).seqRx != (s.spk port).seqRx
    let limit := (s.mgmt.model.active.map (·.maxHops)).getD 16
    let s' := s'.bumpIf (took && s.chain.isSome && flit.dest.toNat == s.addr && !flit.bcast && decide (limit < flit.hops)) (pid 1 0 0x124)
    .next (match before with
      | some q =>
        if took && flit.abort then
          let id := leAt q.body 0 4
          let seg := leAt q.body 4 2
          { s'.bump (pid 1 0 0x122) with planes := s'.planes.filter fun x => !(x.object == id && x.segment == seg) }
        else s'
      | none => s')
  | o => o

end Sys2Proof.Machine
end

