-- ==== Sys2Proof/Machine/StepEnd.lean ====
section
/-!
DEFINITION. The end of a fabric step (R50, R55, R131, R152 to R155, R180, R211): the last block finished, converters,
history, the trackers' turn and SSN_DONE.
-/

namespace Sys2Proof.Machine

/-- Every block of a region that takes part in fabric steps has finished the one in evaluation (R50, R131). -/
def State.allFinished (s : State) : Bool :=
  s.pos.cur.isSome && (upTo 128).all fun b => !s.takesPart b || (s.block b).finished

/-- SHED mask of a fabric step: what it closed with, and marks placed on its SSN since (R116, R160, R176). -/
def State.shedOf (s : State) (st : FabStep) : Nat :=
  (s.pos.ssnMarks.filter fun m => m.1 == st.ssn).foldl (fun a m => a ||| m.2) st.shed

/-- Logical regions whose trackers and converters work: not those served by a region that failed in this step (R391). -/
def State.served (s : State) : List Nat := (upTo 8).filter fun lr => !s.mgmt.power.failing.contains (s.hostOf lr)

/-- What the end of a fabric step's evaluation brings to its consumers: encoders and decoders act, the histories and the trackers
take it. (log 13, DESIGN CHOICE) -/
def State.stepWork (s : State) (st : FabStep) : State :=
  let emitted := (upTo 128).flatMap fun b => (s.block b).out
  let lrs := s.served
  let s := forEach lrs (fun s lr => s.countStalls st.ssn lr) s
  let s := forEach lrs (fun s lr => s.encodersEnd st lr) s
  let s := forEach lrs (fun s lr => s.decodersEnd st.ssn emitted lr) s
  let s := forEach lrs (fun s lr => s.appendHist lr st emitted) s
  let s := forEach ((upTo 128).filter fun b => !s.takesPart b) (fun s b => s.sleepIdle b) s
  let s := s.sample 1 0 (locDiff s.loc s.pos.stepAt)
  let s := forEach (upTo 8) (fun s lr => s.sample 0xB lr (s.slotsOf lr).length) s
  let info : StepInfo := ⟨st.ssn, st.hw, st.backstop, s.shedOf st⟩
  forEach (upTo 8) (fun s lr => s.onTracker lr fun t => { t with todo := t.todo ++ [info] }) s

/-- A fabric step is done: SSN_DONE advances, the Sluice and a waiting replay closure see the smaller lag; switches of the map
that wait are made. -/
def State.stepDone (s : State) (st : FabStep) : State :=
  let s := { s with pos := { s.pos with cur := none, ssnMarks := s.pos.ssnMarks.filter fun m => m.1 != st.ssn } }
  (s.setWord (posId 0x0E) (BitVec.ofNat 32 st.ssn)).settleSwitches.sluiceFall.makeOwed.replayFree

/-- The fabric step in evaluation ends. (log 13, DESIGN CHOICE) -/
def State.endStep (s : State) (st : FabStep) : State := (s.stepWork st).stepDone st

/-- The step ends once nothing of it is left to finish. -/
def State.endIfDone (s : State) : State :=
  match s.pos.cur with
  | some st => if s.allFinished then s.endStep st else s
  | none => s

/-- BLOCK_STEP_FINISHED: a block that has evaluated its step reports it finished and sleeps (R131, R150). -/
def execBlockStepFinished (region block : Nat) (s : State) : Host.Outcome State Fault Refusal :=
  let b := region * 16 + block
  onUnit (decide (region < 8) && decide (block < 16)) s
    (whenDue (s.pos.cur.isSome && s.takesPart b && (s.block b).evaluated && !(s.block b).finished)
      (fun s => ((s.onBlock b fun x => { x with finished := true, input := [] }).setFld (pid 5 b 2) 0 1 0).endIfDone) s)

end Sys2Proof.Machine
end

