-- ==== Sys2Proof/Machine/Arm.lean ====
section
/-!
DEFINITION. ARM and STOP (14_commands.md R363, R482, R483): the arming checks of the owning chapters, what the arming instant
sets, and how the pipeline stops.
-/

namespace Sys2Proof.Machine

/-! ### Arming checks -/

/-- POSITION.CTRL.SOURCE. -/
def State.source (s : State) : Nat := s.fld (posId 0) 0 2

/-- Checks of the position unit and of device time (R41, R59, R60, R68). -/
def State.armPosition (s : State) : List (Bool × Status) :=
  let st := (s.domain s.time.active).state
  [(s.source == 1 && s.word (posId 5) == 0, .badParam),
   (s.source == 1 && st != .locked, .wrongState),
   (s.asyncMode && s.source != 2, .wrongState),
   (s.source == 2 && !s.asyncMode && s.bitAt (posId 7) 0 && s.fld (posId 7) 1 24 == 0, .badParam),
   (!s.localOnly && st != .locked && st != .freewheel, .wrongState)]

/-- Two bands overlap (R168). -/
def State.bandsMeet (s : State) : Bool :=
  (upTo 8).any fun g => (upTo g).any fun h =>
    match s.band g, s.band h with
    | some (a, b), some (c, d) => decide (a ≤ d) && decide (c ≤ b)
    | _, _ => false

/-- History ring of logical region `r`: first byte and length. -/
def State.histRing (s : State) (r : Nat) : Nat × Nat := (s.wide (pid 8 r 1) % 2 ^ 48, s.fld (pid 8 r 3) 0 24 * 4096)

/-- A logical region's tile builder is enabled. -/
def State.tileOn (s : State) (r : Nat) : Bool := s.bitAt (pid 8 r 0) 0

/-- Checks of the tile builders (R213, R219, R292). (log 57, DEDUCED) -/
def State.armTiles (s : State) : List (Bool × Status) :=
  let on := (upTo 8).filter s.tileOn
  let rings := (upTo 8).filter fun r => (s.histRing r).2 != 0
  [(rings.any fun r => !s.hostRange (s.histRing r).1 (s.histRing r).2, .badParam),
   (on.any fun r => (s.histRing r).2 == 0, .badParam),
   (rings.any fun r => rings.any fun q => decide (q < r) &&
      meets (s.histRing r).1 (s.histRing r).2 (s.histRing q).1 (s.histRing q).2, .badParam),
   (on.any fun r => decide (s.tilePages r < (s.tileSize r).2.2.2), .badParam),
   (on.any fun r => (upTo (s.fld (pid 8 r 0) 11 4 + 1)).any fun k =>
      s.fld (pid 8 r (0x10 + k)) 0 4 == 5 &&
        (!s.bitAt (auxModId 3) 5 || !s.bitAt (auxId (s.fld (pid 8 r (0x10 + k)) 12 4) 0) 0), .badParam)]

/-- Rows to which some class maps. -/
def State.usedRows (s : State) : List Nat := (upTo 4).filter fun r => (upTo 256).any fun c => s.classRow c == some r

/-- Checks of the Tailrace (R262). -/
def State.armTailrace (s : State) : List (Bool × Status) :=
  let cols := s.fld (tailId 3) 0 6
  let rows := s.usedRows
  [(s.bitAt (tailId 0) 0 &&
     ((rows.any fun r => decide (63 < s.rowBase r + cols)) || decide (63 < s.rowBase 0 + cols) ||
      (rows.any fun r => rows.any fun q => decide (q < r) && meets (s.rowBase r) (cols + 1) (s.rowBase q) (cols + 1)) ||
      s.anyLane (fun l => s.lead l == 0 || !s.bitAt (groupId (s.fld (laneId l 0) 18 3) 0) 0) ||
      s.word (tailId 1) == 0), .badParam)]

/-- Queues that enabled hardware writers name, with their producer codes (R301). -/
def State.hwWriters (s : State) : List (Nat × Nat) :=
  ((upTo 4).filterMap fun p => if s.bitAt (pid 2 p 3) 12 then some (s.fld (pid 2 p 3) 0 12, 1) else none) ++
    [0, 4].filterMap fun r => if s.bitAt (pid 0x0B r 0x11) 12 then some (s.fld (pid 0x0B r 0x11) 0 12, 2) else none

/-- Checks of the queues and auxiliary channels (R279, R301). -/
def State.armQueues (s : State) : List (Bool × Status) :=
  let ws := s.hwWriters
  [((upTo 16).any fun c => s.bitAt (auxId c 0) 0 && !s.auxClock (s.word (auxId c 0)).toNat, .badParam),
   (ws.any fun w => !s.qEnabled w.1 || s.qProducer w.1 != w.2, .badParam),
   (!decide ((ws.map (·.1)).Nodup), .badParam)]

/-- Checks of the model image (R389, R395). -/
def State.armModel (s : State) : List (Bool × Status) :=
  match s.mgmt.model.active with
  | none => [(true, .wrongState)]
  | some m =>
    [(s.anyLane (s.laneShort m.slotHold m.needs.minLead), .badParam),
     (decide (1 < m.members) && m.addrs.zipIdx.any fun a => a.2 != m.member && a.1 != s.addr && (s.route a.1).isNone, .notPresent)]

/-- Every arming check, in the order of the chapters that own them; the first failure decides. (log 57, DEDUCED) -/
def State.armRefuses (s : State) : Option Status :=
  refusal (s.armPosition ++
    [((upTo 128).any fun b => (upTo 16).any fun c => !(s.classPar b c).valid, .badParam), (s.bandsMeet, .badParam)] ++
    s.armTiles ++ s.armTailrace ++ s.armQueues ++ s.armModel)

/-! ### The arming instant (R482) -/

/-- The curve of the SYNTHETIC source (R40). -/
def State.synthCurve (s : State) : Curve :=
  let sec := s.dev.fdiv 1000000000
  let e := sec - (codeOf 32 (sec - (s.word (posId 6)).toNat) : Nat)
  ⟨(s.origin : Int) * 65536, e * 1000000000, (s.word (posId 5)).toNat, 256⟩

/-- Count of the first POSITION marker among the at most `n` words that replay reads from `a` on (R35, R117).
(log 58, DEDUCED) -/
def State.firstMarker (s : State) (a : Nat) : Nat → Option Nat
  | 0 => none
  | n + 1 =>
    let w := ofLe (s.readBytes a 8)
    if !s.replayLeft a then none
    else if bitOf w 63 && bitsOf w 60 3 == 0 then some (bitsOf w 0 48) else s.firstMarker (s.replayNext a) n

/-- The source takes effect (R35). (log 58, DEDUCED) -/
def State.armSource (s : State) : State :=
  match s.source with
  | 1 =>
    let c := s.synthCurve
    let s := { s with pos := { s.pos with src := .synthetic, curve := c } }
    s.loadCount (codeOf 48 ((c.at s.dev).fdiv 65536))
  | 2 =>
    let a := s.replayStart
    let s := { s with pos := { s.pos with src := .replay }, head := { s.head with repOff := a } }
    match s.firstMarker a ((if s.replayStart ≤ s.replayEnd then s.replayEnd - a else s.recBytes) / 8) with
    | some c => { s.loadCount c with head := { s.head with repOff := a, repMark := c } }
    | none => s
  | _ => { s with pos := { s.pos with src := .encoder } }

/-- High-water position and step bookkeeping at arming (R47, R49, R53, R124). (log 13, DESIGN CHOICE) -/
def State.armSteps (s : State) : State :=
  let d := posDiff s.pos.count s.origin - (s.guard : Int)
  let s := { s with pos := { s.pos with
    hw := s.pos.count, openK := d.fdiv (s.stepLen : Int), posMarks := [], ssnMarks := [], closed := [], owed := [], hold := false,
    cur := none, stepped := false, sAll := 0, sNorm := 0, lastClose := s.loc, armedAt := s.loc, armDev := s.dev } }
  (s.setWord (posId 0x0D) 0).setWord (posId 0x0E) 0

/-- T0 of a camera port: the first whole µs at least 2 ms after arming (R105). -/
def firstEdge (dev : Int) : Int := -((-(dev + 2000000)).fdiv 1000) * 1000

/-- Unpackers, refractory stamps and sync sequences of the camera ports (R100, R104, R105). -/
def State.armPorts (s : State) : State :=
  forEach (upTo 4) (fun s p => s.onPort p fun q =>
    { q with vcs := [], refract := [], oldRefs := [], synced := false, sync := false, edge := 0,
             t0 := if s.bitAt (hpId p 0) 0 then some (firstEdge s.dev) else none }) s

/-- Every neuron block, and the converters (R125, R139, R153, R154). (log 13, DESIGN CHOICE) -/
def State.armFabric (s : State) : State :=
  let s := forEach (upTo 128) (fun s b =>
    let seed := (s.word (pid 5 b 1)).toNat
    (s.onBlock b fun x => { s.fillBlock b x with lfsr := seed, badState := x.badState }).sleepIdle b) s
  forEach (upTo 8) (fun s r =>
    let seed := (s.word (pid 5 (0x80 + r) 1)).toNat
    s.onConv r fun _ => { Conv.empty with lfsr := seed }) s

/-- Sequence numbers of the destination groups, and records of slots already used (R268, R273). -/
def State.armTail (s : State) : State :=
  let s := forEach (upTo 8) (fun s g => s.setFld (groupId g 5) 0 16 0) s
  { s with tail := { s.tail with written := [] } }

/-- Enabled auxiliary channels take a synchronising reset (R285). -/
def State.armAux (s : State) : State := forEach (upTo 16) (fun s c => if s.bitAt (auxId c 0) 0 then s.auxReset c s.loc else s) s

/-- The pipeline becomes armed. (log 11, DEDUCED; 57, DEDUCED) -/
def State.armNow (s : State) : State :=
  { (s.armSource.armSteps.clearRouter.armPorts.armFabric.armTail.armAux) with armed := true, cmd := .armed }

/-- ARM's own work. -/
def armBody : Body := withLength 0 fun r s =>
  match s.armRefuses with
  | some e => reply e s
  | none => later 0x0300 .ok [] r s.armNow

/-- ARM. -/
def execArm (req : Req) (s : State) : Host.Outcome State Fault Refusal := .next (s.commandRow 0x0300 req armBody)

/-! ### STOP (R363, R483) -/

/-- The oldest flit on the ring arrives whole. -/
def State.ringArrives (s : State) : State :=
  match s.rtr.ring with
  | [] => s
  | f :: rest =>
    let s := { s with rtr := { s.rtr with ring := rest } }
    match f.body, ringRegion f.dest, ringRegion f.src with
    | .events evs, some r, _ => forEach evs (fun s h => s.holdEvent r h) s
    | .close k backstop ssn, some r, _ => s.takeClose r k backstop ssn
    | .stepEnd ssn, some r, some q => s.takeStepEnd r q ssn
    | _, _, _ => s

/-- Every flit now on the ring arrives. -/
def State.ringDrains (s : State) : State := s.rtr.ring.foldl (fun s _ => s.ringArrives) s

/-- Spilled events of the step in evaluation come back to their nodes, which release them (R175). -/
def State.spillReturns (s : State) : State :=
  match s.curSsn with
  | none => s
  | some n => forEach (upTo 8) (fun s r =>
      (s.onNode r fun x => { x with sram := x.sram ++ x.spill.filter (·.due n), spill := x.spill.filter fun h => !h.due n }).releaseNode r) s

/-- The fabric step in evaluation completes its evaluation (R483 step 1): the events due arrive, and every block that takes
part evaluates; what it emits is held, like the events of a step before. (log 57, DEDUCED) -/
def State.finishStep (s : State) : State :=
  match s.pos.cur with
  | none => s
  | some st =>
    let s := s.ringDrains.spillReturns.ringDrains.ringDrains
    let s := forEach (upTo 128) (fun s b =>
      if s.takesPart b && !(s.block b).evaluated && !(s.block b).finished then s.evalBlock b st.ssn else s) s
    { s.stepWork st with armed := false, cmd := .ready }.stepDone st

/-- STOP steps 2 to 4: what is held is discarded, lag reads 0, the Sluice disengages. -/
def State.dropFabric (s : State) : State :=
  let s := forEach (upTo 128) (fun s b =>
    (s.onBlock b fun x => { x with input := [], out := [], evaluated := false, finished := false }).sleepIdle b) s
  let s := { s.clearRouter with pos := { s.pos with closed := [], owed := [], cur := none, posMarks := [], ssnMarks := [] } }
  (s.setWord (posId 0x0E) (s.word (posId 0x0D))).disengage

/-- The camera sequences end, and ports have no T0 (R105, R484). -/
def State.stopPorts (s : State) : State :=
  forEach (upTo 4) (fun s p => (s.endSync p).onPort p fun q => { q with t0 := none, synced := false, edge := 0 }) s

/-- The pipeline stops. (log 56, DEDUCED; 57, DEDUCED) -/
def State.stopNow (s : State) : State :=
  let s := (s.cancelSwap .wrongState).finishStep.dropFabric.stopPorts.freeTracks
  let s := { s with
    armed := false, cmd := .ready, pos := { s.pos with src := .encoder, hold := false },
    tail := { s.tail with pend := [], recs := [], heldCopies := [] } }
  (s.setFld (posId 0x0F) 9 1 0).settleSwitches

/-- STOP. -/
def execStop (req : Req) (s : State) : Host.Outcome State Fault Refusal :=
  .next (s.commandRow 0x0301 req (withLength 0 fun _ s => reply .ok s.stopNow))

end Sys2Proof.Machine
end

