-- ==== Sys2Proof/Machine/Reset.lean ====
section
/-!
DEFINITION. Input power (19_module.md R460 to R466), the start-up sequence (14_commands.md R373, R375; 18_security.md R446, R452)
and the model store in flash (R480).
-/

namespace Sys2Proof.Machine

/-! ### What a reset keeps (R13, R28, R348, R375, R378, R427, R455) -/

/-- Words that a module reset keeps: counters of their chapters, and the latest reading of each temperature sensor.
(log 31, DEDUCED) -/
def keptWords : List Nat :=
  (upTo 8).map (fun i => pid 1 0 (0x160 + i)) ++ [pid 1 0 0x141, pid 0x16 0 1, pid 0x16 0 0x100, pid 0x16 0 0x101, pid 0x17 0 0x100, sdioId 0x100, sdioId 0x101, sdioId 0x102,
   sdioId 0x103, sdioId 0x104, sdioId 0x105]

/-- COMPAT_SEL as sampled (R466). -/
def State.sampleCompat (s : State) (compatSel : Bool) : State := s.setFld (pid 1 0 0x100) 25 1 (bit compatSel)

/-- Length of the fatal dump area (R28). -/
def dumpSize : Nat := 256 * 1048576

/-- The logs start empty, and sequence numbers go on (R434). (log 31, DEDUCED) -/
def State.logsCleared (s : State) : LogState :=
  let l := s.mgmt.logs
  { errors := [], errBase := l.errBase + l.errors.length, alignBase := l.alignBase + s.trk.alignLog.length, history := [],
    histBase := l.histBase + l.history.length }

/-- Self-test before the boot set has run. -/
def TestState.fresh : TestState := { results := [], fwResult := 0, bootRun := true, bootDone := false }

/-- The module after a reset under R375: start-up from step 2 on. Domains 93 and 99, the local counter, the position counter,
the encoder log, the SDIO bus state, the auxiliary channels' SEQ (R290) and the fatal dump area go on; `hold` keeps the compute
die in reset (R427).
(log 31, DEDUCED; 32, DEDUCED) -/
def State.rebooted (s : State) (compatSel hold : Bool) : State :=
  let p := s.pos
  let d := s.host.sdio
  let m := s.mgmt
  let z := { State.reset with
    pending := s.pending, loc := s.loc, free := s.free, lastWord := s.lastWord, lastStatus := s.lastStatus, cmd := .boot,
    regs := s.regs.filter fun e => keptWords.contains e.1,
    mem := s.mem.filter fun e => inRange dumpBase dumpSize e.1,
    aux := s.aux.filterMap fun (e : Nat × AuxChan) => if e.2.seq = 0 then none else some (e.1, { AuxChan.empty with seq := e.2.seq }),
    pos := { PosState.reset with
      count := p.count, encA := p.encA, encB := p.encB, zAt := p.zAt, log := p.log, load := p.load, decoded := p.decoded },
    host := { HostState.reset with
      sdio := { HostState.reset.sdio with
        rca := d.rca, selected := d.selected, switched := d.switched, tuned := d.tuned, f0 := d.f0 } },
    mgmt := { MgmtState.reset with
      logs := s.logsCleared, fault := { FaultState.reset with faultN := true, thermalHold := hold },
      sec := { m.sec with nonces := m.sec.nonces + 1 }, test := .fresh,
      board := { m.board with softStart := 0, tripped := 0, storing := none, reloaded := false, reload := none } } }
  z.sampleCompat compatSel

/-! ### Input power (R460 to R463, R465) -/

/-- Input power is lost: everything but the fuses, the flash and ATTEST_COUNT goes with it; FAULT_N reads as faulted (R438,
R441, R455, R461, R465). (log 31, DEDUCED) -/
def State.unpowered (s : State) (next : Supply) (trips : Nat) : State :=
  { State.reset with
    pending := s.pending, free := s.free, lastWord := s.lastWord, lastStatus := s.lastStatus, cmd := .boot,
    regs := s.regs.filter fun e => e.1 == pid 0x16 0 1,
    mgmt := { MgmtState.reset with
      fault := { FaultState.reset with faultN := true }, sec := s.mgmt.sec, test := .fresh,
      board := { BoardState.reset with supply := next, trips := trips, store := s.mgmt.board.store } } }

/-- PRESENT_N_MATE: the hot-swap controller starts its qualification (R460). -/
def execPresentNMate (s : State) : Host.Outcome State Fault Refusal :=
  .next (whenDue (s.mgmt.board.supply == .absent) (fun s => s.onBoard fun b => { b with supply := .qualifying, trips := 0 }) s)

/-- VIN_QUALIFIED: 50 ms in range, and the load is charged (R460). -/
def execVinQualified (s : State) : Host.Outcome State Fault Refusal :=
  .next (whenDue (s.mgmt.board.supply == .qualifying) (fun s => s.onBoard fun b => { b with supply := .charging }) s)

/-- VIN_OUT_OF_RANGE: the load is disconnected, and qualification starts again; a trip's wait of 1 s goes on, and a lock-out ends
only when the excursion is a removal of VIN (R460, R461, R463). (log 66, DEDUCED) -/
def execVinOutOfRange (s : State) : Host.Outcome State Fault Refusal :=
  .next (match s.mgmt.board.supply with
    | .absent | .tripped => s
    | .lockedOut =>
      let (k, s) := s.takeFree
      if Config.vinRemoved k then s.unpowered .qualifying 0 else s
    | _ => s.unpowered .qualifying 0)

/-- PRESENT_N_OPEN: the load is disconnected (R462). -/
def execPresentNOpen (s : State) : Host.Outcome State Fault Refusal :=
  .next (whenDue (s.mgmt.board.supply != .absent) (fun s => s.unpowered .absent 0) s)

/-- OVERCURRENT_TRIP: the load is disconnected; after the third trip it stays so (R463). -/
def execOvercurrentTrip (s : State) : Host.Outcome State Fault Refusal :=
  .next (whenDue s.powered (fun s =>
    let n := s.mgmt.board.trips + 1
    s.unpowered (if n < 3 then .tripped else .lockedOut) n) s)

/-- OVERCURRENT_RETRY: 1 s after a trip qualification starts again (R463). -/
def execOvercurrentRetry (s : State) : Host.Outcome State Fault Refusal :=
  .next (whenDue (s.mgmt.board.supply == .tripped) (fun s => s.onBoard fun b => { b with supply := .qualifying }) s)

/-- The erase of an entry into RETURNED, which ends with ERASE_PENDING cleared (R441). -/
def State.finishErase (s : State) : State :=
  if s.mgmt.sec.erasePending then
    (s.onSec fun c => { c with cert := false, ownerKeys := [], ownerDigest := 0, erasePending := false }).onBoard fun b =>
      { b with store := none, storing := none }
  else s

/-- POWER_GOOD: step 1 of start-up; counters start at 0, FAULT_N is asserted (R373, R428, R440, R447, R466). -/
def execPowerGood (compatSel : Bool) (s : State) : Host.Outcome State Fault Refusal :=
  .next (whenDue (s.mgmt.board.supply == .charging) (fun s =>
    let s := s.unpowered .on s.mgmt.board.trips
    ((s.onSec fun c => { c with nonces := c.nonces + 1, powerUps := c.powerUps + 1 }).finishErase).sampleCompat compatSel) s)

/-! ### Self-test and firmware (R445, R446, R451 to R453) -/

/-- Codes of the boot set. -/
def bootCodes : List Nat := (upTo 30).map (· + 1)

/-- Failed slices of a run. -/
def failedOf (rs : List SliceResult) : List SliceResult := rs.filter fun r => r.result != 0

/-- Slices counted, and the last failure named (R453, R455). (log 62, DEDUCED) -/
def State.countSlices (s : State) (rs : List SliceResult) : State :=
  let s := s.bump (pid 0x17 0 0x100) (failedOf rs).length
  match (failedOf rs).getLast? with
  | some r => s.setFld (pid 0x17 0 0) 8 8 r.code
  | none => s

/-- A run of slices recorded as the latest one (R453). -/
def State.recordRun (s : State) (rs : List SliceResult) (boot : Bool) : State :=
  (s.onTest fun t => { t with results := rs, bootRun := boot }).countSlices rs

/-- SAFE: the compute die is held in reset, FAULT_N stays asserted (R372, R428, R452). -/
def State.enterSafe (s : State) : State := { s with cmd := .safe }.onFault fun f => { f with faultN := true }

/-- The boot ROM is at work: no fatal error is being handled and the die is not held in reset. -/
def State.booting (s : State) : Bool :=
  s.powered && s.cmd == .boot && s.mgmt.fault.fatal.isNone && !s.mgmt.fault.thermalHold

/-- Total time of a run in us. -/
def runTime (rs : List SliceResult) : Nat := (rs.map (·.timeUs)).sum

/-- BOOT_SLICE_SET_DONE: step 6; FAULT_N is released when every slice passed, and the module enters SAFE otherwise (R373, R428,
R452). -/
def execBootSliceSetDone (results : List SliceResult) (s : State) : Host.Outcome State Fault Refusal :=
  .next (whenDue (s.booting && !s.mgmt.test.bootDone && results.map (·.code) == bootCodes) (fun s =>
    let s := (s.recordRun results true).setFld (pid 0x17 0 0) 16 14 (runTime results / 10)
    if (failedOf results).isEmpty then
      (s.onTest fun t => { t with bootDone := true }).onFault fun f => { f with faultN := false }
    else s.enterSafe) s)

/-- The firmware copy `n`: 0 A, 1 B. -/
def State.copyOf (s : State) (n : Nat) : Option FwCopy := if n = 0 then s.mgmt.sec.copyA else s.mgmt.sec.copyB

/-- The boot ROM accepts a copy: signatures good, slot not revoked, SVN at least the fuse SVN (R446). -/
def State.copyAccepted (s : State) (n : Nat) (signed : Bool) : Bool :=
  (s.copyOf n).any fun c => signed && !bitOf s.mgmt.sec.revoked c.keySet && decide (s.mgmt.sec.fuseSvn ≤ c.svn)

/-- A firmware copy runs: step 7. -/
def State.runCopy (s : State) (n fwResult : Nat) : State :=
  ({ s with cmd := .early }.onSec fun c => { c with running := n }).onTest fun t => { t with fwResult := fwResult }

/-- FIRMWARE_VERIFIED: the preferred copy is tried first and the other one second; with neither, SAFE (R373, R446). -/
def execFirmwareVerified (preferredOk otherOk : Bool) (s : State) : Host.Outcome State Fault Refusal :=
  .next (whenDue (s.booting && s.mgmt.test.bootDone) (fun s =>
    let p := s.mgmt.sec.preferred
    if s.copyAccepted p preferredOk then s.runCopy p 0
    else if s.copyAccepted (1 - p) otherOk then s.runCopy (1 - p) 1
    else (s.onTest fun t => { t with fwResult := 2 }).enterSafe) s)

/-- Firmware has reached READY: the fuse SVN rises to its SVN, and the slots it names are revoked (R446). -/
def State.fuseFirmware (s : State) : State :=
  match s.copyOf s.mgmt.sec.running with
  | none => s
  | some f => s.onSec fun c => { c with fuseSvn := max c.fuseSvn f.svn, revoked := c.revoked ||| f.revoke % 16 }

/-- Every enabled spoke port that has power has made its one attempt (step 9 of R373): it is UP, in HOLD, or has been in HOLD
since the reset. (log 33, DEDUCED) -/
def State.portsTried (s : State) : Bool :=
  (upTo 4).all fun p =>
    let x := s.spk p
    !s.bitAt (spkId p 0) 0 || s.domOff (36 + p) || x.state == .up || x.state == .hold || x.holdAt != 0

/-- STARTUP_READY: step 10 (R373). -/
def execStartupReady (s : State) : Host.Outcome State Fault Refusal :=
  .next (whenDue (s.powered && s.cmd == .early && s.portsTried) (fun s => { s.fuseFirmware with cmd := .ready }) s)

/-- The reset that MODULE_RESET asked for is due: its reply is released, or has been in the outbox for 10 ms (R375).
(log 32, DEDUCED; 65, DEDUCED) -/
def State.resetDue (s : State) : Bool :=
  s.powered && s.mgmt.fault.fatal.isNone && decide (10000000 ≤ locDiff s.loc s.host.resetAt) &&
    (match s.host.resetReply with
     | none => false
     | some b => b.isEmpty || s.host.replies.head? == some b)

/-- MODULE_RESET_EXECUTE (R375). -/
def execModuleResetExecute (compatSel : Bool) (s : State) : Host.Outcome State Fault Refusal :=
  .next (whenDue s.resetDue (fun s => s.rebooted compatSel false) s)

/-! ### Model store (R480) -/

/-- MODEL_STORE_COPY_DONE: the background copy replaces the previous one. -/
def execModelStoreCopyDone (s : State) : Host.Outcome State Fault Refusal :=
  .next (match s.mgmt.board.storing with
    | some img => whenDue s.awake (fun s => s.onBoard fun b => { b with store := some img, storing := none }) s
    | none => s)

/-- The stored image is committed once after start-up has reached READY, with EN = 1. (log 4, DESIGN CHOICE; 65, DEDUCED) -/
def State.storeReload (s : State) : State :=
  match s.mgmt.board.store with
  | some img =>
    if s.powered && s.cmd == .ready && s.bitAt (pid 1 0 0x1A0) 0 && !s.mgmt.board.reloaded && !s.longRuns then s.storeCommit img
    else s
  | none => s

end Sys2Proof.Machine
end

