-- ==== Sys2Proof/Machine/Logs.lean ====
section
/-!
DEFINITION. Monitor channels, the three logs and their commands (17_faults.md R432 to R436).
-/

namespace Sys2Proof.Machine

/-! ### Records (R433, R434) -/

/-- Time of an entry: low 32 bits of the seconds field, and the ns field. -/
def stampBytes (t : Int) : List Byte := leBytes 4 (secOf t) ++ leBytes 4 (nsOf t)

/-- An error log entry of 32 bytes. -/
def ErrEntry.bytes (e : ErrEntry) : List Byte :=
  stampBytes e.time ++ leBytes 6 e.pos ++ leBytes 1 e.level ++ leBytes 1 e.action ++ leBytes 1 e.report.block ++ leBytes 1 0 ++
    leBytes 2 e.report.inst ++ leBytes 2 e.report.code ++ leBytes 2 0 ++ leBytes 8 e.report.detail.toNat

/-- An alignment change log entry of 32 bytes. -/
def AlignChange.bytes (c : AlignChange) : List Byte :=
  stampBytes c.time ++ leBytes 1 c.port ++ leBytes 1 0 ++ leBytes 2 c.samples ++
    ((upTo 4).flatMap fun i => leBytes 4 (codeOf 32 (c.values.getD i 0))) ++ leBytes 4 0

/-- A monitor record of 160 bytes. (log 35, DESIGN CHOICE) -/
def monRecord (n quantity inst : Nat) (changed : Bool) (time : Int) (b : MonBuf) : List Byte :=
  let none_ := b.samples == 0
  leBytes 2 n ++ leBytes 1 quantity ++ leBytes 1 (bit changed) ++ leBytes 4 inst ++ stampBytes time ++ leBytes 4 b.samples ++
    leBytes 4 (if none_ then 0x7FFFFFFF else codeOf 32 (satInt 32 b.lo)) ++
    leBytes 4 (if none_ then 0x80000000 else codeOf 32 (satInt 32 b.hi)) ++ leBytes 4 0 ++
    (upTo 32).flatMap fun i => leBytes 4 (b.bins.getD i 0)

/-- Snapshot record of channel `n`. -/
def State.snapRecord (s : State) (n : Nat) : List Byte :=
  let c := s.mon n
  monRecord n c.quantity c.inst c.snapChanged c.time c.snap

/-- Live record of channel `n`, as the dump holds it (R430); its time is that of the last swap. -/
def State.liveRecord (s : State) (n : Nat) : List Byte :=
  let c := s.mon n
  monRecord n (s.fld (pid 0x15 n 0) 0 8) (s.fld (pid 0x15 n 0) 8 16) c.changed c.time c.live

/-! ### Monitors (R432, R433) -/

/-- A channel's buffers swapped; the new live buffer is clear. (log 35, DESIGN CHOICE) -/
def State.swapMon (s : State) (n : Nat) : State :=
  let cfg := (s.word (pid 0x15 n 0)).toNat
  let t := s.dev
  s.onMon n fun c =>
    { live := .empty, snap := c.live, changed := false, quantity := bitsOf cfg 0 8, inst := bitsOf cfg 8 16, time := t,
      snapChanged := c.changed, tickAt := c.tickAt }

/-- Entries that the monitor history holds at most (R434). -/
def histLimit : Nat := 6291456

/-- Records appended to the monitor history; the oldest entries give way. -/
def State.appendHistory (s : State) (rs : List (List Byte)) : State :=
  s.onLogs fun l =>
    let all := l.history ++ rs
    let excess := all.length - histLimit
    { l with history := all.drop excess, histBase := l.histBase + excess }

/-- PERIOD ms have passed since the last swap (R432). (log 35, DESIGN CHOICE) -/
def State.snapDue (s : State) : Bool :=
  s.mgmt.snapAt.all fun a => decide (s.fld (pid 0x15 0x40 0) 0 16 * 1000000 ≤ locDiff s.loc a)

/-- The period of a source timer has passed since its last sample: 1 µs for queues, else 1 ms (R433). (log 35, DESIGN CHOICE) -/
def State.tickDue (s : State) (n : Nat) : Bool :=
  (s.mon n).tickAt.all fun a =>
    decide ((if s.fld (pid 0x15 n 0) 0 8 = 3 then 1000 else 1000000) ≤ locDiff s.loc a)

/-- The timer of channel `n` starts its next period. -/
def State.tickTaken (s : State) (n : Nat) : State := s.onMon n fun c => { c with tickAt := some s.loc }

/-- MONITOR_SNAP_SWAP: all 64 channels swap in one cycle (R432, R434). -/
def execMonitorSnapSwap (s : State) : Host.Outcome State Fault Refusal :=
  .next (whenDue (s.running && s.snapDue) (fun s =>
    let s := forEach (upTo 64) (fun s n => s.swapMon n) { s with mgmt := { s.mgmt with snapAt := some s.loc } }
    if s.bitAt (pid 0x15 0x40 0) 16 then s.appendHistory ((upTo 64).map s.snapRecord) else s) s)

/-- MONITOR_SAMPLE_TICK: a channel's source timer fires (R433). -/
def execMonitorSampleTick (channel : Nat) (value : Word) (s : State) : Host.Outcome State Fault Refusal :=
  onUnit (decide (channel < 64)) s
    (whenDue (s.running && s.tickDue channel) (fun s =>
      let inst := s.fld (pid 0x15 channel 0) 8 16
      match s.fld (pid 0x15 channel 0) 0 8 with
      | 3 => (s.sampleOn channel (s.queue inst).words.length).tickTaken channel
      | 6 =>
        let n : Nat := Sparse.get (fun _ => 0) s.head.passed channel
        { (s.sampleOn channel n).tickTaken channel with
          head := { s.head with passed := Sparse.set (fun _ => 0) s.head.passed channel 0 } }
      | 0xA => (s.sampleOn channel value.toNat).tickTaken channel
      | _ => s) s)

/-- MON_READ's own work (R433). -/
def monReadBody : Body := withLength 4 fun r s =>
  let first := leAt r.payload 0 2
  let n := leAt r.payload 2 2
  if n == 0 || 25 < n || 64 < first + n then reply .badParam s
  else replyWith .ok (leBytes 2 n ++ leBytes 2 0 ++ (upTo n).flatMap fun i => s.snapRecord (first + i)) s

/-- MON_READ. -/
def execMonRead (req : Req) (s : State) : Host.Outcome State Fault Refusal := .next (s.commandRow 0x0700 req monReadBody)

/-- MON_CLEAR: the live buffers of the selected channels cleared. -/
def execMonClear (req : Req) (s : State) : Host.Outcome State Fault Refusal :=
  .next (s.commandRow 0x0701 req (withLength 8 fun r s =>
    reply .ok (forEach (upTo 64) (fun s n =>
      if bitOf (leAt r.payload 0 8) n then s.onMon n fun c => { c with live := .empty } else s) s)))

/-! ### Logs (R436) -/

/-- A log's entries that are still held, with the sequence number of the oldest. -/
def heldEntries (limit base : Nat) (es : List (List Byte)) : Nat × List (List Byte) :=
  let excess := es.length - limit
  (base + excess, es.drop excess)

/-- Entries of log `n`. -/
def State.logOf (s : State) (n : Nat) : Nat × List (List Byte) :=
  let l := s.mgmt.logs
  match n with
  | 0 => heldEntries 1048576 l.errBase (l.errors.map (·.bytes))
  | 1 => heldEntries 1048576 l.alignBase (s.trk.alignLog.map (·.bytes))
  | _ => heldEntries histLimit l.histBase l.history

/-- Entries of a log from sequence number `first` on, and the number of the first one returned: an older number starts at the
oldest entry, a newer one than the newest returns none. -/
def logSlice (log : Nat × List (List Byte)) (first n : Nat) : Nat × List (List Byte) :=
  let d := signedOf 32 ((first + 2 ^ 32 - log.1 % 2 ^ 32) % 2 ^ 32)
  if d < 0 then (log.1 % 2 ^ 32, log.2.take n) else (first, (log.2.drop d.toNat).take n)

/-- LOG_READ's own work. -/
def logReadBody : Body := withLength 10 fun r s =>
  let p := r.payload
  let log := leAt p 0 1
  let n := leAt p 8 2
  if 3 ≤ log || leAt p 1 3 != 0 || n == 0 || (if log = 2 then 25 else 127) < n then reply .badParam s
  else
    let (first, es) := logSlice (s.logOf log) (leAt p 4 4) n
    replyWith .ok (leBytes 4 first ++ leBytes 2 es.length ++ leBytes 2 0 ++ es.flatten) s

/-- LOG_READ. -/
def execLogRead (req : Req) (s : State) : Host.Outcome State Fault Refusal := .next (s.commandRow 0x0705 req logReadBody)

end Sys2Proof.Machine
end

