-- ==== Sys2Proof/Machine/Fatal.lean ====
section
/-! DEFINITION. Fatal errors and the fatal dump (17_faults.md R426 to R431). -/

namespace Sys2Proof.Machine

/-! ### Detection (R427 steps 1 and 2) -/

/-- The header's fields from MAGIC to FW_VERSION, VALID still 0, as they stand at detection (R429). -/
def State.detectBytes (s : State) (cause : Nat) : List Byte :=
  leBytes 4 0x504D5544 ++ leBytes 2 1 ++ leBytes 1 cause ++ leBytes 1 0 ++ leBytes 8 (secOf s.dev) ++ leBytes 4 (nsOf s.dev) ++
    leBytes 8 s.loc ++ leBytes 8 s.posNow.1 ++ leBytes 4 s.ssnClosed ++ leBytes 4 s.ssnDone ++ leBytes 4 s.regionWord ++
    leBytes 4 s.fwVersion

/-- Error code under which a fatal cause is logged, where R435 has one. (log 61, DEDUCED) -/
def fatalCode : Nat → Option Nat
  | 5 => some 6 | 6 => some 0x0A | 7 => some 1 | 8 => some 0x10 | 9 => some 0x11 | _ => none

/-- The entry of a fatal error: level chip, action FATAL (R434, R435). (log 61, DEDUCED) -/
def State.logFatal (s : State) (cause detail : Nat) : State :=
  match fatalCode cause with
  | some c => s.logEntry 3 4 ⟨1, 0, c, BitVec.ofNat 64 detail⟩
  | none => s

/-- The pipeline stops where it is; verdicts held and the launch queues are discarded. (log 61, DEDUCED) -/
def State.haltPipeline (s : State) : State :=
  let s := ((s.stopPorts.setLaunchQ 0 []).setLaunchQ 1 []).setFld (posId 0x0F) 9 1 0
  { s with
    armed := false, cmd := .boot, pos := { s.pos with src := .encoder },
    tail := { s.tail with pend := [], recs := [], heldCopies := [] } }

/-- A fatal error; one that comes while another is being handled only counts. (log 61, DEDUCED) -/
def State.fatal (s : State) (cause detail : Nat) : State :=
  if s.mgmt.fault.fatal.isSome then s.bump (pid 1 0 0x141)
  else
    let d := s.detectBytes cause
    let s := (s.logFatal cause detail).haltPipeline.bump (pid 1 0 0x141)
    s.onFault fun f => { f with fatal := some cause, detect := d, faultN := true, restartAt := none }

/-- FATAL_ERROR: a cause of R426. -/
def execFatalError (cause : Nat) (s : State) : Host.Outcome State Fault Refusal :=
  .next (whenDue (s.powered && inRange 1 9 cause) (fun s => s.fatal cause 0) s)

/-! ### The dump (R429, R430) -/

/-- A parameter ID that the PARAMS section leaves out: the hot-pixel maps and the alignment grids. -/
def dumpSkips (id : Nat) : Bool :=
  (id / 0x1000000 == 2 && inRange 0x10 4 (id / 0x10000 % 256)) || (id / 0x1000000 == 3 && decide (id % 0x10000 ≤ 0x1080))

/-- Every defined word, ascending, but for those the section leaves out. -/
def definedIds : List Nat :=
  (upTo (25 * 2 ^ 24)).filter fun id => !dumpSkips id && (match lookup id with | .word _ => true | _ => false)

/-- Pairs of ID and word. -/
def State.paramsSection (s : State) : List Byte := definedIds.flatMap fun id => leBytes 4 id ++ leBytes 4 (s.valueOf id).1.toNat

/-- An event in the layout of R143 and R171. -/
def Held.bytes (h : Held) : List Byte :=
  leBytes 8 (h.src % 2 ^ 32 + codeOf 8 h.value * 2 ^ 32 + h.delay % 64 * 2 ^ 40 + h.tag % 65536 * 2 ^ 46 + bit h.pending * 2 ^ 62 +
    bit h.halo * 2 ^ 63)

/-- The parts of a section by the power domains they lie in; a part whose domain is OFF has no bytes. -/
def State.perRegion (s : State) (dom : Nat → Nat) (f : Nat → List Byte) : List Byte :=
  (upTo 8).flatMap fun r => if s.domOff (dom r) then [] else f r

/-- The sections in their order: type, greatest length in KiB, content. (log 61, DEDUCED) -/
def State.dumpSections (s : State) : List (Nat × Nat × List Byte) :=
  let es := s.mgmt.logs.errors
  [(1, 128, (es.drop (es.length - 4096)).flatMap (·.bytes)),
   (2, 16384, s.paramsSection),
   (3, 2048, Config.dumpBytes 3 s.loc),
   (4, 1536, Config.dumpBytes 4 s.loc),
   (5, 2560, s.perRegion (fun r => 4 * r + 3) fun r => (upTo 2048).flatMap fun i => s.slotBytes r i),
   (6, 2048, s.perRegion (fun _ => 43) fun r => (s.node r).sram.flatMap (·.bytes)),
   (7, 16384, s.perRegion (fun r => 4 * r + 3) fun r => padTo (2048 * 1024) (Config.dumpBytes (16 + r) s.loc)),
   (8, 32768, s.perRegion (fun r => 4 * r) fun r => (upTo 16).flatMap fun b => (upTo 32768).flatMap fun n =>
      let x := s.block (16 * r + b)
      leBytes 8 (Sparse.get x.base x.states n)),
   (9, 20, (upTo 64).flatMap s.liveRecord ++ (upTo 64).flatMap s.snapRecord)]

/-- A section cut to its greatest length. -/
def cutSection (x : Nat × Nat × List Byte) : List Byte := x.2.2.take (x.2.1 * 1024)

/-- Sections laid one after another from offset 256 on: their table entries. -/
def sectionTable : Nat → List (Nat × Nat × List Byte) → List Byte
  | _, [] => []
  | off, x :: xs =>
    let b := cutSection x
    leBytes 4 x.1 ++ leBytes 4 b.length ++ leBytes 4 off ++ leBytes 4 (crc32c b) ++ sectionTable (off + b.length) xs

/-- The header of 256 bytes of a dump just taken. (log 61, DEDUCED) -/
def State.dumpHeader (s : State) (xs : List (Nat × Nat × List Byte)) : List Byte :=
  let d := s.mgmt.fault.detect
  let cut := xs.any fun x => decide (x.2.1 * 1024 < x.2.2.length)
  let h := d.take 7 ++ leBytes 1 (1 + 2 * bit cut) ++ padTo 44 (d.drop 8) ++ leBytes 4 0 ++ leBytes 1 0 ++
    leBytes 1 ((s.chain.map (·.toNat)).getD 0xFF) ++ leBytes 2 xs.length
  h ++ leBytes 4 (crc32c h) ++ padTo 192 (sectionTable 256 xs)

/-- The dump written: sections first, the header last. (log 61, DEDUCED) -/
def State.writeDump (s : State) : State :=
  let xs := s.dumpSections
  (s.writeBytes (dumpBase + 256) (xs.flatMap cutSection)).writeBytes dumpBase (s.dumpHeader xs)

/-- Fields of a held header changed, with its HCRC. (log 61, DEDUCED) -/
def State.editHeader (s : State) (off : Nat) (bs : List Byte) : State :=
  let s := s.writeBytes (dumpBase + off) bs
  s.writeBytes (dumpBase + 60) (leBytes 4 (crc32c (s.readBytes dumpBase 60)))

/-- FATAL_DUMP_DONE: the boot ROM's handler is done, and the module resets; with cause THERMAL, or where it was so already, the
compute die stays in reset (R427, R429, R475). -/
def execFatalDumpDone (compatSel : Bool) (s : State) : Host.Outcome State Fault Refusal :=
  .next (match s.mgmt.fault.fatal with
    | none => s
    | some c =>
      let s := if s.dumpHeld then
          let n := leAt (s.readBytes (dumpBase + 52) 4) 0 4
          s.editHeader 52 (leBytes 4 (n + 1) ++ leBytes 1 c)
        else s.writeDump
      s.rebooted compatSel (c == 8 || s.mgmt.fault.thermalHold))

/-! ### Commands (R431) -/

/-- DUMP_INFO. -/
def execDumpInfo (req : Req) (s : State) : Host.Outcome State Fault Refusal :=
  .next (s.commandRow 0x0702 req (withLength 0 fun _ s => replyWith .ok (s.readBytes dumpBase 256) s))

/-- DUMP_CLEAR: VALID and LATER_FATALS cleared; refused while a bulk-out session reads the area. -/
def execDumpClear (req : Req) (s : State) : Host.Outcome State Fault Refusal :=
  .next (s.commandRow 0x0704 req (withLength 0 fun _ s =>
    if s.host.bulkOut.any fun b => b.dest == s.addr then reply .resourceHeld s
    else
      let flags := (s.readByte (dumpBase + 7)).toNat
      let s := s.writeByte (dumpBase + 7) (BitVec.ofNat 8 (flags / 2 * 2))
      reply .ok (s.editHeader 52 (leBytes 4 0))))

end Sys2Proof.Machine
end

