-- ==== Sys2Proof/Machine/Faults.lean ====
section
/-! DEFINITION. Block and region faults, retest, scrub and the Miller's warm restart (17_faults.md R417 to R425; 16_power.md
R412). -/

namespace Sys2Proof.Machine

/-! ### Region faults (R391, R417 to R419) -/

/-- The report of a region fault: level region, action DERAILED. (log 62, DEDUCED) -/
def State.regionReport (s : State) (r code : Nat) : State := s.reportAt 2 ⟨1, r, code, BitVec.ofNat 64 s.ssnClosed⟩

/-- The region counts as finished for every fabric step until its switch; what its blocks would have emitted in the step in
evaluation is lost, and that step is marked (R391, R425). -/
def State.failRegion (s : State) (r : Nat) : State :=
  let s := s.onPower fun p => { p with failing := p.failing.filter (· != r) ++ [r] }
  let s := forEach (upTo 16) (fun s b => s.onBlock (16 * r + b) fun x => { x with out := [] }) s
  match s.curSsn with
  | some n => s.markSsn n (s.regionBands [r])
  | none => s

/-- Another region than `r` is FAILED_OUT, in TEST, or about to be switched out (R33, R419). -/
def State.otherFailed (s : State) (r : Nat) : Bool :=
  (upTo 8).any fun q => q != r && (s.region q == 2 || s.region q == 4 || s.mgmt.power.failing.contains q)

/-- The region that is PARKED, other than `r`. -/
def State.parkedOther (s : State) (r : Nat) : Option Nat := (upTo 8).find? fun q => q != r && s.region q == 3

/-- A park whose switch has not been made is called off. (log 59, DEDUCED) -/
def State.callOffPark (s : State) (st : Status) : State :=
  match s.mgmt.power.park with
  | some q =>
    if q.switched then s
    else (s.onPower fun p => { p with park := none, switches := p.switches.filter (· != .park q.region) }).finishOpt
      (s.runningOf 0x0402) st []
  | none => s

/-- What a PARKED region's park or resumption in progress comes to when the region itself fails. -/
def State.dropParked (s : State) (r : Nat) : State :=
  let s := if s.mgmt.power.resume = some r then
      (s.onPower fun p => { p with resume := none, switches := p.switches.filter (· != .resume r) }).finishOpt
        (s.runningOf 0x0403) .refused []
    else s
  if s.mgmt.power.park.any fun q => q.region == r then
    (s.onPower fun p => { p with park := none }).finishOpt (s.runningOf 0x0402) .internal []
  else s

/-- A retest ends with a failure: the region is FAILED_OUT again, and the SRAM that its slices left zero is rebuilt (R420, R451).
(log 62, DEDUCED) -/
def State.retestFails (s : State) (r : Nat) : State :=
  let s := forEach (upTo 4) (fun s i => s.rebuildSram (4 * r + i)) s
  ((s.setRegion r 2).flag (pid 1 0 0x131) 2).onFault fun f => { f with retest := none, failed := some (r, s.loc, false) }

/-- The fault is recorded as the region's failure, with its time and whether a retest may follow by itself (R420). -/
def State.noteFailed (s : State) (r : Nat) (auto : Bool) : State :=
  s.onFault fun f => { f with failed := some (r, s.loc, auto) }

/-- The derailleur switch of a failed region is set up; a region that is PARKED is resumed first (R391, R419). -/
def State.derailNext (s : State) (r : Nat) : State :=
  let s := s.callOffPark .wrongState
  match s.parkedOther r with
  | none => s.onPower fun p => { p with switches := p.switches ++ [.derail r] }
  | some q =>
    if s.mgmt.power.switches.contains (.resume q) then s.onPower fun p => { p with switches := p.switches ++ [.derail r] }
    else if s.mgmt.power.resume.isSome then s
    else
      let s := (s.onPower fun p => { p with park := none }).finishOpt (s.runningOf 0x0402) .pending []
      s.startResume q

/-- The Miller handles the fault of region `r` (R33, R391, R399, R419, R420). (log 62, DEDUCED) -/
def State.handleFault (s : State) (r : Nat) : State :=
  let st := s.region r
  if st = 3 then
    let s := ((s.dropParked r).setRegion r 2).onPower fun p => { p with failing := p.failing.filter (· != r) }
    if s.mgmt.power.failing.isEmpty then s else s.fatal 1 r
  else if st = 4 then
    (s.retestFails r).onPower fun p => { p with
      failing := p.failing.filter (· != r), switches := p.switches.filter (· != .returned r) }
  else if s.otherFailed r then s.fatal 1 r
  else (((s.cancelSwap .refused).failRegion r).derailNext r).settleSwitches.endIfDone

/-- Region `r` is reported failed; during a warm restart its switch waits (R425). (log 62, DEDUCED) -/
def State.regionFault (s : State) (r code : Nat) (auto : Bool := true) : State :=
  if s.region r = 2 || s.mgmt.power.failing.contains r then s
  else
    let s := ((s.regionReport r code).flag (pid 1 0 0x131) 1).noteFailed r auto
    if s.restarting then (s.failRegion r).endIfDone else s.handleFault r

/-- REGION_FAILURE_REPORT: a Hub reports its region failed, for both copies of a flit being bad or for a block it has lost (R25,
R160). -/
def execRegionFailureReport (region : Nat) (s : State) : Host.Outcome State Fault Refusal :=
  onUnit (decide (region < 8)) s
    (whenDue s.running (fun s =>
      let flit := s.hubFails.contains region
      { s with hubFails := s.hubFails.filter (· != region) }.regionFault region (if flit then 0x0F else 1)) s)

/-- STEP_DEADLINE_MISS: the region has not finished the fabric step in evaluation STEP_DEADLINE us after its start (R418). -/
def execStepDeadlineMiss (region : Nat) (s : State) : Host.Outcome State Fault Refusal :=
  onUnit (decide (region < 8)) s
    (whenDue (s.running && s.pos.cur.isSome && s.runs region &&
        ((upTo 16).any fun b => !(s.block (16 * region + b)).finished) &&
        decide (s.fld (pid 1 0 0x130) 0 16 * 1000 ≤ locDiff s.loc s.pos.stepAt))
      (fun s => s.regionFault region 7) s)

/-- HUB_HEARTBEAT_MISS: three heartbeats of a Hub to the Miller are missing (R417). -/
def execHubHeartbeatMiss (region : Nat) (s : State) : Host.Outcome State Fault Refusal :=
  onUnit (decide (region < 8)) s (whenDue s.awake (fun s => s.regionFault region 8) s)

/-- Block code and instance that report the loss of lock of a clock domain which is neither a region's nor fatal (R17, R29). -/
def clockOwner (d : Nat) : Nat × Nat :=
  if d < 49 then (2, d - 45) else if d < 65 then (2, (d - 49) / 4) else if d < 85 then (0x12, (d - 65) / 5)
  else if d < 89 then (0x13, (d - 85) / 2) else if d = 94 || d = 95 || d = 96 then (0x0F, 0) else (1, 0)

/-- CLOCK_LOCK_LOSS: a region's domain fails the region; domains 32 to 44, 93 and 99 are fatal (R417, R426). -/
def execClockLockLoss (domain : Nat) (s : State) : Host.Outcome State Fault Refusal :=
  onUnit (decide (domain < 100)) s
    (whenDue (s.running && s.clockLock domain) (fun s =>
      let s := s.onFault fun f => { f with clocksLost := f.clocksLost ++ [domain] }
      if domain < 32 then s.regionFault (domain % 8) 6
      else if domain < 45 || domain = 93 || domain = 99 then s.fatal 5 domain
      else s.report (clockOwner domain).1 (clockOwner domain).2 6 domain) s)

/-! ### Retest (R420) -/

/-- AUTO_RETEST_TIMER: 1 s after the failure, once. -/
def execAutoRetestTimer (s : State) : Host.Outcome State Fault Refusal :=
  .next (match s.mgmt.fault.failed with
    | some (r, t, true) =>
      whenDue (s.awake && s.armed && s.bitAt (pid 1 0 0x130) 16 && s.region r == 2 && s.mgmt.fault.retest.isNone &&
          decide (1000000000 ≤ locDiff s.loc t))
        (fun s => (s.startRetest r).noteFailed r false) s
    | _ => s)

/-- Codes of the ten slices of region `r` (R451). -/
def regionCodes (r : Nat) : List Nat := (upTo 10).map (0x40 + 16 * r + ·)

/-- A region that passed its retest returns to set 0 by a planned switch; its SRAM is rebuilt as after OFF (R420, R451). -/
def State.retestPasses (s : State) (r : Nat) : State :=
  let s := forEach (upTo 4) (fun s i => s.rebuildSram (4 * r + i)) s
  let s := s.onFault fun f => { f with
    retest := none, failed := none, clocksLost := f.clocksLost.filter fun d => !(decide (d < 32) && d % 8 == r) }
  (s.onPower fun p => { p with switches := p.switches ++ [.returned r] }).settleSwitches

/-- RETEST_DONE: the region's ten slices have run. -/
def execRetestDone (results : List SliceResult) (s : State) : Host.Outcome State Fault Refusal :=
  .next (match s.mgmt.fault.retest with
    | some r =>
      whenDue (s.awake && results.map (·.code) == regionCodes r) (fun s =>
        let s := s.countSlices results
        if (failedOf results).isEmpty then s.retestPasses r else s.retestFails r) s
    | none => s)

/-! ### Restore faults (R412) -/

/-- A restore that fails: the domain stays OFF, and a region's domain fails its region, which is never retested by itself. -/
def State.restoreFailed (s : State) (d : Nat) : State :=
  let s := s.restoreLost d
  if d < 32 then s.regionFault (d / 4) 9 false else s

/-- POWER_TRANSITION_DONE: a domain's transition completes; a request to go from OFF to RET first restores it (R407 to
R412). -/
def execPowerTransitionDone (domain : Nat) (ok : Bool) (s : State) : Host.Outcome State Fault Refusal :=
  onUnit (decide (domain < 44)) s
    (match (s.pdom domain).move with
     | none => s
     | some m =>
       if m.goal != .on && !m.committed then
         whenDue (s.domOff domain) (fun s =>
           if ok then (s.rebuild domain).onPdom domain fun x => { x with st := .on } else s.restoreFailed domain) s
       else if !ok then s.restoreFailed domain
       else if m.goal == .on then s.wokeUp domain
       else s.entered domain m)

/-! ### Block errors and scrub (R23, R24, R151, R423) -/

/-- A neuron block's rule for an error of its storage: state word or synapse store word (DETAIL bit 16) of index DETAIL [15:0],
or the parity of an accumulator entry (R151). (log 63, DEDUCED) -/
def State.neuronError (s : State) (r : ErrorReport) : State :=
  let b := r.inst
  let i := r.detail.toNat % 65536
  if r.code = 1 then
    if bitOf r.detail.toNat 16 then
      ((s.onBlock b fun x => { x with badSyn := x.badSyn.filter (· != i) ++ [i] }).flag (pid 5 b 2) 3).bump (pid 5 b 0x206)
    else ((s.onBlock b fun x => { x with badState := x.badState.filter (· != i) ++ [i] }).flag (pid 5 b 2) 2).bump (pid 5 b 0x205)
  else if r.code = 2 then
    ((s.onBlock b fun x => { x with badAcc := x.badAcc.filter (· != i) ++ [i] }).flag (pid 5 b 2) 4).bump (pid 5 b 0x207)
  else s

/-- The held event at place DETAIL of node `n`'s SRAM is bad: it is taken out and its step is marked (R24, R116).
(log 63, DEDUCED) -/
def State.heldError (s : State) (n i : Nat) : State :=
  match (s.node n).sram[i]? with
  | none => s
  | some h =>
    (s.onNode n fun x => { x with sram := x.sram.eraseIdx i }).markHeld (s.toNode n) h (s.regionBands (maskRegions h.blocks))

/-- Track slot `i` of region `r` is bad: the track is dropped with its tile work (R24). (log 63, DEDUCED) -/
def State.slotError (s : State) (r i : Nat) : State := (s.closeTrack r i false).setSlot r i none

/-- The word at place DETAIL [31:16] of queue DETAIL [11:0] is bad, and is returned with DATA_ERR (R304). (log 63, DEDUCED) -/
def State.queueError (s : State) (q i : Nat) : State := s.onQueue q fun x => { x with bad := x.bad.filter (· != i) ++ [i] }

/-- A parameter word in error: nothing uses it until it is written again (R24). (log 63, DEDUCED) -/
def State.wordError (s : State) (id : Nat) : State := s.onFault fun f => { f with badIds := f.badIds.filter (· != id) ++ [id] }

/-- The running layer of an edge engine is bad: it runs once more (R24). (log 63, DEDUCED) -/
def State.edgeError (s : State) (u : Nat) : State :=
  match (s.dense u).edge with
  | some j =>
    let s := s.onDense u fun x => { x.onTile j.tile fun t => t.setJob j.layer j.stripe .again with edge := none }
    s.kickEdge u
  | none => s

/-- What the reporting block's own rule does with the data in error (R24): a refractory cell, a hot-pixel or grid word, a router
node's held event, a neuron block (R151) or a decoder's record, a track slot, a sensor's run counters, a layer of the edge engine, a
scored object, a pending verdict's vote, an entry of the encoder log, a queue's data word, a check value, a spoke port's buffers, a
frame in a launch queue, a monitor's snapshot. (log 63, DEDUCED) -/
def State.ownRule (s : State) (r : ErrorReport) : State :=
  let i := r.detail.toNat
  let u := r.inst
  if r.block = 5 && u < 128 then s.neuronError r
  else if r.code != 1 then s
  else match r.block with
  | 2 =>
    if u < 4 then s.onPort u fun q => { q with refract := Sparse.set (fun _ => 0) q.refract i 0 } else s.wordError (pid 2 u (i % 65536))
  | 3 => s.wordError (pid 3 u (i % 65536))
  | 4 => s.heldError u i
  | 5 => s.onConv (u - 128) fun c => { c with held := c.held.eraseIdx i }
  | 6 => s.slotError u i
  | 7 => s.setFld (sensorId u i) 1 16 0
  | 0x0A => s.edgeError u
  | 0x0B => s.onDense u fun x => { x with done := x.done.eraseIdx i }
  | 0x0C => { s with tail := { s.tail with pend := s.tail.pend.zipIdx.map fun e => if e.2 = i then { e.1 with vote := none } else e.1 } }
  | 0x0E => { s with pos := { s.pos with log := s.pos.log.eraseIdx i } }
  | 0x10 => s.queueError (i % 4096) (i / 65536 % 65536)
  | 0x11 => (s.onCv u fun x => { x with state := (s.cvAlg u).init, busy := false }).flag (cvId u 0xE) 1
  | 0x12 => if s.spkUp u then s.linkDown u .hold else s
  | 0x13 => if u < 2 then s.setLaunchQ u ((s.launchQ u).eraseIdx i) else s
  | 0x15 => s.onMon i fun c => { c with snap := .empty }
  | _ => s

/-- A block's own rule for an error, the count, and the report to its manager (R17, R24, R437). (log 63, DEDUCED) -/
def State.blockError (s : State) (r : ErrorReport) : State :=
  ((s.countUe r.code).ownRule r).report r.block r.inst r.code r.detail.toNat

/-- BLOCK_ERROR_REPORT: the block's own rule, then the report to its manager (R17, R24); a queue pointer's is the reset of its
queue (R304). -/
def execBlockErrorReport (report : ErrorReport) (s : State) : Host.Outcome State Fault Refusal :=
  onUnit (inRange 1 24 report.block && (report.block != 5 || decide (report.inst < 136))) s
    (whenDue s.running (fun s =>
      if report.block = 0x10 && report.code = 3 then s.queueReset (report.detail.toNat % 4096) else s.blockError report) s)

/-- A warm restart is triggered; a second one within 60 s of the first is fatal (R426). (log 62, DEDUCED) -/
def State.warmRestart (s : State) : State :=
  let again := s.mgmt.fault.lastRestart.any fun t => decide (locDiff s.loc t < 60000000000)
  if again then s.fatal 3 0
  else
    let s := s.onFault fun f => { f with restartFrom := s.cmd, restartAt := some s.loc, lastRestart := some s.loc }
    { s with cmd := .restart }

/-- The domain that a bank lies in is ON, so that its scrub runs; a bank in RET goes on at its wake where it stopped (R403).
(log 63, DEDUCED) -/
def State.bankOn (s : State) (bank : Nat) : Bool :=
  let u := Config.bankUnit bank
  (domainOf u.1 u.2).all s.domOn

/-- A word that a scrub access finds corrected is counted as its block's read would count it (R23, R304). (log 63, DEDUCED) -/
def State.wordCorrected (s : State) (r : ErrorReport) : State :=
  if r.block = 0x10 then s.dataCorrected (r.detail.toNat % 4096) else s.bump (pid 1 0 0x142)

/-- A word that a scrub access finds uncorrectable is handled as if its block had read it: the block's own rule, and for Miller memory
the warm restart (R423, R424). (log 63, DEDUCED) -/
def State.wordBad (s : State) (r : ErrorReport) : State :=
  if r.block = 1 then ((s.countUe 1).logEntry 3 3 ⟨1, 0, 1, r.detail⟩).warmRestart else s.blockError r

/-- SCRUB_ACCESS: the next word of an SRAM bank; `lastOfPass` where it is the bank's last and with it ends a pass of all banks
(R23, R403, R423). (log 63, DEDUCED; 68, DEDUCED) -/
def execScrubAccess (bank : Nat) (ecc : EccCheck) (lastOfPass : Bool) (s : State) : Host.Outcome State Fault Refusal :=
  let a := Sparse.get (fun _ => 0) s.mgmt.fault.scrub bank
  let u := Config.bankUnit bank
  let r : ErrorReport := ⟨u.1, u.2, 1, BitVec.ofNat 64 (Config.bankWord bank a)⟩
  onUnit (decide (bank < 1536)) s
    (whenDue (s.running && s.bankOn bank && (!lastOfPass || a == 8191)) (fun s =>
      let s := s.onFault fun f => { f with scrub := Sparse.set (fun _ => 0) f.scrub bank ((a + 1) % 8192) }
      let s := match ecc with
        | .clean => s
        | .corrected => s.wordCorrected r
        | .uncorrectable => s.wordBad r
      s.bumpIf lastOfPass (pid 1 0 0x144)) s)

/-- PATROL_SCRUB: a burst of an LPDDR5X area (R423). (log 63, DEDUCED) -/
def execPatrolScrub (area : Nat) (ecc : EccCheck) (s : State) : Host.Outcome State Fault Refusal :=
  onUnit (decide (area < 7)) s
    (whenDue s.running (fun s => match ecc with
      | .clean => s
      | .corrected => s.bump (pid 1 0 0x145)
      | .uncorrectable => (s.countUe 0x0A).report 1 0 0x0A area) s)

/-! ### Warm restart (R424, R425) -/

/-- WATCHDOG_TIMEOUT: the supervisor's watchdog is not serviced for 50 ms. -/
def execWatchdogTimeout (s : State) : Host.Outcome State Fault Refusal :=
  .next (whenDue s.running (fun s => (s.logEntry 3 3 ⟨1, 0, 8, 0⟩).warmRestart) s)

/-- MILLER_WARM_RESTART: an uncorrectable error in Miller memory, or an exception of the firmware. -/
def execMillerWarmRestart (cause : RestartCause) (s : State) : Host.Outcome State Fault Refusal :=
  .next (whenDue s.running (fun s =>
    (match cause with
     | .memoryError => (s.countUe 1).logEntry 3 3 ⟨1, 0, 1, 0⟩
     | .exception => s).warmRestart) s)

/-- Commands in flight are answered INTERNAL (R376). -/
def State.answerInternal (s : State) : State :=
  let h := s.host
  let s := s.onHost fun h => { h with accepted := [], running := [] }
  let s := forEach h.accepted (fun s a => s.answer a.opcode a.req .internal []) s
  forEach h.running (fun s r => s.answer r.opcode r.req .internal []) s

/-- What those commands had under way is called off where only they could end it. -/
def State.dropUnanswered (s : State) : State :=
  let s := (s.callOffPark .internal).onModel fun m => { m with
    swap := m.swap.filter fun w => w.req.isNone, swapResult := if m.swap.any fun w => w.req.isSome then Status.internal.code else m.swapResult }
  s.onBoard fun b => { b with softStart := 0 }

/-- Reports that waited are handled in order (R425). (log 62, DEDUCED) -/
def State.takeReports (s : State) : State := forEach s.reports (fun s r => s.takeReport r.1 r.2) { s with reports := [] }

/-- Enumeration messages and link changes that waited (R425). -/
def State.takeDeferred (s : State) : State :=
  let ms := s.spoke.deferred
  let ns := s.spoke.notices
  let s := { s with spoke := { s.spoke with deferred := [], notices := [] } }
  let s := forEach ms (fun s m => s.takeEnum m) s
  (forEach ns (fun s n => s.notifyRoot n.1 n.2) s).pumpAll

/-- Pending targets of the power domains that waited start now (R407, R425). -/
def State.startPendings (s : State) : State :=
  forEach (upTo 44) (fun s d => if (s.pdom d).move.isNone then s.startPending d else s) s

/-- The restart has completed: command state, commands in flight, what waited, and the switch of a region that failed
meanwhile (R376, R424, R425). (log 62, DEDUCED) -/
def State.restartEnds (s : State) : State :=
  let s := { s with cmd := s.mgmt.fault.restartFrom }.onFault fun f => { f with restartAt := none }
  let s := ((s.bump (pid 1 0 0x140)).flag (pid 1 0 0x131) 0).answerInternal.dropUnanswered.takeReports.takeDeferred.startPendings
  let s := forEach s.mgmt.power.failing (fun s r => if s.mgmt.fault.fatal.isSome then s else s.handleFault r) s
  if s.mgmt.fault.fatal.isSome then s else s.settleSwitches

/-- RESTART_DONE: the Miller's tables passed their check, or the error is fatal (R424, R426). -/
def execRestartDone (tablesOk : Bool) (s : State) : Host.Outcome State Fault Refusal :=
  .next (whenDue (s.powered && s.restarting) (fun s => if tablesOk then s.restartEnds else s.fatal 4 0) s)

/-- RESTART_TIMEOUT: not complete within 10 s of its trigger (R426). -/
def execRestartTimeout (s : State) : Host.Outcome State Fault Refusal :=
  .next (match s.mgmt.fault.restartAt with
    | some t => whenDue (s.powered && s.restarting && decide (10000000000 ≤ locDiff s.loc t)) (fun s => s.fatal 2 0) s
    | none => s)

end Sys2Proof.Machine
end

