-- ==== Sys2Proof/Machine/Security.lean ====
section
/-! DEFINITION. Identity, life cycle, firmware activation and self-test on command (18_security.md). -/

namespace Sys2Proof.Machine

/-! ### Identity and attestation (R447, R448) -/

/-- The certificate; none for a temporary key. -/
def State.certificate (s : State) : List Byte :=
  if s.keyTemporary || !s.mgmt.sec.cert then [] else (Config.certificate s.mgmt.sec.keys).take 3072

/-- GET_IDENTITY. -/
def execGetIdentity (req : Req) (s : State) : Host.Outcome State Fault Refusal :=
  .next (s.commandRow 0x0800 req (withLength 0 fun _ s =>
    let c := s.certificate
    replyWith .ok (s.identityKey ++ leBytes 1 (bit s.keyTemporary) ++ leBytes 2 c.length ++ c) s))

/-- Bytes 0 to 227 of an attestation report; its count includes this one. -/
def State.attestBody (s : State) (challenge : List Byte) : List Byte :=
  let c := s.mgmt.sec
  let run := s.copyOf c.running
  leBytes 4 0x41545354 ++ leBytes 2 1 ++ leBytes 1 c.lc ++
    leBytes 1 (bit s.armed + 2 * bit s.mgmt.model.active.isSome + 4 * bit s.compat) ++ leBytes 2 0x9128 ++
    serialBytes ++ leBytes 1 ((s.chain.map (·.toNat)).getD 0xFF) ++ leBytes 1 0 ++ leBytes 4 Config.romVersion ++
    leBytes 4 s.fwVersion ++ leBytes 1 ((run.map (·.svn)).getD 0) ++ leBytes 1 c.fuseSvn ++ leBytes 2 0 ++
    leBytes 4 (s.word (pid 0x16 0 1)).toNat ++ leBytes 8 (secOf s.dev) ++ leBytes 4 (nsOf s.dev) ++
    leBytes 48 ((run.map (·.digest)).getD 0) ++ leBytes 48 ((s.mgmt.model.active.map (·.digest)).getD 0) ++
    leBytes 48 c.ownerDigest ++ padTo 32 challenge

/-- The identity key's signature of a message (R448). (log 52, PRESUMED) -/
def State.signed (s : State) (msg : List Byte) : List Byte :=
  ecdsaSign (scalarOf (Config.identitySecret s.mgmt.sec.keys)) (scalarOf (Config.signOnce s.free)) msg

/-- ATTEST's own work: the report is made at once, and its reply follows. -/
def attestBody : Body := withLength 32 fun r s =>
  if s.keyTemporary then reply .wrongState s
  else
    let s := s.bump (pid 0x16 0 1)
    let b := s.attestBody r.payload
    later 0x0801 .ok (b ++ s.signed b) r s.takeFree.2

/-- ATTEST. -/
def execAttest (req : Req) (s : State) : Host.Outcome State Fault Refusal := .next (s.commandRow 0x0801 req attestBody)

/-! ### Life cycle (R438 to R441) -/

/-- A fresh NONCE drawn (R440). -/
def State.newNonce (s : State) : State := s.onSec fun c => { c with nonces := c.nonces + 1 }

/-- The valid NONCE. -/
def State.nonce (s : State) : List Byte := padTo 32 (Config.nonce s.mgmt.sec.nonces)

/-- LIFECYCLE_GET. -/
def execLifecycleGet (req : Req) (s : State) : Host.Outcome State Fault Refusal :=
  .next (s.commandRow 0x0802 req (withLength 0 fun _ s =>
    let s := s.newNonce
    let c := s.mgmt.sec
    replyWith .ok (leBytes 1 c.lc ++ leBytes 1 (bit s.ownerPresent + 2 * bit c.erasePending) ++ leBytes 2 0 ++ s.nonce) s))

/-- The transitions of R439. -/
def lifeAllows (lc target : Nat) : Bool := [(0, 1), (1, 2), (1, 3), (2, 3), (3, 0)].contains (lc, target)

/-- The message that authorises a transition (R440). -/
def State.lifeMessage (s : State) (target : Nat) : List Byte :=
  leBytes 2 0x9128 ++ serialBytes ++ leBytes 1 s.mgmt.sec.lc ++ leBytes 1 target ++ s.nonce

/-- Both signatures of a LIFECYCLE_SET verify against the keys that R439 names. (log 52, PRESUMED) -/
def State.lifeSigned (s : State) (target : Nat) (p : List Byte) : Bool :=
  let m := s.lifeMessage target
  let e := (p.drop 36).take 96
  let l := (p.drop 132).take 1772
  if s.mgmt.sec.lc = 2 then s.ownerSigned m e l else (upTo 4).any fun k => s.renrynSigned k m e l

/-- The checks of LIFECYCLE_SET, in order. (log 52, PRESUMED) -/
def State.lifeRefuses (s : State) (p : List Byte) : Option Status :=
  let t := leAt p 0 1
  refusal [(p.length != (if t = 2 then 188 else 1904), .badLength), (!lifeAllows s.mgmt.sec.lc t, .wrongState),
    ((p.drop 4).take 32 != s.nonce, .refused), (s.mgmt.sec.lc == 3 && s.mgmt.sec.recycles == 0, .refused),
    (t != 2 && !s.lifeSigned t p, .authFail), (leAt p 1 3 != 0 || (t == 2 && !ownerKeysValid (p.drop 36)), .badParam)]

/-- First byte of the model area and of the image staging area, and the end of the model area (R28). -/
def stagingFirst : Nat := 1024 * 1048576
def modelEnd : Nat := 17408 * 1048576

/-- Staging, model and general areas of LPDDR5X, and the images in them, erased (R441). (log 52, PRESUMED) -/
def State.eraseAreas (s : State) : State :=
  let s := s.unloadModel.dropImageClaims.closeModelSession.dropStaged
  { s with mem := s.mem.filter fun e => e.1 < stagingFirst || (modelEnd ≤ e.1 && e.1 < genBase) }

/-- The fuse of a transition is blown (R439, R441, R447). -/
def State.blowFuse (s : State) (target : Nat) (p : List Byte) : State :=
  match target with
  | 1 => s.onSec fun c => { c with lc := 1, keys := c.keys + 1, cert := true }
  | 2 => s.onSec fun c => { c with lc := 2, ownerKeys := p.drop 36, ownerDigest := sha384 (p.drop 36) }
  | 3 => s.onSec fun c => { c with lc := 3, erasePending := true }
  | _ => s.onSec fun c => { c with lc := 0, recycles := c.recycles - 1 }

/-- LIFECYCLE_SET's own work: the fuse is blown at once; an entry into RETURNED erases while the command runs. -/
def lifecycleSetBody : Body := fun r s =>
  match s.lifeRefuses r.payload with
  | some e => reply e ((s.countAuth e).bump (pid 0x16 0 0x101)).newNonce
  | none => later 0x0803 .ok [] r (s.blowFuse (leAt r.payload 0 1) r.payload)

/-- LIFECYCLE_SET. -/
def execLifecycleSet (req : Req) (s : State) : Host.Outcome State Fault Refusal := .next (s.commandRow 0x0803 req lifecycleSetBody)

/-- LIFECYCLE_SET completes: the erase of an entry into RETURNED, and a fresh NONCE. -/
def State.lifecycleDone (s : State) : State :=
  (if s.mgmt.sec.erasePending then s.eraseAreas.finishErase else s).newNonce

/-! ### Firmware activation (R443 to R445) -/

/-- The staged firmware image, when it is complete. -/
def State.stagedFirmware (s : State) : Option (List Byte) :=
  (s.mgmt.model.staged.filter fun x => x.kind == 1 && x.complete).map s.stagedBytes

/-- The copy that an image makes. -/
def firmwareCopy (img : List Byte) : FwCopy :=
  let b := sigBlock img
  ⟨sha384 (sigMessage img), leAt b 7 1, leAt b 8 1, leAt b 9 1⟩

/-- What refuses the activation of an image; a firmware area holds 4 MiB and is written at most
10,000 times (R478). (log 52, PRESUMED) -/
def State.firmwareRefuses (s : State) (img : List Byte) : Option Status :=
  let c := firmwareCopy img
  refusal [((sigBad 1 img).isSome || decide (4 * 1048576 < img.length), .badParam), (!s.imageSigned 1 img, .authFail),
    (bitOf c.revoke c.keySet, .badParam), (decide (c.svn < s.mgmt.sec.fuseSvn), .refused),
    (decide (10000 ≤ if s.mgmt.sec.running = 0 then s.mgmt.sec.writesB else s.mgmt.sec.writesA), .refused)]

/-- Step 3 of R445 starts: the running copy is the preferred one, and the other is being written. (log 52, PRESUMED) -/
def State.firmwareWriting (s : State) : State :=
  s.onSec fun x =>
    if x.running = 0 then { x with copyB := none, writesB := x.writesB + 1, preferred := 0 }
    else { x with copyA := none, writesA := x.writesA + 1, preferred := 1 }

/-- FIRMWARE_ACTIVATE's own work. -/
def firmwareActivateBody : Body := withLength 4 fun r s =>
  if selectorOf r.payload != some 0 then reply .badParam s
  else match s.stagedFirmware with
    | none => reply .wrongState s
    | some img => match s.firmwareRefuses img with
      | some e => reply e (s.countAuth e)
      | none => later 0x0804 .ok [] r s.firmwareWriting

/-- FIRMWARE_ACTIVATE. -/
def execFirmwareActivate (req : Req) (s : State) : Host.Outcome State Fault Refusal :=
  .next (s.commandRow 0x0804 req firmwareActivateBody)

/-- Steps 3 and 4 of R445: the image is in the copy that is not running, which is preferred. -/
def State.firmwareWritten (s : State) : State :=
  match s.stagedFirmware with
  | none => s
  | some img =>
    let c := firmwareCopy img
    s.onSec fun x =>
      if x.running = 0 then { x with copyB := some c, preferred := 1 } else { x with copyA := some c, preferred := 0 }

/-! ### Self-test (R450 to R454) -/

/-- The IEEE 1149.1 test port: active, or held in Test-Logic-Reset with its TDO high-impedance (R450). -/
inductive TestPort where
  | active | held
  deriving DecidableEq, Repr

/-- The test port from power-good on; none without power (R450). -/
def State.testPort (s : State) : Option TestPort :=
  if !s.powered then none else if s.mgmt.sec.lc = 0 || s.mgmt.sec.lc = 3 then some .active else some .held

/-- A slice's record. -/
def sliceBytes (r : SliceResult) : List Byte :=
  leBytes 1 r.code ++ leBytes 1 r.result ++ leBytes 2 r.timeUs ++ leBytes 4 r.detail.toNat

/-- The report of the latest run (R453). -/
def State.testReport (s : State) : List Byte :=
  let t := s.mgmt.test
  let bad := failedOf t.results
  leBytes 1 1 ++ leBytes 1 (bit !bad.isEmpty) ++ leBytes 1 (if t.bootRun then t.fwResult else 0xFF) ++
    leBytes 1 t.results.length ++ leBytes 1 bad.length ++ leBytes 1 ((bad.head?.map (·.code)).getD 0) ++ leBytes 2 0 ++
    leBytes 4 (runTime t.results) ++ leBytes 4 0 ++ t.results.flatMap sliceBytes

/-- TEST_REPORT. -/
def execTestReport (req : Req) (s : State) : Host.Outcome State Fault Refusal :=
  .next (s.commandRow 0x0A00 req (withLength 0 fun _ s => replyWith .ok s.testReport s))

/-- Region of a region slice. Codes 0x80 to 0x89 name both region 4's slices and connector slices (assumption 60).
(log 60, DEDUCED) -/
def sliceRegion (c : Nat) : Option Nat := if inRange 0x40 128 c && c % 16 < 10 then some ((c - 0x40) / 16) else none

/-- The ten slices of each region, the boot set and the connector slices are the codes of R451. (log 60, DEDUCED) -/
def sliceKnown (c : Nat) : Bool := inRange 1 30 c || (sliceRegion c).isSome || inRange 0x80 11 c

/-- Every slice may run: BLANK and RETURNED (R450). -/
def State.fullTest (s : State) : Bool := s.mgmt.sec.lc == 0 || s.mgmt.sec.lc == 3

/-- Port that a slice loops back: an internal slice from `a` on, a connector slice from `b` on where those run.
(log 60, DEDUCED) -/
def State.slicePort (s : State) (a b n c : Nat) : Option Nat :=
  if inRange a n c then some (c - a) else if s.fullTest && inRange b n c then some (c - b) else none

/-- A slice whose unit is in use (R454). (log 60, DEDUCED) -/
def State.sliceHeld (s : State) (c : Nat) : Bool :=
  ((s.slicePort 0x15 0x80 4 c).any s.spkUp) || ((s.slicePort 0x19 0x84 2 c).any fun p => s.bitAt (pid 0x13 p 1) 0) ||
    (s.slicePort 0x1B 0x86 4 c).any fun p => s.bitAt (hpId p 0) 0

/-- What refuses a run of slices. (log 52, PRESUMED; 60, DEDUCED) -/
def State.bistRefuses (s : State) (cs : List Nat) : Option Status :=
  refusal [(cs.any fun c => !sliceKnown c, .badParam),
    (!s.fullTest && cs.any fun c => !inRange 1 30 c && (sliceRegion c).isNone, .wrongState),
    (cs.any s.sliceHeld, .resourceHeld),
    (s.mgmt.model.active.isSome && cs.any fun c => (sliceRegion c).isSome, .wrongState)]

/-- Slice codes of a BIST_RUN. -/
def bistCodes (p : List Byte) : List Nat := (p.drop 4).map (·.toNat)

/-- BIST_RUN's own work: the slices run, and COMMAND_COMPLETION brings their results. -/
def bistRunBody : Body := fun r s =>
  let p := r.payload
  let n := leAt p 0 1
  if p.length < 4 || p.length != 4 + n then reply .badLength s
  else if n == 0 || 64 < n || leAt p 1 3 != 0 then reply .badParam s
  else match s.bistRefuses (bistCodes p) with
    | some e => reply e s
    | none => later 0x0A02 .ok [] r s

/-- BIST_RUN. -/
def execBistRun (req : Req) (s : State) : Host.Outcome State Fault Refusal := .next (s.commandRow 0x0A02 req bistRunBody)

/-- A run of slices has ended: recorded, and the SRAM of the regions it tested rebuilt as after OFF (R451). -/
def State.bistDone (s : State) (rs : List SliceResult) : State :=
  let regions := (upTo 8).filter fun r => rs.any fun x => sliceRegion x.code == some r
  forEach regions (fun s r => forEach (upTo 4) (fun s i => s.rebuildSram (4 * r + i)) s) (s.recordRun rs false)

end Sys2Proof.Machine
end

