-- ==== Sys2Proof/Machine/Board.lean ====
section
/-! DEFINITION. Camera supplies, temperatures, rails and the Ethernet ports' links (19_module.md R468 to R481). -/

namespace Sys2Proof.Machine

/-! ### Camera supplies (R471, R472) -/

/-- MILLER.CAM_SUPPLY and MILLER.THERMAL. -/
def camId : Nat := pid 1 0 0x150
def thermalId : Nat := pid 1 0 0x151

/-- The supply of port `p` trips: off, FAULT, counted and reported; the port's events stop (R471, R472). (log 63, DEDUCED) -/
def State.camTrip (s : State) (p : Nat) : State :=
  let s := s.onBoard fun b => { b with tripped := withBits b.tripped p 1 1 }
  (((s.setFld camId p 1 0).flag camId (4 + p)).bump (pid 1 0 0x152)).report 1 0 0x12 p

/-- Masks that a running CAM_SUPPLY keeps: ports it turned on, and those of them that have tripped. -/
def Running.turnedOn (r : Running) : Nat := leAt r.note 0 1
def Running.tripped (r : Running) : Nat := leAt r.note 1 1

/-- A trip in soft start noted for the command that turned the port on. -/
def Running.noteTrip (p : Nat) (r : Running) : Running :=
  if r.opcode = 0x0601 && bitOf r.turnedOn p then { r with note := leBytes 1 r.turnedOn ++ leBytes 1 (r.tripped ||| 2 ^ p) } else r

/-- CAM_SUPPLY's own work: every port at once; turned-on ports take their soft start before the reply. -/
def camSupplyBody : Body := withLength 4 fun r s =>
  let w := leAt r.payload 0 4
  let was := s.fld camId 0 4
  if 16 ≤ w then reply .badParam s
  else if (upTo 4).any fun p => bitOf was p && !bitOf w p && s.bitAt (hpId p 0) 0 then reply .wrongState s
  else
    let new := w - (w &&& was)
    let s := (s.setFld camId 0 4 w).onBoard fun b =>
      { b with softStart := (b.softStart ||| new) &&& w, tripped := b.tripped - (b.tripped &&& new) }
    if new = 0 then reply .ok s else (none, s.startRunning 0x0601 r .ok (leBytes 1 new ++ leBytes 1 0))

/-- CAM_SUPPLY. -/
def execCamSupply (req : Req) (s : State) : Host.Outcome State Fault Refusal := .next (s.commandRow 0x0601 req camSupplyBody)

/-- CAM_SUPPLY_TRIP: an output that is on draws too much. -/
def execCamSupplyTrip (port : Nat) (s : State) : Host.Outcome State Fault Refusal :=
  onUnit (decide (port < 4)) s
    (whenDue (s.powered && s.bitAt camId port) (fun s =>
      let soft := bitOf s.mgmt.board.softStart port
      let s := s.onBoard fun b => { b with softStart := withBits b.softStart port 1 0 }
      (if soft then s.onHost fun h => { h with running := h.running.map (Running.noteTrip port) } else s).camTrip port) s)

/-- A CAM_SUPPLY ends: ports of `mask` that it turned on and that are still on trip now. -/
def State.camSupplyDone (s : State) (r : Running) (mask : Nat) : State :=
  let now := (upTo 4).filter fun p => bitOf mask p && bitOf r.turnedOn p && !bitOf r.tripped p && s.bitAt camId p
  let s := forEach now (fun s p => s.camTrip p) s
  let bad := now.foldl (fun m p => m ||| 2 ^ p) r.tripped
  let s := s.onBoard fun b => { b with softStart := (upTo 4).foldl (fun m p => if bitOf r.turnedOn p then withBits m p 1 0 else m) b.softStart }
  if bad = 0 then s.finish r .ok [] else s.finish r .refused (leBytes 1 bad)

/-! ### Temperatures (R475) -/

/-- Warning, shutdown and resume limits of a sensor in degrees C. -/
def tempLimits (sensor : Nat) : Int × Int × Int :=
  match sensor with
  | 0 => (100, 110, 90)
  | 5 => (110, 125, 100)
  | 6 => (70, 85, 65)
  | 7 => (85, 100, 80)
  | _ => (95, 105, 85)

/-- Latest reading of a sensor in 1/16 degree C. (log 63, DEDUCED) -/
def State.temp (s : State) (sensor : Nat) : Int := s.sfld (pid 1 0 (0x160 + sensor)) 0 16

/-- Every temperature lies below its resume limit. -/
def State.cooled (s : State) : Bool := (upTo 8).all fun i => decide (s.temp i < (tempLimits i).2.2 * 16)

/-- TEMP_SAMPLE. (log 63, DEDUCED) -/
def execTempSample (sensor : Nat) (reading : BitVec 16) (s : State) : Host.Outcome State Fault Refusal :=
  onUnit (decide (sensor < 8)) s
    (whenDue s.powered (fun s =>
      let v := reading.toInt
      let (warn, stop, _) := tempLimits sensor
      let detail := sensor + reading.toNat * 65536
      let s := (s.setWord (pid 1 0 (0x160 + sensor)) (BitVec.ofNat 32 reading.toNat)).sample 8 sensor v
      let s := s.setFld thermalId (8 + sensor) 1 (bit (decide (warn * 16 < v)))
      let s := s.flagIf (decide (warn * 16 < v)) thermalId sensor
      let held := s.mgmt.fault.thermalHold
      if stop * 16 < v && !held && s.mgmt.fault.fatal.isNone then s.fatal 8 detail
      else
        let s := if warn * 16 < v then s.report 1 sensor 0x10 detail else s
        if held && s.cooled then s.onFault fun f => { f with thermalHold := false } else s) s)

/-! ### Rails (R459, R476) -/

/-- Nominal voltage of a rail in mV and its limits in percent. -/
def railLimits (rail : Nat) : Nat × Nat :=
  match rail with
  | 2 => (750, 3) | 3 => (850, 3) | 4 => (900, 3) | 5 => (1050, 3) | 6 => (500, 5) | 7 => (1800, 5) | 8 => (3300, 5)
  | _ => (12000, 5)

/-- A reading lies within the rail's limits; VIN runs from 36 V to 60 V. -/
def railGood (rail mv : Nat) : Bool :=
  let (nom, pct) := railLimits rail
  if rail = 0 then decide (36000 ≤ mv) && decide (mv ≤ 60000)
  else decide ((100 - pct) * nom ≤ 100 * mv) && decide (100 * mv ≤ (100 + pct) * nom)

/-- RAIL_SAMPLE: a regulated rail that stays outside its limits is fatal. (log 63, DEDUCED) -/
def execRailSample (rail : Nat) (reading : BitVec 16) (sustained : Bool) (s : State) : Host.Outcome State Fault Refusal :=
  onUnit (decide (rail < 13)) s
    (whenDue s.powered (fun s =>
      let mv := reading.toNat
      let ok := railGood rail mv
      let s := (s.setWord (pid 1 0 (0x170 + rail)) (BitVec.ofNat 32 (mv + 65536 * bit ok))).sample 9 rail mv
      if !ok && sustained && inRange 1 8 rail && s.mgmt.fault.fatal.isNone then s.fatal 9 (rail + mv * 65536) else s) s)

/-! ### Ethernet links (R86, R468, R481) -/

/-- ETH_BLOCK_LOCK_LOST. (log 64, DEDUCED) -/
def execEthBlockLockLost (port : Nat) (s : State) : Host.Outcome State Fault Refusal :=
  onUnit (decide (port < 2)) s
    (whenDue (s.running && s.bitAt (pid 0x13 port 1) 0) (fun s =>
      let s := (s.setFld (pid 0x13 port 1) 0 2 0).flag (pid 0x13 port 1) 2
      (s.bump (pid 0x13 port 0x103)).report 0x13 port 4 port) s)

/-- ETH_BLOCK_LOCK_GAINED: link training completed and block lock held. -/
def execEthBlockLockGained (port : Nat) (s : State) : Host.Outcome State Fault Refusal :=
  onUnit (decide (port < 2)) s
    (whenDue (s.running && s.domOn (40 + port) && s.bitAt (pid 0x13 port 0) 0) (fun s => (s.setFld (pid 0x13 port 1) 0 2 3).relocked [85 + 2 * port, 86 + 2 * port]) s)

/-- ETH_FRAME_RX: a frame other than a handled PTP message. -/
def execEthFrameRx (port : Nat) (fcsOk : Bool) (s : State) : Host.Outcome State Fault Refusal :=
  onUnit (decide (port < 2)) s
    (whenDue (s.running && s.portUp port)
      (fun s => if fcsOk then s.framesRx port else s.bump (pid 0x13 port 0x102)) s)

end Sys2Proof.Machine
end

