-- ==== Sys2Proof/Machine/Complete.lean ====
section
/-! DEFINITION. COMMAND_COMPLETION: the reply of a command that started earlier (14_commands.md R357, R369). -/

namespace Sys2Proof.Machine

/-- The status and payload that a command's start fixed. (log 49, DEDUCED) -/
def State.finishStored (s : State) (r : Running) : State := s.finish r ((Status.ofCode r.status).getD .ok) r.note

/-- ENUMERATE completes once the exploration has ended: the number of nodes (R338, R363). -/
def State.enumerateDone (s : State) (r : Running) : State :=
  if s.spoke.exploring then s else s.finish r .ok (leBytes 2 (s.spoke.nodes.filter fun e => e.2.isSome).length)

/-- How a running command ends with what the world adds; a command whose end its own state does not allow yet, or to which the
stimulus does not belong, goes on. POWER_SET, REGION_PARK and REGION_RESUME end with their domains. (log 49, DEDUCED) -/
def State.complete (s : State) (r : Running) (c : Completion) : State :=
  match r.opcode, c with
  | 0x0205, .done => s.swapPrepared r
  | 0x0305, .queueAccess c => if s.queueWriteFits r then s.queueWriteEnds r c else s
  | 0x0400, _ | 0x0402, _ | 0x0403, _ => s
  | 0x0600, c =>
    if s.i2cFirst r then
      (match i2cEnd r (locDiff s.loc r.start) (locDiff s.loc r.took) c with | some (st, p) => s.finish r st p | none => s)
    else s
  | 0x0601, .done => s.camSupplyDone r 0
  | 0x0601, .tripped m => s.camSupplyDone r m.toNat
  | 0x0803, .done => (s.lifecycleDone).finishStored r
  | 0x0804, .done => (s.firmwareWritten).finishStored r
  | 0x0900, .done => s.enumerateDone r
  | 0x0A02, .slices rs =>
    if rs.map (·.code) = bistCodes r.req.payload then
      let s := s.bistDone rs
      s.finish r .ok s.testReport
    else s
  | 0x0201, .done | 0x0202, .done | 0x0300, .done | 0x0801, .done => s.finishStored r
  | _, _ => s

/-- COMMAND_COMPLETION. -/
def execCommandCompletion (tag : BitVec 12) (later : Completion) (s : State) : Host.Outcome State Fault Refusal :=
  .next (match s.host.running.find? fun r => r.req.tag == tag with
    | some r => whenDue s.awake (fun s => s.complete r later) s
    | none => s)

end Sys2Proof.Machine
end

