-- ==== Sys2Proof/Machine/WordRows.lean ====
section
/-! DEFINITION. The commands that write or read one parameter word: each is that access under R365, with the effects its
chapter gives. -/

namespace Sys2Proof.Machine

/-- PARAM_WORD_WRITE: any word (R4 to R12, R365). -/
def execParamWordWrite (id value : Word) (s : State) : Host.Outcome State Fault Refusal := .next (s.wordWrite id.toNat value)

/-- COUNT_SET_WRITE: the upper word of COUNT_SET loads the counter (R43). -/
def execCountSetWrite (value : Word) (s : State) : Host.Outcome State Fault Refusal := .next (s.wordWrite (posId 0x0B) value)

/-- POSITION_COUNT_READ: the lower word of COUNT, which snapshots the counter (R62). -/
def execPositionCountRead (s : State) : Host.Outcome State Fault Refusal := .next (s.wordRead (posId 8))

/-- FMT_DESCRIPTOR_WRITE (R98, R101). -/
def execFmtDescriptorWrite (port descriptor word : Nat) (value : Word) (s : State) : Host.Outcome State Fault Refusal :=
  onInstance (decide (port < 4) && decide (descriptor < 8) && decide (word < 8)) s
    (s.wordWrite (hpId port (0x10 + 8 * descriptor + word)) value)

/-- TIME_SWITCH_WRITE (R76, R77). -/
def execTimeSwitchWrite (value : Word) (s : State) : Host.Outcome State Fault Refusal := .next (s.wordWrite (timeId 1) value)

/-- DOMAIN_RELOCK_WRITE (R72). -/
def execDomainRelockWrite (domain : Nat) (value : Word) (s : State) : Host.Outcome State Fault Refusal :=
  onInstance (decide (domain < 2)) s (s.wordWrite (domId domain 8) value)

/-- SERVO_ENABLE_WRITE: TIME.CTRL, or a domain's configuration word, which starts or stops its servo (R70, R71). -/
def execServoEnableWrite (domainWord : Option Nat) (value : Word) (s : State) : Host.Outcome State Fault Refusal :=
  onInstance (domainWord.all fun d => decide (d < 2)) s
    (s.wordWrite (match domainWord with | some d => domId d 0 | none => timeId 0) value)

/-- TIME_NOW_READ: the lowest word of TIME.NOW or TIME.LOCAL (R65, R67, R88). -/
def execTimeNowRead (localCount : Bool) (s : State) : Host.Outcome State Fault Refusal :=
  .next (s.wordRead (timeId (if localCount then 6 else 3)))

/-- TCU_CAP_READ: the lowest word of TIME.TCU_CAP (R88). -/
def execTcuCapRead (unit : Nat) (s : State) : Host.Outcome State Fault Refusal :=
  onInstance (decide (unit < 16)) s (s.wordRead (tcuId unit 1))

/-- FUSION_FORCE_WRITE: a sensor's word, of which FORCE stays writable on a running line (R204, R208). -/
def execFusionForceWrite (region sensor : Nat) (value : Word) (s : State) : Host.Outcome State Fault Refusal :=
  onInstance (decide (region < 8) && decide (sensor < 32)) s (s.wordWrite (fuId region (0x100 + sensor)) value)

/-- AUXFILT_SYNC_WRITE (R285). -/
def execAuxfiltSyncWrite (value : Word) (s : State) : Host.Outcome State Fault Refusal := .next (s.wordWrite (auxModId 4) value)

/-- AUXFILT_CFG_WRITE: a channel's CFG word or the clock word (R278, R285). -/
def execAuxfiltCfgWrite (unit : Nat) (value : Word) (s : State) : Host.Outcome State Fault Refusal :=
  onInstance (decide (unit < 17)) s (s.wordWrite (auxId unit 0) value)

/-- AUXFILT_LAST_READ: the lowest word of LAST (R293). -/
def execAuxfiltLastRead (channel : Nat) (s : State) : Host.Outcome State Fault Refusal :=
  onInstance (decide (channel < 16)) s (s.wordRead (auxId channel 4))

/-- QUEUE_ENABLE_WRITE: QCFG (R295, R296). -/
def execQueueEnableWrite (queue : Nat) (value : Word) (s : State) : Host.Outcome State Fault Refusal :=
  onInstance (decide (queue < 4096)) s (s.wordWrite (queId queue 0) value)

/-- QFLUSH_WRITE (R305). -/
def execQflushWrite (queue : Nat) (value : Word) (s : State) : Host.Outcome State Fault Refusal :=
  onInstance (decide (queue < 4096)) s (s.wordWrite (queId queue 3) value)

/-- CHECKVAL_START (R313). -/
def execCheckvalStart (context : Nat) (value : Word) (s : State) : Host.Outcome State Fault Refusal :=
  onInstance (decide (context < 16)) s (s.wordWrite (cvId context 3) value)

/-- CHECKVAL_FEED (R314). -/
def execCheckvalFeed (context : Nat) (value : Word) (s : State) : Host.Outcome State Fault Refusal :=
  onInstance (decide (context < 16)) s (s.wordWrite (cvId context 4) value)

/-- CHECKVAL_FEED_PART (R314). -/
def execCheckvalFeedPart (context : Nat) (value : Word) (s : State) : Host.Outcome State Fault Refusal :=
  onInstance (decide (context < 16)) s (s.wordWrite (cvId context 5) value)

/-- CHECKVAL_RANGE_GO (R314). -/
def execCheckvalRangeGo (context : Nat) (value : Word) (s : State) : Host.Outcome State Fault Refusal :=
  onInstance (decide (context < 16)) s (s.wordWrite (cvId context 9) value)

/-- CHECKVAL_STATE_WRITE: the higher word of STATE, which makes the write take effect (R315). -/
def execCheckvalStateWrite (context : Nat) (value : Word) (s : State) : Host.Outcome State Fault Refusal :=
  onInstance (decide (context < 16)) s (s.wordWrite (cvId context 0xB) value)

/-- CHECKVAL_STATE_READ: the lowest word of STATE or RESULT, which takes a snapshot (R315). -/
def execCheckvalStateRead (context : Nat) (result : Bool) (s : State) : Host.Outcome State Fault Refusal :=
  onInstance (decide (context < 16)) s (s.wordRead (cvId context (if result then 0xC else 0xA)))

/-- SPOKE_PORT_EN_WRITE (R318). -/
def execSpokePortEnWrite (port : Nat) (value : Word) (s : State) : Host.Outcome State Fault Refusal :=
  onInstance (decide (port < 4)) s (s.wordWrite (spkId port 0) value)

/-- SPOKE_ACCEPT_WRITE (R343). -/
def execSpokeAcceptWrite (value : Word) (s : State) : Host.Outcome State Fault Refusal := .next (s.wordWrite (chainId 2) value)

/-- MONITOR_CFG_WRITE: a channel's CFG or LO, or the snapshot word (R432). -/
def execMonitorCfgWrite (channel word : Nat) (value : Word) (s : State) : Host.Outcome State Fault Refusal :=
  onInstance (decide (channel < 65)) s (s.wordWrite (pid 0x15 channel word) value)

/-- REGION_RETEST_WRITE (R420). -/
def execRegionRetestWrite (value : Word) (s : State) : Host.Outcome State Fault Refusal := .next (s.wordWrite (pid 1 0 0x132) value)

end Sys2Proof.Machine
end

