-- ==== Sys2Proof/Machine/Dispatch.lean ====
section
/-! DEFINITION. The meaning of every command: one arm per constructor of `Instr`, each one direct call. -/

namespace Sys2Proof.Machine

/-- A command's effect on everything but the queue. (log 67, DEDUCED) -/
def exec (i : Instr) (s : State) : Host.Outcome State Fault Refusal :=
  match i with
  | .powerGood compatSel => Sys2Proof.Machine.execPowerGood compatSel s
  | .vinQualified => Sys2Proof.Machine.execVinQualified s
  | .vinOutOfRange => Sys2Proof.Machine.execVinOutOfRange s
  | .presentNOpen => Sys2Proof.Machine.execPresentNOpen s
  | .overcurrentTrip => Sys2Proof.Machine.execOvercurrentTrip s
  | .overcurrentRetry => Sys2Proof.Machine.execOvercurrentRetry s
  | .firmwareVerified preferredOk otherOk => Sys2Proof.Machine.execFirmwareVerified preferredOk otherOk s
  | .bootSliceSetDone results => Sys2Proof.Machine.execBootSliceSetDone results s
  | .startupReady => Sys2Proof.Machine.execStartupReady s
  | .modelStoreCopyDone => Sys2Proof.Machine.execModelStoreCopyDone s
  | .encoderCountEdge levels stable => Sys2Proof.Machine.execEncoderCountEdge levels stable s
  | .encZEdge => Sys2Proof.Machine.execEncZEdge s
  | .lineFault => Sys2Proof.Machine.execLineFault s
  | .synthCountEdge => Sys2Proof.Machine.execSynthCountEdge s
  | .speedWindowAge => Sys2Proof.Machine.execSpeedWindowAge s
  | .countSetWrite value => Sys2Proof.Machine.execCountSetWrite value s
  | .positionCountRead => Sys2Proof.Machine.execPositionCountRead s
  | .backstopClose => Sys2Proof.Machine.execBackstopClose s
  | .replayPaceTimer => Sys2Proof.Machine.execReplayPaceTimer s
  | .fabricStepStart => Sys2Proof.Machine.execFabricStepStart s
  | .blockInputComplete region block => Sys2Proof.Machine.execBlockInputComplete region block s
  | .asyncSynapticUpdate region block index => Sys2Proof.Machine.execAsyncSynapticUpdate region block index s
  | .blockStepFinished region block => Sys2Proof.Machine.execBlockStepFinished region block s
  | .decoderRecordRelease region => Sys2Proof.Machine.execDecoderRecordRelease region s
  | .stateWordRepair region block synapse index => Sys2Proof.Machine.execStateWordRepair region block synapse index s
  | .flitEventsRx node up header words => Sys2Proof.Machine.execFlitEventsRx node up header words s
  | .flitCloseRx node up header words => Sys2Proof.Machine.execFlitCloseRx node up header words s
  | .flitStepEndRx node up first second behind => Sys2Proof.Machine.execFlitStepEndRx node up first second behind s
  | .flitControlRx hop ecc own => Sys2Proof.Machine.execFlitControlRx hop ecc own s
  | .spillReadback region => Sys2Proof.Machine.execSpillReadback region s
  | .csi2PacketRx port packet => Sys2Proof.Machine.execCsi2PacketRx port packet s
  | .refractSweep port cell => Sys2Proof.Machine.execRefractSweep port cell s
  | .camSyncPulse port => Sys2Proof.Machine.execCamSyncPulse port s
  | .replayWord => Sys2Proof.Machine.execReplayWord s
  | .fmtDescriptorWrite port descriptor word value => Sys2Proof.Machine.execFmtDescriptorWrite port descriptor word value s
  | .ptpSyncRx port msg => Sys2Proof.Machine.execPtpSyncRx port msg s
  | .ptpFollowUpRx port msg => Sys2Proof.Machine.execPtpFollowUpRx port msg s
  | .ptpAnnounceRx port msg data => Sys2Proof.Machine.execPtpAnnounceRx port msg data s
  | .ptpDelayRespRx port msg => Sys2Proof.Machine.execPtpDelayRespRx port msg s
  | .ptpPdelayReqRx port msg => Sys2Proof.Machine.execPtpPdelayReqRx port msg s
  | .ptpPdelayRespRx port part msg => Sys2Proof.Machine.execPtpPdelayRespRx port part msg s
  | .ptpMessageIgnored port => Sys2Proof.Machine.execPtpMessageIgnored port s
  | .ptpDelayReqSend port domain => Sys2Proof.Machine.execPtpDelayReqSend port domain s
  | .ptpReceiptTimeout domain announce => Sys2Proof.Machine.execPtpReceiptTimeout domain announce s
  | .domainSwitchDone => Sys2Proof.Machine.execDomainSwitchDone s
  | .timeSwitchWrite value => Sys2Proof.Machine.execTimeSwitchWrite value s
  | .domainRelockWrite domain value => Sys2Proof.Machine.execDomainRelockWrite domain value s
  | .timeNowRead localCount => Sys2Proof.Machine.execTimeNowRead localCount s
  | .ppsPulse => Sys2Proof.Machine.execPpsPulse s
  | .tcuCapture unit edge => Sys2Proof.Machine.execTcuCapture unit edge s
  | .tcuCapRead unit => Sys2Proof.Machine.execTcuCapRead unit s
  | .frameLaunch port => Sys2Proof.Machine.execFrameLaunch port s
  | .trackerStepProcess region => Sys2Proof.Machine.execTrackerStepProcess region s
  | .mirrorCopy region late => Sys2Proof.Machine.execMirrorCopy region late s
  | .pairWaitEnd object => Sys2Proof.Machine.execPairWaitEnd object s
  | .fusionVote region object => Sys2Proof.Machine.execFusionVote region object s
  | .fusionForceWrite region sensor value => Sys2Proof.Machine.execFusionForceWrite region sensor value s
  | .refineApply unfinished => Sys2Proof.Machine.execRefineApply unfinished s
  | .tileBuildStart region => Sys2Proof.Machine.execTileBuildStart region s
  | .tileReady region tile => Sys2Proof.Machine.execTileReady region tile s
  | .tileUe region tile => Sys2Proof.Machine.execTileUe region tile s
  | .quernModeSwitch region mode => Sys2Proof.Machine.execQuernModeSwitch region mode s
  | .stripeStart region sub => Sys2Proof.Machine.execStripeStart region sub s
  | .stripeDone region sub => Sys2Proof.Machine.execStripeDone region sub s
  | .stripeAbort region sub planeBad => Sys2Proof.Machine.execStripeAbort region sub planeBad s
  | .edgeLayerGroupDone region => Sys2Proof.Machine.execEdgeLayerGroupDone region s
  | .fcBatchStream region => Sys2Proof.Machine.execFcBatchStream region s
  | .postClassify region object => Sys2Proof.Machine.execPostClassify region object s
  | .boxRequest region object => Sys2Proof.Machine.execBoxRequest region object s
  | .boxDecodeDone box => Sys2Proof.Machine.execBoxDecodeDone box s
  | .verdictDeadline object => Sys2Proof.Machine.execVerdictDeadline object s
  | .frameBuild group => Sys2Proof.Machine.execFrameBuild group s
  | .auxSampleOutput channel bits rom => Sys2Proof.Machine.execAuxSampleOutput channel bits rom s
  | .auxStuck channel bits => Sys2Proof.Machine.execAuxStuck channel bits s
  | .auxStuckRecover channel bit => Sys2Proof.Machine.execAuxStuckRecover channel bit s
  | .auxfiltSyncWrite value => Sys2Proof.Machine.execAuxfiltSyncWrite value s
  | .auxfiltCfgWrite unit value => Sys2Proof.Machine.execAuxfiltCfgWrite unit value s
  | .auxfiltLastRead channel => Sys2Proof.Machine.execAuxfiltLastRead channel s
  | .queueEnableWrite queue value => Sys2Proof.Machine.execQueueEnableWrite queue value s
  | .qflushWrite queue value => Sys2Proof.Machine.execQflushWrite queue value s
  | .queueHwWrite queue producer words eop pointers => Sys2Proof.Machine.execQueueHwWrite queue producer words eop pointers s
  | .queueWriteTimeout tag => Sys2Proof.Machine.execQueueWriteTimeout tag s
  | .syncobjRead object => Sys2Proof.Machine.execSyncobjRead object s
  | .syncobjWrite object operand => Sys2Proof.Machine.execSyncobjWrite object operand s
  | .syncobjAdd object operand => Sys2Proof.Machine.execSyncobjAdd object operand s
  | .syncobjCas object new expected => Sys2Proof.Machine.execSyncobjCas object new expected s
  | .syncobjSet object => Sys2Proof.Machine.execSyncobjSet object s
  | .syncobjClear object => Sys2Proof.Machine.execSyncobjClear object s
  | .syncobjTestAndSet object => Sys2Proof.Machine.execSyncobjTestAndSet object s
  | .checkvalStart context value => Sys2Proof.Machine.execCheckvalStart context value s
  | .checkvalFeed context value => Sys2Proof.Machine.execCheckvalFeed context value s
  | .checkvalFeedPart context value => Sys2Proof.Machine.execCheckvalFeedPart context value s
  | .checkvalRangeGo context value => Sys2Proof.Machine.execCheckvalRangeGo context value s
  | .checkvalRangeDone context errorAfter => Sys2Proof.Machine.execCheckvalRangeDone context errorAfter s
  | .checkvalStateWrite context value => Sys2Proof.Machine.execCheckvalStateWrite context value s
  | .checkvalStateRead context result => Sys2Proof.Machine.execCheckvalStateRead context result s
  | .spokeSignalDetect port => Sys2Proof.Machine.execSpokeSignalDetect port s
  | .spokeLockDone port inverted => Sys2Proof.Machine.execSpokeLockDone port inverted s
  | .spokeAlignDone port lanes skew => Sys2Proof.Machine.execSpokeAlignDone port lanes skew s
  | .spokeTs2ExchangeDone port ts2 => Sys2Proof.Machine.execSpokeTs2ExchangeDone port ts2 s
  | .spokeTrainingTimeout port => Sys2Proof.Machine.execSpokeTrainingTimeout port s
  | .spokeHoldExpiry port => Sys2Proof.Machine.execSpokeHoldExpiry port s
  | .spokeLockLoss port => Sys2Proof.Machine.execSpokeLockLoss port s
  | .linkRx port flit => Sys2Proof.Machine.execLinkRx port flit s
  | .spokeFlitDiscard port flit => Sys2Proof.Machine.execSpokeFlitDiscard port flit s
  | .spokeAckTimeout port => Sys2Proof.Machine.execSpokeAckTimeout port s
  | .heartbeatSend port => Sys2Proof.Machine.execHeartbeatSend port s
  | .heartbeatRx port flit => Sys2Proof.Machine.execHeartbeatRx port flit s
  | .heartbeatTimeout port => Sys2Proof.Machine.execHeartbeatTimeout port s
  | .haloEvents port flit => Sys2Proof.Machine.execHaloEvents port flit s
  | .verdictRelay port flit => Sys2Proof.Machine.execVerdictRelay port flit s
  | .activation port flit => Sys2Proof.Machine.execActivation port flit s
  | .commandFwd port flit => Sys2Proof.Machine.execCommandFwd port flit s
  | .explore port flit => Sys2Proof.Machine.execExplore port flit s
  | .discover port flit => Sys2Proof.Machine.execDiscover port flit s
  | .identify port flit => Sys2Proof.Machine.execIdentify port flit s
  | .report port flit => Sys2Proof.Machine.execReport port flit s
  | .assign port flit => Sys2Proof.Machine.execAssign port flit s
  | .routes port flit => Sys2Proof.Machine.execRoutes port flit s
  | .notify port flit => Sys2Proof.Machine.execNotify port flit s
  | .spokeAcceptWrite value => Sys2Proof.Machine.execSpokeAcceptWrite value s
  | .retrainDrainDone port => Sys2Proof.Machine.execRetrainDrainDone port s
  | .sdioCmd0 => Sys2Proof.Machine.execSdioCmd0 s
  | .sdioCmd3 => Sys2Proof.Machine.execSdioCmd3 s
  | .sdioCmd5 arg => Sys2Proof.Machine.execSdioCmd5 arg s
  | .sdioCmd7 rca => Sys2Proof.Machine.execSdioCmd7 rca s
  | .sdioCmd11 => Sys2Proof.Machine.execSdioCmd11 s
  | .sdioCmd19 => Sys2Proof.Machine.execSdioCmd19 s
  | .sdioCmd52 write raw function address data => Sys2Proof.Machine.execSdioCmd52 write raw function address data s
  | .sdioCmd53 write blockMode increment function address count data => Sys2Proof.Machine.execSdioCmd53 write blockMode increment function address count data s
  | .sdioIllegalCommand index => Sys2Proof.Machine.execSdioIllegalCommand index s
  | .inDoorbellWrite length => Sys2Proof.Machine.execInDoorbellWrite length s
  | .commandPacketAccept => Sys2Proof.Machine.execCommandPacketAccept s
  | .outAckWrite value => Sys2Proof.Machine.execOutAckWrite value s
  | .bulkBlockWrite data => Sys2Proof.Machine.execBulkBlockWrite data s
  | .bulkBlockRead => Sys2Proof.Machine.execBulkBlockRead s
  | .bulkInComplete => Sys2Proof.Machine.execBulkInComplete s
  | .fwdTimeout dest tag => Sys2Proof.Machine.execFwdTimeout dest tag s
  | .getInfo req => Sys2Proof.Machine.execGetInfo req s
  | .getCaps req => Sys2Proof.Machine.execGetCaps req s
  | .echo req => Sys2Proof.Machine.execEcho req s
  | .getState req => Sys2Proof.Machine.execGetState req s
  | .paramRead req => Sys2Proof.Machine.execParamRead req s
  | .paramWrite req => Sys2Proof.Machine.execParamWrite req s
  | .paramReadList req => Sys2Proof.Machine.execParamReadList req s
  | .paramWriteList req => Sys2Proof.Machine.execParamWriteList req s
  | .paramWordWrite id value => Sys2Proof.Machine.execParamWordWrite id value s
  | .imageBegin req => Sys2Proof.Machine.execImageBegin req s
  | .imageCommit req => Sys2Proof.Machine.execImageCommit req s
  | .imageUnload req => Sys2Proof.Machine.execImageUnload req s
  | .imageInfo req => Sys2Proof.Machine.execImageInfo req s
  | .bulkAbort req => Sys2Proof.Machine.execBulkAbort req s
  | .imageSwap req => Sys2Proof.Machine.execImageSwap req s
  | .swapCut => Sys2Proof.Machine.execSwapCut s
  | .arm req => Sys2Proof.Machine.execArm req s
  | .stop req => Sys2Proof.Machine.execStop req s
  | .moduleReset req => Sys2Proof.Machine.execModuleReset req s
  | .moduleResetExecute compatSel => Sys2Proof.Machine.execModuleResetExecute compatSel s
  | .claim req => Sys2Proof.Machine.execClaim req s
  | .release req => Sys2Proof.Machine.execRelease req s
  | .queueWrite req => Sys2Proof.Machine.execQueueWrite req s
  | .queueRead req => Sys2Proof.Machine.execQueueRead req s
  | .syncobjOp req => Sys2Proof.Machine.execSyncobjOp req s
  | .powerSet req => Sys2Proof.Machine.execPowerSet req s
  | .powerStatus req => Sys2Proof.Machine.execPowerStatus req s
  | .regionPark req => Sys2Proof.Machine.execRegionPark req s
  | .regionResume req => Sys2Proof.Machine.execRegionResume req s
  | .timeSnapshot req => Sys2Proof.Machine.execTimeSnapshot req s
  | .camI2c req => Sys2Proof.Machine.execCamI2c req s
  | .camSupply req => Sys2Proof.Machine.execCamSupply req s
  | .monRead req => Sys2Proof.Machine.execMonRead req s
  | .monClear req => Sys2Proof.Machine.execMonClear req s
  | .monitorCfgWrite channel word value => Sys2Proof.Machine.execMonitorCfgWrite channel word value s
  | .dumpInfo req => Sys2Proof.Machine.execDumpInfo req s
  | .dumpRead req => Sys2Proof.Machine.execDumpRead req s
  | .dumpClear req => Sys2Proof.Machine.execDumpClear req s
  | .logRead req => Sys2Proof.Machine.execLogRead req s
  | .getIdentity req => Sys2Proof.Machine.execGetIdentity req s
  | .attest req => Sys2Proof.Machine.execAttest req s
  | .lifecycleGet req => Sys2Proof.Machine.execLifecycleGet req s
  | .lifecycleSet req => Sys2Proof.Machine.execLifecycleSet req s
  | .firmwareActivate req => Sys2Proof.Machine.execFirmwareActivate req s
  | .enumerate req => Sys2Proof.Machine.execEnumerate req s
  | .retrain req => Sys2Proof.Machine.execRetrain req s
  | .testReport req => Sys2Proof.Machine.execTestReport req s
  | .testRead req => Sys2Proof.Machine.execTestRead req s
  | .bistRun req => Sys2Proof.Machine.execBistRun req s
  | .powerTransitionDone domain ok => Sys2Proof.Machine.execPowerTransitionDone domain ok s
  | .powerBlockStopTimeout domain blockCode unit => Sys2Proof.Machine.execPowerBlockStopTimeout domain blockCode unit s
  | .powerEntryCommit domain => Sys2Proof.Machine.execPowerEntryCommit domain s
  | .powerAccessWake domain => Sys2Proof.Machine.execPowerAccessWake domain s
  | .powerRetHoldExpiry domain => Sys2Proof.Machine.execPowerRetHoldExpiry domain s
  | .blockErrorReport report => Sys2Proof.Machine.execBlockErrorReport report s
  | .regionFailureReport region => Sys2Proof.Machine.execRegionFailureReport region s
  | .stepDeadlineMiss region => Sys2Proof.Machine.execStepDeadlineMiss region s
  | .hubHeartbeatMiss region => Sys2Proof.Machine.execHubHeartbeatMiss region s
  | .clockLockLoss domain => Sys2Proof.Machine.execClockLockLoss domain s
  | .regionRetestWrite value => Sys2Proof.Machine.execRegionRetestWrite value s
  | .autoRetestTimer => Sys2Proof.Machine.execAutoRetestTimer s
  | .retestDone results => Sys2Proof.Machine.execRetestDone results s
  | .scrubAccess bank ecc lastOfPass => Sys2Proof.Machine.execScrubAccess bank ecc lastOfPass s
  | .patrolScrub area ecc => Sys2Proof.Machine.execPatrolScrub area ecc s
  | .watchdogTimeout => Sys2Proof.Machine.execWatchdogTimeout s
  | .millerWarmRestart cause => Sys2Proof.Machine.execMillerWarmRestart cause s
  | .restartDone tablesOk => Sys2Proof.Machine.execRestartDone tablesOk s
  | .restartTimeout => Sys2Proof.Machine.execRestartTimeout s
  | .fatalError cause => Sys2Proof.Machine.execFatalError cause s
  | .fatalDumpDone compatSel => Sys2Proof.Machine.execFatalDumpDone compatSel s
  | .monitorSnapSwap => Sys2Proof.Machine.execMonitorSnapSwap s
  | .tempSample sensor reading => Sys2Proof.Machine.execTempSample sensor reading s
  | .railSample rail reading sustained => Sys2Proof.Machine.execRailSample rail reading sustained s
  | .camSupplyTrip port => Sys2Proof.Machine.execCamSupplyTrip port s
  | .presentNMate => Sys2Proof.Machine.execPresentNMate s
  | .ethBlockLockLost port => Sys2Proof.Machine.execEthBlockLockLost port s
  | .ethBlockLockGained port => Sys2Proof.Machine.execEthBlockLockGained port s
  | .ethFrameRx port fcsOk => Sys2Proof.Machine.execEthFrameRx port fcsOk s
  | .spokePortEnWrite port value => Sys2Proof.Machine.execSpokePortEnWrite port value s
  | .servoEnableWrite domainWord value => Sys2Proof.Machine.execServoEnableWrite domainWord value s
  | .commandCompletion tag later => Sys2Proof.Machine.execCommandCompletion tag later s
  | .monitorSampleTick channel value => Sys2Proof.Machine.execMonitorSampleTick channel value s

end Sys2Proof.Machine
end

