-- ==== Sys2Proof/Machine/Tick.lean ====
section
/-! DEFINITION. What one ns of domain 93 does on an empty queue: the local counter advances (R64), pulses the module drives end
when their width has passed (R84, R105), PTP messages that waited start (R86), the spoke port whose turn has come starts to train (R320), and the Miller commits a stored image (R480). -/

namespace Sys2Proof.Machine

/-- A CAMx_SYNC pulse falls after SYNC_WIDTH (R105). (log 4, DESIGN CHOICE) -/
def State.tickSync (s : State) (p : Nat) : State := if (s.port p).syncEnd = s.loc then s.endSync p else s

/-- One ns of domain 93, which runs from input power-good on (R31). (log 4, DESIGN CHOICE) -/
def State.tick (s : State) : State :=
  if !s.powered then s
  else
    let l := (s.loc + 1) % 2 ^ 64
    let s := { s with loc := l }
    let s := forEach (upTo 4) (fun s p => s.tickSync p) s
    let s := if s.time.pps && s.time.ppsEnd = l then { s with time := { s.time with pps := false } } else s
    let s := if s.running then s.trainKick else s
    forEach (upTo 2) (fun s p => s.ptpKick p) s.storeCommitEnds.storeReload

end Sys2Proof.Machine
end

