-- ==== Sys2Proof/Machine/Step.lean ====
section
/-! DEFINITION. One step: the command at the front of the queue, or a tick of domain 93 on an empty queue (assumption 4). -/

namespace Sys2Proof.Machine

/-- One step of the block. (log 1, DESIGN CHOICE; 4, DESIGN CHOICE; 67, DEDUCED) -/
def step (s : State) : Host.Outcome State Fault Refusal :=
  match s.pending with
  | c :: rest => exec c { s with pending := rest }
  | [] => .next s.tick

/-- The state with the command that a word spells in front of its queue; the table gives no row any bits, so no word
spells one and the state is unchanged (assumption 1). (log 1, DESIGN CHOICE) -/
def State.withFetchWord (s : State) (nbits w : Nat) : State :=
  match Sys2Proof.decodeTableWord nbits w with
  | some c => { s with pending := c :: s.pending }
  | none => s

end Sys2Proof.Machine
end

