-- ==== Sys2Proof/WellFormed.lean ====
section
/-!
DEFINITION. Well-formed commands: the units that the operands name exist (`Instr.unitsOk`), and the operands fit the fields
that carry them (`Instr.fits`).
-/

namespace Sys2Proof

/-- A command packet's payload of at most 4,076 bytes (R353). -/
def Req.fits (r : Req) : Bool := decide (r.payload.length ≤ 4076)

/-- A spoke flit whose fields fit (R322). -/
def SpokeFlit.fits (f : SpokeFlit) : Bool :=
  decide (f.vc < 4) && decide (f.mtype < 8) && decide (f.credVc < 4) && decide (f.credN < 32) && decide (f.hops < 256) &&
    decide (f.payload.length = 116)

/-- A CSI-2 packet whose fields fit (R92, R94). -/
def CsiPacket.fits (p : CsiPacket) : Bool := decide (p.vc < 16) && decide (p.dt < 64) && decide (p.payload.length < 65536)

/-- A PTP message whose fields fit (R79). -/
def PtpMsg.fits (m : PtpMsg) : Bool := decide (m.domain < 256) && decide (m.seq < 65536) && decide (m.portNo < 65536) &&
  decide (m.sdoId < 16) && decide (m.sec < 2 ^ 48) && decide (m.ns < 1000000000)

/-- Slice results whose fields fit (R453). -/
def slicesFit (rs : List SliceResult) : Bool :=
  rs.all fun r => decide (r.code < 256) && decide (r.result < 3) && decide (r.timeUs < 65536)

/-- What completes a command fits the reply (R369, R453). -/
def Completion.fits : Completion → Bool
  | .done => true
  | .i2cBytes data => decide (data.length ≤ 256)
  | .i2cNack index => decide (index ≤ 256)
  | .timedOut => true
  | .tripped _ => true
  | .slices results => slicesFit results
  | .queueAccess _ => true

/-- The units that a command names exist on the module; every other operand is data. -/
def Instr.unitsOk : Instr → Bool
  | .powerGood _ | .vinQualified | .vinOutOfRange | .presentNOpen | .overcurrentTrip | .overcurrentRetry
  | .firmwareVerified _ _ | .bootSliceSetDone _ | .startupReady | .modelStoreCopyDone | .encoderCountEdge _ _ | .encZEdge
  | .lineFault | .synthCountEdge | .speedWindowAge | .countSetWrite _ | .positionCountRead | .backstopClose | .replayPaceTimer
  | .fabricStepStart | .replayWord | .domainSwitchDone | .timeSwitchWrite _ | .timeNowRead _ | .ppsPulse | .pairWaitEnd _
  | .refineApply _ | .verdictDeadline _ | .auxfiltSyncWrite _ | .queueWriteTimeout _ | .spokeAcceptWrite _ | .sdioCmd0
  | .sdioCmd3 | .sdioCmd5 _ | .sdioCmd7 _ | .sdioCmd11 | .sdioCmd19 | .sdioIllegalCommand _ | .inDoorbellWrite _
  | .commandPacketAccept | .outAckWrite _ | .bulkBlockWrite _ | .bulkBlockRead | .bulkInComplete | .fwdTimeout _ _
  | .getInfo _ | .getCaps _ | .echo _ | .getState _ | .paramRead _ | .paramWrite _ | .paramReadList _ | .paramWriteList _
  | .paramWordWrite _ _ | .imageBegin _ | .imageCommit _ | .imageUnload _ | .imageInfo _ | .bulkAbort _ | .imageSwap _
  | .swapCut | .arm _ | .stop _ | .moduleReset _ | .moduleResetExecute _ | .claim _ | .release _ | .queueWrite _
  | .queueRead _ | .syncobjOp _ | .powerSet _ | .powerStatus _ | .regionPark _ | .regionResume _ | .timeSnapshot _ | .camI2c _
  | .camSupply _ | .monRead _ | .monClear _ | .dumpInfo _ | .dumpRead _ | .dumpClear _ | .logRead _ | .getIdentity _
  | .attest _ | .lifecycleGet _ | .lifecycleSet _ | .firmwareActivate _ | .enumerate _ | .retrain _ | .testReport _
  | .testRead _ | .bistRun _ | .regionRetestWrite _ | .autoRetestTimer | .retestDone _ | .watchdogTimeout
  | .millerWarmRestart _ | .restartDone _ | .restartTimeout | .fatalError _ | .fatalDumpDone _ | .monitorSnapSwap
  | .presentNMate | .commandCompletion _ _ | .sdioCmd52 _ _ _ _ _ | .sdioCmd53 _ _ _ _ _ _ _ => true
  | .blockInputComplete region block | .asyncSynapticUpdate region block _ | .blockStepFinished region block
  | .stateWordRepair region block _ _ => decide (region < 8) && decide (block < 16)
  | .decoderRecordRelease region | .spillReadback region | .trackerStepProcess region | .mirrorCopy region _
  | .fusionVote region _ | .tileBuildStart region | .edgeLayerGroupDone region | .fcBatchStream region
  | .postClassify region _ | .boxRequest region _ | .regionFailureReport region | .stepDeadlineMiss region
  | .hubHeartbeatMiss region => decide (region < 8)
  | .flitEventsRx node _ _ _ | .flitCloseRx node _ _ _ | .flitStepEndRx node _ _ _ _ => decide (node < 11)
  | .flitControlRx hop _ own => decide (hop.1 < 11) && own.all fun d => decide (d < 11)
  | .csi2PacketRx port _ | .camSyncPulse port | .spokeSignalDetect port | .spokeLockDone port _ | .spokeAlignDone port _ _
  | .spokeTs2ExchangeDone port _ | .spokeTrainingTimeout port | .spokeHoldExpiry port | .spokeLockLoss port | .linkRx port _
  | .spokeFlitDiscard port _ | .spokeAckTimeout port | .heartbeatSend port | .heartbeatRx port _ | .heartbeatTimeout port
  | .haloEvents port _ | .verdictRelay port _ | .activation port _ | .commandFwd port _ | .explore port _ | .discover port _
  | .identify port _ | .report port _ | .assign port _ | .routes port _ | .notify port _ | .retrainDrainDone port
  | .camSupplyTrip port | .spokePortEnWrite port _ => decide (port < 4)
  | .refractSweep port cell => decide (port < 4) && decide (cell < 131072)
  | .fmtDescriptorWrite port descriptor word _ => decide (port < 4) && decide (descriptor < 8) && decide (word < 8)
  | .ptpSyncRx port _ | .ptpFollowUpRx port _ | .ptpAnnounceRx port _ _ | .ptpDelayRespRx port _ | .ptpPdelayReqRx port _
  | .ptpPdelayRespRx port _ _ | .ptpMessageIgnored port | .frameLaunch port | .ethBlockLockLost port
  | .ethBlockLockGained port | .ethFrameRx port _ => decide (port < 2)
  | .ptpDelayReqSend port domain => decide (port < 2) && decide (domain < 2)
  | .ptpReceiptTimeout domain _ | .domainRelockWrite domain _ => decide (domain < 2)
  | .tcuCapture unit _ | .tcuCapRead unit => decide (unit < 16)
  | .fusionForceWrite region sensor _ => decide (region < 8) && decide (sensor < 32)
  | .tileReady region tile | .tileUe region tile => decide (region < 8) && decide (tile < 256)
  | .quernModeSwitch region mode => decide (region < 8) && decide (mode < 3)
  | .stripeStart region sub | .stripeDone region sub | .stripeAbort region sub _ => decide (region < 8) && decide (sub < 4)
  | .boxDecodeDone box => (box.region == 0 || box.region == 4)
  | .frameBuild group => decide (group < 8)
  | .auxSampleOutput channel _ _ | .auxStuck channel _ | .auxStuckRecover channel _
  | .auxfiltLastRead channel => decide (channel < 16)
  | .auxfiltCfgWrite unit _ => decide (unit < 17)
  | .queueEnableWrite queue _ | .qflushWrite queue _ | .queueHwWrite queue _ _ _ _ => decide (queue < 4096)
  | .syncobjRead object | .syncobjWrite object _ | .syncobjAdd object _ | .syncobjCas object _ _ | .syncobjSet object
  | .syncobjClear object | .syncobjTestAndSet object => decide (object < 12288)
  | .checkvalStart context _ | .checkvalFeed context _ | .checkvalFeedPart context _ | .checkvalRangeGo context _
  | .checkvalRangeDone context _ | .checkvalStateWrite context _ | .checkvalStateRead context _ => decide (context < 16)
  | .monitorCfgWrite channel _ _ => decide (channel < 65)
  | .powerTransitionDone domain _ | .powerBlockStopTimeout domain _ _ | .powerEntryCommit domain | .powerAccessWake domain
  | .powerRetHoldExpiry domain => decide (domain < 44)
  | .blockErrorReport err => decide (0 < err.block) && decide (err.block < 25) && (err.block != 5 || decide (err.inst < 136))
  | .clockLockLoss domain => decide (domain < 100)
  | .scrubAccess bank _ _ => decide (bank < 1536)
  | .patrolScrub area _ => decide (area < 7)
  | .tempSample sensor _ => decide (sensor < 8)
  | .railSample rail _ _ => decide (rail < 13)
  | .servoEnableWrite domainWord _ => domainWord.all fun d => decide (d < 2)
  | .monitorSampleTick channel _ => decide (channel < 64)

/-- The operands of a command fit the fields that carry them. -/
def Instr.fits : Instr → Bool
  | .powerGood _ | .vinQualified | .vinOutOfRange | .presentNOpen | .overcurrentTrip | .overcurrentRetry
  | .firmwareVerified _ _ | .startupReady | .modelStoreCopyDone | .encoderCountEdge _ _ | .encZEdge | .lineFault
  | .synthCountEdge | .speedWindowAge | .countSetWrite _ | .positionCountRead | .backstopClose | .replayPaceTimer
  | .fabricStepStart | .blockInputComplete _ _ | .asyncSynapticUpdate _ _ _ | .blockStepFinished _ _ | .decoderRecordRelease _
  | .stateWordRepair _ _ _ _ | .spillReadback _ | .refractSweep _ _ | .camSyncPulse _ | .replayWord | .fmtDescriptorWrite _ _ _ _ | .ptpMessageIgnored _
  | .ptpDelayReqSend _ _ | .ptpReceiptTimeout _ _ | .domainSwitchDone | .timeSwitchWrite _ | .domainRelockWrite _ _
  | .timeNowRead _ | .ppsPulse | .tcuCapture _ _ | .tcuCapRead _ | .frameLaunch _ | .trackerStepProcess _ | .mirrorCopy _ _
  | .pairWaitEnd _ | .fusionVote _ _ | .fusionForceWrite _ _ _ | .refineApply _ | .tileBuildStart _ | .tileReady _ _
  | .tileUe _ _ | .quernModeSwitch _ _ | .stripeStart _ _ | .stripeDone _ _ | .stripeAbort _ _ _ | .edgeLayerGroupDone _
  | .fcBatchStream _ | .postClassify _ _ | .boxRequest _ _ | .boxDecodeDone _ | .verdictDeadline _ | .frameBuild _
  | .auxStuck _ _ | .auxStuckRecover _ _ | .auxfiltSyncWrite _ | .auxfiltCfgWrite _ _
  | .auxfiltLastRead _ | .queueEnableWrite _ _ | .qflushWrite _ _ | .queueWriteTimeout _ | .syncobjRead _ | .syncobjWrite _ _
  | .syncobjAdd _ _ | .syncobjCas _ _ _ | .syncobjSet _ | .syncobjClear _ | .syncobjTestAndSet _ | .checkvalStart _ _
  | .checkvalFeed _ _ | .checkvalFeedPart _ _ | .checkvalRangeGo _ _ | .checkvalRangeDone _ _ | .checkvalStateWrite _ _
  | .checkvalStateRead _ _ | .spokeSignalDetect _ | .spokeLockDone _ _ | .spokeTrainingTimeout _ | .spokeHoldExpiry _
  | .spokeLockLoss _ | .spokeAckTimeout _ | .heartbeatSend _ | .heartbeatTimeout _ | .spokeAcceptWrite _ | .retrainDrainDone _
  | .sdioCmd0 | .sdioCmd3 | .sdioCmd5 _ | .sdioCmd7 _ | .sdioCmd11 | .sdioCmd19 | .sdioIllegalCommand _ | .inDoorbellWrite _
  | .commandPacketAccept | .outAckWrite _ | .bulkBlockWrite _ | .bulkBlockRead | .bulkInComplete | .fwdTimeout _ _
  | .paramWordWrite _ _ | .swapCut | .moduleResetExecute _ | .monitorCfgWrite _ _ _ | .powerTransitionDone _ _
  | .powerBlockStopTimeout _ _ _ | .powerEntryCommit _ | .powerAccessWake _ | .powerRetHoldExpiry _ | .regionFailureReport _
  | .stepDeadlineMiss _ | .hubHeartbeatMiss _ | .clockLockLoss _ | .regionRetestWrite _ | .autoRetestTimer
  | .scrubAccess _ _ _ | .patrolScrub _ _ | .watchdogTimeout | .millerWarmRestart _ | .restartDone _ | .restartTimeout
  | .fatalDumpDone _ | .monitorSnapSwap | .tempSample _ _ | .railSample _ _ _ | .camSupplyTrip _ | .presentNMate
  | .ethBlockLockLost _ | .ethBlockLockGained _ | .ethFrameRx _ _ | .spokePortEnWrite _ _ | .servoEnableWrite _ _
  | .monitorSampleTick _ _ => true
  | .flitEventsRx _ _ _ words | .flitCloseRx _ _ _ words => decide (words.length = 7)
  | .flitStepEndRx _ _ first second behind =>
    decide (first.length = 2) && decide (second.length = 2) && decide (behind.length = 4)
  | .flitControlRx _ ecc _ => decide (ecc.length = 8)
  | .bootSliceSetDone results | .retestDone results => slicesFit results
  | .csi2PacketRx _ packet => packet.fits
  | .auxSampleOutput _ _ rom => rom.all fun k => decide (k < 3)
  | .ptpSyncRx _ msg | .ptpFollowUpRx _ msg | .ptpAnnounceRx _ msg _ | .ptpDelayRespRx _ msg | .ptpPdelayReqRx _ msg
  | .ptpPdelayRespRx _ _ msg => msg.fits
  | .queueHwWrite _ _ words _ _ => decide (0 < words.length)
  | .spokeAlignDone _ lanes _ => decide (lanes.length = 4)
  | .spokeTs2ExchangeDone _ ts2 => decide (ts2.dedicated.length = 4)
  | .linkRx _ flit | .spokeFlitDiscard _ flit | .heartbeatRx _ flit | .haloEvents _ flit | .verdictRelay _ flit
  | .activation _ flit | .commandFwd _ flit | .explore _ flit | .discover _ flit | .identify _ flit | .report _ flit
  | .assign _ flit | .routes _ flit | .notify _ flit => flit.fits
  | .sdioCmd52 _ _ function address _ => decide (function < 8) && decide (address < 131072)
  | .sdioCmd53 _ _ _ function address count _ => decide (function < 8) && decide (address < 131072) && decide (count ≤ 512)
  | .getInfo req | .getCaps req | .echo req | .getState req | .paramRead req | .paramWrite req | .paramReadList req
  | .paramWriteList req | .imageBegin req | .imageCommit req | .imageUnload req | .imageInfo req | .bulkAbort req
  | .imageSwap req | .arm req | .stop req | .moduleReset req | .claim req | .release req
  | .syncobjOp req | .powerSet req | .powerStatus req | .regionPark req | .regionResume req | .timeSnapshot req | .camI2c req
  | .camSupply req | .monRead req | .monClear req | .dumpInfo req | .dumpRead req | .dumpClear req | .logRead req
  | .getIdentity req | .attest req | .lifecycleGet req | .lifecycleSet req | .firmwareActivate req | .enumerate req
  | .retrain req | .testReport req | .testRead req | .bistRun req => req.fits
  | .queueWrite q | .queueRead q => q.req.fits
  | .blockErrorReport err => decide (err.inst < 65536) && decide (err.code < 65536)
  | .fatalError cause => decide (0 < cause) && decide (cause < 10)
  | .commandCompletion _ later => later.fits

/-- A well-formed command. -/
def Instr.wf (i : Instr) : Bool := i.unitsOk && i.fits

end Sys2Proof
end

