-- ==== Sys2Proof/Safety.lean ====
section
/-!
DEFINITION. What counts as a safe state and a safe step: the stores that one operation writes are in canonical form, and
a step stops nowhere.
-/

namespace Sys2Proof.Machine

/-- The canonical form of LPDDR5X: addresses strictly rising, no entry equal to what an unlisted byte reads as. -/
def Memory.wf (m : Sparse Byte) : Bool := Sparse.wf memDefault m

/-- The canonical form of the parameter words: IDs strictly rising, no word at its reset value listed. -/
def Words.wf (r : Sparse Word) : Bool := Sparse.wf resetWord r

/-- The canonical form of the stores of the object chain and of time: keys strictly rising, nothing at its default listed. -/
def State.objectsWf (s : State) : Bool :=
  Sparse.wf (fun _ => Tracker.empty) s.trk.trackers && Sparse.wf (fun _ => none) s.trk.slots &&
    Sparse.wf (fun _ => none) s.trk.mirror && Sparse.wf resetWord s.trk.mirrorWords && Sparse.wf (fun _ => []) s.trk.refine &&
    Sparse.wf (fun _ => DenseUnit.empty) s.obj.units && Sparse.wf (fun _ => HistState.empty) s.obj.hist &&
    Sparse.wf (fun _ => 0) s.time.snapTcu && Sparse.wf (fun _ => []) s.time.tcu && Sparse.wf (fun _ => AuxChan.empty) s.aux

/-- The canonical form of the stores of the camera ports, the fabric and the router. -/
def State.fabricWf (s : State) : Bool :=
  Sparse.wf (fun _ => HeadPort.reset) s.head.ports && Sparse.wf (fun _ => 0) s.head.sub && Sparse.wf (fun _ => 0) s.head.passed &&
    Sparse.wf (fun _ => 0) s.rtr.grants && Sparse.wf (fun _ => Node.empty) s.rtr.nodes && Sparse.wf (fun _ => 0) s.rtr.subs &&
    Sparse.wf transDefault s.rtr.trans && Sparse.wf (fun _ => Block.empty) s.fab.blocks && Sparse.wf (fun _ => Conv.empty) s.fab.convs

/-- The canonical form of the stores of the host attachment, the links, the queues and the management unit. -/
def State.systemWf (s : State) : Bool :=
  Sparse.wf (fun _ => (0 : Byte)) s.host.sdio.f0 && Sparse.wf (fun _ => (0 : Byte)) s.host.sdio.inbox &&
    Sparse.wf (fun _ => SpokePort.reset) s.spoke.ports && Sparse.wf (fun _ => 7) s.spoke.routes &&
    Sparse.wf (fun _ => none) s.spoke.nodes && Sparse.wf (fun _ => 0) s.regions && Sparse.wf (fun _ => CvContext.reset) s.cv &&
    Sparse.wf (fun _ => PowerDom.reset) s.mgmt.power.doms && Sparse.wf (fun _ => MonChan.reset) s.mgmt.mon &&
    Sparse.wf (fun _ => Queue.empty) s.que.queues && Sparse.wf (fun _ => none) s.que.claims

/-- Byte memory, parameter words and the records of every unit are in canonical form. -/
structure State.canonical (s : State) : Prop where
  mem : Memory.wf s.mem = true
  regs : Words.wf s.regs = true
  objects : s.objectsWf = true
  fabric : s.fabricWf = true
  system : s.systemWf = true

/-- The fields of a word fit in its 32 bits, no two of them share a bit, and a W1C field is one bit (R10). -/
def fieldsWf (fs : List Field) : Bool :=
  (fs.all fun f => decide (f.lsb + f.width ≤ 32) && (f.acc != .w1c || f.width == 1)) &&
    decide (fs.Pairwise fun f g => f.lsb + f.width ≤ g.lsb ∨ g.lsb + g.width ≤ f.lsb)

/-! ### Command packets -/

/-- Opcode and packet of the rows that are command packets (R363). -/
def cmdOf : Instr → Option (Nat × Req)
  | .getInfo r => some (0x0000, r) | .getCaps r => some (0x0001, r) | .echo r => some (0x0002, r)
  | .getState r => some (0x0003, r) | .paramRead r => some (0x0100, r) | .paramWrite r => some (0x0101, r)
  | .paramReadList r => some (0x0102, r) | .paramWriteList r => some (0x0103, r) | .imageBegin r => some (0x0200, r)
  | .imageCommit r => some (0x0201, r) | .imageUnload r => some (0x0202, r) | .imageInfo r => some (0x0203, r)
  | .bulkAbort r => some (0x0204, r) | .imageSwap r => some (0x0205, r) | .arm r => some (0x0300, r)
  | .stop r => some (0x0301, r) | .moduleReset r => some (0x0302, r) | .claim r => some (0x0303, r)
  | .release r => some (0x0304, r) | .queueWrite r => some (0x0305, r.req) | .queueRead r => some (0x0306, r.req)
  | .syncobjOp r => some (0x0307, r) | .powerSet r => some (0x0400, r) | .powerStatus r => some (0x0401, r)
  | .regionPark r => some (0x0402, r) | .regionResume r => some (0x0403, r) | .timeSnapshot r => some (0x0500, r)
  | .camI2c r => some (0x0600, r) | .camSupply r => some (0x0601, r) | .monRead r => some (0x0700, r)
  | .monClear r => some (0x0701, r) | .dumpInfo r => some (0x0702, r) | .dumpRead r => some (0x0703, r)
  | .dumpClear r => some (0x0704, r) | .logRead r => some (0x0705, r) | .getIdentity r => some (0x0800, r)
  | .attest r => some (0x0801, r) | .lifecycleGet r => some (0x0802, r) | .lifecycleSet r => some (0x0803, r)
  | .firmwareActivate r => some (0x0804, r) | .enumerate r => some (0x0900, r) | .retrain r => some (0x0901, r)
  | .testReport r => some (0x0A00, r) | .testRead r => some (0x0A01, r) | .bistRun r => some (0x0A02, r)
  | _ => none

/-- A packet that no check of the command service refuses, with no other packet waiting (R355 to R357, R360). -/
def State.accepts (s : State) (op : Nat) (r : Req) : Bool :=
  s.powered && s.host.accepted.isEmpty && (s.serviceRefuses op r.tag.toNat r.bcast).isNone

/-- The state with that packet accepted: its tag is in flight (R356). (log 6, DEDUCED) -/
def State.taken (s : State) (op : Nat) (r : Req) : State := s.onHost fun h => { h with accepted := [⟨op, r, s.loc⟩] }

/-! ### The queue -/

/-- Every waiting command is well formed. -/
def State.queueWf (s : State) : Bool := s.pending.all Instr.wf

/-- Every waiting command names units that exist. -/
def State.queueUnits (s : State) : Bool := s.pending.all Instr.unitsOk

/-- A step that answers a next state. -/
def Safe (s : State) : Prop := ∃ t, step s = .next t

end Sys2Proof.Machine
end

