-- ==== Sys2Proof/Certificates/Slice0/Obligations.lean ====
section
/-!
DEFINITION. The statements for the provers. Each says what a command, a step or an operation of the block does; its title,
its words and the rules it cites stand in OBLIGATIONS.json under the same name.
-/

open Sys2Proof Sys2Proof.Machine

/-- A step takes the command at the front of the queue and runs it with the queue's rest. The queue is the model's own
(assumptions 1 and 6). -/
def Obligations.StepRunsFrontCommand : Prop :=
  ∀ (c : Instr) (rest : List Instr) (s : State), s.pending = c :: rest → step s = exec c { s with pending := rest }

/-- On an empty queue one ns of domain 93 passes (assumption 4, the model's choice): the local counter advances modulo 2^64
(R64), and without input power nothing happens. -/
def Obligations.EmptyQueueTicks : Prop :=
  ∀ s : State, s.pending = [] →
    (s.powered = false → step s = .next s) ∧
    (s.powered = true → s.mgmt.board.store = none → s.mgmt.board.reload = none →
      ∃ t, step s = .next t ∧ t.loc = (s.loc + 1) % 2 ^ 64 ∧ t.regs = s.regs ∧ t.mem = s.mem ∧ t.pos = s.pos ∧
        t.pending = [])

/-- Every command of the table answers a next state, and none a fault or a refusal. One that names a unit the module does not
have changes nothing but the status of a single-word access or of an operation on a synchronisation object (the model's
convention, assumption 3). -/
def Obligations.EveryCommandCompletes : Prop :=
  ∀ (c : Instr) (s : State),
    (∃ t, exec c s = .next t) ∧
    (c.unitsOk = false →
      ∃ t, exec c s = .next t ∧ t = { s with lastStatus := t.lastStatus, que := { s.que with soStatus := t.que.soStatus } })

/-- The invariant of `EveryStepKeepsCanonicalStores` holds at reset, where every word reads as its reset value (R13). -/
def Obligations.CanonicalAtReset : Prop :=
  State.reset.canonical ∧ State.reset.pending = [] ∧ (∀ id, State.reset.word id = resetWord id) ∧
    ∀ a, State.reset.readByte a = memDefault a

/-- The canonical form of every store is kept by every step, from every state that has it, reachable or not. -/
def Obligations.EveryStepKeepsCanonicalStores : Prop :=
  ∀ s t : State, s.canonical → step s = .next t → t.canonical

/-- Commands leave the queue first in, first out, none is added or lost, no queue ever stops the machine, and the counter of
free values never falls (so no free value is taken twice). -/
def Obligations.StepsTakeCommandsInOrder : Prop :=
  ∀ s : State, ∃ t, step s = .next t ∧ t.pending = s.pending.tail ∧ s.free ≤ t.free

/-- The hot-swap controller and input power-good (R460 to R463, R373 step 1, R428, R466). That the memory lists nothing after
power comes or goes is the model's choice (assumptions 2 and 31), and so is when an excursion of a locked-out input is a
removal (assumption 66). -/
def Obligations.InputPowerSequence : Prop :=
  ∀ s : State,
    (s.mgmt.board.supply = .absent →
      exec .presentNMate s = .next (s.onBoard fun b => { b with supply := .qualifying, trips := 0 })) ∧
    (s.mgmt.board.supply = .qualifying →
      exec .vinQualified s = .next (s.onBoard fun b => { b with supply := .charging })) ∧
    (s.mgmt.board.supply = .tripped →
      exec .overcurrentRetry s = .next (s.onBoard fun b => { b with supply := .qualifying })) ∧
    (s.mgmt.board.supply = .charging → ∀ compatSel : Bool,
      ∃ t, exec (.powerGood compatSel) s = .next t ∧ t.mgmt.board.supply = .on ∧ t.loc = 0 ∧ t.pos.count = 0 ∧
        t.cmd = .boot ∧ t.mgmt.fault.faultN = true ∧ t.mem = [] ∧ t.bitAt (pid 1 0 0x100) 25 = compatSel) ∧
    (s.mgmt.board.supply = .qualifying ∨ s.mgmt.board.supply = .charging ∨ s.mgmt.board.supply = .on ∨
        s.mgmt.board.supply = .lockedOut →
      ∃ t, exec .vinOutOfRange s = .next t ∧ t.mgmt.sec = s.mgmt.sec ∧ t.mgmt.board.store = s.mgmt.board.store ∧
        (s.mgmt.board.supply ≠ .lockedOut ∨ Config.vinRemoved s.free = true →
          t.mgmt.board.supply = .qualifying ∧ t.mgmt.board.trips = 0 ∧ t.mgmt.fault.faultN = true ∧ t.mem = []) ∧
        (s.mgmt.board.supply = .lockedOut → Config.vinRemoved s.free = false → t = { s with free := s.free + 1 })) ∧
    (s.mgmt.board.supply = .absent ∨ s.mgmt.board.supply = .tripped → exec .vinOutOfRange s = .next s) ∧
    (s.mgmt.board.supply ≠ .absent →
      ∃ t, exec .presentNOpen s = .next t ∧ t.mgmt.board.supply = .absent ∧ t.mgmt.fault.faultN = true ∧
        t.mem = [] ∧ t.mgmt.sec = s.mgmt.sec ∧ t.mgmt.board.store = s.mgmt.board.store) ∧
    (s.powered = true →
      ∃ t, exec .overcurrentTrip s = .next t ∧ t.mgmt.board.trips = s.mgmt.board.trips + 1 ∧
        t.mgmt.board.supply = (if s.mgmt.board.trips + 1 < 3 then Supply.tripped else Supply.lockedOut) ∧
        t.mgmt.fault.faultN = true)

/-- Start-up from step 6 on and the reset of MODULE_RESET (R373, R375, R428, R446, R452), and the model store (R480). When a
spoke port counts as having made its one attempt is the model's reading (assumption 33). -/
def Obligations.StartUpSequence : Prop :=
  ∀ s : State,
    (∀ results, s.booting = true → s.mgmt.test.bootDone = false → results.map (·.code) = bootCodes →
      (failedOf results = [] →
        ∃ t, exec (.bootSliceSetDone results) s = .next t ∧ t.mgmt.fault.faultN = false ∧ t.mgmt.test.bootDone = true ∧
          t.cmd = .boot ∧ t.mgmt.test.results = results ∧ t.mem = s.mem) ∧
      (failedOf results ≠ [] →
        ∃ t, exec (.bootSliceSetDone results) s = .next t ∧ t.mgmt.fault.faultN = true ∧ t.cmd = .safe ∧
          t.mgmt.test.results = results ∧ t.mem = s.mem)) ∧
    (∀ preferredOk otherOk, s.booting = true → s.mgmt.test.bootDone = true →
      ∃ t, exec (.firmwareVerified preferredOk otherOk) s = .next t ∧ t.regs = s.regs ∧ t.mem = s.mem ∧ t.pos = s.pos ∧
        (s.copyAccepted s.mgmt.sec.preferred preferredOk = true →
          t.cmd = .early ∧ t.mgmt.sec.running = s.mgmt.sec.preferred) ∧
        (s.copyAccepted s.mgmt.sec.preferred preferredOk = false →
          s.copyAccepted (1 - s.mgmt.sec.preferred) otherOk = true →
          t.cmd = .early ∧ t.mgmt.sec.running = 1 - s.mgmt.sec.preferred) ∧
        (s.copyAccepted s.mgmt.sec.preferred preferredOk = false →
          s.copyAccepted (1 - s.mgmt.sec.preferred) otherOk = false → t.cmd = .safe ∧ t.mgmt.fault.faultN = true)) ∧
    (s.powered = true → s.cmd = .early → s.portsTried = true → ∀ f, s.copyOf s.mgmt.sec.running = some f →
      ∃ t, exec .startupReady s = .next t ∧ t.cmd = .ready ∧ t.mgmt.sec.fuseSvn = max s.mgmt.sec.fuseSvn f.svn ∧
        t.regs = s.regs ∧ t.mem = s.mem ∧ t.pos = s.pos) ∧
    (s.resetDue = true → ∀ compatSel : Bool,
      ∃ t, exec (.moduleResetExecute compatSel) s = .next t ∧ t.cmd = .boot ∧ t.armed = false ∧ t.tags = [] ∧
        t.mgmt.fault.faultN = true ∧ t.loc = s.loc ∧ t.pos.count = s.pos.count ∧ t.pos.log = s.pos.log ∧
        (s.canonical → ∀ a, inRange dumpBase dumpSize a = true → t.readByte a = s.readByte a)) ∧
    (∀ img, s.mgmt.board.storing = some img → s.awake = true →
      exec .modelStoreCopyDone s = .next (s.onBoard fun b => { b with store := some img, storing := none }))

/-- Counting (R35 to R37, R39, R40, R42 to R44, R46, R62). -/
def Obligations.EncoderCounting : Prop :=
  ∀ s : State, s.canonical →
    (∀ (a b : Bool) (stable : Nat), s.powered = true → s.fld (posId 0) 8 8 * 10 ≤ stable →
      (a != s.pos.encA) ≠ (b != s.pos.encB) → (∀ l, s.pos.decoded = some l → 100 ≤ locDiff s.loc l) →
      ∀ dir : Int, dir ≠ 0 →
      dir = (if a != s.pos.encA then decodeEdge (s.fld (posId 0) 3 2) true a b
             else decodeEdge (s.fld (posId 0) 3 2) false b a) →
      ∀ u, u = { s with pos := { s.pos with encA := a, encB := b, decoded := some s.loc } } →
      (s.pos.src = .encoder → s.pos.hold = false →
        exec (.encoderCountEdge (a, b) stable) s = .next (u.countEdge (if s.bitAt (posId 0) 5 then -dir else dir))) ∧
      (s.pos.src ≠ .encoder ∨ s.pos.hold = true → exec (.encoderCountEdge (a, b) stable) s = .next u)) ∧
    (∀ (a b : Bool) (stable : Nat), s.powered = true → s.fld (posId 0) 8 8 * 10 ≤ stable →
      a ≠ s.pos.encA → b ≠ s.pos.encB →
      exec (.encoderCountEdge (a, b) stable) s =
        .next (({ s with pos := { s.pos with encA := a, encB := b } }.bump (posId 0x13)).flag (posId 0x0F) 10)) ∧
    (∀ (a b : Bool) (stable : Nat), stable < s.fld (posId 0) 8 8 * 10 → exec (.encoderCountEdge (a, b) stable) s = .next s) ∧
    (s.powered = true →
      (s.armed = false ∨ s.pos.src ≠ .encoder → exec .lineFault s = .next (s.flag (posId 0x0F) 8)) ∧
      (s.armed = true → s.pos.src = .encoder → s.bitAt (posId 0) 6 = false →
        exec .lineFault s =
          .next { s.flag (posId 0x0F) 8 with pos := { s.pos with hold := true } }) ∧
      (s.armed = true → s.pos.src = .encoder → s.bitAt (posId 0) 6 = true → s.pos.hold = false →
        ∃ t, exec .lineFault s = .next t ∧ t.pos.src = .fallback ∧ t.bitAt (posId 0x0F) 8 = true ∧
          t.bitAt (posId 0x0F) 9 = true ∧ t.pos.count = s.pos.count ∧ t.mem = s.mem)) ∧
    (s.armed = true → s.pos.src = .synthetic ∨ s.pos.src = .fallback → s.curveLead ≠ 0 →
      exec .synthCountEdge s = .next (s.countEdge (signInt s.curveLead))) ∧
    exec .speedWindowAge s = .next (s.setWord (posId 0x0C) (BitVec.ofInt 32 (speedOf s.dev s.pos.log))) ∧
    (∀ v : Word, s.wordService = true → v.toNat < 65536 →
      (s.armed = true → exec (.countSetWrite v) s = .next { s with lastStatus := .locked }) ∧
      (s.armed = false →
        ∃ t, exec (.countSetWrite v) s = .next t ∧ t.lastStatus = .ok ∧
          t.pos.count = (s.pos.setLo + v.toNat * 2 ^ 32) % 2 ^ 48 ∧ t.pos.load = some s.dev ∧ t.pos.log = s.pos.log ∧
          t.mem = s.mem)) ∧
    (s.wordService = true →
      ∃ t, exec .positionCountRead s = .next t ∧ t.lastStatus = .ok ∧
        t.lastWord = BitVec.ofNat 32 (s.posNow.1 / 65536) ∧ t.pos.snapHi = s.posNow.1 / 65536 / 2 ^ 32 + s.posNow.1 % 65536 * 65536 ∧
        t.pos.count = s.pos.count ∧ t.regs = s.regs ∧ t.mem = s.mem)

/-- The counter, the encoder log and SPEED at one count edge (R42, R44, R46). -/
def Obligations.CountEdgeMovesCounter : Prop :=
  ∀ (s : State) (dir : Int), s.canonical → s.stepMode = false →
    (s.countEdge dir).pos.count = codeOf 48 (s.pos.count + dir) ∧
    (s.countEdge dir).pos.log = (LogEntry.mk s.dev (codeOf 48 (s.pos.count + dir)) dir :: s.pos.log).take 8192 ∧
    (s.countEdge dir).pos.load = none ∧
    (s.countEdge dir).word (posId 0x0C) = BitVec.ofInt 32 (speedOf s.dev (s.countEdge dir).pos.log) ∧
    (∀ id, id ≠ posId 0x0C → id ≠ posId 0x0F → (s.countEdge dir).word id = s.word id) ∧
    (s.countEdge dir).mem = s.mem ∧ (s.armed = false → (s.countEdge dir).pos.hw = s.pos.hw)

/-- R38 and R37: an accepted rising edge of Z copies the position, fraction included, and never resets or loads the counter; an edge
that the filter rejects (R37) does nothing. When an edge of Z counts as stable is the model's reading (assumption 9). -/
def Obligations.ZEdgeCopiesPosition : Prop :=
  ∀ s : State, s.canonical → s.powered = true → s.pos.count < 2 ^ 48 →
    (s.zStable = true →
      ∃ t, exec .encZEdge s = .next t ∧
        (t.word (posId 0x14)).toNat = s.pos.count % 2 ^ 32 ∧
        (t.word (posId 0x15)).toNat % 65536 = s.pos.count / 2 ^ 32 ∧
        (t.word (posId 0x15)).toNat / 65536 = s.posNow.1 % 65536 ∧
        s.posNow.1 / 65536 = s.pos.count ∧ t.pos = { s.pos with zAt := some s.loc } ∧ t.mem = s.mem) ∧
    (s.zStable = false → exec .encZEdge s = .next s)

/-- Closures and starts of fabric steps (R47, R49, R50, R53, R60). -/
def Obligations.FabricStepClosures : Prop :=
  ∀ s : State, s.canonical →
    (s.backstopDue = true →
      exec .backstopClose s =
        .next (((s.haloShed.closeFabric (s.pos.openK - 1) true).bump (posId 0x12)).flag (posId 0x0F) 15)) ∧
    (s.replayDue = true → s.bitAt (posId 7) 0 = true →
      s.fld (posId 7) 1 24 * 1000 ≤ locDiff s.loc s.pos.lastClose →
      exec .replayPaceTimer s = .next s.closeStep) ∧
    (∀ (k : Int) (backstop : Bool),
      (s.closeFabric k backstop).pos.openK = s.pos.openK ∧ (s.closeFabric k backstop).pos.lastClose = s.loc ∧
      (s.closeFabric k backstop).pos.pulse = some s.loc ∧
      (s.lag < 64 →
        (s.closeFabric k backstop).ssnClosed = (s.ssnClosed + 1) % 2 ^ 32 ∧
        ∃ st : FabStep, (s.closeFabric k backstop).pos.closed = s.pos.closed ++ [st] ∧
          st.ssn = (s.ssnClosed + 1) % 2 ^ 32 ∧ st.hw = s.pos.hw ∧ st.backstop = backstop) ∧
      (64 ≤ s.lag →
        (s.closeFabric k backstop).ssnClosed = s.ssnClosed ∧ (s.closeFabric k backstop).pos.closed = s.pos.closed ∧
        ∃ st : FabStep, (s.closeFabric k backstop).pos.owed = s.pos.owed ++ [st] ∧ st.hw = s.pos.hw ∧
          st.backstop = backstop)) ∧
    (s.pos.openK < s.closeStep.pos.openK) ∧
    (s.lag = 64 → s.closeStep.bitAt (posId 0x0F) 13 = true) ∧
    (∀ st rest, s.pos.cur = none → s.cutDue = false → s.pos.closed = st :: rest →
      ∃ t, exec .fabricStepStart s = .next t ∧ t.pos.cur = some st ∧ t.pos.closed = rest ∧ t.pos.stepAt = s.loc)

/-- The ring's commands (R158 to R161, R163, R172, R173, R175). How a node takes CONTROL flits in, and which of the spilled
events a read-back moves, are the model's readings (assumption 11). -/
def Obligations.RingFlitsAreTaken : Prop :=
  ∀ (s : State) (node : Nat) (up : Bool) (ecc : List EccCheck), node < 11 →
    (∀ f t, s.nextFlit node up = some (f, t) →
      ∀ u, u = (t.flitCorr node ecc).flitUe node ecc →
      (∀ evs header words, f.body = .events evs → ecc = header :: words →
        ((∀ e ∈ ecc, e ≠ .uncorrectable) → f.dest ≠ node →
          exec (.flitEventsRx node up header words) s = .next ((t.flitCorr node ecc).passFlit f node)) ∧
        ((∀ e ∈ ecc, e ≠ .uncorrectable) → f.dest = node → ∀ r, ringRegion node = some r →
          exec (.flitEventsRx node up header words) s =
            .next (forEach evs (fun s h => s.holdEvent r h) ((t.flitCorr node ecc).takeFlit f))) ∧
        (.uncorrectable ∈ ecc →
          exec (.flitEventsRx node up header words) s =
            .next (((t.flitCorr node ecc).takeFlit f).flitLost node f evs (s.behind f)))) ∧
      (∀ k b ssn header words, f.body = .close k b ssn → ecc = header :: words →
        (copiesBad ecc = true → exec (.flitCloseRx node up header words) s = .next (u.copiesLost node f)) ∧
        (copiesBad ecc = false → f.dest ≠ node →
          exec (.flitCloseRx node up header words) s = .next (u.passFlit f node)) ∧
        (copiesBad ecc = false → f.dest = node → ∀ r, ringRegion node = some r →
          exec (.flitCloseRx node up header words) s = .next ((u.takeFlit f).takeClose r k b ssn))) ∧
      (∀ ssn first second behind, f.body = .stepEnd ssn → ecc = first ++ second ++ behind →
        (copiesBad ecc = true →
          exec (.flitStepEndRx node up first second behind) s = .next (u.copiesLost node f)) ∧
        (copiesBad ecc = false → f.dest ≠ node →
          exec (.flitStepEndRx node up first second behind) s = .next (u.passFlit f node)) ∧
        (copiesBad ecc = false → f.dest = node → s.curSsn = some ssn → t.curSsn = some ssn →
          ∀ r q, ringRegion node = some r → ringRegion f.src = some q →
          exec (.flitStepEndRx node up first second behind) s =
            .next ((u.takeFlit f).onNode r fun n => { n with stepEnds := n.stepEnds ++ [q] }))) ∧
      (f.body = .control →
        (f.dest ≠ node → exec (.flitControlRx (node, up) ecc none) s = .next (u.passFlit f node)) ∧
        (f.dest = node → exec (.flitControlRx (node, up) ecc none) s = .next (u.takeFlit f)))) ∧
    (∀ p d f g fresh, p = nextPos node (!up) → f = ⟨d, p, .control, p, false⟩ → s.running = true → d < 11 → d ≠ p →
      f.up = up → s.pickFlit p up (some f) = some (g, true, fresh) →
      exec (.flitControlRx (node, up) ecc (some d)) s =
        .next ((({ s with rtr := { s.rtr with ring := s.rtr.ring ++ [f] } }).countGrant p up true fresh).takeControl node ecc
          f)) ∧
    (∀ own f inject fresh, s.pickFlit node up own = some (f, inject, fresh) →
      (inject = false → f ∈ s.through node up ∧ f.dest ≠ node ∧ s.hasCredit (nextPos node up) up f.src = true) ∧
      (inject = true → own = some f ∧ s.mayInject (nextPos node up) up f.src = true)) ∧
    (∀ region n, region < 8 → s.curSsn = some n → ssnReached (s.node region).closeSeen n = true →
      ∀ moved, moved =
        ((s.node region).spill.filter (·.due ((n + 1) % 2 ^ 32))).take (32768 - (s.node region).sram.length) →
      exec (.spillReadback region) s =
        .next ((forEach ((s.node region).spill.filter (·.due n)) (fun s h => (s.deliver region h).forward region h)
          (s.onNode region fun x => { x with
            sram := x.sram ++ moved
            spill := moved.foldl (fun l h => l.erase h) (x.spill.filter fun h => !h.due n) })).releaseNode region))

/-- Holding an event (R172, R174, R176). -/
def Obligations.EventsAreHeldInOrder : Prop :=
  ∀ (s : State) (r : Nat) (h : Held), s.regionAsync r = false →
    (h.pending = true ∨ s.curSsn.map (· % 65536) ≠ some h.tag) →
    (∀ q, q ≠ r → (s.node r).sram.length < 32768 ∨ (s.node r).spill.length < 8388608 → (s.holdEvent r h).node q = s.node q) ∧
    ((s.node r).sram.length < 32768 →
      ((s.holdEvent r h).node r).sram = (s.node r).sram ++ [h] ∧ ((s.holdEvent r h).node r).spill = (s.node r).spill ∧
        (s.holdEvent r h).regs = s.regs ∧ (s.holdEvent r h).mem = s.mem) ∧
    (32768 ≤ (s.node r).sram.length → (s.node r).spill.length < 8388608 →
      ((s.holdEvent r h).node r).sram = (s.node r).sram ∧ ((s.holdEvent r h).node r).spill = (s.node r).spill ++ [h] ∧
        (s.holdEvent r h).regs = s.regs ∧ (s.holdEvent r h).mem = s.mem)

/-- The commands of the neuron blocks and of the converters (R126, R131, R132, R150, R151, R155, R173). -/
def Obligations.NeuronBlockCommands : Prop :=
  ∀ (s : State) (region block : Nat), s.canonical → region < 8 → block < 16 →
    ∀ b, b = region * 16 + block →
    (s.inputComplete b = true →
      exec (.blockInputComplete region block) s = .next (s.evalBlock b (s.curSsn.getD 0)) ∧
      ((s.evalBlock b (s.curSsn.getD 0)).block b).evaluated = true) ∧
    (s.pos.cur.isSome = true → s.takesPart b = true → (s.block b).evaluated = true → (s.block b).finished = false →
      exec (.blockStepFinished region block) s =
        .next (((s.onBlock b fun x => { x with finished := true, input := [] }).setFld (pid 5 b 2) 0 1 0).endIfDone)) ∧
    (∀ index u, (s.block b).updates[index]? = some u →
      exec (.asyncSynapticUpdate region block index) s =
        .next ((((s.onBlock b fun x => { x with updates := x.updates.eraseIdx index }).evalNeuron b true s.ssnDone u.neuron
          u.input).onBlock b fun x => { x with out := [] }).sleepIdle b)) ∧
    (∀ index, exec (.stateWordRepair region block true index) s =
      .next (s.onBlock b fun x => { x with badSyn := x.badSyn.filter (· != index) })) ∧
    (∀ index, (s.block b).badState.contains index = true →
      ∃ t, exec (.stateWordRepair region block false index) s = .next t ∧
        (t.block b).badState = (s.block b).badState.filter (· != index) ∧
        (∀ q, q ≠ b → t.block q = s.block q) ∧ t.regs = s.regs ∧ t.mem = s.mem) ∧
    (∀ r rest, s.stepMode = true → (s.conv region).held = r :: rest →
      exec (.decoderRecordRelease region) s =
        .next ((s.onConv region fun c => { c with held := rest }).consumeRec region r))

/-- V stays in 32 signed bits through every micro-operation, and the membrane that is written back in 20 (R134 to R136,
R138). -/
def Obligations.NeuronArithmeticStaysInRange : Prop :=
  (∀ (env : EvalEnv) (r : EvalRegs) (op : Nat), -524288 ≤ env.par.reset → env.par.reset ≤ 524287 →
    -2147483648 ≤ r.v → r.v ≤ 2147483647 →
    -2147483648 ≤ (execOp env r op).v ∧ (execOp env r op).v ≤ 2147483647) ∧
  ∀ (env : EvalEnv) (x : Neuron) (a : Int) (lfsr : Nat),
    -524288 ≤ (evaluate env x a lfsr).1.membrane ∧ (evaluate env x a lfsr).1.membrane ≤ 524287 ∧
    (evaluate env x a lfsr).1.cls = x.cls ∧ (env.async = true → (evaluate env x a lfsr).1.stamp = x.stamp)

/-- R129: recheck. -/
def Obligations.FiredNeuronsAreRechecked : Prop :=
  ∀ (s : State) (b ssn n : Nat) (a : Int), s.canonical → b < 128 → (s.block b).badState.contains n = false →
    ∀ (par : ClassPar) (env : EvalEnv), par = s.classPar b ((s.block b).neuron n).cls →
      env = ⟨par, false, (s.pos.cur.map (·.backstop)).getD false, s.stepIdx par⟩ →
      ∀ (new : Neuron) (emits : List (Int × Nat × Nat)) (lfsr : Nat) (fired : Bool),
        evaluate env ((s.block b).neuron n) a (s.block b).lfsr = (new, emits, lfsr, fired) →
        (fired = true ∧ ((par.theta : Int) ≤ new.membrane ∨ (par.twoSided = true ∧ new.membrane ≤ -(par.theta : Int))) →
          ((s.evalNeuron b false ssn n a).block b).recheck = (s.block b).recheck ++ [n] ∧
          ((s.evalNeuron b false ssn n a).word (pid 5 b 0x202)).toNat =
            min ((s.word (pid 5 b 0x202)).toNat + 1) 0xFFFFFFFF) ∧
        (¬ (fired = true ∧ ((par.theta : Int) ≤ new.membrane ∨ (par.twoSided = true ∧ new.membrane ≤ -(par.theta : Int)))) →
          ((s.evalNeuron b false ssn n a).block b).recheck = (s.block b).recheck ∧
          (s.evalNeuron b false ssn n a).word (pid 5 b 0x202) = s.word (pid 5 b 0x202))

/-- The camera ports (R93 to R98, R104, R105, R120, R472, R484). That a packet shows its port's clock domains as locked is the
model's reading (assumption 40), and that a sweep is done by device time since T0 its choice (assumption 70). -/
def Obligations.CameraPackets : Prop :=
  ∀ (s : State) (port : Nat), port < 4 →
    (s.running = true → s.domOn (32 + port) = true → ∀ packet : CsiPacket,
      ∀ u, u = (s.onPort port fun q => { q with lastRx := some s.loc }) →
      (bitOf s.mgmt.board.tripped port = true → exec (.csi2PacketRx port packet) s = .next s) ∧
      (bitOf s.mgmt.board.tripped port = false →
        s.bitAt (hpId port 0) 0 = false ∨ packet.begunBefore = true ∨ (s.armed = true ∧ s.pos.src = .replay) →
        exec (.csi2PacketRx port packet) s = .next u) ∧
      (bitOf s.mgmt.board.tripped port = false → s.bitAt (hpId port 0) 0 = true → packet.begunBefore = false → (s.armed = false ∨ s.pos.src ≠ .replay) →
        ∀ v, v = u.relocked ((45 + port) :: (upTo 4).map (49 + 4 * port + ·)) →
        (packet.header = .bad →
          exec (.csi2PacketRx port packet) s = .next ((v.bump (hpId port 0x102)).flag (hpId port 4) 2)) ∧
        (packet.header = .good → s.csiSupported port packet = true → packet.isLong = true → packet.buffersFull = false →
          (packet.crcOk = false →
            exec (.csi2PacketRx port packet) s = .next ((v.bump (hpId port 0x103)).flag (hpId port 4) 2)) ∧
          (packet.crcOk = true →
            (packet.dt = 0x12 → exec (.csi2PacketRx port packet) s = .next (v.diagPacket port packet.payload packet.pointers)) ∧
            (packet.dt ≠ 0x12 → s.armed = true →
              exec (.csi2PacketRx port packet) s = .next (v.eventPacket port packet)))))) ∧
    (∀ cell t0, cell < 131072 → (s.port port).t0 = some t0 →
      32768 ≤ Sparse.get (fun _ => 0) (s.port port).refract cell →
      16384 ≤ (((s.dev - t0).fdiv 1000).toNat / 2 ^ s.fld (hpId port 2) 12 2 + 32768 -
        Sparse.get (fun _ => 0) (s.port port).refract cell % 32768) % 32768 →
      exec (.refractSweep port cell) s = .next (s.onPort port fun q =>
        { q with refract :=
            Sparse.set (fun _ => 0) q.refract cell (Sparse.get (fun _ => 0) (s.port port).refract cell - 32768) })) ∧
    (∀ t0, (s.port port).t0 = some t0 → s.armed = true → s.bitAt (hpId port 0) 0 = true →
      t0 + (s.port port).edge * 1000000 ≤ s.dev →
      exec (.camSyncPulse port) s = .next ((s.onPort port fun q =>
        { q with sync := true, edge := q.edge + 1, syncEnd := s.loc + s.fld (hpId port 1) 25 5 * 1000 }).captureEdge
          (4 + port) (s.bitAt (hpId port 1) 24)))

/-- The replay stream (R60, R113, R120); its way round a wrapped ring is the model's reading (assumption 58). -/
def Obligations.ReplayStream : Prop :=
  ∀ (s : State) (w : Nat), s.armed = true → s.pos.src = .replay → s.replayDue = false →
    s.head.repOff + 8 ≤ s.replayEnd ∨
      (s.replayEnd < s.replayStart ∧ s.replayStart ≤ s.head.repOff ∧ s.head.repOff + 8 ≤ s.recBase + s.recBytes) →
    w = ofLe (s.readBytes s.head.repOff 8) →
    ∀ u, u = { s with head := { s.head with repOff :=
        if s.replayEnd < s.replayStart ∧ s.head.repOff + 8 = s.recBase + s.recBytes then s.recBase
        else s.head.repOff + 8 } } →
      (bitOf w 63 = true → bitsOf w 60 3 = 0 → exec .replayWord s = .next (u.replayMarker (bitsOf w 0 48))) ∧
      (bitOf w 63 = true → bitsOf w 60 3 = 1 → exec .replayWord s = .next (u.bump (pid 2 0x21 7))) ∧
      (bitOf w 63 = false →
        exec .replayWord s = .next (u.sluiceInput { Ev.ofWord u.head.repMark w with replay := true }))

/-- R122: the homography of each port is the identity at reset. -/
def Obligations.HomographyResetsToIdentity : Prop :=
  ∀ p i, p < 4 → i < 9 →
    State.reset.word (pid 3 p (0x1100 + i)) = if i = 0 ∨ i = 4 ∨ i = 8 then 0x00100000 else 0

/-- PTP messages that a domain takes (R67, R70, R71, R73, R79 to R81). The choice of a master, the 16 upper bits of its seconds
and the arithmetic of 802.1AS are presumed (assumption 14). -/
def Obligations.PtpMessagesAreTracked : Prop :=
  ∀ (s : State) (port d : Nat) (msg : PtpMsg), port < 2 → d < 2 → s.running = true → s.domOff (40 + port) = false →
    s.servoOn = true → ∀ u x, u = s.framesRx port → x = s.domain d →
    (∀ o, u.trackedBy port msg = some d → -7 ≤ msg.logInterval → msg.logInterval ≤ 1 →
      x.master = some o → x.fromMaster port msg = true →
      ∀ y, y = { x with master := some { o with lastSync := s.loc, syncLog := msg.logInterval } } →
      (msg.twoStep = true →
        exec (.ptpSyncRx port msg) s = .next (u.setDomain d { y with sync := some (msg.seq, u.ingressTs port, corrNs msg) })) ∧
      (msg.twoStep = false →
        exec (.ptpSyncRx port msg) s =
          .next ((u.setDomain d (y.sawSec msg)).syncPair d (y.stampNs msg + corrNs msg) (u.ingressTs port) msg.rateOffset)) ∧
      (∀ t2 corr, x.sync = some (msg.seq, t2, corr) →
        exec (.ptpFollowUpRx port msg) s =
          .next ((u.setDomain d (x.sawSec msg)).syncPair d (x.stampNs msg + corr + corrNs msg) t2 msg.rateOffset))) ∧
    (∀ data : PtpDataset, u.trackedBy port { msg with logInterval := data.logInterval } = some d →
      -3 ≤ data.logInterval → data.logInterval ≤ 3 →
      ∃ m : Master, m.port = port ∧ m.clockId = msg.clockId ∧ m.portNo = msg.portNo ∧ m.data = data ∧ m.lastAnn = s.loc ∧
        exec (.ptpAnnounceRx port msg data) s = .next (u.setDomain d (Domain.select { x with
          heard := (x.heard.filter fun o => !o.same m) ++ [m] } s.loc (u.fld (domId d 0) 13 3) (u.profile d == 2)))) ∧
    (∀ e, u.trackedBy port msg = some d → -3 ≤ msg.logInterval → msg.logInterval ≤ 3 → msg.toUs = true →
      x.exchange = some e → x.fromMaster port msg = true → e.seq = msg.seq → u.profile d = 0 →
      exec (.ptpDelayRespRx port msg) s = .next (u.setDomain d { x with
        delay := some ((x.timeOf e.t2 - x.timeOf e.t3 + (x.stampNs msg - corrNs msg - e.t1)).fdiv 2) })) ∧
    (∀ e, u.trackedBy port { msg with logInterval := 0 } = some d → msg.toUs = true → (x.link port).exchange = some e →
      e.seq = msg.seq → u.profile d ≠ 0 →
      (msg.twoStep = false → u.profile d = 1 → (x.link port).num = 1 → (x.link port).den = 1 →
        ∃ t, exec (.ptpPdelayRespRx port .resp msg) s = .next t ∧
          ((t.domain d).link port).delay = some ((u.ingressTs port - e.t3 - corrNs msg).fdiv 2) ∧
          (t.domain d).state = x.state ∧ t.domain (1 - d) = s.domain (1 - d) ∧ t.mem = s.mem) ∧
      (msg.twoStep = true →
        exec (.ptpPdelayRespRx port .resp msg) s = .next (u.setDomain d (x.setLink port { x.link port with
          exchange := some { e with
            t4 := u.ingressTs port, t2p := some (((msg.sec * 1000000000 + msg.ns : Nat) : Int) - corrNs msg) } }))) ∧
      (∀ t2p, e.t2p = some t2p →
        exec (.ptpPdelayRespRx port .followUp msg) s = .next (u.setDomain d (x.setLink port ((x.link port).measured
          (u.profile d == 2) e (peerDiff (((msg.sec * 1000000000 + msg.ns : Nat) : Int) + corrNs msg) t2p)
          (some (((msg.sec * 1000000000 + msg.ns : Nat) : Int) + corrNs msg)))))))

/-- PTP outside the tracked messages (R70, R71, R74, R79 to R81, R86). The lengths of PTP frames are presumed (assumption
14). -/
def Obligations.PtpAnswersAndTimeouts : Prop :=
  ∀ s : State,
    (∀ port, port < 2 → s.running = true → s.domOff (40 + port) = false →
      exec (.ptpMessageIgnored port) s = .next ((s.framesRx port).bump (tportId port 5))) ∧
    (∀ port msg, port < 2 → s.running = true → s.domOff (40 + port) = false → s.servoOn = false →
      exec (.ptpSyncRx port msg) s = .next ((s.framesRx port).bump (tportId port 5)) ∧
      exec (.ptpFollowUpRx port msg) s = .next ((s.framesRx port).bump (tportId port 5)) ∧
      exec (.ptpDelayRespRx port msg) s = .next ((s.framesRx port).bump (tportId port 5))) ∧
    (∀ port (msg : PtpMsg), port < 2 → s.running = true → s.domOff (40 + port) = false → s.bitAt (pid 0x13 port 0) 0 = true →
      (-3 ≤ msg.logInterval → msg.logInterval ≤ 3 →
        exec (.ptpPdelayReqRx port msg) s =
          .next ((s.framesRx port).ptpSend ⟨port, 3, msg.seq, 0, msg.udp, (s.framesRx port).ingressTs port⟩)) ∧
      (msg.logInterval < -3 ∨ 3 < msg.logInterval →
        exec (.ptpPdelayReqRx port msg) s = .next ((s.framesRx port).bump (tportId port 5)))) ∧
    (∀ port d, port < 2 → d < 2 → s.running = true → s.servoOn = true → (s.domain d).state ≠ .disabled →
      (∀ m p, s.profile d = 0 → (s.domain d).master = some m → m.port = port → (s.domain d).lastPair = some p →
        exec (.ptpDelayReqSend port d) s =
          .next (s.ptpSend ⟨port, 1, (((s.domain d).exchange.map fun e => (e.seq + 1) % 65536).getD 0), d,
            s.bitAt (domId d 0) 10, 0⟩)) ∧
      (s.profile d ≠ 0 → bitOf (s.domPorts d) port = true →
        exec (.ptpDelayReqSend port d) s =
          .next (s.ptpSend ⟨port, 2, ((((s.domain d).link port).exchange.map fun e => (e.seq + 1) % 65536).getD 0), d,
            s.bitAt (domId d 0) 10, 0⟩))) ∧
    (∀ w : PtpWait, w.port < 2 → (∀ x ∈ s.time.waiting, x.port ≠ w.port) →
      (s.ptpMayStart w = true → w.kind = 3 →
        (s.ptpSend w).time.ptpSent = ⟨w.port, 3, w.seq, w.stamp⟩ :: s.time.ptpSent ∧
        (s.ptpSend w).time.waiting = { w with kind := 0xA, stamp := s.egressTs w.port } :: s.time.waiting) ∧
      (s.ptpMayStart w = true → w.kind = 1 ∨ w.kind = 2 →
        (s.ptpSend w).time.ptpSent = ⟨w.port, w.kind, w.seq, s.egressTs w.port⟩ :: s.time.ptpSent ∧
        (s.ptpSend w).time.waiting = s.time.waiting) ∧
      (s.ptpMayStart w = false → (s.ptpSend w) = { s with time := { s.time with waiting := s.time.waiting ++ [w] } })) ∧
    (∀ w : PtpWait, s.ptpMayStart w = true →
      s.portUp w.port = true ∧ ∀ l rest, s.launchQ w.port = l :: rest → s.dev + 100 < l.time) ∧
    (∀ d announce, d < 2 → s.restarting = false → s.receiptDue d announce = true →
      ((s.domain d).state = .settle ∨ (s.domain d).state = .locked →
        ∃ t, exec (.ptpReceiptTimeout d announce) s = .next t ∧ (t.domain d).state = .freewheel ∧
          (t.domain d).master = none ∧ (t.domain d).rate = (s.domain d).freq) ∧
      ((s.domain d).state = .acquire →
        ∃ t, exec (.ptpReceiptTimeout d announce) s = .next t ∧ (t.domain d).state = .listen ∧
          (t.domain d).master = none ∧ t.regs = s.regs))

/-- No step of time at a change of rate, at the start of a switch, at a change of its slew, at a first lock while armed, or at
the end of a switch (R66, R68, R75, R78). That a first lock while armed is slewed is the model's reading (assumption 15). -/
def Obligations.DeviceTimeKeptAcrossChanges : Prop :=
  (∀ (d : Domain) (l : Nat) (r : Int), (d.setRate l r).timeAt l = d.timeAt l ∧ (d.setRate l r).anchor = l ∧
    (d.setRate l r).rate = r) ∧
  (∀ (s : State) (y : Nat), (s.startSwitch y).dev = s.dev ∧
    ∀ w, (s.startSwitch y).time.switch = some w → w.delta = w.ty1 - w.dev1 ∧ w.target = y) ∧
  (∀ (s : State) (d : Nat) (x : Domain), s.reanchor.dev = s.dev ∧ (d = s.timeTarget → (s.slewTo d x).dev = s.dev) ∧
    (s.canonical → d = s.timeTarget → s.armed = true → (s.firstLock d).dev = s.dev)) ∧
  (∀ (s : State) (w : Switch), s.canonical → s.time.switch = some w → w.delta = w.ty1 - w.dev1 → w.target < 2 →
    s.restarting = false →
    s.localOnly = false → w.delta.natAbs ≤ w.removed s.slewPpm (locDiff s.loc w.start) →
    ∃ t, exec .domainSwitchDone s = .next t ∧ t.time.active = w.target ∧ t.time.switch = none ∧ t.dev = s.dev ∧
      t.bitAt (timeId 2) 3 = true)

/-- The words that steer time (R70 to R72, R75 to R77). -/
def Obligations.TimeWordWrites : Prop :=
  ∀ (s : State) (v : Word), s.canonical → s.wordService = true →
    (s.refusesWrite (timeId 1) v = none → bitsOf v.toNat 0 1 ≠ s.timeTarget →
      ∃ t w, exec (.timeSwitchWrite v) s = .next t ∧ t.lastStatus = .ok ∧ t.time.switch = some w ∧
        w.target = bitsOf v.toNat 0 1 ∧ w.start = s.loc ∧ t.time.active = s.time.active ∧ t.regs = s.regs ∧ t.mem = s.mem) ∧
    (v.toNat < 2 → bitsOf v.toNat 0 1 ≠ s.timeTarget →
      ((s.domain (bitsOf v.toNat 0 1)).state ≠ .locked →
        exec (.timeSwitchWrite v) s = .next { s with lastStatus := .wrongState }) ∧
      ((s.domain (bitsOf v.toNat 0 1)).state = .locked → s.switchAllowed (bitsOf v.toNat 0 1) = false →
        exec (.timeSwitchWrite v) s = .next { s with lastStatus := .refused })) ∧
    (∀ d, d < 2 → s.armed = false → v = 1 →
      ∃ t, exec (.domainRelockWrite d v) s = .next t ∧ t.lastStatus = .ok ∧
        (t.domain d).state = (if (s.domain d).state = .disabled then .disabled else .listen) ∧
        (t.domain d).master = none ∧ (t.domain d).samples = [] ∧ (t.domain d).stepDone = false ∧
        t.domain (1 - d) = s.domain (1 - d) ∧ t.regs = s.regs ∧ t.mem = s.mem) ∧
    (∀ d, d < 2 → s.armed = true → v = 1 →
      exec (.domainRelockWrite d v) s = .next { s with lastStatus := .locked }) ∧
    (s.refusesWrite (timeId 0) v = none → bitOf v.toNat 0 = true →
      ∃ t, exec (.servoEnableWrite none v) s = .next t ∧ t.lastStatus = .ok ∧ t.bitAt (timeId 0) 0 = true ∧
        ∀ d, d < 2 → (s.domain d).state = .disabled → s.domPorts d ≠ 0 → (t.domain d).state = .listen) ∧
    (∀ d, d < 2 → s.refusesWrite (domId d 0) v = none → s.servoOn = true → bitsOf v.toNat 11 2 ≠ 0 →
      (s.domain d).state = .disabled →
      ∃ t, exec (.servoEnableWrite (some d) v) s = .next t ∧ t.lastStatus = .ok ∧ (t.domain d).state = .listen ∧
        t.domain (1 - d) = s.domain (1 - d) ∧ t.mem = s.mem)

/-- Capture units (R83), PPS (R84, R467) and the reads of R88. -/
def Obligations.CaptureUnitsAndPulses : Prop :=
  ∀ s : State, s.canonical →
    (∀ (unit : Nat) (edge : PinEdge), unit < 16 →
      (s.bitAt (tcuId unit 0) (if edge.falling then 7 else 6) = true →
        (s.tcuSource unit = 2 → edge.falling = true ∧ s.fld (posId 0) 8 8 * 10 ≤ edge.stable) →
        (s.tcuSource unit < 4 ∨ 7 < s.tcuSource unit) → ¬ (s.tcuSource unit = 1 ∧ s.bitAt (timeId 0) 10 = true) →
        ((s.captures unit).length < 8 →
          exec (.tcuCapture unit edge) s =
            .next (s.setCaptures unit (s.captures unit ++ [⟨s.tcuTime unit, edge.falling⟩]))) ∧
        (8 ≤ (s.captures unit).length → exec (.tcuCapture unit edge) s = .next (s.bump (tcuId unit 4)))) ∧
      (s.tcuSource unit = 2 → edge.stable < s.fld (posId 0) 8 8 * 10 → exec (.tcuCapture unit edge) s = .next s)) ∧
    (∀ unit, unit < 16 → s.wordService = true →
      (s.captures unit = [] →
        ∃ t, exec (.tcuCapRead unit) s = .next t ∧ t.lastStatus = .ok ∧ t.lastWord = 0 ∧ t.captures unit = [] ∧
          t.regs = s.regs ∧ t.mem = s.mem) ∧
      (∀ c rest, s.captures unit = c :: rest →
        ∃ t, exec (.tcuCapRead unit) s = .next t ∧ t.lastStatus = .ok ∧
          t.lastWord = BitVec.ofNat 32 (nsOf c.t + bit c.falling * 2 ^ 30 + 2 ^ 31) ∧ t.captures unit = rest ∧
          t.regs = s.regs ∧ t.mem = s.mem)) ∧
    (s.powered = true → s.ppsDriven = true → s.time.everLocked = true ∨ s.localOnly = true →
      nsOf s.dev ≤ 8 ∨ 1000000000 - 8 ≤ nsOf s.dev →
      exec .ppsPulse s =
        .next { s with time := { s.time with pps := true, ppsEnd := (s.loc + 100000000) % 2 ^ 64 } }) ∧
    (s.wordService = true →
      (∃ t, exec (.timeNowRead false) s = .next t ∧ t.lastStatus = .ok ∧ t.lastWord = BitVec.ofNat 32 (nsOf s.dev) ∧
        t.time.snapNow = secOf s.dev ∧ t.regs = s.regs ∧ t.mem = s.mem) ∧
      (∃ t, exec (.timeNowRead true) s = .next t ∧ t.lastStatus = .ok ∧ t.lastWord = BitVec.ofNat 32 s.loc ∧
        t.time.snapLocal = s.loc ∧ t.regs = s.regs ∧ t.mem = s.mem))

/-- Trackers, voters, mirror and refinement (R180, R183, R184, R194, R198, R204, R207). -/
def Obligations.TrackerAndVoterCommands : Prop :=
  ∀ (s : State) (region : Nat), s.canonical → region < 8 →
    (∀ st rest, (s.tracker region).todo = st :: rest → s.stepMode = true → s.recordsHeld region st.ssn = false →
      ∀ u, u = (s.onTracker region fun x =>
          { x with todo := rest, inbox := x.inbox.filter (·.ssn != st.ssn % 2 ^ 24) }) →
      (s.bitAt (tkId region 0) 0 = true →
        exec (.trackerStepProcess region) s =
          .next ((u.trackStep region st ((s.tracker region).inbox.filter (·.ssn == st.ssn % 2 ^ 24))).trackerFeeds region)) ∧
      (s.bitAt (tkId region 0) 0 = false → exec (.trackerStepProcess region) s = .next u)) ∧
    (s.running = true → ∀ late : Bool,
      ∃ t, exec (.mirrorCopy region late) s = .next t ∧
        (∀ i, i < 2048 →
          Sparse.get (fun _ => none) t.trk.mirror (region * 2048 + i) = s.slot region i) ∧
        t.trk.slots = s.trk.slots ∧ t.mem = s.mem ∧ (late = true → t.bitAt (tkId region 5) 2 = true) ∧
        (late = false → t.regs = s.regs)) ∧
    (∀ (object : Word) r u e t cls conf, s.postedOf region object.toNat = some r → u = s.dropScored region r.id →
      u.pendOf r.id = some e → u.slot region r.slot = some t → r.posted = some (cls, conf) →
      (u.deadline e ≤ u.dev → exec (.fusionVote region object) s = .next (u.bump (tkId region 0x405))) ∧
      (u.dev < u.deadline e → t.id = r.id →
        ∀ ss v, ss = u.takeFree.2.sources region u.free t cls conf → v = u.takeFree.2.voteOf region u.free e.home ss →
        exec (.fusionVote region object) s =
          .next (((((u.takeFree.2.bump (fuId region 0x51)).bumpIf v.conflict (fuId region 0x50)).judgeSensors region u.free t
            ss v).takeVote region t v.cls v.conf v.conflict v.uncertain r.boxes)))) ∧
    (∀ (sensor : Nat) (v : Word), sensor < 32 → s.wordService = true → s.refusesWrite (fuId region (0x100 + sensor)) v = none →
      bitsOf v.toNat 16 2 ≠ s.fld (fuId region (0x100 + sensor)) 16 2 →
      (bitsOf v.toNat 16 2 = 1 →
        ∃ t, exec (.fusionForceWrite region sensor v) s = .next t ∧ t.lastStatus = .ok ∧ t.sensorOut region sensor = true ∧
          t.mem = s.mem) ∧
      (bitsOf v.toNat 16 2 = 2 →
        ∃ t, exec (.fusionForceWrite region sensor v) s = .next t ∧ t.lastStatus = .ok ∧ t.sensorOut region sensor = false ∧
          t.mem = s.mem)) ∧
    (∀ unfinished : BitVec 4, s.running = true → s.restarting = false →
      s.trk.refineSec ≠ some (s.dev.fdiv 1000000000) →
      exec (.refineApply unfinished) s =
        .next (forEach (upTo 4) (fun s p => s.refinePort p (bitOf unfinished.toNat p))
          { s with trk := { s.trk with refineSec := some (s.dev.fdiv 1000000000) } }))

/-- The vote (R198), and its confidence also under a conflict policy (R199). -/
def Obligations.VotesAreWellFormed : Prop :=
  ∀ (s : State) (lr i lane : Nat) (ss : List Source), (∀ x ∈ ss, x.conf ≤ 255) → (∀ x ∈ ss, x.cls ≤ 255) →
    (s.voteOf lr i lane ss).conf ≤ 255 ∧
    ((∀ x ∈ ss, ∀ y ∈ ss, x.decisive = true → y.decisive = true → x.cls = y.cls) →
      0 < (ss.map fun x => x.weight * x.conf).sum →
      (∃ x ∈ ss, x.cls = (s.voteOf lr i lane ss).cls) ∧
      (∀ x ∈ ss, weightOf ss x.cls ≤ weightOf ss (s.voteOf lr i lane ss).cls) ∧
      (∀ x ∈ ss, x.cls < (s.voteOf lr i lane ss).cls → weightOf ss x.cls < weightOf ss (s.voteOf lr i lane ss).cls) ∧
      (s.voteOf lr i lane ss).conf =
        255 * weightOf ss (s.voteOf lr i lane ss).cls / (ss.map fun x => x.weight * x.conf).sum)

/-- The limits of R207. -/
def Obligations.RefinementIsLimited : Prop :=
  ∀ (old change : Int) (rate total : Nat), old.natAbs ≤ total →
    (limited old change rate total).1.natAbs ≤ total ∧
    ((limited old change rate total).1 - old).natAbs ≤ rate ∧
    (change.natAbs ≤ rate → (old + change).natAbs ≤ total → limited old change rate total = (old + change, false)) ∧
    ((limited old change rate total).2 = true ↔ total < (old + clampInt (-(rate : Int)) rate change).natAbs)

/-- Tiles (R210, R214, R218, R220 to R224). That the request of a track that is gone is dropped when it comes to be built, and
which entries of the side vector change when a tile becomes READY, are the model's readings (assumption 22). -/
def Obligations.TileCommands : Prop :=
  ∀ (s : State) (region : Nat), region < 8 →
    (∀ r rest, (s.dense region).reqs = r :: rest → s.tileRoom region r.lr = true →
      (r.gen ≠ s.obj.gen ∨ s.oldWork = false) →
      (∀ t, s.slot r.lr r.slot = some t → t.id = r.id →
        exec (.tileBuildStart region) s = .next (s.takeFree.2.startTile region r s.free t)) ∧
      ((∀ t, s.slot r.lr r.slot = some t → t.id ≠ r.id) →
        exec (.tileBuildStart region) s = .next (s.onDense region fun x => { x with reqs := x.reqs.drop 1 }))) ∧
    (∀ d t, d < 256 → (s.dense region).tile d = some t → t.ready = false →
      ∀ side, (∀ k, s.slot t.lr t.slot = some k →
          side = t.side.take 8 ++ ((s.sideVector t.lr t.feats t.origin.x k).drop 8).take 4 ++ t.side.drop 12) →
        (s.slot t.lr t.slot = none → side = t.side) →
      exec (.tileReady region d) s =
        .next ((((s.onDense region fun x => x.onTile d fun t => { t with ready := true, refs := 1, side := side }).bump
          (tileId region 0x100)).kickEdge region).sample 0xC region (locDiff s.loc t.asked))) ∧
    (∀ d t, d < 256 → (s.dense region).tile d = some t →
      ∀ u, u = ((((((s.bump (tileId region 0x103)).flag (tileId region 0x40) 2).countUe 1).report 0x08 region 1 d).onDense region fun x =>
          (x.abortTile d).setTile d none).onSlot t.lr t.slot fun k =>
            if k.id = t.id then { k with tileFails := k.tileFails + 1 } else k) →
      (s.tileFailures t.lr t.slot t.id ≠ 0 ∨ t.cancelled = true →
        exec (.tileUe region d) s = .next (u.kickEdge region)) ∧
      (s.tileFailures t.lr t.slot t.id = 0 → t.cancelled = false →
        exec (.tileUe region d) s = .next (((u.bump (tileId region 0x104)).onDense region fun x =>
          { x with reqs := ⟨t.lr, t.slot, t.id, t.matureSsn, t.gen, t.feats, some t.origin, t.asked⟩ :: x.reqs }).kickEdge
            region)))

/-- The array and the edge engine (R222, R240, R241, R246, R247, R250 to R252). -/
def Obligations.ArrayAndEdgeCommands : Prop :=
  ∀ (s : State) (region : Nat), region < 8 →
    (∀ mode, mode < 3 → (s.dense region).subs = [] → (s.dense region).mode ≠ mode → s.nextMode region = some mode →
      exec (.quernModeSwitch region mode) s =
        .next ((s.onDense region fun x => { x with mode := mode }).bump (pid 9 region 0x105))) ∧
    (∀ sub j, sub < 4 → s.nextJob region arrayKind = some j → sub < 2 ^ (s.dense region).mode →
      (s.dense region).sub sub = none → s.jobMode region j = some (s.dense region).mode →
      exec (.stripeStart region sub) s =
        .next (s.onDense region fun x => (x.onTile j.tile (·.start j)).setSub sub (some j))) ∧
    (∀ sub j u t l p c, sub < 4 → (s.dense region).sub sub = some j → u = (s.onDense region fun x => x.setSub sub none) →
      (u.dense region).tile j.tile = some t → (u.tilePlan t).layers[j.layer]? = some l →
      l.runStripe u.free (t.srcPlane l) (((t.layers[j.layer]?).bind (·.plane)).getD l.emptyPlane)
        (l.stripes.getD j.stripe ⟨0, 0⟩) = (p, c) →
      exec (.stripeDone region sub) s =
        .next ((((u.takeFree.2.bump (pid 9 region 0x103)).bump (pid 9 region 0x104) (l.haloRows j.stripe)).countConv 9 region
          c).jobDone region j fun t => t.onLayer j.layer fun r => { r with plane := some p })) ∧
    (∀ sub j u t, sub < 4 → (s.dense region).sub sub = some j →
      u = (((s.onDense region fun x => x.setSub sub none).bump (pid 9 region 0x106)).countUe 1).report 0x09 region 1 j.layer →
      (u.dense region).tile j.tile = some t →
      ((t.cancelled = true ∨ ∃ r, t.layers[j.layer]? = some r ∧ r.aborted.contains j.stripe = true) →
        ∀ planeBad, exec (.stripeAbort region sub planeBad) s =
          .next ((u.onDense region fun x => x.onTile j.tile fun t =>
            (t.setJob j.layer j.stripe .done).give.cancel).kickEdge region)) ∧
      (∀ r, t.cancelled = false → t.layers[j.layer]? = some r → r.aborted.contains j.stripe = false →
        exec (.stripeAbort region sub false) s =
          .next ((u.onDense region fun x => x.onTile j.tile fun t =>
            (t.setJob j.layer j.stripe .again).onLayer j.layer fun r =>
              { r with aborted := r.aborted ++ [j.stripe] }).kickEdge region))) ∧
    (∀ j, (s.dense region).edge = some j →
      exec (.edgeLayerGroupDone region) s =
        .next (((s.onDense region fun x => { x with edge := none }).edgeDone region j).kickEdge region)) ∧
    (∀ js, js = s.fcBatch region → js ≠ [] → (s.dense region).edge = none →
      exec (.fcBatchStream region) s =
        .next ((forEach js (fun s j => s.edgeDone region j) ((s.onDense region fun x =>
          js.foldl (fun x j => x.onTile j.tile (·.start j)) { x with lastBatch := js.length }).bump
            (pid 0x0A region 0x104))).kickEdge region))

/-- Post units (R253 to R257). -/
def Obligations.PostUnitCommands : Prop :=
  ∀ (s : State) (region : Nat) (object : Word), region < 8 →
    (∀ r, (s.dense region).done.find? (fun r => r.id == object.toNat && r.posted.isNone) = some r →
      (r.maps = none ∨ r.boxes.isSome = true) →
      exec (.postClassify region object) s =
        .next ((s.bumpIf (s.classify r.lr r.scores).isNone (postId region 0x100)).onDense region fun x =>
          { x with done := x.done.map fun q =>
              if q = r then { r with posted := some ((s.classify r.lr r.scores).getD (0, 0)) } else q })) ∧
    (∀ r, (s.dense region).done.find? (fun r => r.id == object.toNat && r.maps.isSome && !r.boxAsked) = some r →
      ∀ u, u = (s.onDense region fun x =>
        { x with done := x.done.map fun q => if q = r then { r with boxAsked := true } else q }) →
      exec (.boxRequest region object) s =
        .next (u.onDense (u.boxServer region) fun x => { x with boxReqs := x.boxReqs ++ [(region, r.id)] })) ∧
    (∀ u id rest v r sm rm sb out, (region = 0 ∨ region = 4) → (s.dense region).boxReqs = (u, id) :: rest →
      v = (s.onDense region fun x => { x with boxReqs := rest }) →
      (v.dense u).done.find? (fun r => r.id == id) = some r → r.maps = some (sm, rm, sb) →
      out = v.takeFree.2.suppress region (v.takeFree.2.candidates region v.free sm rm sb) →
      ∀ pointers w t, w = ((v.takeFree.2.bump (postId region 0x101)).bump (postId region 0x102)
            ((v.takeFree.2.candidates region v.free sm rm sb).length - 256)) →
        t = (w.writeBoxes region (out.zipIdx.map fun b => boxRecord id r.tileW r.tileH b.2 b.1) pointers) →
        exec (.boxDecodeDone ⟨region, pointers⟩) s = .next (t.onDense u fun x =>
          { x with done := x.done.map fun q => if q = r then { r with boxes := some out.length } else q }))

/-- Verdicts and frames (R193, R267, R271, R485, R85 to R87). -/
def Obligations.VerdictCommands : Prop :=
  ∀ s : State,
    (∀ (object : Word) e w, s.pendOf object.toNat = some e → e.wait = some w → ssnReached s.ssnClosed w = true →
      exec (.pairWaitEnd object) s = .next (s.endWait e)) ∧
    (∀ (object : Word) e, s.pendOf object.toNat = some e → s.deadline e ≤ s.dev →
      (∀ v, e.vote = some v → exec (.verdictDeadline object) s = .next (s.formVote e v)) ∧
      (e.vote = none → exec (.verdictDeadline object) s = .next (s.lateDefault e))) ∧
    (∀ group, group < 8 → s.frameDue group = true → exec (.frameBuild group) s = .next (s.buildFrame group)) ∧
    (∀ port l rest, port < 2 → s.launchQ port = l :: rest → l.time ≤ s.dev → s.mgmt.fault.fatal = none →
      (s.portUp port = false →
        exec (.frameLaunch port) s = .next (((s.setLaunchQ port rest).bump (tportId port 6)).refillQueue port)) ∧
      (s.portUp port = true → s.lineEnd port ≤ s.dev →
        (s.dev ≤ l.time + s.fld (tportId port 0) 17 10 →
          exec (.frameLaunch port) s =
            .next (((s.setLaunchQ port rest).startFrame port l.frame false).refillQueue port)) ∧
        (l.time + s.fld (tportId port 0) 17 10 < s.dev →
          (s.bitAt (tportId port 0) 16 = true →
            exec (.frameLaunch port) s =
              .next ((((s.setLaunchQ port rest).startFrame port (setLateBit l.frame l.udp) true).bump
                (tportId port 3)).refillQueue port)) ∧
          (s.bitAt (tportId port 0) 16 = false →
            exec (.frameLaunch port) s = .next (((s.setLaunchQ port rest).bump (tportId port 2)).refillQueue port)))))

/-- The batch of a frame (R271, R272), and columns (R260). That the records of a frame are of one source is the model's reading
(assumption 25). -/
def Obligations.FramesAndColumnsAreBounded : Prop :=
  ∀ s : State,
    (∀ g r rest, s.batchOf g = r :: rest → (s.batchOf g).length ≤ s.fld (tailId 0) 17 5 + 1 ∧
      ∀ x ∈ s.batchOf g, x.group = g ∧ x.src = r.src ∧ r.launch ≤ x.launch ∧
        x.launch ≤ r.launch + s.fld (tailId 0) 12 5 * 1000 ∧ x ∈ s.tail.recs) ∧
    (∀ across : Int, (s.column across).1 ≤ s.fld (tailId 3) 0 6 ∧
      ((s.column across).2 = false →
        ((s.column across).1 : Int) = (across - s.fld (tailId 2) 0 16).fdiv (s.fld (tailId 2) 16 12 : Nat)))

/-- Auxiliary channels (R278, R279, R281, R283, R285, R287, R288, R293). How the edges of a channel are counted is the model's
reading (assumption 28). -/
def Obligations.AuxiliaryFilterCommands : Prop :=
  ∀ (s : State) (c : Nat), s.canonical → c < 16 →
    (∀ bits, s.auxRuns c bits.length = true →
      exec (.auxSampleOutput c bits none) s = .next (s.auxBits c bits) ∧
      ∀ k, exec (.auxSampleOutput c bits (some k)) s = .next ((s.romError c k).auxBits c bits)) ∧
    (∀ bits, s.auxRuns c bits.length = true → (s.chan c).stuck = false → ((s.auxBits c bits).chan c).stuck = true →
      exec (.auxStuck c bits) s = .next (s.auxBits c bits)) ∧
    (∀ b : Bool, s.auxRuns c 1 = true → (s.chan c).stuck = true → (s.chan c).last ≠ some b →
      exec (.auxStuckRecover c b) s = .next (s.auxBit c b)) ∧
    (∀ v : Word, s.wordService = true → s.refusesWrite (auxModId 4) v = none → bitOf v.toNat c = true →
      cfgEnable (s.word (auxId c 0)).toNat = true → s.domOn 42 = true →
      ∃ t, exec (.auxfiltSyncWrite v) s = .next t ∧ t.lastStatus = .ok ∧ s.loc + 1 ∈ (t.chan c).resets ∧ t.mem = s.mem) ∧
    (∀ v : Word, s.wordService = true → s.refusesWrite (auxId c 0) v = none → s.domOn 42 = true →
      ∃ t, exec (.auxfiltCfgWrite c v) s = .next t ∧ t.lastStatus = .ok ∧ t.mem = s.mem ∧
        (t.word (auxId c 0) ≠ s.word (auxId c 0) → s.loc + 1 ∈ (t.chan c).resets) ∧
        (∀ q, q ≠ c → t.chan q = s.chan q)) ∧
    (∀ preset stage taps, (romRow preset stage taps).sum = 131072 ∧
      (romRow preset stage taps).reverse = romRow preset stage taps) ∧
    (s.wordService = true → s.domOn 42 = true → s.readRefuses (auxId c 4) = none →
      ∃ t, exec (.auxfiltLastRead c) s = .next t ∧ t.lastStatus = .ok ∧ t.lastWord = BitVec.ofNat 32 (s.chan c).record ∧
        (t.chan c).snap = (s.chan c).record ∧ t.mem = s.mem)

/-- Queues (R295, R296, R301, R302, R304, R305). That a change of QCFG empties the queue is the model's reading
(assumption 48). -/
def Obligations.QueueCommands : Prop :=
  ∀ (s : State) (q : Nat), s.canonical → q < 4096 →
    (∀ v : Word, s.wordService = true → s.refusesWrite (queId q 0) v = none →
      bitsOf v.toNat 0 11 ≠ s.fld (queId q 0) 0 11 →
      ∃ t, exec (.queueEnableWrite q v) s = .next t ∧ t.lastStatus = .ok ∧ t.queue q = Queue.empty ∧
        t.mem = s.mem ∧ ∀ p, p ≠ q → t.queue p = s.queue p) ∧
    (∀ v : Word, s.wordService = true → s.writeRefuses (queId q 0) v = none → s.claimed 5 q = false →
      exec (.queueEnableWrite q v) s = .next { s with lastStatus := .wrongState }) ∧
    (∀ v : Word, s.wordService = true → s.refusesWrite (queId q 3) v = none → bitOf v.toNat 0 = true →
      ∃ t, exec (.qflushWrite q v) s = .next t ∧ t.lastStatus = .ok ∧ (t.queue q).words = [] ∧
        t.mem = s.mem ∧ ∀ p, p ≠ q → t.queue p = s.queue p) ∧
    (∀ producer words eop pointers, s.qEnabled q = true → s.qProducer q = producerCode producer →
      eop = true ∨ producer = .firmware → ∀ u, u = s.queueAccess q pointers →
      (u.packetFits q words.length = true →
        exec (.queueHwWrite q producer words eop pointers) s = .next (u.pushWords q words eop)) ∧
      (u.packetFits q words.length = false →
        exec (.queueHwWrite q producer words eop pointers) s = .next (u.countDiscard q producer))) ∧
    (s.pointerCheck q .good = s ∧ (s.pointerCheck q .corrected).que.queues = s.que.queues ∧
      ((s.pointerCheck q .mismatch).queue q).words = []) ∧
    (∀ (tag : BitVec 12) r, s.host.running.find? (fun r => r.opcode == 0x0305 && r.req.tag == tag) = some r →
      s.awake = true → 100000000 ≤ locDiff s.loc r.start → s.queueWriteFits r = false →
      exec (.queueWriteTimeout tag) s = .next ((s.bump (pid 0x10 0x41 0x102)).finish r .timeout []))

/-- Queue order (R299, R300, R302, R303). -/
def Obligations.QueuesAreFirstInFirstOut : Prop :=
  ∀ (s : State) (q : Nat), s.canonical →
    (∀ (ws : List (BitVec 64)) (eop : Bool), (s.queue q).discarding = false → ws ≠ [] →
      ((s.pushWords q ws eop).queue q).words.map (·.data) = (s.queue q).words.map (·.data) ++ ws ∧
      ((s.pushWords q ws eop).queue q).words.take (s.queue q).words.length = (s.queue q).words ∧
      (((s.pushWords q ws eop).queue q).words.getLast?.map (·.eop)) = some eop ∧
      ((((s.pushWords q ws eop).queue q).words.drop (s.queue q).words.length).dropLast.all (!·.eop)) = true ∧
      ∀ p, p ≠ q → (s.pushWords q ws eop).queue p = s.queue p) ∧
    (∀ w rest ecc, (s.queue q).words = w :: rest →
      (s.popWord q ecc).1 = w ∧ bitOf (s.popWord q ecc).2.1 0 = w.eop ∧ bitOf (s.popWord q ecc).2.1 1 = false ∧
      (ecc = .uncorrectable → bitOf (s.popWord q ecc).2.1 2 = true) ∧
      ((s.popWord q ecc).2.2.queue q).words = rest ∧ ((s.popWord q ecc).2.2.queue q).last = some w) ∧
    (∀ ecc, (s.queue q).words = [] →
      bitOf (s.popWord q ecc).2.1 1 = true ∧ (s.popWord q ecc).1 = (s.queue q).last.getD ⟨0, false⟩ ∧
      (s.popWord q ecc).2.2.queue q = s.queue q ∧
      ((s.popWord q ecc).2.2.word (queId q 6)).toNat = min ((s.word (queId q 6)).toNat + 1) 0xFFFFFFFF)

/-- The seven operations of R306 on a counter (KIND 1) and a flag (KIND 2). -/
def Obligations.CounterAndFlagOperations : Prop :=
  ∀ (s : State) (n kind : Nat) (old : Word), n < 12288 → s.running = true → kind = s.fld (soCfgId n) 0 2 →
    old = s.word (soValId n) →
    ∀ done : Nat → State, done = (fun v => { s.setWord (soValId n) (BitVec.ofNat 32 v) with
      que := { s.que with soOld := old, soStatus := .ok } }) →
    ((kind = 1 ∨ kind = 2) → exec (.syncobjRead n) s = .next (done old.toNat)) ∧
    (∀ v : Word, (kind = 1 ∨ (kind = 2 ∧ v.toNat < 2)) → exec (.syncobjWrite n v) s = .next (done v.toNat)) ∧
    (kind = 1 → ∀ v e : Word,
      (s.bitAt (soCfgId n) 2 = false → exec (.syncobjAdd n v) s = .next (done ((old.toNat + v.toNat) % 2 ^ 32))) ∧
      (s.bitAt (soCfgId n) 2 = true →
        exec (.syncobjAdd n v) s = .next (done (clampInt 0 0xFFFFFFFF (old.toNat + v.toInt)).toNat)) ∧
      exec (.syncobjCas n v e) s = .next (done (if old = e then v else old).toNat)) ∧
    (kind = 2 → exec (.syncobjSet n) s = .next (done 1) ∧ exec (.syncobjClear n) s = .next (done 0) ∧
      exec (.syncobjTestAndSet n) s = .next (done 1)) ∧
    (kind ≠ 1 → ∀ v e : Word,
      exec (.syncobjAdd n v) s = .next { s with que := { s.que with soOld := 0, soStatus := .badParam } } ∧
      exec (.syncobjCas n v e) s = .next { s with que := { s.que with soOld := 0, soStatus := .badParam } }) ∧
    (kind ≠ 2 →
      exec (.syncobjSet n) s = .next { s with que := { s.que with soOld := 0, soStatus := .badParam } } ∧
      exec (.syncobjClear n) s = .next { s with que := { s.que with soOld := 0, soStatus := .badParam } } ∧
      exec (.syncobjTestAndSet n) s = .next { s with que := { s.que with soOld := 0, soStatus := .badParam } }) ∧
    (kind ≠ 1 → kind ≠ 2 → ∀ v : Word,
      exec (.syncobjRead n) s = .next { s with que := { s.que with soOld := 0, soStatus := .badParam } } ∧
      exec (.syncobjWrite n v) s = .next { s with que := { s.que with soOld := 0, soStatus := .badParam } }) ∧
    ∀ op a b, 7 ≤ op → s.soOp n op a b = (.badParam, 0, s)

/-- The check-value contexts (R312 to R315). -/
def Obligations.CheckValueCommands : Prop :=
  ∀ (s : State) (c : Nat), s.canonical → c < 16 →
    (s.wordService = true → s.claimed 7 c = true → (s.cvOf c).busy = false →
      (exec (.checkvalStart c 1) s = .next { s.cvStart c with lastStatus := .ok }) ∧
      (∀ v : Word, exec (.checkvalFeed c v) s = .next { s.cvFeed c (leBytes 4 v.toNat) with lastStatus := .ok }) ∧
      (∀ v : Word, s.writeRefuses (cvId c 5) v = none →
        exec (.checkvalFeedPart c v) s =
          .next { s.cvFeed c (leBytes (bitsOf v.toNat 24 2) v.toNat) with lastStatus := .ok }) ∧
      (∀ v : Word, exec (.checkvalStateWrite c v) s =
        .next { (s.setWord (cvId c 0xB) v).onCv c
            (fun x => { x with state := (x.setLo + v.toNat * 2 ^ 32) % 2 ^ (s.cvAlg c).width }) with lastStatus := .ok }) ∧
      ((s.cvRange c).2 ≠ 0 → s.hostRange (s.cvRange c).1 (s.cvRange c).2 = true →
        exec (.checkvalRangeGo c 1) s = .next
          { s.onCv c (fun x => { x with busy := true, range := s.cvRange c }) with lastStatus := .ok })) ∧
    ((s.cvOf c).busy = true →
      exec (.checkvalRangeDone c none) s =
        .next ((s.cvFeed c (s.readBytes (s.cvOf c).range.1 (s.cvOf c).range.2)).onCv c fun x => { x with busy := false }) ∧
      ∀ k, exec (.checkvalRangeDone c (some k)) s =
        .next ((((s.cvFeed c (s.readBytes (s.cvOf c).range.1 (min k (s.cvOf c).range.2))).onCv c fun x =>
          { x with busy := false }).flag (cvId c 0xE) 1).bump (pid 1 0 0x146))) ∧
    (s.wordService = true →
      (∃ t, exec (.checkvalStateRead c false) s = .next t ∧ t.lastStatus = .ok ∧
        t.lastWord = BitVec.ofNat 32 ((s.cvOf c).state % 2 ^ (s.cvAlg c).width) ∧
        (t.cvOf c).snapState = (s.cvOf c).state % 2 ^ (s.cvAlg c).width ∧ (t.cvOf c).state = (s.cvOf c).state ∧
        t.mem = s.mem ∧ t.regs = s.regs) ∧
      (∃ t, exec (.checkvalStateRead c true) s = .next t ∧ t.lastStatus = .ok ∧
        t.lastWord = BitVec.ofNat 32 (crcResult (s.cvAlg c) ((s.cvOf c).state % 2 ^ (s.cvAlg c).width)) ∧
        (t.cvOf c).state = (s.cvOf c).state ∧ t.mem = s.mem ∧ t.regs = s.regs))

/-- Feeds compose, and registers keep their width (R312, R314). -/
def Obligations.CheckValueFeedsCompose : Prop :=
  (∀ (k st : Nat) (xs ys : List Byte), crcFeed (crcAlg k) st (xs ++ ys) = crcFeed (crcAlg k) (crcFeed (crcAlg k) st xs) ys ∧
    (st < 2 ^ (crcAlg k).width → crcFeed (crcAlg k) st xs < 2 ^ (crcAlg k).width ∧
      crcResult (crcAlg k) (crcFeed (crcAlg k) st xs) < 2 ^ (crcAlg k).width)) ∧
  ∀ (s : State) (c : Nat) (xs ys : List Byte), s.canonical →
    (((s.cvFeed c xs).cvFeed c ys).cvOf c).state = ((s.cvFeed c (xs ++ ys)).cvOf c).state

/-- Training of a spoke port (R317 to R320, R323, R326). That an enabled port starts its attempt at a tick of the model is its own
convention (assumption 33). -/
def Obligations.SpokePortsTrain : Prop :=
  ∀ (s : State) (p : Nat), p < 4 → s.canonical →
    (s.running = true → s.domOff (36 + p) = false →
      ((s.spk p).state = .detect → exec (.spokeSignalDetect p) s = .next (s.setLink p .lock)) ∧
      ((s.spk p).state = .disabled → s.trainTurn = some p →
        exec (.spokeSignalDetect p) s = .next ((s.startAttempt p).setLink p .lock))) ∧
    ((s.spk p).state = .lock → s.domOff (36 + p) = false → ∀ inverted : BitVec 4,
      ∃ t, exec (.spokeLockDone p inverted) s = .next t ∧ (t.spk p).state = .align ∧
        t.fld (spkId p 4) 7 4 = inverted.toNat ∧ t.mem = s.mem) ∧
    ((s.spk p).state = .align → s.domOff (36 + p) = false → ∀ (lanes : List Nat) (skew : Nat),
      (lanes = [0, 1, 2, 3] ∨ lanes = [3, 2, 1, 0] → skew ≤ 8 →
        ∃ t, exec (.spokeAlignDone p lanes skew) s = .next t ∧ (t.spk p).state = .exchange ∧
          (t.spk p).epoch = ((s.spk p).epoch + 1) % 64 ∧ (t.spk p).ts2 = some (t.ownTs2 p) ∧ t.bitAt (spkId p 4) 6 = (lanes == [3, 2, 1, 0]) ∧ t.mem = s.mem) ∧
      ((lanes ≠ [0, 1, 2, 3] ∧ lanes ≠ [3, 2, 1, 0]) ∨ 8 < skew →
        ∃ t, exec (.spokeAlignDone p lanes skew) s = .next t ∧ (t.spk p).state = .hold ∧ (t.spk p).holdAt = s.loc ∧
          t.mem = s.mem)) ∧
    ((s.spk p).state = .exchange → s.domOff (36 + p) = false → ∀ ts2 : Ts2,
      exec (.spokeTs2ExchangeDone p ts2) s = .next (s.linkUp p ts2) ∧
      (s.chain = none → (s.spk p).waiting = [] →
        ((s.linkUp p ts2).spk p).state = .up ∧ ((s.linkUp p ts2).spk p).seqTx = 0 ∧ ((s.linkUp p ts2).spk p).seqRx = 0 ∧
        ((s.linkUp p ts2).spk p).rxEpoch = ts2.epoch % 64 ∧ ((s.linkUp p ts2).spk p).credits = ts2.dedicated.take 4 ∧
        ((s.linkUp p ts2).spk p).shared = ts2.shared ∧ ((s.linkUp p ts2).spk p).retry = [])) ∧
    (s.trainTurn = some p → (s.spk p).state = .disabled → s.trainKick = s.startAttempt p) ∧
    ((s.spk p).state.training = true → s.domOff (36 + p) = false → 10000000 ≤ locDiff s.loc (s.spk p).attemptAt →
      ∃ t, exec (.spokeTrainingTimeout p) s = .next t ∧ (t.spk p).state = .hold ∧ (t.spk p).holdAt = s.loc ∧ t.mem = s.mem) ∧
    ((s.spk p).state = .hold → s.trainTurn = some p →
      exec (.spokeHoldExpiry p) s = .next (s.startAttempt p) ∧ ((s.startAttempt p).spk p).state = .detect ∧
        ((s.startAttempt p).spk p).attemptAt = s.loc) ∧
    (∀ v : Word, s.wordService = true → s.refusesWrite (spkId p 0) v = none →
      exec (.spokePortEnWrite p v) s = .next { s.putWord (spkId p 0) v with lastStatus := .ok })

/-- Loss and retraining of a link (R325, R328, R329, R335). -/
def Obligations.LinkLossEmptiesThePort : Prop :=
  ∀ (s : State) (p : Nat), p < 4 → s.canonical →
    (s.spkUp p = true →
      exec (.spokeLockLoss p) s = .next (s.linkDown p .hold) ∧
      (s.fld (spkId p 1) 8 3 * s.fld (spkId p 1) 0 8 * 1000 ≤ locDiff s.loc (s.spk p).hbRx →
        exec (.heartbeatTimeout p) s = .next ((s.bump (spkId p 0x105)).linkDown p .hold)) ∧
      ((s.spk p).retry ≠ [] → s.fld (spkId p 1) 15 8 * 100 ≤ locDiff s.loc (s.spk p).progressAt →
        exec (.spokeAckTimeout p) s =
          .next (s.resend p) ∧
        ((s.spk p).resends + 1 < s.fld (spkId p 1) 11 4 → s.resend p = s.resendAll p) ∧
        (s.fld (spkId p 1) 11 4 ≤ (s.spk p).resends + 1 → s.resend p = (s.resendAll p).linkDown p .hold))) ∧
    (∀ d, (s.spk p).drain = some d →
      ((s.spk p).retry = [] →
        ∃ t, exec (.retrainDrainDone p) s = .next t ∧ (t.spk p).state ≠ .up ∧ (t.spk p).waiting = (s.spk p).waiting ∧
          (t.spk p).flow = (s.spk p).flow ∧ (t.spk p).parts = (s.spk p).parts ∧ (t.spk p).epoch = (s.spk p).epoch ∧
          (t.spk p).drain = none ∧ t.bitAt (spkId p 4) 12 = true ∧ t.mem = s.mem ∧
          ((∀ q, q < 4 → q ≠ p → (s.spk q).state.training = false) → s.spoke.order = [] → s.spkEnabled p = true →
            (t.spk p).state = .detect ∧ (t.spk p).attemptAt = s.loc)) ∧
      ((s.spk p).retry ≠ [] → 10000 ≤ locDiff s.loc d → exec (.retrainDrainDone p) s = .next (s.linkDown p .hold))) ∧
    (s.chain = none →
      ((s.linkDown p .hold).spk p).state = .hold ∧ ((s.linkDown p .hold).spk p).holdAt = s.loc ∧
      ((s.linkDown p .hold).spk p).retry = [] ∧ ((s.linkDown p .hold).spk p).waiting = [] ∧
      ((s.linkDown p .hold).spk p).parts = [none, none, none, none] ∧
      ((s.linkDown p .hold).spk p).epoch = (s.spk p).epoch ∧ (s.linkDown p .hold).mem = s.mem)

/-- The sequence of a link (R323 to R326, R330). -/
def Obligations.FlitsAreNumberedAndAcknowledged : Prop :=
  ∀ (s : State) (p : Nat) (f : SpokeFlit), s.canonical → p < 4 → s.spkUp p = true →
    (f.check ≠ flitCheck (s.spk p).rxEpoch f → sequenced f = false → s.rx p f = (none, s.bump (spkId p 0x102))) ∧
    (f.check = flitCheck (s.spk p).rxEpoch f → flitLegal f = true → sequenced f = true → f.seq.toNat ≠ (s.spk p).seqRx →
      (s.rx p f).1 = none ∧ ((s.rx p f).2.spk p).seqRx = (s.spk p).seqRx ∧
        ((s.rx p f).2.spk p).accepted = (s.spk p).accepted) ∧
    (f.check = flitCheck (s.spk p).rxEpoch f → flitLegal f = true → sequenced f = true → f.seq.toNat = (s.spk p).seqRx →
      ((s.rx p f).2.spk p).seqRx = ((s.spk p).seqRx + 1) % 1024 ∧ ((s.rx p f).2.spk p).accepted = some f.seq.toNat ∧
        ((s.rx p f).2.spk p).nakSent = false) ∧
    (∀ i, f.check = flitCheck (s.spk p).rxEpoch f → f.mtype = 0 → f.vc = 0 → bitOf (leAt f.payload 0 1) 0 = false →
      f.ackValid = true → (s.spk p).retry.findIdx? (fun g => g.seq == f.ack) = some i →
      ((s.rx p f).2.spk p).retry = (s.spk p).retry.drop (i + 1) ∧ ((s.rx p f).2.spk p).resends = 0) ∧
    (f.mtype = 0 → exec (.linkRx p f) s = .next (s.rx p f).2.pumpAll) ∧
    (f.check = flitCheck (s.spk p).rxEpoch f → flitLegal f = false →
      s.rx p f = (none, (s.flag (spkId p 4) 13).linkDown p .hold)) ∧
    (f.check ≠ flitCheck (s.spk p).rxEpoch f ∨ (sequenced f = true ∧ f.seq.toNat ≠ (s.spk p).seqRx) ∨ 6 < f.mtype →
      exec (.spokeFlitDiscard p f) s = .next (s.rx p f).2.pumpAll)

/-- What the messages of a link bring (R170, R275, R332 to R336, R340, R359, R396). -/
def Obligations.LinkMessages : Prop :=
  ∀ (s : State) (p : Nat) (f : SpokeFlit), p < 4 → s.spkUp p = true →
    (s.fld (spkId p 1) 0 8 * 1000 ≤ locDiff s.loc (s.spk p).hbTx →
      exec (.heartbeatSend p) s = .next ((s.onSpk p fun x => { x with hbTx := s.loc }).sendPlain p
        (freshFlit 0 1 0 s.addr
          [BitVec.ofNat 8 s.addr, BitVec.ofNat 8 (bit s.chain.isSome + 2 * bit s.armed + 4 * bit s.spoke.root)]))) ∧
    (f.mtype = 1 →
      (f.check = flitCheck (s.spk p).rxEpoch f → f.vc = 0 →
        exec (.heartbeatRx p f) s = .next ((s.rx p f).2.takeHeartbeat p f).pumpAll) ∧
      (f.check ≠ flitCheck (s.spk p).rxEpoch f ∨ f.vc ≠ 0 → exec (.heartbeatRx p f) s = .next (s.rx p f).2.pumpAll)) ∧
    (∀ m u, s.rx p f = (some m, u) →
      (f.mtype = 4 → u.chain = some f.dest →
        exec (.haloEvents p f) s =
          .next (forEach (upTo m.sub) (fun u i => u.remoteEvent m.src (leAt m.body (8 * i) 8)) u).pumpAll) ∧
      (f.mtype = 5 →
        exec (.verdictRelay p f) s =
          .next (forEach (chunksOf 48 (m.body.take (48 * m.sub))) (fun u b => u.relayIn (entryRec m.src b)) u).pumpAll) ∧
      (f.mtype = 6 → f.abort = false → f.hops ≤ (s.mgmt.model.active.map (·.maxHops)).getD 16 →
        exec (.activation p f) s = .next (u.takeActivation m).pumpAll) ∧
      (f.mtype = 3 → s.unroutable p f = false → exec (.commandFwd p f) s = .next (u.takeFwd m).pumpAll)) ∧
    (∀ u, s.rx p f = (none, u) →
      (f.mtype = 4 → exec (.haloEvents p f) s = .next u.pumpAll) ∧
      (f.mtype = 5 → exec (.verdictRelay p f) s = .next u.pumpAll) ∧
      (f.mtype = 3 → s.unroutable p f = false → exec (.commandFwd p f) s = .next u.pumpAll) ∧
      (f.mtype = 3 → s.unroutable p f = true → (parsePacket (f.payload.drop 4)).reply = false →
        exec (.commandFwd p f) s = .next (u.pumpAll.refusePacket (parsePacket (f.payload.drop 4)).opcode
          (parsePacket (f.payload.drop 4)).tag (parsePacket (f.payload.drop 4)).src .notPresent)))

/-- The ENUM messages and ACCEPT (R338, R339, R342 to R344, R425). -/
def Obligations.EnumerationMessages : Prop :=
  ∀ s : State,
    (∀ (p : Nat) (f : SpokeFlit) (m : Message) (u : State), p < 4 → s.spkUp p = true → f.mtype = 2 → s.rx p f = (some m, u) →
      leAt f.payload 2 1 = m.sub →
      (u.restarting = false →
        (m.sub = 1 → exec (.explore p f) s = .next (u.discoverOn (leAt m.body 0 1 % 4)).pumpAll) ∧
        (m.sub = 2 → exec (.discover p f) s = .next (u.sendOn m.port 0 2 3 0 (u.identifyBody m.port)).pumpAll) ∧
        (m.sub = 3 → exec (.identify p f) s = .next (u.takeIdentify m.port m).pumpAll) ∧
        (m.sub = 4 →
          exec (.report p f) s = .next (u.exploredIf m.src (leAt m.body 0 1 % 4) (identityOf (m.body.drop 1))).pumpAll) ∧
        (m.sub = 5 → exec (.assign p f) s = .next (u.takeAssign m.port m).pumpAll) ∧
        (m.sub = 6 → exec (.routes p f) s = .next (u.takeRoutes m.body).pumpAll) ∧
        (m.sub = 7 → u.spoke.root = true →
          exec (.notify p f) s = .next (u.rootNotify m.src (leAt m.body 0 1 % 4) (leAt m.body 1 1 % 8)).pumpAll)) ∧
      (u.restarting = true →
        ∀ w, w = { u with spoke := { u.spoke with deferred := u.spoke.deferred ++ [m] } }.pumpAll →
        (m.sub = 1 → exec (.explore p f) s = .next w) ∧ (m.sub = 2 → exec (.discover p f) s = .next w) ∧
        (m.sub = 3 → exec (.identify p f) s = .next w) ∧ (m.sub = 4 → exec (.report p f) s = .next w) ∧
        (m.sub = 5 → exec (.assign p f) s = .next w) ∧ (m.sub = 6 → exec (.routes p f) s = .next w) ∧
        (m.sub = 7 → exec (.notify p f) s = .next w))) ∧
    (∀ (v : Word) (n : ChainNode), s.wordService = true → s.refusesWrite (chainId 2) v = none → bitOf v.toNat 8 = true →
      s.chainNode (bitsOf v.toNat 0 8) = some n →
      ∃ t, exec (.spokeAcceptWrite v) s = .next t ∧ t.lastStatus = .ok ∧
        t.chainNode (bitsOf v.toNat 0 8) = some { n with state := 1, digest := n.found } ∧ t.mem = s.mem)

/-- The SDIO card (R339, R347, R348, R373). What CMD0 and CMD7 do, and the error of an access to a function the card does not
have, are presumed from SDIO 3.0; the address drawn and the tuning block are free (assumption 44). -/
def Obligations.CardCommands : Prop :=
  ∀ s : State,
    (s.cardReady 2000000 = true →
      exec .sdioCmd0 s = .next (s.onSdio fun d => { d with readError := false }) ∧
      exec .sdioCmd3 s =
        .next ({ s with free := s.free + 1 }.onSdio fun d =>
          { d with rca := Config.cardAddress s.free % 65536, readError := false }) ∧
      (∀ arg, ∃ t, exec (.sdioCmd5 arg) s = .next t ∧ t.host.sdio.readData.length = 4 ∧
        t.host.sdio.readError = false ∧ t.host.sdio.selected = s.host.sdio.selected ∧ t.regs = s.regs ∧ t.mem = s.mem) ∧
      (∀ rca, ∃ t, exec (.sdioCmd7 rca) s = .next t ∧
        t.hostAttached = (rca.toNat == s.host.sdio.rca && s.host.sdio.rca != 0) ∧ t.regs = s.regs ∧ t.mem = s.mem) ∧
      exec .sdioCmd11 s = .next (s.onSdio fun d => { d with switched := true, readError := false }) ∧
      (s.hostAttached = true →
        exec .sdioCmd19 s =
          .next (s.onSdio fun d => { d with tuned := true, readData := Config.tuningBlock, readError := false })) ∧
      (∀ index, index ∉ [0, 3, 5, 7, 11, 19, 52, 53] →
        exec (.sdioIllegalCommand index) s = .next (s.onSdio fun d => { d with illegal := some index, readError := true }))) ∧
    (∀ fn, s.fnReady fn = true → fn < 8 →
      (fn ≤ 1 → ∀ (a : Nat) (b : Byte) (raw : Bool),
        exec (.sdioCmd52 false raw fn a b) s =
          .next ((s.onSdio fun d => { d with readError := false }).onSdio fun d => { d with readData := s.readFn fn [a] }) ∧
        exec (.sdioCmd52 true false fn a b) s =
          .next (((s.onSdio fun d => { d with readError := false }).writeFn fn [(a, b)]).onSdio fun d =>
            { d with readData := [b] })) ∧
      (fn ≤ 1 → ∀ (a n : Nat) (up : Bool) (bs : List Byte), 1 ≤ n → n ≤ 512 →
        exec (.sdioCmd53 false false up fn a n bs) s =
          .next ((s.onSdio fun d => { d with readError := false }).onSdio fun d =>
            { d with readData := s.readFn fn ((upTo n).map fun i => if up then a + i else a) }) ∧
        exec (.sdioCmd53 true false up fn a n bs) s =
          .next ((s.onSdio fun d => { d with readError := false }).writeFn fn
            (((upTo n).map fun i => if up then a + i else a).zip (padTo n bs)))) ∧
      (fn = 2 → ∀ (n : Nat) (bs : List Byte), 1 ≤ n → n ≤ 511 →
        (s.bulkHeld = false → exec (.sdioCmd53 true true false 2 0 n bs) s =
          .next (forEach (chunksOf 512 (padTo (512 * n) bs)) (fun s b => s.bulkWrite b)
            (s.onSdio fun d => { d with readError := false }))) ∧
        (s.bulkHeld = true → exec (.sdioCmd53 true true false 2 0 n bs) s =
          .next (s.onSdio fun d => { d with readError := false }))) ∧
      (2 < fn → ∀ (a n : Nat) (b : Byte) (w x up : Bool) (bs : List Byte),
        exec (.sdioCmd52 w x fn a b) s = .next s.accessError ∧ exec (.sdioCmd53 w x up fn a n bs) s = .next s.accessError))

/-- Mailbox and bulk sessions (R349, R350, R352, R355, R359). -/
def Obligations.MailboxAndBulkData : Prop :=
  ∀ s : State, s.canonical →
    (∀ n : BitVec 16, s.fnReady 1 = true →
      (s.host.sdio.busy = false →
        exec (.inDoorbellWrite n) s = .next (s.onSdio fun d => { d with busy := true, doorbell := n.toNat })) ∧
      (s.host.sdio.busy = true → exec (.inDoorbellWrite n) s = .next s.overrun)) ∧
    (s.powered = true → s.host.sdio.busy = true →
      exec .commandPacketAccept s =
        .next ((s.onSdio fun d => { d with busy := false }).takePacket true s.addr s.host.sdio.doorbell
          ((upTo 4096).map fun i => Sparse.get (fun _ => 0) s.host.sdio.inbox i))) ∧
    (∀ (v : Byte) (b : List Byte) (rest : List (List Byte)), s.fnReady 1 = true → bitOf v.toNat 0 = true →
      s.host.replies = b :: rest → s.host.resetReply = none →
      exec (.outAckWrite v) s =
        .next (s.onHost fun h => { h with
          replies := rest ++ (h.stalled.take 1).map (·.2), stalled := h.stalled.drop 1 })) ∧
    (∀ (data : List Byte) (b : BulkIn), s.fnReady 2 = true → s.host.bulkIn = some b → b.dest = s.addr →
      data.length = 512 → b.got + 512 < b.length →
      ∃ t, exec (.bulkBlockWrite data) s = .next t ∧ t.host.bulkIn = some { b with got := b.got + 512 } ∧
        (∀ i, i < 512 → t.readByte (stagingBase + b.got + i) = data.getD i 0) ∧
        (∀ a, inRange (stagingBase + b.got) 512 a = false → t.readByte a = s.readByte a) ∧ t.regs = s.regs) ∧
    (∀ data : List Byte, s.fnReady 2 = true → s.host.bulkIn = none → exec (.bulkBlockWrite data) s = .next s.bulkError) ∧
    (∀ b : BulkOut, s.fnReady 2 = true → s.host.bulkOut = some b → b.dest = s.addr → b.pos + 512 < b.length →
      ∃ t, exec .bulkBlockRead s = .next t ∧ t.host.sdio.readData = s.readBytes (dumpBase + b.offset + b.pos) 512 ∧
        (t.host.bulkOut.map (·.pos)) = some (b.pos + 512) ∧ t.regs = s.regs ∧ t.mem = s.mem) ∧
    (∀ x : Staged, s.powered = true → s.mgmt.model.staged = some x → x.arrived = true → x.complete = false →
      exec .bulkInComplete s = .next (s.onModel fun m => { m with staged := some { x with complete := true } })) ∧
    (∀ (dest : Byte) (tag : BitVec 12) (f : Forwarded), s.powered = true →
      s.host.forwarded.find? (fun f => f.dest == dest.toNat && f.tag == tag.toNat) = some f →
      s.fld (sdioId 0) 0 16 * 1000000 + (if isLong f.opcode then 30000000000 else 0) ≤ locDiff s.loc f.start →
      s.host.replies.length < 256 →
      ∃ t, exec (.fwdTimeout dest tag) s = .next t ∧ t.host.forwarded = s.host.forwarded.erase f ∧
        t.host.replies = s.host.replies ++ [s.replyBytes f.opcode f.tag s.addr .timeout []] ∧ t.mem = s.mem)

/-- Checks 6 to 11 of R355, and R360, over every command row; a refused LIFECYCLE_SET also counts (R455). -/
def Obligations.RefusedCommandsAreAnswered : Prop :=
  ∀ (c : Instr) (op : Nat) (r : Req) (s : State), cmdOf c = some (op, r) →
    (s.powered = false → exec c s = .next s) ∧
    (∀ e, s.powered = true → s.acceptedOf op r = none → s.serviceRefuses op r.tag.toNat r.bcast = some e →
      exec c s = .next ((s.countRefused op).refusePacket op r.tag.toNat r.src.toNat e))

/-- Commands that report (R363, R368, R370, R385, R416, R433, R436, R440, R447, R453). The record of IMAGE_INFO is free
(assumption 54), and a TEST_READ whose domain wakes answers at once (assumption 47). -/
def Obligations.InformationCommands : Prop :=
  ∀ (s : State) (r : Req),
    (s.accepts 0x0000 r = true → r.payload = [] → exec (.getInfo r) s = .next (s.answer 0x0000 r .ok s.infoRecord)) ∧
    (s.accepts 0x0001 r = true → r.payload = [] → exec (.getCaps r) s = .next (s.answer 0x0001 r .ok s.capsRecord)) ∧
    (s.accepts 0x0002 r = true → exec (.echo r) s = .next (s.answer 0x0002 r .ok r.payload)) ∧
    (s.accepts 0x0003 r = true → r.payload = [] →
      exec (.getState r) s =
        .next (s.answer 0x0003 r .ok (leBytes 4 (s.cmd.code + 8 * bit s.armed + 65536 * (s.tags.length + 1))))) ∧
    (s.accepts 0x0401 r = true → r.payload.length = 1 → leAt r.payload 0 1 < 44 →
      exec (.powerStatus r) s = .next (s.answer 0x0401 r .ok (leBytes 4 (s.domainStatus (leAt r.payload 0 1)).toNat))) ∧
    (s.accepts 0x0500 r = true → r.payload = [] →
      exec (.timeSnapshot r) s =
        .next (s.posNow.2.answer 0x0500 r .ok
          (leBytes 4 (nsOf s.dev) ++ leBytes 8 (secOf s.dev) ++ leBytes 8 s.loc ++ leBytes 8 s.posNow.1))) ∧
    (∀ first n, s.accepts 0x0700 r = true → r.payload = leBytes 2 first ++ leBytes 2 n → 1 ≤ n → n ≤ 25 → first + n ≤ 64 →
      exec (.monRead r) s =
        .next (s.answer 0x0700 r .ok (leBytes 2 n ++ leBytes 2 0 ++ (upTo n).flatMap fun i => s.snapRecord (first + i)))) ∧
    (∀ log first n, s.accepts 0x0705 r = true → log < 3 → first < 2 ^ 32 → 1 ≤ n → n ≤ 25 ∨ (log < 2 ∧ n ≤ 127) →
      r.payload = leBytes 1 log ++ leBytes 3 0 ++ leBytes 4 first ++ leBytes 2 n →
      exec (.logRead r) s =
        .next (s.answer 0x0705 r .ok (leBytes 4 (logSlice (s.logOf log) first n).1 ++
          leBytes 2 (logSlice (s.logOf log) first n).2.length ++ leBytes 2 0 ++ (logSlice (s.logOf log) first n).2.flatten))) ∧
    (∀ w d, s.accepts 0x0203 r = true → r.payload.length = 4 → selectorOf r.payload = some w → s.imageDigest w = some d →
      exec (.imageInfo r) s = .next (s.answer 0x0203 r .ok ((Config.imageSummary d).take 4076))) ∧
    (s.accepts 0x0800 r = true → r.payload = [] →
      exec (.getIdentity r) s = .next (s.answer 0x0800 r .ok
        (s.identityKey ++ leBytes 1 (bit s.keyTemporary) ++ leBytes 2 s.certificate.length ++ s.certificate))) ∧
    (s.accepts 0x0802 r = true → r.payload = [] →
      exec (.lifecycleGet r) s = .next (s.newNonce.answer 0x0802 r .ok
        (leBytes 1 s.mgmt.sec.lc ++ leBytes 1 (bit s.ownerPresent + 2 * bit s.mgmt.sec.erasePending) ++ leBytes 2 0 ++
          s.newNonce.nonce))) ∧
    (s.accepts 0x0A00 r = true → r.payload = [] → exec (.testReport r) s = .next (s.answer 0x0A00 r .ok s.testReport)) ∧
    (∀ i n tt, s.accepts 0x0A01 r = true → r.payload.length = 10 →
      (leAt r.payload 0 1 < 2 → leAt r.payload 1 1 < 8 ∧ leAt r.payload 2 1 < 16) →
      (leAt r.payload 0 1 = 4 → leAt r.payload 1 1 < 8) → leAt r.payload 3 1 = 0 → leAt r.payload 4 4 = i →
      leAt r.payload 8 2 = n → testTarget (leAt r.payload 0 1) (leAt r.payload 1 1 % 8) (leAt r.payload 2 1 % 16) = some tt →
      1 ≤ n → n ≤ tt.most → i + n ≤ tt.units → s.domOff tt.dom = false → ∀ u, u = (s.taken 0x0A01 r).accessWake tt.dom →
      exec (.testRead r) s =
        .next (({ u with free := u.free + 1 }.released 0x0A01 r).answer 0x0A01 r .ok
          ((upTo n).flatMap fun j => tt.read u (i + j))))

/-- Parameter reads and writes (R8, R98, R364, R365, R420, R432, R433). That a list is judged on the state as the whole list
would leave it, and takes nothing back word by word, is the model's reading (assumption 47). -/
def Obligations.ParameterCommands : Prop :=
  ∀ (s : State) (r : Req),
    (s.accepts 0x0100 r = true → r.payload.length = 8 → rangeBad r.payload 1019 = false →
      (firstRefused s.readRefuses 0 (idRange (leAt r.payload 0 4) (leAt r.payload 4 2)) = none →
        exec (.paramRead r) s =
          .next ((((s.taken 0x0100 r).readWords (idRange (leAt r.payload 0 4) (leAt r.payload 4 2))).2.released 0x0100 r).answer
            0x0100 r .ok ((s.taken 0x0100 r).readWords (idRange (leAt r.payload 0 4) (leAt r.payload 4 2))).1)) ∧
      (∀ e n, firstRefused s.readRefuses 0 (idRange (leAt r.payload 0 4) (leAt r.payload 4 2)) = some (e, n) →
        exec (.paramRead r) s = .next (s.answer 0x0100 r e (leBytes 2 n)))) ∧
    (∀ ids : List Nat, s.accepts 0x0102 r = true → ids.length ≤ 1018 → ids ≠ [] → (∀ i ∈ ids, i < 2 ^ 32) →
      r.payload = leBytes 2 ids.length ++ leBytes 2 0 ++ ids.flatMap (leBytes 4) →
      (firstRefused s.readRefuses 0 ids = none →
        exec (.paramReadList r) s =
          .next ((((s.taken 0x0102 r).readWords ids).2.released 0x0102 r).answer 0x0102 r .ok
            ((s.taken 0x0102 r).readWords ids).1)) ∧
      (∀ e n, firstRefused s.readRefuses 0 ids = some (e, n) →
        exec (.paramReadList r) s = .next (s.answer 0x0102 r e (leBytes 2 n)))) ∧
    (∀ ws, s.accepts 0x0101 r = true → r.payload.length = 8 + 4 * leAt r.payload 4 2 → rangeBad r.payload 1017 = false →
      ws = ((upTo (leAt r.payload 4 2)).map fun i =>
        (leAt r.payload 0 4 + i, BitVec.ofNat 32 (leAt r.payload (8 + 4 * i) 4))) →
      (∀ u, u = s.taken 0x0101 r → firstRefused (fun w => s.writeRefuses w.1 w.2) 0 ws = none →
        (∀ t, (forEach ws (fun t w => t.setWord w.1 w.2) u).writeWords u 0 ws = .ok t →
          exec (.paramWrite r) s = .next ((t.released 0x0101 r).answer 0x0101 r .ok [])) ∧
        (∀ e n, (forEach ws (fun t w => t.setWord w.1 w.2) u).writeWords u 0 ws = .error (e, n) →
          exec (.paramWrite r) s = .next (s.answer 0x0101 r e (leBytes 2 n)))) ∧
      (∀ e n, firstRefused (fun w => s.writeRefuses w.1 w.2) 0 ws = some (e, n) →
        exec (.paramWrite r) s = .next (s.answer 0x0101 r e (leBytes 2 n)))) ∧
    (∀ ws : List (Nat × Word), s.accepts 0x0103 r = true → ws.length ≤ 509 → ws ≠ [] → (∀ w ∈ ws, w.1 < 2 ^ 32) →
      r.payload = leBytes 2 ws.length ++ leBytes 2 0 ++ ws.flatMap (fun w => leBytes 4 w.1 ++ leBytes 4 w.2.toNat) →
      (∀ u, u = s.taken 0x0103 r → firstRefused (fun w => s.writeRefuses w.1 w.2) 0 ws = none →
        (∀ t, (forEach ws (fun t w => t.setWord w.1 w.2) u).writeWords u 0 ws = .ok t →
          exec (.paramWriteList r) s = .next ((t.released 0x0103 r).answer 0x0103 r .ok [])) ∧
        (∀ e n, (forEach ws (fun t w => t.setWord w.1 w.2) u).writeWords u 0 ws = .error (e, n) →
          exec (.paramWriteList r) s = .next (s.answer 0x0103 r e (leBytes 2 n)))) ∧
      (∀ e n, firstRefused (fun w => s.writeRefuses w.1 w.2) 0 ws = some (e, n) →
        exec (.paramWriteList r) s = .next (s.answer 0x0103 r e (leBytes 2 n)))) ∧
    (s.wordService = true → ∀ (id : Nat) (v : Word), s.refusesWrite id v = none →
      ∀ t, t = { s.putWord id v with lastStatus := .ok } →
      (id < 2 ^ 32 → exec (.paramWordWrite (BitVec.ofNat 32 id) v) s = .next t) ∧
      (∀ p d w, p < 4 → d < 8 → w < 8 → id = hpId p (0x10 + 8 * d + w) → exec (.fmtDescriptorWrite p d w v) s = .next t) ∧
      (∀ n w, n < 65 → id = pid 0x15 n w → exec (.monitorCfgWrite n w v) s = .next t) ∧
      (id = pid 1 0 0x132 → exec (.regionRetestWrite v) s = .next t)) ∧
    (s.wordService = true → ∀ (id : Nat) (v : Word) (e : Status), s.refusesWrite id v = some e →
      (id < 2 ^ 32 → exec (.paramWordWrite (BitVec.ofNat 32 id) v) s = .next { s with lastStatus := e }) ∧
      (∀ p d w, p < 4 → d < 8 → w < 8 → id = hpId p (0x10 + 8 * d + w) →
        exec (.fmtDescriptorWrite p d w v) s = .next { s with lastStatus := e }) ∧
      (∀ n w, n < 65 → id = pid 0x15 n w → exec (.monitorCfgWrite n w v) s = .next { s with lastStatus := e }) ∧
      (id = pid 1 0 0x132 → exec (.regionRetestWrite v) s = .next { s with lastStatus := e })) ∧
    (∀ n w v, n < 64 → w < 2 → ((s.putWord (pid 0x15 n w) v).mon n).live = MonBuf.empty ∧
      ((s.putWord (pid 0x15 n w) v).mon n).changed = true) ∧
    (∀ v : Word, bitOf v.toNat 3 = true →
      (s.putWord (pid 1 0 0x132) v).mgmt.fault.retest = some (bitsOf v.toNat 0 3) ∧
        (s.putWord (pid 1 0 0x132) v).region (bitsOf v.toNat 0 3) = 4)

/-- Access codes (R9, R10, R12). -/
def Obligations.FieldsFollowTheirAccess : Prop :=
  (∀ (fs : List Field) (old new : Word), fieldsWf fs = true → ∀ f ∈ fs,
    (f.acc = .rw ∨ f.acc = .rwl → f.get (mergeWrite fs old new) = f.get new) ∧
    (f.acc = .ro ∨ f.acc = .wo → f.get (mergeWrite fs old new) = f.get old) ∧
    (f.acc = .w1c → bitOf (mergeWrite fs old new).toNat f.lsb = (bitOf old.toNat f.lsb && !bitOf new.toNat f.lsb))) ∧
  (∀ (s : State) (id : Nat) (fs : List Field) (v : Word), s.wordService = true → s.armed = true → lookup id = .word fs →
    s.absent id = none → s.rootRefuses id = false → (∃ f ∈ fs, f.acc = .rwl) →
    (((∀ f ∈ fs, f.acc ≠ .rw) ∨ ∃ f ∈ fs, f.acc = .rwl ∧ f.get (s.word id) ≠ f.get v) →
      s.wordWrite id v = { s with lastStatus := .locked }) ∧
    (fieldsWf fs = true → (∃ f ∈ fs, f.acc = .rw) → (∀ f ∈ fs, f.acc = .rwl → f.get (s.word id) = f.get v) →
      s.writeRefuses id v ≠ some .locked ∧
      ∀ f ∈ fs, f.acc = .rwl → f.get (mergeWrite fs (s.word id) v) = f.get (s.word id)))

/-- The parameter maps as a whole (R4, R10, R13). -/
def Obligations.ParameterMapsAreWellFormed : Prop :=
  ∀ (id : Nat) (fs : List Field), lookup id = .word fs →
    fieldsWf fs = true ∧ ∀ f ∈ fs, f.rst < 2 ^ f.width ∧ f.get (resetWord id) = f.rst

/-- The dump area (R431, R352, R371). That a DUMP_READ of length 0 is refused, and when a session of another module counts as
open, are the model's choices (assumptions 45 and 74). -/
def Obligations.DumpCommands : Prop :=
  ∀ (s : State) (r : Req), s.canonical →
    (s.accepts 0x0702 r = true → r.payload = [] →
      exec (.dumpInfo r) s = .next (s.answer 0x0702 r .ok (s.readBytes dumpBase 256))) ∧
    (∀ off n, s.accepts 0x0703 r = true → r.payload.length = 12 → leAt r.payload 0 8 = off → leAt r.payload 8 4 = n →
      (n = 0 ∨ 256 * 1048576 < off + n → exec (.dumpRead r) s = .next (s.answer 0x0703 r .badParam [])) ∧
      (n ≠ 0 → off + n ≤ 256 * 1048576 →
        (s.dumping = true ∨ ∃ b, s.host.bulkOut = some b ∧ (r.src.toNat = s.addr ∨ b.dest = s.addr)) →
          exec (.dumpRead r) s = .next (s.answer 0x0703 r .resourceHeld [])) ∧
      (n ≠ 0 → off + n ≤ 256 * 1048576 → r.src.toNat = s.addr → s.dumping = false →
        (s.host.bulkOut = none →
          exec (.dumpRead r) s =
            .next ((s.onHost fun h => { h with bulkOut := some ⟨r.tag.toNat, s.addr, off, n, 0, []⟩ }).answer 0x0703 r .ok []))) ∧
      (n ≠ 0 → off + n ≤ 256 * 1048576 → r.src.toNat ≠ s.addr → s.dumping = false →
        (∀ b, s.host.bulkOut = some b → b.dest ≠ s.addr) →
        exec (.dumpRead r) s =
          .next (((((s.taken 0x0703 r).sendDump r.src.toNat r.tag.toNat 0 (s.readBytes (dumpBase + off) n)).onHost fun h =>
            { h with remoteOut := some r.src.toNat }).released 0x0703 r).answer 0x0703 r .ok []))) ∧
    (∀ b : BulkOut, s.fnReady 2 = true → s.host.bulkOut = some b → b.dest = s.addr →
      ∃ t, exec .bulkBlockRead s = .next t ∧
        t.host.sdio.readData =
          padTo 512 (s.readBytes (dumpBase + b.offset + b.pos) (min 512 (b.length - b.pos))) ∧ t.mem = s.mem) ∧
    (s.accepts 0x0704 r = true → r.payload = [] →
      ((∃ b, s.host.bulkOut = some b ∧ b.dest = s.addr) →
        exec (.dumpClear r) s = .next (s.answer 0x0704 r .resourceHeld [])) ∧
      ((∀ b, s.host.bulkOut = some b → b.dest ≠ s.addr) →
        ∃ t : State, exec (.dumpClear r) s = .next (t.answer 0x0704 r .ok []) ∧ t.dumpHeld = false ∧
          t.readBytes (dumpBase + 52) 4 = [0, 0, 0, 0] ∧
          (∀ a, inRange dumpBase 256 a = false → t.readByte a = s.readByte a) ∧ t.regs = s.regs ∧ t.host = s.host))

/-- Model images (R361, R371, R386, R389, R397 to R399). That a command has its effect at its start and is answered later, that
step 7 of a commit fails or not as a free value says, and which checks of a swap come first, are the model's readings
(assumptions 49, 55 and 56). -/
def Obligations.ModelImageCommands : Prop :=
  ∀ (s : State) (r : Req),
    (∀ kind n, s.accepts 0x0200 r = true → r.payload.length = 12 → leAt r.payload 0 1 = kind → kind < 2 →
      leAt r.payload 1 3 = 0 → leAt r.payload 4 8 = n → n ≠ 0 → n ≤ 2 ^ 32 → s.swapping = false → s.host.bulkIn = none →
      s.host.remoteIn = none → r.src.toNat = s.addr →
      exec (.imageBegin r) s =
        .next (((s.onModel fun m => { m with staged := some ⟨kind, n, false, false⟩ }).onHost fun h =>
          { h with bulkIn := some ⟨r.tag.toNat, s.addr, kind, n, 0⟩ }).answer 0x0200 r .ok [])) ∧
    (s.accepts 0x0201 r = true → selectorOf r.payload = some 0 → ∀ u, u = s.taken 0x0201 r →
      (∀ m o t, u.checkModel (some r.payload) = .ok (m, o) → u.claimModel m o = .ok t →
        ∀ v, v = { t with free := t.free + 1 } →
        exec (.imageCommit r) s = .next
          (if Config.installFails t.free then (v.installFailed.startRunning 0x0201 r .internal []).released 0x0201 r
           else (((v.installModel m).storeImage ((s.stagedModel.map s.stagedBytes).getD []) m).dropStaged.startRunning 0x0201
             r o.status o.bytes).released 0x0201 r) ∧
        v.installFailed.mgmt.model.active = none ∧ v.installFailed.mgmt.model.staged = t.mgmt.model.staged) ∧
      (∀ m o e b, u.checkModel (some r.payload) = .ok (m, o) → u.claimModel m o = .error (e, b) →
        exec (.imageCommit r) s = .next (s.answer 0x0201 r e b)) ∧
      (∀ e b, u.checkModel (some r.payload) = .error (e, b) →
        exec (.imageCommit r) s = .next ((s.countAuth e).answer 0x0201 r e b))) ∧
    (∀ (u : State) (m : Model), (u.installModel m).mgmt.model.active = some m ∧ (u.installModel m).mem = u.mem ∧
      (u.unloadModel).mgmt.model.active = none ∧ (u.unloadModel).mem = u.mem) ∧
    (s.accepts 0x0202 r = true → r.payload.length = 4 →
      (selectorOf r.payload = some 1 → s.mgmt.model.active.isSome = true →
        exec (.imageUnload r) s =
          .next (((s.taken 0x0202 r).unloadModel.dropImageClaims.startRunning 0x0202 r .ok []).released 0x0202 r)) ∧
      (∀ x, selectorOf r.payload = some 0 → s.mgmt.model.staged = some x → x.kind = 0 →
        exec (.imageUnload r) s = .next (s.closeModelSession.dropStaged.startRunning 0x0202 r .ok []))) ∧
    (s.accepts 0x0204 r = true → r.payload = [] → exec (.bulkAbort r) s = .next (s.bulkAbort.answer 0x0204 r .ok [])) ∧
    (s.accepts 0x0205 r = true → r.payload.length = 10 → selectorOf r.payload = some 0 → s.swapping = false →
      ∀ u, u = s.taken 0x0205 r →
      (∀ m o, u.checkModel none = .ok (m, o) → u.swapRefuses m o = none →
        exec (.imageSwap r) s =
          .next ((s.onModel fun x => { x with
            swap := some ⟨m, leAt r.payload 4 6, false, false, none, some r, o.bytes⟩ }).startRunning 0x0205 r .ok o.bytes)) ∧
      (∀ m o e b, u.checkModel none = .ok (m, o) → u.swapRefuses m o = some (e, b) →
        exec (.imageSwap r) s = .next (s.answer 0x0205 r e b)) ∧
      (∀ e b, u.checkModel none = .error (e, b) →
        exec (.imageSwap r) s = .next ((s.countAuth e).answer 0x0205 r e b))) ∧
    (∀ w, s.mgmt.model.swap = some w → s.running = true → s.cutDue = true →
      exec .swapCut s =
        .next (((((s.installModel w.model).dropNeuronEvents.degradeTracks.dropStaged).bump (pid 1 0 0x121))).endSwap .ok
          w.outcome))

/-- Short commands with an effect (R302, R306, R308, R309, R311, R326, R329, R366, R367, R369, R375, R433, R472). That a CLAIM takes
the lowest free entry and what a disabled queue answers are the model's choices (assumptions 50 and 74). -/
def Obligations.ClaimsQueuesAndSupplies : Prop :=
  ∀ (s : State) (r : Req),
    (s.accepts 0x0303 r = true → r.payload.length = 16 →
      (s.armed = true → exec (.claim r) s = .next (s.answer 0x0303 r .locked [])) ∧
      (∀ kind unit amount base e, s.armed = false → leAt r.payload 0 1 = kind → leAt r.payload 1 1 = 0 →
        leAt r.payload 2 2 = unit → leAt r.payload 4 4 = amount → leAt r.payload 8 8 = base →
        claimRange kind unit amount base = true → s.claimHeld kind unit amount base = false →
        s.poolLacks kind unit amount = false → s.freeEntry = some e →
        exec (.claim r) s =
          .next (((s.setClaim e (some ⟨false, kind, unit, amount, base⟩)).creditsChanged kind unit).answer 0x0303 r .ok
            (leBytes 2 e)))) ∧
    (s.accepts 0x0304 r = true → r.payload.length = 2 →
      (s.armed = true → exec (.release r) s = .next (s.answer 0x0304 r .locked [])) ∧
      (∀ c, s.armed = false → leAt r.payload 0 2 < 1024 → s.claim (leAt r.payload 0 2) = some c → c.image = false →
        s.claimUsed c = false →
        exec (.release r) s =
          .next (((s.setClaim (leAt r.payload 0 2) none).creditsChanged c.kind c.unit).answer 0x0304 r .ok []))) ∧
    (∀ q n : Nat, ∀ open_ : Bool, s.accepts 0x0305 r = true → q < 4096 → 1 ≤ n → n ≤ 509 → s.qProducer q = 0 →
      r.payload.length = 4 + 8 * n → leAt r.payload 0 2 = q → leAt r.payload 2 2 = n + bit open_ * 2 ^ 15 →
      ∀ ecc pointers u, u = (s.taken 0x0305 r).queueAccess q pointers →
      (u.packetFits q n = true → (∀ x ∈ u.host.running, x.queue ≠ some q) →
        exec (.queueWrite ⟨r, pointers, ecc⟩) s =
          .next (((u.pushWords q (queueWords r.payload) (!open_)).released 0x0305 r).answer 0x0305 r .ok [])) ∧
      (u.packetFits q n = false →
        exec (.queueWrite ⟨r, pointers, ecc⟩) s = .next ((u.startRunning 0x0305 r .ok []).released 0x0305 r))) ∧
    (∀ q n : Nat, s.accepts 0x0306 r = true → r.payload = leBytes 2 q ++ leBytes 2 n → q < 4096 → 1 ≤ n → n ≤ 452 →
      s.qConsumer q = 0 → ∀ ecc pointers u k, u = (s.taken 0x0306 r).queueAccess q pointers →
      k = readCountOf (u.queue q) n false →
      exec (.queueRead ⟨r, pointers, ecc⟩) s =
        .next (((u.popWords q ecc k).2.2.released 0x0306 r).answer 0x0306 r .ok
          (leBytes 2 k ++ leBytes 2 0 ++ (u.popWords q ecc k).1 ++ (u.popWords q ecc k).2.1))) ∧
    (∀ old u, s.accepts 0x0307 r = true → r.payload.length = 12 → leAt r.payload 0 2 < 12288 → leAt r.payload 2 1 < 16 →
      leAt r.payload 3 1 = 0 →
      (s.taken 0x0307 r).soOp (leAt r.payload 0 2) (leAt r.payload 2 1) (leAt r.payload 4 4) (leAt r.payload 8 4) = (.ok, old, u) →
      exec (.syncobjOp r) s = .next ((u.released 0x0307 r).answer 0x0307 r .ok (leBytes 4 old.toNat))) ∧
    (s.accepts 0x0600 r = true → r.payload.length = 8 + leAt r.payload 2 2 → leAt r.payload 0 1 < 4 →
      leAt r.payload 1 1 < 128 → leAt r.payload 2 2 ≤ 256 → leAt r.payload 4 2 ≤ 256 → leAt r.payload 6 2 = 0 →
      leAt r.payload 2 2 + leAt r.payload 4 2 ≠ 0 → s.bitAt camId (leAt r.payload 0 1) = true →
      exec (.camI2c r) s = .next (s.startRunning 0x0600 r .ok [])) ∧
    (∀ w, s.accepts 0x0601 r = true → r.payload.length = 4 → leAt r.payload 0 4 = w → w < 16 →
      (∀ p, p < 4 → bitOf (s.fld camId 0 4) p = true → bitOf w p = false → s.bitAt (hpId p 0) 0 = false) →
      ∀ new t, new = w - (w &&& s.fld camId 0 4) →
        t = (s.setFld camId 0 4 w).onBoard (fun b => { b with
          softStart := (b.softStart ||| new) &&& w, tripped := b.tripped - (b.tripped &&& new) }) →
        (new = 0 → exec (.camSupply r) s = .next (t.answer 0x0601 r .ok [])) ∧
        (new ≠ 0 → exec (.camSupply r) s = .next (t.startRunning 0x0601 r .ok (leBytes 1 new ++ leBytes 1 0)))) ∧
    (s.accepts 0x0901 r = true → r.payload.length = 1 → leAt r.payload 0 1 < 4 → s.spkUp (leAt r.payload 0 1) = true →
      exec (.retrain r) s = .next ((s.startRetrain (leAt r.payload 0 1)).answer 0x0901 r .ok [])) ∧
    (s.accepts 0x0701 r = true → r.payload.length = 8 →
      exec (.monClear r) s =
        .next (((forEach (upTo 64) (fun s n =>
          if bitOf (leAt r.payload 0 8) n then s.onMon n fun c => { c with live := .empty } else s)
            (s.taken 0x0701 r)).released 0x0701 r).answer 0x0701 r .ok [])) ∧
    (s.accepts 0x0302 r = true → r.payload = [] →
      (s.host.resetReply = none → r.src.toNat = s.addr →
        exec (.moduleReset r) s =
          .next ((s.onHost fun h => { h with
            resetReply := some (s.replyBytes 0x0302 r.tag.toNat s.addr .ok []), resetAt := s.loc }).answer 0x0302 r .ok [])) ∧
      (s.host.resetReply = none → r.src.toNat ≠ s.addr →
        exec (.moduleReset r) s =
          .next ((s.onHost fun h => { h with resetReply := some [], resetAt := s.loc }).answer 0x0302 r .ok [])) ∧
      (s.host.resetReply.isSome = true → exec (.moduleReset r) s = .next (s.answer 0x0302 r .ok [])))

/-- Long commands (R357, R358, R363, R386, R406, R407, R414, R415, R440, R445, R448, R450, R482), and the module's test port
(R450). That a long command has its effect at its start and is answered by COMMAND_COMPLETION, and that a refused LIFECYCLE_SET
draws a new NONCE, are the model's readings (assumptions 49 and 52). -/
def Obligations.LongCommandsAndTheirReplies : Prop :=
  ∀ (s : State) (r : Req),
    (s.accepts 0x0300 r = true → r.payload = [] →
      ((s.taken 0x0300 r).armRefuses = none →
        exec (.arm r) s = .next (((s.taken 0x0300 r).armNow.startRunning 0x0300 r .ok []).released 0x0300 r) ∧
          (s.taken 0x0300 r).armNow.armed = true ∧ (s.taken 0x0300 r).armNow.cmd = .armed) ∧
      (∀ e, (s.taken 0x0300 r).armRefuses = some e → exec (.arm r) s = .next (s.answer 0x0300 r e []))) ∧
    (s.accepts 0x0301 r = true → r.payload = [] →
      exec (.stop r) s = .next (((s.taken 0x0301 r).stopNow.released 0x0301 r).answer 0x0301 r .ok [])) ∧
    (∀ d t, s.accepts 0x0400 r = true → r.payload = leBytes 1 d ++ leBytes 1 t ++ leBytes 2 0 → d < 44 → t < 3 →
      s.powerRefuses d t = none → (s.pdom d).move = none →
      ((s.pdom d).st = pwrOf t →
        exec (.powerSet r) s =
          .next (((s.onPdom d fun x => { x with target := pwrOf t, retry := none }).onPdom d fun x =>
            { x with result := 0 }).answer 0x0400 r .ok [])) ∧
      ((s.pdom d).st ≠ pwrOf t →
        exec (.powerSet r) s =
          .next (((s.onPdom d fun x => { x with target := pwrOf t, retry := none }).startMove d (pwrOf t)).startRunning
            0x0400 r .ok []))) ∧
    (∀ e t, s.accepts 0x0402 r = true → r.payload = leBytes 1 e ++ leBytes 1 t → e < 8 → t = 1 ∨ t = 2 →
      s.otherOut e = false → s.region e = 1 → s.swapping = false → s.armed = true → s.mgmt.model.active.isSome = true →
      (∀ i, i < 4 → (s.pdom (4 * e + i)).move = none ∧ (s.pdom (4 * e + i)).pend = none) → (t = 2 → s.queueIn e = false) →
      exec (.regionPark r) s =
        .next (((((s.taken 0x0402 r).onPower fun p => { p with
          park := some ⟨e, pwrOf t, false, [4 * e, 4 * e + 2, 4 * e + 1, 4 * e + 3]⟩,
          switches := p.switches ++ [.park e] }).startRunning 0x0402 r .ok []).settleSwitches).released 0x0402 r)) ∧
    (∀ e, s.accepts 0x0403 r = true → r.payload = leBytes 1 e → e < 8 → s.swapping = false → s.region e = 3 →
      exec (.regionResume r) s =
        .next (((((s.taken 0x0403 r).startRunning 0x0403 r .ok []).startResume e).settleSwitches).released 0x0403 r)) ∧
    (s.accepts 0x0801 r = true → r.payload.length = 32 → s.keyTemporary = false →
      ∃ b, b = (s.bump (pid 0x16 0 1)).attestBody r.payload ∧
        exec (.attest r) s =
          .next ({ s.bump (pid 0x16 0 1) with free := s.free + 1 }.startRunning 0x0801 r .ok
            (b ++ (s.bump (pid 0x16 0 1)).signed b))) ∧
    (s.testPort = none ↔ s.powered = false) ∧
    (s.powered = true →
      (s.testPort = some .active ↔ s.mgmt.sec.lc = 0 ∨ s.mgmt.sec.lc = 3) ∧
      (s.testPort = some .held ↔ s.mgmt.sec.lc ≠ 0 ∧ s.mgmt.sec.lc ≠ 3)) ∧
    (s.accepts 0x0803 r = true →
      (s.lifeRefuses r.payload = none →
        exec (.lifecycleSet r) s = .next ((s.blowFuse (leAt r.payload 0 1) r.payload).startRunning 0x0803 r .ok [])) ∧
      (∀ e, s.lifeRefuses r.payload = some e →
        exec (.lifecycleSet r) s = .next (((s.countAuth e).bump (pid 0x16 0 0x101)).newNonce.answer 0x0803 r e []))) ∧
    (∀ img, s.accepts 0x0804 r = true → r.payload.length = 4 → selectorOf r.payload = some 0 → s.stagedFirmware = some img →
      (s.firmwareRefuses img = none →
        exec (.firmwareActivate r) s =
          .next (((s.taken 0x0804 r).firmwareWriting.startRunning 0x0804 r .ok []).released 0x0804 r)) ∧
      (∀ e, s.firmwareRefuses img = some e →
        exec (.firmwareActivate r) s = .next ((s.countAuth e).answer 0x0804 r e []))) ∧
    (s.accepts 0x0900 r = true → r.payload = [] →
      (r.src.toNat = s.addr → s.armed = false → s.partnersArmed = false →
        (s.farModules = false →
          exec (.enumerate r) s =
            .next ((((s.taken 0x0900 r).startEnumeration.pumpAll).startRunning 0x0900 r .ok []).released 0x0900 r)) ∧
        (s.farModules = true → ∀ v, v = { s.taken 0x0900 r with free := s.free + 1 } →
          exec (.enumerate r) s = .next
            (if Config.farArmed s.free then (v.released 0x0900 r).answer 0x0900 r .wrongState []
             else ((v.startEnumeration.pumpAll).startRunning 0x0900 r .ok []).released 0x0900 r))) ∧
      (r.src.toNat ≠ s.addr ∨ s.armed = true ∨ s.partnersArmed = true →
        ∃ k, s.free ≤ k ∧ k ≤ s.free + 1 ∧
          exec (.enumerate r) s = .next ({ s with free := k }.answer 0x0900 r .wrongState []))) ∧
    (∀ n, s.accepts 0x0A02 r = true → leAt r.payload 0 1 = n → leAt r.payload 1 3 = 0 → 1 ≤ n → n ≤ 64 →
      r.payload.length = 4 + n → s.bistRefuses (bistCodes r.payload) = none →
      exec (.bistRun r) s = .next (s.startRunning 0x0A02 r .ok [])) ∧
    (∀ (tag : BitVec 12) (x : Running), s.awake = true → s.host.running.find? (fun x => x.req.tag == tag) = some x →
      (x.opcode ∈ [0x0201, 0x0202, 0x0300, 0x0801] →
        exec (.commandCompletion tag .done) s = .next (s.finish x ((Status.ofCode x.status).getD .ok) x.note)) ∧
      (∀ data, x.opcode = 0x0600 → s.i2cFirst x = true → data.length = leAt x.req.payload 4 2 →
        locDiff s.loc x.took ≤ 50000000 →
        exec (.commandCompletion tag (.i2cBytes data)) s = .next (s.finish x .ok data)) ∧
      (x.opcode = 0x0804 →
        exec (.commandCompletion tag .done) s =
          .next (s.firmwareWritten.finish x ((Status.ofCode x.status).getD .ok) x.note))) ∧
    (∀ (x : Running) (st : Status) (p : List Byte), x.req.src.toNat = s.addr → s.host.replies.length < 256 →
      (s.finish x st p).host.running = s.host.running.erase x ∧
      (s.finish x st p).host.replies = s.host.replies ++ [s.replyBytes x.opcode x.req.tag.toNat s.addr st p] ∧
      (s.finish x st p).regs = s.regs ∧ (s.finish x st p).mem = s.mem)

/-- Events of a power domain (R298, R404, R405, R407 to R410, R412). That held words refuse an OFF entry when it would commit, and
that the access which wakes a domain has its effect at once, are the model's readings (assumptions 47 and 48). -/
def Obligations.PowerDomainEvents : Prop :=
  ∀ (s : State) (d : Nat), d < 44 →
    (∀ m, (s.pdom d).move = some m → m.goal ≠ .on → m.committed = false →
      (s.domOff d = false → s.domBusy d = false → s.restarting = false →
        ∀ u, u = (s.onPdom d fun x => { x with move := some { m with committed := true } }).bump (pwId d 0x100) →
        (m.goal = .ret → exec (.powerEntryCommit d) s = .next u) ∧
        (m.goal = .off → (d < 32 → d % 4 = 3 → s.queueIn (d / 4) = false) →
          exec (.powerEntryCommit d) s = .next (u.loseDomain d)) ∧
        (m.goal = .off → d < 32 → d % 4 = 3 → s.queueIn (d / 4) = true →
          exec (.powerEntryCommit d) s = .next (s.refuseHeld d) ∧ (s.canonical → ((s.refuseHeld d).pdom d).st = (s.pdom d).st))) ∧
      (∀ code unit, domainOf code unit = some d → s.mayRefuse d code = true → s.restarting = false →
        exec (.powerBlockStopTimeout d code unit) s = .next (s.refuseEntry d code unit)) ∧
      (¬ (((s.endEntry d).pdom d).st = .ret ∧ ((s.endEntry d).pdom d).move = none) →
        exec (.powerAccessWake d) s = .next (s.endEntry d)) ∧
      (((s.endEntry d).pdom d).st = .ret → ((s.endEntry d).pdom d).move = none →
        exec (.powerAccessWake d) s = .next ((s.endEntry d).startWake d))) ∧
    (∀ m, (s.pdom d).move = some m → m.goal ≠ .on → m.committed = true →
      exec (.powerAccessWake d) s = .next (s.onPdom d fun x => { x with move := some { m with wake := true } })) ∧
    ((s.pdom d).move = none → (s.pdom d).st = .ret →
      ∃ t, exec (.powerAccessWake d) s = .next t ∧ ((t.pdom d).move.map (·.goal)) = some .on ∧
        (t.pdom d).target = (s.pdom d).target ∧ t.mem = s.mem ∧
        (s.canonical → (t.word (pwId d 0x104)).toNat = min ((s.word (pwId d 0x104)).toNat + 1) 0xFFFFFFFF)) ∧
    (∀ at_, (s.pdom d).retry = some at_ → (s.pdom d).move = none → (s.pdom d).target ≠ .on → s.restarting = false →
      s.fld (pwId d 0) 0 16 * 1000 ≤ locDiff s.loc at_ →
      exec (.powerRetHoldExpiry d) s = .next (s.startMove d (s.pdom d).target)) ∧
    (∀ m, (s.pdom d).move = some m → (m.goal = .on ∨ m.committed = true) →
      (m.goal = .on → exec (.powerTransitionDone d true) s = .next (s.wokeUp d)) ∧
      (m.goal ≠ .on → exec (.powerTransitionDone d true) s = .next (s.entered d m)) ∧
      exec (.powerTransitionDone d false) s = .next (s.restoreFailed d))

/-- Parameters over OFF (R404, R405). -/
def Obligations.RestoredWordsKeepParameters : Prop :=
  ∀ (s : State) (d id : Nat) (fs : List Field), s.canonical → lookup id = .word fs → fieldsWf fs = true →
    (idDomain id = some d →
      (keptCounter id fs = true → (s.restoreWords d).word id = s.word id) ∧
      (keptCounter id fs = false → id ∈ Sparse.keys s.regs → ∀ f ∈ fs,
        (f.acc = .rw ∨ f.acc = .rwl → f.get ((s.restoreWords d).word id) = f.get (s.word id)) ∧
        (f.acc = .w1c ∨ f.acc = .ro → f.rst < 2 ^ f.width → f.get ((s.restoreWords d).word id) = f.rst)) ∧
      (s.domOff d = true → s.wordService = true → ∀ v : Word,
        s.wordWrite id v = { s with lastStatus := .wrongState } ∧
        s.wordRead id = { s with lastStatus := .wrongState, lastWord := 0 })) ∧
    (idDomain id ≠ some d → (s.restoreWords d).word id = s.word id) ∧ (s.restoreWords d).mem = s.mem

/-- Region faults (R17, R24, R25, R151, R391, R417 to R420, R435). The codes of the reports, the one automatic retest and that a
heartbeat is missed only outside warm restarts are the model's readings (assumption 62), and so is what a bad word costs its
block where no rule of the block says it (assumption 63). -/
def Obligations.RegionFaults : Prop :=
  ∀ s : State,
    (∀ rep : ErrorReport, s.running = true → inRange 1 24 rep.block = true → (rep.block = 5 → rep.inst < 136) →
      (¬ (rep.block = 0x10 ∧ rep.code = 3) →
        exec (.blockErrorReport rep) s =
          .next (((s.countUe rep.code).ownRule rep).report rep.block rep.inst rep.code rep.detail.toNat)) ∧
      (rep.block = 0x10 → rep.code = 3 →
        exec (.blockErrorReport rep) s = .next (s.queueReset (rep.detail.toNat % 4096))) ∧
      (rep.block = 5 → rep.inst < 128 → s.ownRule rep = s.neuronError rep) ∧
      (rep.code ≠ 1 → rep.block ≠ 5 ∨ 128 ≤ rep.inst → s.ownRule rep = s) ∧
      (rep.code = 1 → rep.block = 6 → s.ownRule rep = s.slotError rep.inst rep.detail.toNat) ∧
      (rep.code = 1 → rep.block = 0x10 →
        s.ownRule rep = s.queueError (rep.detail.toNat % 4096) (rep.detail.toNat / 65536 % 65536))) ∧
    (∀ r, r < 8 →
      (s.running = true →
        exec (.regionFailureReport r) s =
          .next ({ s with hubFails := s.hubFails.filter (· != r) }.regionFault r (if r ∈ s.hubFails then 0x0F else 1))) ∧
      (s.running = true → s.pos.cur.isSome = true → s.runs r = true →
        (∃ b, b < 16 ∧ (s.block (16 * r + b)).finished = false) →
        s.fld (pid 1 0 0x130) 0 16 * 1000 ≤ locDiff s.loc s.pos.stepAt →
        exec (.stepDeadlineMiss r) s = .next (s.regionFault r 7)) ∧
      (s.awake = true → exec (.hubHeartbeatMiss r) s = .next (s.regionFault r 8)) ∧
      (∀ code, s.region r = 2 ∨ r ∈ s.mgmt.power.failing → s.regionFault r code = s)) ∧
    (∀ d, d < 100 → s.running = true → s.clockLock d = true →
      ∃ u, u = (s.onFault fun f => { f with clocksLost := f.clocksLost ++ [d] }) ∧
        exec (.clockLockLoss d) s =
          .next (if d < 32 then u.regionFault (d % 8) 6
            else if d < 45 ∨ d = 93 ∨ d = 99 then u.fatal 5 d
            else u.report (clockOwner d).1 (clockOwner d).2 6 d)) ∧
    (∀ r t, s.mgmt.fault.failed = some (r, t, true) → s.awake = true → s.armed = true → s.bitAt (pid 1 0 0x130) 16 = true →
      s.region r = 2 → s.mgmt.fault.retest = none → 1000000000 ≤ locDiff s.loc t →
      ∃ u, exec .autoRetestTimer s = .next u ∧ u.region r = 4 ∧ u.mgmt.fault.retest = some r ∧
        u.mgmt.fault.failed = some (r, s.loc, false) ∧ u.mem = s.mem) ∧
    (∀ r results, s.mgmt.fault.retest = some r → s.awake = true → results.map (·.code) = regionCodes r →
      (failedOf results = [] → exec (.retestDone results) s = .next ((s.countSlices results).retestPasses r)) ∧
      (failedOf results ≠ [] → exec (.retestDone results) s = .next ((s.countSlices results).retestFails r)))

/-- Fatal errors, warm restarts and scrub (R423, R424, R426, R427, R429, R437, R475). That CMD_STATE reads BOOT meanwhile and that
a second fatal error is only counted are the model's readings (assumption 61), and so is which unit a scrub read speaks for
(assumption 63). -/
def Obligations.FatalErrorsAndRestarts : Prop :=
  ∀ s : State,
    (∀ cause, s.powered = true → 1 ≤ cause → cause ≤ 9 →
      (s.mgmt.fault.fatal = none →
        ∃ t, exec (.fatalError cause) s = .next t ∧ t.mgmt.fault.fatal = some cause ∧ t.mgmt.fault.faultN = true ∧
          t.armed = false ∧ t.cmd = .boot ∧ t.mem = s.mem) ∧
      (s.mgmt.fault.fatal.isSome = true → exec (.fatalError cause) s = .next (s.bump (pid 1 0 0x141)))) ∧
    (∀ (c : Nat) (compatSel : Bool), s.mgmt.fault.fatal = some c →
      (s.dumpHeld = false →
        exec (.fatalDumpDone compatSel) s =
          .next (s.writeDump.rebooted compatSel (c == 8 || s.writeDump.mgmt.fault.thermalHold))) ∧
      (s.dumpHeld = true →
        exec (.fatalDumpDone compatSel) s =
          .next ((s.editHeader 52 (leBytes 4 (leAt (s.readBytes (dumpBase + 52) 4) 0 4 + 1) ++ leBytes 1 c)).rebooted compatSel
            (c == 8 || s.mgmt.fault.thermalHold))) ∧
      ∃ t, exec (.fatalDumpDone compatSel) s = .next t ∧ t.mgmt.fault.thermalHold = (c == 8 || s.mgmt.fault.thermalHold)) ∧
    (s.canonical → 7 ≤ s.mgmt.fault.detect.length → s.writeDump.dumpHeld = true) ∧
    (s.running = true →
      ((∀ t, s.mgmt.fault.lastRestart = some t → 60000000000 ≤ locDiff s.loc t) →
        (∃ t, exec .watchdogTimeout s = .next t ∧ t.cmd = .restart ∧ t.mgmt.fault.restartFrom = s.cmd ∧
          t.mgmt.fault.restartAt = some s.loc ∧ t.mem = s.mem ∧ t.armed = s.armed) ∧
        ∀ cause, ∃ t, exec (.millerWarmRestart cause) s = .next t ∧ t.cmd = .restart ∧ t.mgmt.fault.restartFrom = s.cmd ∧
          t.mgmt.fault.restartAt = some s.loc ∧ t.mem = s.mem ∧ t.armed = s.armed) ∧
      ((∃ t, s.mgmt.fault.lastRestart = some t ∧ locDiff s.loc t < 60000000000) → s.mgmt.fault.fatal = none →
        ∃ t, exec .watchdogTimeout s = .next t ∧ t.mgmt.fault.fatal = some 3)) ∧
    (s.powered = true → s.cmd = .restart →
      exec (.restartDone true) s = .next s.restartEnds ∧ exec (.restartDone false) s = .next (s.fatal 4 0) ∧
      (∀ t, s.mgmt.fault.restartAt = some t → 10000000000 ≤ locDiff s.loc t → exec .restartTimeout s = .next (s.fatal 2 0))) ∧
    (s.running = true → ∀ (bank a : Nat) (last : Bool), bank < 1536 → s.bankOn bank = true →
      a = Sparse.get (fun _ => 0) s.mgmt.fault.scrub bank → (last = true → a = 8191) →
      ∀ u, u = (s.onFault fun f => { f with scrub := Sparse.set (fun _ => 0) f.scrub bank ((a + 1) % 8192) }) →
      ∀ rep, rep = ⟨(Config.bankUnit bank).1, (Config.bankUnit bank).2, 1, BitVec.ofNat 64 (Config.bankWord bank a)⟩ →
        exec (.scrubAccess bank .clean last) s = .next (u.bumpIf last (pid 1 0 0x144)) ∧
        exec (.scrubAccess bank .corrected last) s = .next ((u.wordCorrected rep).bumpIf last (pid 1 0 0x144)) ∧
        exec (.scrubAccess bank .uncorrectable last) s = .next ((u.wordBad rep).bumpIf last (pid 1 0 0x144)) ∧
        (rep.block ≠ 1 → u.wordBad rep =
          ((u.countUe 1).ownRule rep).report rep.block rep.inst 1 rep.detail.toNat)) ∧
    (∀ bank ecc last, s.bankOn bank = false → exec (.scrubAccess bank ecc last) s = .next s) ∧
    (s.running = true → ∀ area, area < 7 →
      exec (.patrolScrub area .clean) s = .next s ∧ exec (.patrolScrub area .corrected) s = .next (s.bump (pid 1 0 0x145)) ∧
      exec (.patrolScrub area .uncorrectable) s = .next ((s.countUe 0x0A).report 1 0 0x0A area))

/-- Monitors, sensors and links (R432 to R434, R468, R471, R475, R476, R481). That the loss of block lock clears BLOCK_LOCK and
TRAINED together is the model's reading (assumption 64). -/
def Obligations.MonitorsAndSensors : Prop :=
  ∀ s : State, s.canonical →
    (s.running = true → s.snapDue = true → s.bitAt (pid 0x15 0x40 0) 16 = false →
      ∃ t, exec .monitorSnapSwap s = .next t ∧ t.regs = s.regs ∧ t.mem = s.mem ∧ t.mgmt.logs = s.mgmt.logs ∧
        ∀ n, n < 64 → (t.mon n).snap = (s.mon n).live ∧ (t.mon n).live = MonBuf.empty ∧ (t.mon n).time = s.dev ∧
          (t.mon n).snapChanged = (s.mon n).changed) ∧
    (∀ (c : Nat) (v : Word), c < 64 → s.running = true → s.tickDue c = true →
      (s.fld (pid 0x15 c 0) 0 8 = 3 →
        exec (.monitorSampleTick c v) s = .next
          ((s.sampleOn c (s.queue (s.fld (pid 0x15 c 0) 8 16)).words.length).tickTaken c)) ∧
      (s.fld (pid 0x15 c 0) 0 8 = 6 →
        ∃ t, exec (.monitorSampleTick c v) s = .next t ∧ Sparse.get (fun _ => 0) t.head.passed c = 0 ∧
          t.mgmt = ((s.sampleOn c (Sparse.get (fun _ => 0) s.head.passed c : Nat)).tickTaken c).mgmt) ∧
      (s.fld (pid 0x15 c 0) 0 8 = 0xA → exec (.monitorSampleTick c v) s = .next ((s.sampleOn c v.toNat).tickTaken c))) ∧
    (∀ (k : Nat) (x : BitVec 16), k < 8 → s.powered = true → s.mgmt.fault.fatal = none → s.mgmt.fault.thermalHold = false →
      (x.toInt ≤ (tempLimits k).2.1 * 16 →
        ∃ t, exec (.tempSample k x) s = .next t ∧ t.temp k = x.toInt ∧
          t.bitAt thermalId (8 + k) = decide ((tempLimits k).1 * 16 < x.toInt) ∧
          ((tempLimits k).1 * 16 < x.toInt → t.bitAt thermalId k = true) ∧ t.mem = s.mem ∧ t.armed = s.armed) ∧
      ((tempLimits k).2.1 * 16 < x.toInt →
        ∃ t, exec (.tempSample k x) s = .next t ∧ t.mgmt.fault.fatal = some 8 ∧ t.mgmt.fault.faultN = true ∧ t.mem = s.mem)) ∧
    (∀ (k : Nat) (x : BitVec 16) (sustained : Bool), k < 13 → s.powered = true → s.mgmt.fault.fatal = none →
      (railGood k x.toNat = true ∨ sustained = false ∨ k = 0 ∨ 9 ≤ k →
        ∃ t, exec (.railSample k x sustained) s = .next t ∧
          (t.word (pid 1 0 (0x170 + k))).toNat = x.toNat + 65536 * bit (railGood k x.toNat) ∧
          t.mgmt.fault = s.mgmt.fault ∧ t.mem = s.mem) ∧
      (railGood k x.toNat = false → sustained = true → 1 ≤ k → k ≤ 8 →
        ∃ t, exec (.railSample k x sustained) s = .next t ∧ t.mgmt.fault.fatal = some 9 ∧ t.mem = s.mem)) ∧
    (∀ p, p < 4 → s.powered = true → s.bitAt camId p = true →
      ∃ t, exec (.camSupplyTrip p) s = .next t ∧ t.bitAt camId p = false ∧ t.bitAt camId (4 + p) = true ∧ t.mem = s.mem) ∧
    (∀ p, p < 2 → s.running = true →
      (s.domOn (40 + p) = true → s.bitAt (pid 0x13 p 0) 0 = true →
        exec (.ethBlockLockGained p) s = .next ((s.setFld (pid 0x13 p 1) 0 2 3).relocked [85 + 2 * p, 86 + 2 * p])) ∧
      (s.bitAt (pid 0x13 p 1) 0 = true →
        ∃ t, exec (.ethBlockLockLost p) s = .next t ∧ t.fld (pid 0x13 p 1) 0 2 = 0 ∧ t.bitAt (pid 0x13 p 1) 2 = true ∧
          t.mem = s.mem) ∧
      (s.portUp p = true →
        exec (.ethFrameRx p true) s = .next (s.bump (pid 0x13 p 0x101)) ∧
        exec (.ethFrameRx p false) s = .next (s.bump (pid 0x13 p 0x102))))
end

