-- ==== Sys2Proof/Laws/Bits.lean ====
section
/-!
SUPPORT. Fields of words: what a replaced field reads as, and what every other field reads as.
-/

namespace Sys2Proof

/-- The three parts a field cuts a number into. -/
theorem bits_split (x lsb width : Nat) :
    x = x % 2 ^ lsb + bitsOf x lsb width * 2 ^ lsb + x / 2 ^ (lsb + width) * 2 ^ (lsb + width) := by
  unfold bitsOf
  have h1 := Nat.div_add_mod x (2 ^ lsb)
  have h2 := Nat.div_add_mod (x / 2 ^ lsb) (2 ^ width)
  rw [Nat.div_div_eq_div_mul, ← Nat.pow_add] at h2
  calc x = 2 ^ lsb * (x / 2 ^ lsb) + x % 2 ^ lsb := h1.symm
    _ = 2 ^ lsb * (2 ^ width * (x / 2 ^ (lsb + width)) + x / 2 ^ lsb % 2 ^ width) + x % 2 ^ lsb := by rw [h2]
    _ = _ := by rw [Nat.pow_add]; ring

theorem withBits_eq (x lsb width v : Nat) :
    withBits x lsb width v = x % 2 ^ lsb + (v % 2 ^ width + x / 2 ^ (lsb + width) * 2 ^ width) * 2 ^ lsb := by
  have h := bits_split x lsb width
  unfold withBits
  rw [Nat.pow_add] at *
  have e : x - bitsOf x lsb width * 2 ^ lsb = x % 2 ^ lsb + x / (2 ^ lsb * 2 ^ width) * (2 ^ lsb * 2 ^ width) := by omega
  rw [e]
  ring

/-- A field read back is the value written, cut to its width. -/
@[simp] theorem bitsOf_withBits (x lsb width v : Nat) : bitsOf (withBits x lsb width v) lsb width = v % 2 ^ width := by
  rw [withBits_eq]
  unfold bitsOf
  rw [Nat.add_mul_div_right _ _ (Nat.two_pow_pos _), Nat.div_eq_of_lt (Nat.mod_lt _ (Nat.two_pow_pos _)), Nat.zero_add,
    Nat.add_mul_mod_self_right, Nat.mod_mod]

/-- A field below a replaced one. -/
theorem bitsOf_withBits_below {x lsb width v l w : Nat} (h : l + w ≤ lsb) :
    bitsOf (withBits x lsb width v) l w = bitsOf x l w := by
  rw [withBits_eq]
  unfold bitsOf
  obtain ⟨k, rfl⟩ := Nat.exists_eq_add_of_le h
  have e : ∀ c : Nat, (x % 2 ^ (l + w + k) + c * 2 ^ (l + w + k)) / 2 ^ l % 2 ^ w = x % 2 ^ (l + w + k) / 2 ^ l % 2 ^ w := fun c => by
    rw [show c * 2 ^ (l + w + k) = (c * 2 ^ k * 2 ^ w) * 2 ^ l by rw [Nat.pow_add, Nat.pow_add]; ring,
      Nat.add_mul_div_right _ _ (Nat.two_pow_pos _), Nat.add_mul_mod_self_right]
  rw [e]
  have hx := Nat.mod_add_div x (2 ^ (l + w + k))
  conv_rhs => rw [← hx, Nat.mul_comm (2 ^ (l + w + k)), e]

/-- A field above a replaced one. -/
theorem bitsOf_withBits_above {x lsb width v l w : Nat} (h : lsb + width ≤ l) :
    bitsOf (withBits x lsb width v) l w = bitsOf x l w := by
  rw [withBits_eq]
  unfold bitsOf
  obtain ⟨k, rfl⟩ := Nat.exists_eq_add_of_le h
  have hp := Nat.two_pow_pos (lsb + width)
  congr 1
  have e : (x % 2 ^ lsb + (v % 2 ^ width + x / 2 ^ (lsb + width) * 2 ^ width) * 2 ^ lsb) / 2 ^ (lsb + width) =
      x / 2 ^ (lsb + width) := by
    rw [show (v % 2 ^ width + x / 2 ^ (lsb + width) * 2 ^ width) * 2 ^ lsb =
      v % 2 ^ width * 2 ^ lsb + x / 2 ^ (lsb + width) * 2 ^ (lsb + width) by rw [Nat.pow_add]; ring, ← Nat.add_assoc,
      Nat.add_mul_div_right _ _ hp, Nat.div_eq_of_lt, Nat.zero_add]
    have h1 := Nat.mod_lt x (Nat.two_pow_pos lsb)
    have h2 : v % 2 ^ width + 1 ≤ 2 ^ width := Nat.mod_lt v (Nat.two_pow_pos width)
    calc x % 2 ^ lsb + v % 2 ^ width * 2 ^ lsb < 2 ^ lsb + v % 2 ^ width * 2 ^ lsb := by omega
      _ = (v % 2 ^ width + 1) * 2 ^ lsb := by ring
      _ ≤ 2 ^ width * 2 ^ lsb := Nat.mul_le_mul_right _ h2
      _ = 2 ^ (lsb + width) := by rw [Nat.pow_add]; ring
  rw [Nat.pow_add _ (lsb + width) k, ← Nat.div_div_eq_div_mul, ← Nat.div_div_eq_div_mul, e]

/-- A number with a field replaced stays within the word. -/
theorem withBits_lt {x lsb width v n : Nat} (hx : x < 2 ^ n) (h : lsb + width ≤ n) : withBits x lsb width v < 2 ^ n := by
  obtain ⟨k, rfl⟩ := Nat.exists_eq_add_of_le h
  have h1 : x / 2 ^ (lsb + width) < 2 ^ k := Nat.div_lt_of_lt_mul (by rw [← Nat.pow_add]; exact hx)
  have h2 : v % 2 ^ width + 1 ≤ 2 ^ width := Nat.mod_lt v (Nat.two_pow_pos width)
  have h3 := Nat.mod_lt x (Nat.two_pow_pos lsb)
  rw [withBits_eq]
  calc _ < 2 ^ lsb + (v % 2 ^ width + x / 2 ^ (lsb + width) * 2 ^ width) * 2 ^ lsb := by omega
    _ = (v % 2 ^ width + 1 + x / 2 ^ (lsb + width) * 2 ^ width) * 2 ^ lsb := by ring
    _ ≤ (2 ^ width + x / 2 ^ (lsb + width) * 2 ^ width) * 2 ^ lsb := Nat.mul_le_mul_right _ (by omega)
    _ = (x / 2 ^ (lsb + width) + 1) * (2 ^ width * 2 ^ lsb) := by ring
    _ ≤ 2 ^ k * (2 ^ width * 2 ^ lsb) := Nat.mul_le_mul_right _ h1
    _ = _ := by rw [Nat.pow_add, Nat.pow_add]; ring

theorem bitOf_eq_bitsOf (x n : Nat) : bitOf x n = (bitsOf x n 1 == 1) := rfl

theorem bitsOf_lt (x lsb width : Nat) : bitsOf x lsb width < 2 ^ width := Nat.mod_lt _ (Nat.two_pow_pos _)

@[simp] theorem bit_true : bit true = 1 := rfl
@[simp] theorem bit_false : bit false = 0 := rfl

end Sys2Proof
end

