-- ==== Sys2Proof/Laws/Sparse.lean ====
section
/-!
SUPPORT. Laws of sparse maps: what is written is what is read, every other key is left alone, and every operation keeps the
canonical form.
-/

namespace Sys2Proof

variable {α : Type}

/-! ### Keys -/

theorem Sparse.above_weaken {a b : Nat} {m : Sparse α} (h : Sparse.above b m = true) (hab : a ≤ b) : Sparse.above a m = true := by
  simp only [Sparse.above, List.all_eq_true, decide_eq_true_eq] at *
  intro e he
  exact lt_of_le_of_lt hab (h e he)

@[simp] theorem Sparse.above_nil (b : Nat) : Sparse.above b ([] : Sparse α) = true := rfl

theorem Sparse.above_cons {b : Nat} {e : Nat × α} {m : Sparse α} :
    Sparse.above b (e :: m) = true ↔ b < e.1 ∧ Sparse.above b m = true := by
  simp [Sparse.above]

/-- Below every listed key nothing is listed. -/
theorem Sparse.get_above (d : Nat → α) {k : Nat} : ∀ {m : Sparse α}, Sparse.above k m = true → Sparse.get d m k = d k
  | [], _ => rfl
  | (j, v) :: m, h => by
    have hj : k < j := (Sparse.above_cons.1 h).1
    simp [Sparse.get, hj, hj.ne]

/-! ### Reading after put and drop -/

/-- A put is read back, whatever the list. -/
@[simp] theorem Sparse.get_put_same (d : Nat → α) (k : Nat) (v : α) : ∀ m : Sparse α, Sparse.get d (Sparse.put k v m) k = v
  | [] => by simp [Sparse.put, Sparse.get]
  | (j, w) :: m => by
    have ih := Sparse.get_put_same d k v m
    unfold Sparse.put
    split
    · simp [Sparse.get]
    · split
      · simp [Sparse.get]
      · rename_i h1 h2
        simp only [Sparse.get]
        rw [if_neg h1, if_neg h2]
        exact ih

/-- A put leaves every other key as it was, whatever the list. -/
theorem Sparse.get_put_other (d : Nat → α) {k q : Nat} (v : α) (h : q ≠ k) :
    ∀ m : Sparse α, Sparse.get d (Sparse.put k v m) q = Sparse.get d m q
  | [] => by simp [Sparse.put, Sparse.get, h]
  | (j, w) :: m => by
    have ih := Sparse.get_put_other d v h m
    unfold Sparse.put
    split
    · rename_i h1
      have h1 : k = j := by simpa using h1
      subst h1
      simp [Sparse.get, h]
    · split
      · rename_i h1 h2
        by_cases hq : q < k
        · have : q < j := lt_trans hq h2
          simp [Sparse.get, h, hq, this, this.ne]
        · simp [Sparse.get, h, hq]
      · simp only [Sparse.get, ih]

/-- A drop leaves every other key as it was. -/
theorem Sparse.get_drop_other (d : Nat → α) {k q : Nat} (h : q ≠ k) :
    ∀ {m : Sparse α} [DecidableEq α], Sparse.wf d m = true → Sparse.get d (Sparse.drop k m) q = Sparse.get d m q
  | [], _, _ => rfl
  | (j, w) :: m, _, hw => by
    simp only [Sparse.wf, Bool.and_eq_true] at hw
    have ih := Sparse.get_drop_other d h (m := m) hw.2
    unfold Sparse.drop
    split
    · rename_i h1
      have h1 : k = j := by simpa using h1
      subst h1
      by_cases hq : q < k
      · simp [Sparse.get, h, hq, Sparse.get_above d (Sparse.above_weaken hw.1.1 hq.le)]
      · simp [Sparse.get, h, hq]
    · split
      · rfl
      · simp only [Sparse.get, ih]

/-- A dropped key reads as an unlisted one. -/
theorem Sparse.get_drop_same (d : Nat → α) {k : Nat} :
    ∀ {m : Sparse α} [DecidableEq α], Sparse.wf d m = true → Sparse.get d (Sparse.drop k m) k = d k
  | [], _, _ => rfl
  | (j, w) :: m, _, hw => by
    simp only [Sparse.wf, Bool.and_eq_true] at hw
    have ih := Sparse.get_drop_same d (k := k) (m := m) hw.2
    unfold Sparse.drop
    split
    · rename_i h1
      have h1 : k = j := by simpa using h1
      subst h1
      exact Sparse.get_above d hw.1.1
    · split
      · rename_i h1 h2
        simp only [Sparse.get]
        rw [if_neg h1, if_pos h2]
      · rename_i h1 h2
        simp only [Sparse.get]
        rw [if_neg h1, if_neg h2]
        exact ih

/-! ### Reading after set and modify -/

/-- What is written is what is read. -/
theorem Sparse.get_set_same [DecidableEq α] (d : Nat → α) {m : Sparse α} (k : Nat) (v : α) (hw : Sparse.wf d m = true) :
    Sparse.get d (Sparse.set d m k v) k = v := by
  unfold Sparse.set
  split
  · rename_i h
    rw [Sparse.get_drop_same d hw, h]
  · exact Sparse.get_put_same d k v m

/-- A write that is no default is read back, whatever the list. -/
theorem Sparse.get_set_new [DecidableEq α] (d : Nat → α) (m : Sparse α) {k : Nat} {v : α} (h : v ≠ d k) :
    Sparse.get d (Sparse.set d m k v) k = v := by
  simp [Sparse.set, h]

/-- Every other key is left alone. -/
theorem Sparse.get_set_other [DecidableEq α] (d : Nat → α) {m : Sparse α} {k q : Nat} (v : α) (hw : Sparse.wf d m = true)
    (h : q ≠ k) : Sparse.get d (Sparse.set d m k v) q = Sparse.get d m q := by
  unfold Sparse.set
  split
  · exact Sparse.get_drop_other d h hw
  · exact Sparse.get_put_other d v h m

theorem Sparse.get_set [DecidableEq α] (d : Nat → α) {m : Sparse α} (k q : Nat) (v : α) (hw : Sparse.wf d m = true) :
    Sparse.get d (Sparse.set d m k v) q = if q = k then v else Sparse.get d m q := by
  split
  · rename_i h
    subst h
    exact Sparse.get_set_same d q v hw
  · rename_i h
    exact Sparse.get_set_other d v hw h

theorem Sparse.get_modify [DecidableEq α] (d : Nat → α) {m : Sparse α} (k q : Nat) (f : α → α) (hw : Sparse.wf d m = true) :
    Sparse.get d (Sparse.modify d m k f) q = if q = k then f (Sparse.get d m k) else Sparse.get d m q :=
  Sparse.get_set d k q _ hw

/-! ### The canonical form -/

theorem Sparse.above_put {b k : Nat} {v : α} (hk : b < k) : ∀ {m : Sparse α}, Sparse.above b m = true →
    Sparse.above b (Sparse.put k v m) = true
  | [], _ => by simp [Sparse.put, Sparse.above, hk]
  | (j, w) :: m, h => by
    have h := Sparse.above_cons.1 h
    unfold Sparse.put
    split
    · exact Sparse.above_cons.2 ⟨hk, h.2⟩
    · split
      · exact Sparse.above_cons.2 ⟨hk, Sparse.above_cons.2 h⟩
      · exact Sparse.above_cons.2 ⟨h.1, Sparse.above_put hk h.2⟩

theorem Sparse.above_drop {b : Nat} (k : Nat) : ∀ {m : Sparse α}, Sparse.above b m = true → Sparse.above b (Sparse.drop k m) = true
  | [], _ => rfl
  | (j, w) :: m, h => by
    have h := Sparse.above_cons.1 h
    unfold Sparse.drop
    split
    · exact h.2
    · split
      · exact Sparse.above_cons.2 h
      · exact Sparse.above_cons.2 ⟨h.1, Sparse.above_drop k h.2⟩

theorem Sparse.wf_cons [DecidableEq α] {d : Nat → α} {e : Nat × α} {m : Sparse α} :
    Sparse.wf d (e :: m) = true ↔ Sparse.above e.1 m = true ∧ e.2 ≠ d e.1 ∧ Sparse.wf d m = true := by
  simp [Sparse.wf, and_assoc]

theorem Sparse.put_wf [DecidableEq α] {d : Nat → α} {k : Nat} {v : α} (hv : v ≠ d k) :
    ∀ {m : Sparse α}, Sparse.wf d m = true → Sparse.wf d (Sparse.put k v m) = true
  | [], _ => by simp [Sparse.put, Sparse.wf, hv]
  | (j, w) :: m, h => by
    have h := Sparse.wf_cons.1 h
    unfold Sparse.put
    split
    · rename_i h1
      have h1 : k = j := by simpa using h1
      subst h1
      exact Sparse.wf_cons.2 ⟨h.1, hv, h.2.2⟩
    · split
      · rename_i h1 h2
        exact Sparse.wf_cons.2 ⟨Sparse.above_cons.2 ⟨h2, Sparse.above_weaken h.1 h2.le⟩, hv, Sparse.wf_cons.2 h⟩
      · rename_i h1 h2
        have h1 : k ≠ j := by simpa using h1
        exact Sparse.wf_cons.2 ⟨Sparse.above_put (by simp only; omega) h.1, h.2.1, Sparse.put_wf hv h.2.2⟩

theorem Sparse.drop_wf [DecidableEq α] {d : Nat → α} (k : Nat) :
    ∀ {m : Sparse α}, Sparse.wf d m = true → Sparse.wf d (Sparse.drop k m) = true
  | [], _ => rfl
  | (j, w) :: m, h => by
    have h := Sparse.wf_cons.1 h
    unfold Sparse.drop
    split
    · exact h.2.2
    · split
      · exact Sparse.wf_cons.2 h
      · exact Sparse.wf_cons.2 ⟨Sparse.above_drop k h.1, h.2.1, Sparse.drop_wf k h.2.2⟩

/-- A write keeps the canonical form. -/
@[simp] theorem Sparse.set_wf [DecidableEq α] {d : Nat → α} {m : Sparse α} (k : Nat) (v : α) (h : Sparse.wf d m = true) :
    Sparse.wf d (Sparse.set d m k v) = true := by
  unfold Sparse.set
  split
  · exact Sparse.drop_wf k h
  · rename_i hv
    exact Sparse.put_wf hv h

@[simp] theorem Sparse.modify_wf [DecidableEq α] {d : Nat → α} {m : Sparse α} (k : Nat) (f : α → α) (h : Sparse.wf d m = true) :
    Sparse.wf d (Sparse.modify d m k f) = true := Sparse.set_wf k _ h

/-- Leaving entries out keeps the canonical form. -/
@[simp] theorem Sparse.filter_wf [DecidableEq α] {d : Nat → α} (p : Nat × α → Bool) :
    ∀ {m : Sparse α}, Sparse.wf d m = true → Sparse.wf d (m.filter p) = true
  | [], _ => rfl
  | e :: m, h => by
    have h := Sparse.wf_cons.1 h
    have hf : Sparse.above e.1 (m.filter p) = true := by
      simp only [Sparse.above, List.all_eq_true] at *
      exact fun x hx => h.1 x (List.mem_filter.1 hx).1
    rw [List.filter_cons]
    split
    · exact Sparse.wf_cons.2 ⟨hf, h.2.1, Sparse.filter_wf p h.2.2⟩
    · exact Sparse.filter_wf p h.2.2

/-- Changing values, none of them into a default, keeps the canonical form. -/
theorem Sparse.map_wf [DecidableEq α] {d : Nat → α} (f : α → α) (hf : ∀ k v, v ≠ d k → f v ≠ d k) :
    ∀ {m : Sparse α}, Sparse.wf d m = true → Sparse.wf d (m.map fun e => (e.1, f e.2)) = true
  | [], _ => rfl
  | e :: m, h => by
    have h := Sparse.wf_cons.1 h
    refine Sparse.wf_cons.2 ⟨?_, hf _ _ h.2.1, Sparse.map_wf f hf h.2.2⟩
    simp only [Sparse.above, List.all_eq_true, List.mem_map, forall_exists_index, and_imp] at *
    rintro x y hy rfl
    exact h.1 y hy

/-- Keeping some keys, none of them at its default, keeps the canonical form. -/
theorem Sparse.filterMap_wf {β : Type} [DecidableEq α] [DecidableEq β] {d : Nat → α} {b : Nat → β} (g : Nat × α → Option (Nat × β))
    (hg : ∀ e x, g e = some x → x.1 = e.1 ∧ x.2 ≠ b x.1) :
    ∀ {m : Sparse α}, Sparse.wf d m = true → Sparse.wf b (m.filterMap g) = true
  | [], _ => rfl
  | e :: m, h => by
    have h := Sparse.wf_cons.1 h
    rw [List.filterMap_cons]
    split
    · exact Sparse.filterMap_wf g hg h.2.2
    · rename_i x hx
      refine Sparse.wf_cons.2 ⟨?_, (hg e x hx).2, Sparse.filterMap_wf g hg h.2.2⟩
      simp only [Sparse.above, List.all_eq_true, List.mem_filterMap, forall_exists_index, and_imp] at *
      intro y z hz hy
      rw [(hg z y hy).1, (hg e x hx).1]
      exact h.1 z hz

/-- A map built by writes is canonical when what it starts from is. -/
theorem Sparse.foldl_wf [DecidableEq α] {d : Nat → α} {β : Type} (f : Sparse α → β → Sparse α)
    (hf : ∀ m x, Sparse.wf d m = true → Sparse.wf d (f m x) = true) :
    ∀ (xs : List β) {m : Sparse α}, Sparse.wf d m = true → Sparse.wf d (xs.foldl f m) = true
  | [], _, h => h
  | x :: xs, m, h => by
    rw [List.foldl_cons]
    exact Sparse.foldl_wf f hf xs (hf m x h)

/-- Leaving entries out by their key: a key kept reads as before, a key left out as an unlisted one. -/
theorem Sparse.get_filter [DecidableEq α] (d : Nat → α) (p : Nat → Bool) (k : Nat) :
    ∀ {m : Sparse α}, Sparse.wf d m = true →
      Sparse.get d (m.filter fun e => p e.1) k = if p k = true then Sparse.get d m k else d k
  | [], _ => by simp [Sparse.get]
  | (j, v) :: m, h => by
    have h := Sparse.wf_cons.1 h
    have ih := Sparse.get_filter d p k h.2.2
    rw [List.filter_cons]
    by_cases hk : k = j
    · subst hk
      by_cases hp : p k = true
      · simp [hp, Sparse.get]
      · simp only [hp, Bool.false_eq_true, if_false]
        rw [ih]
        simp [hp]
    · by_cases hp : p j = true
      · by_cases hlt : k < j
        · simp [hp, Sparse.get, hk, hlt]
        · simp [hp, Sparse.get, hk, hlt, ih]
      · simp only [hp, Bool.false_eq_true, if_false]
        rw [ih]
        by_cases hlt : k < j
        · simp [Sparse.get, hk, hlt, Sparse.get_above d (Sparse.above_weaken h.1 hlt.le)]
        · simp [Sparse.get, hk, hlt]

@[simp] theorem Sparse.wf_nil {α : Type} [DecidableEq α] (d : Nat → α) : Sparse.wf d [] = true := rfl

end Sys2Proof
end

