-- ==== Sys2Proof/Laws/State.lean ====
section
/-!
SUPPORT. What each named update of the state leaves alone, one lemma per field and update, and what it writes.
-/

namespace Sys2Proof.Machine

/-! ### Fields an update leaves alone -/

@[simp] theorem State.setWord_pending (s : State) (id : Nat) (w : Word) : (s.setWord id w).pending = s.pending := rfl
@[simp] theorem State.setWord_loc (s : State) (id : Nat) (w : Word) : (s.setWord id w).loc = s.loc := rfl
@[simp] theorem State.setWord_free (s : State) (id : Nat) (w : Word) : (s.setWord id w).free = s.free := rfl
@[simp] theorem State.setWord_mem (s : State) (id : Nat) (w : Word) : (s.setWord id w).mem = s.mem := rfl
@[simp] theorem State.setWord_pos (s : State) (id : Nat) (w : Word) : (s.setWord id w).pos = s.pos := rfl
@[simp] theorem State.setWord_time (s : State) (id : Nat) (w : Word) : (s.setWord id w).time = s.time := rfl
@[simp] theorem State.setWord_head (s : State) (id : Nat) (w : Word) : (s.setWord id w).head = s.head := rfl
@[simp] theorem State.setWord_rtr (s : State) (id : Nat) (w : Word) : (s.setWord id w).rtr = s.rtr := rfl
@[simp] theorem State.setWord_fab (s : State) (id : Nat) (w : Word) : (s.setWord id w).fab = s.fab := rfl
@[simp] theorem State.setWord_trk (s : State) (id : Nat) (w : Word) : (s.setWord id w).trk = s.trk := rfl
@[simp] theorem State.setWord_obj (s : State) (id : Nat) (w : Word) : (s.setWord id w).obj = s.obj := rfl
@[simp] theorem State.setWord_tail (s : State) (id : Nat) (w : Word) : (s.setWord id w).tail = s.tail := rfl
@[simp] theorem State.setWord_aux (s : State) (id : Nat) (w : Word) : (s.setWord id w).aux = s.aux := rfl
@[simp] theorem State.setWord_mclk (s : State) (id : Nat) (w : Word) : (s.setWord id w).mclk = s.mclk := rfl
@[simp] theorem State.setWord_spoke (s : State) (id : Nat) (w : Word) : (s.setWord id w).spoke = s.spoke := rfl
@[simp] theorem State.setWord_host (s : State) (id : Nat) (w : Word) : (s.setWord id w).host = s.host := rfl
@[simp] theorem State.setWord_planes (s : State) (id : Nat) (w : Word) : (s.setWord id w).planes = s.planes := rfl
@[simp] theorem State.setWord_que (s : State) (id : Nat) (w : Word) : (s.setWord id w).que = s.que := rfl
@[simp] theorem State.setWord_cv (s : State) (id : Nat) (w : Word) : (s.setWord id w).cv = s.cv := rfl
@[simp] theorem State.setWord_cmd (s : State) (id : Nat) (w : Word) : (s.setWord id w).cmd = s.cmd := rfl
@[simp] theorem State.setWord_armed (s : State) (id : Nat) (w : Word) : (s.setWord id w).armed = s.armed := rfl
@[simp] theorem State.setWord_reports (s : State) (id : Nat) (w : Word) : (s.setWord id w).reports = s.reports := rfl
@[simp] theorem State.setWord_regions (s : State) (id : Nat) (w : Word) : (s.setWord id w).regions = s.regions := rfl
@[simp] theorem State.setWord_hubFails (s : State) (id : Nat) (w : Word) : (s.setWord id w).hubFails = s.hubFails := rfl
@[simp] theorem State.setWord_mgmt (s : State) (id : Nat) (w : Word) : (s.setWord id w).mgmt = s.mgmt := rfl
@[simp] theorem State.setWord_chain (s : State) (id : Nat) (w : Word) : (s.setWord id w).chain = s.chain := rfl
@[simp] theorem State.setWord_lastWord (s : State) (id : Nat) (w : Word) : (s.setWord id w).lastWord = s.lastWord := rfl
@[simp] theorem State.setWord_lastStatus (s : State) (id : Nat) (w : Word) : (s.setWord id w).lastStatus = s.lastStatus := rfl

@[simp] theorem State.setFld_pending (s : State) (id lsb width v : Nat) : (s.setFld id lsb width v).pending = s.pending := rfl
@[simp] theorem State.setFld_loc (s : State) (id lsb width v : Nat) : (s.setFld id lsb width v).loc = s.loc := rfl
@[simp] theorem State.setFld_free (s : State) (id lsb width v : Nat) : (s.setFld id lsb width v).free = s.free := rfl
@[simp] theorem State.setFld_mem (s : State) (id lsb width v : Nat) : (s.setFld id lsb width v).mem = s.mem := rfl
@[simp] theorem State.setFld_pos (s : State) (id lsb width v : Nat) : (s.setFld id lsb width v).pos = s.pos := rfl
@[simp] theorem State.setFld_time (s : State) (id lsb width v : Nat) : (s.setFld id lsb width v).time = s.time := rfl
@[simp] theorem State.setFld_head (s : State) (id lsb width v : Nat) : (s.setFld id lsb width v).head = s.head := rfl
@[simp] theorem State.setFld_rtr (s : State) (id lsb width v : Nat) : (s.setFld id lsb width v).rtr = s.rtr := rfl
@[simp] theorem State.setFld_fab (s : State) (id lsb width v : Nat) : (s.setFld id lsb width v).fab = s.fab := rfl
@[simp] theorem State.setFld_trk (s : State) (id lsb width v : Nat) : (s.setFld id lsb width v).trk = s.trk := rfl
@[simp] theorem State.setFld_obj (s : State) (id lsb width v : Nat) : (s.setFld id lsb width v).obj = s.obj := rfl
@[simp] theorem State.setFld_tail (s : State) (id lsb width v : Nat) : (s.setFld id lsb width v).tail = s.tail := rfl
@[simp] theorem State.setFld_aux (s : State) (id lsb width v : Nat) : (s.setFld id lsb width v).aux = s.aux := rfl
@[simp] theorem State.setFld_mclk (s : State) (id lsb width v : Nat) : (s.setFld id lsb width v).mclk = s.mclk := rfl
@[simp] theorem State.setFld_spoke (s : State) (id lsb width v : Nat) : (s.setFld id lsb width v).spoke = s.spoke := rfl
@[simp] theorem State.setFld_host (s : State) (id lsb width v : Nat) : (s.setFld id lsb width v).host = s.host := rfl
@[simp] theorem State.setFld_planes (s : State) (id lsb width v : Nat) : (s.setFld id lsb width v).planes = s.planes := rfl
@[simp] theorem State.setFld_que (s : State) (id lsb width v : Nat) : (s.setFld id lsb width v).que = s.que := rfl
@[simp] theorem State.setFld_cv (s : State) (id lsb width v : Nat) : (s.setFld id lsb width v).cv = s.cv := rfl
@[simp] theorem State.setFld_cmd (s : State) (id lsb width v : Nat) : (s.setFld id lsb width v).cmd = s.cmd := rfl
@[simp] theorem State.setFld_armed (s : State) (id lsb width v : Nat) : (s.setFld id lsb width v).armed = s.armed := rfl
@[simp] theorem State.setFld_reports (s : State) (id lsb width v : Nat) : (s.setFld id lsb width v).reports = s.reports := rfl
@[simp] theorem State.setFld_regions (s : State) (id lsb width v : Nat) : (s.setFld id lsb width v).regions = s.regions := rfl
@[simp] theorem State.setFld_hubFails (s : State) (id lsb width v : Nat) : (s.setFld id lsb width v).hubFails = s.hubFails := rfl
@[simp] theorem State.setFld_mgmt (s : State) (id lsb width v : Nat) : (s.setFld id lsb width v).mgmt = s.mgmt := rfl
@[simp] theorem State.setFld_chain (s : State) (id lsb width v : Nat) : (s.setFld id lsb width v).chain = s.chain := rfl
@[simp] theorem State.setFld_lastWord (s : State) (id lsb width v : Nat) : (s.setFld id lsb width v).lastWord = s.lastWord := rfl
@[simp] theorem State.setFld_lastStatus (s : State) (id lsb width v : Nat) : (s.setFld id lsb width v).lastStatus = s.lastStatus := rfl

@[simp] theorem State.flag_pending (s : State) (id n : Nat) : (s.flag id n).pending = s.pending := rfl
@[simp] theorem State.flag_loc (s : State) (id n : Nat) : (s.flag id n).loc = s.loc := rfl
@[simp] theorem State.flag_free (s : State) (id n : Nat) : (s.flag id n).free = s.free := rfl
@[simp] theorem State.flag_mem (s : State) (id n : Nat) : (s.flag id n).mem = s.mem := rfl
@[simp] theorem State.flag_pos (s : State) (id n : Nat) : (s.flag id n).pos = s.pos := rfl
@[simp] theorem State.flag_time (s : State) (id n : Nat) : (s.flag id n).time = s.time := rfl
@[simp] theorem State.flag_head (s : State) (id n : Nat) : (s.flag id n).head = s.head := rfl
@[simp] theorem State.flag_rtr (s : State) (id n : Nat) : (s.flag id n).rtr = s.rtr := rfl
@[simp] theorem State.flag_fab (s : State) (id n : Nat) : (s.flag id n).fab = s.fab := rfl
@[simp] theorem State.flag_trk (s : State) (id n : Nat) : (s.flag id n).trk = s.trk := rfl
@[simp] theorem State.flag_obj (s : State) (id n : Nat) : (s.flag id n).obj = s.obj := rfl
@[simp] theorem State.flag_tail (s : State) (id n : Nat) : (s.flag id n).tail = s.tail := rfl
@[simp] theorem State.flag_aux (s : State) (id n : Nat) : (s.flag id n).aux = s.aux := rfl
@[simp] theorem State.flag_mclk (s : State) (id n : Nat) : (s.flag id n).mclk = s.mclk := rfl
@[simp] theorem State.flag_spoke (s : State) (id n : Nat) : (s.flag id n).spoke = s.spoke := rfl
@[simp] theorem State.flag_host (s : State) (id n : Nat) : (s.flag id n).host = s.host := rfl
@[simp] theorem State.flag_planes (s : State) (id n : Nat) : (s.flag id n).planes = s.planes := rfl
@[simp] theorem State.flag_que (s : State) (id n : Nat) : (s.flag id n).que = s.que := rfl
@[simp] theorem State.flag_cv (s : State) (id n : Nat) : (s.flag id n).cv = s.cv := rfl
@[simp] theorem State.flag_cmd (s : State) (id n : Nat) : (s.flag id n).cmd = s.cmd := rfl
@[simp] theorem State.flag_armed (s : State) (id n : Nat) : (s.flag id n).armed = s.armed := rfl
@[simp] theorem State.flag_reports (s : State) (id n : Nat) : (s.flag id n).reports = s.reports := rfl
@[simp] theorem State.flag_regions (s : State) (id n : Nat) : (s.flag id n).regions = s.regions := rfl
@[simp] theorem State.flag_hubFails (s : State) (id n : Nat) : (s.flag id n).hubFails = s.hubFails := rfl
@[simp] theorem State.flag_mgmt (s : State) (id n : Nat) : (s.flag id n).mgmt = s.mgmt := rfl
@[simp] theorem State.flag_chain (s : State) (id n : Nat) : (s.flag id n).chain = s.chain := rfl
@[simp] theorem State.flag_lastWord (s : State) (id n : Nat) : (s.flag id n).lastWord = s.lastWord := rfl
@[simp] theorem State.flag_lastStatus (s : State) (id n : Nat) : (s.flag id n).lastStatus = s.lastStatus := rfl

@[simp] theorem State.flagIf_pending (s : State) (c : Bool) (id n : Nat) : (s.flagIf c id n).pending = s.pending := by unfold State.flagIf; split <;> rfl
@[simp] theorem State.flagIf_loc (s : State) (c : Bool) (id n : Nat) : (s.flagIf c id n).loc = s.loc := by unfold State.flagIf; split <;> rfl
@[simp] theorem State.flagIf_free (s : State) (c : Bool) (id n : Nat) : (s.flagIf c id n).free = s.free := by unfold State.flagIf; split <;> rfl
@[simp] theorem State.flagIf_mem (s : State) (c : Bool) (id n : Nat) : (s.flagIf c id n).mem = s.mem := by unfold State.flagIf; split <;> rfl
@[simp] theorem State.flagIf_pos (s : State) (c : Bool) (id n : Nat) : (s.flagIf c id n).pos = s.pos := by unfold State.flagIf; split <;> rfl
@[simp] theorem State.flagIf_time (s : State) (c : Bool) (id n : Nat) : (s.flagIf c id n).time = s.time := by unfold State.flagIf; split <;> rfl
@[simp] theorem State.flagIf_head (s : State) (c : Bool) (id n : Nat) : (s.flagIf c id n).head = s.head := by unfold State.flagIf; split <;> rfl
@[simp] theorem State.flagIf_rtr (s : State) (c : Bool) (id n : Nat) : (s.flagIf c id n).rtr = s.rtr := by unfold State.flagIf; split <;> rfl
@[simp] theorem State.flagIf_fab (s : State) (c : Bool) (id n : Nat) : (s.flagIf c id n).fab = s.fab := by unfold State.flagIf; split <;> rfl
@[simp] theorem State.flagIf_trk (s : State) (c : Bool) (id n : Nat) : (s.flagIf c id n).trk = s.trk := by unfold State.flagIf; split <;> rfl
@[simp] theorem State.flagIf_obj (s : State) (c : Bool) (id n : Nat) : (s.flagIf c id n).obj = s.obj := by unfold State.flagIf; split <;> rfl
@[simp] theorem State.flagIf_tail (s : State) (c : Bool) (id n : Nat) : (s.flagIf c id n).tail = s.tail := by unfold State.flagIf; split <;> rfl
@[simp] theorem State.flagIf_aux (s : State) (c : Bool) (id n : Nat) : (s.flagIf c id n).aux = s.aux := by unfold State.flagIf; split <;> rfl
@[simp] theorem State.flagIf_mclk (s : State) (c : Bool) (id n : Nat) : (s.flagIf c id n).mclk = s.mclk := by unfold State.flagIf; split <;> rfl
@[simp] theorem State.flagIf_spoke (s : State) (c : Bool) (id n : Nat) : (s.flagIf c id n).spoke = s.spoke := by unfold State.flagIf; split <;> rfl
@[simp] theorem State.flagIf_host (s : State) (c : Bool) (id n : Nat) : (s.flagIf c id n).host = s.host := by unfold State.flagIf; split <;> rfl
@[simp] theorem State.flagIf_planes (s : State) (c : Bool) (id n : Nat) : (s.flagIf c id n).planes = s.planes := by unfold State.flagIf; split <;> rfl
@[simp] theorem State.flagIf_que (s : State) (c : Bool) (id n : Nat) : (s.flagIf c id n).que = s.que := by unfold State.flagIf; split <;> rfl
@[simp] theorem State.flagIf_cv (s : State) (c : Bool) (id n : Nat) : (s.flagIf c id n).cv = s.cv := by unfold State.flagIf; split <;> rfl
@[simp] theorem State.flagIf_cmd (s : State) (c : Bool) (id n : Nat) : (s.flagIf c id n).cmd = s.cmd := by unfold State.flagIf; split <;> rfl
@[simp] theorem State.flagIf_armed (s : State) (c : Bool) (id n : Nat) : (s.flagIf c id n).armed = s.armed := by unfold State.flagIf; split <;> rfl
@[simp] theorem State.flagIf_reports (s : State) (c : Bool) (id n : Nat) : (s.flagIf c id n).reports = s.reports := by unfold State.flagIf; split <;> rfl
@[simp] theorem State.flagIf_regions (s : State) (c : Bool) (id n : Nat) : (s.flagIf c id n).regions = s.regions := by unfold State.flagIf; split <;> rfl
@[simp] theorem State.flagIf_hubFails (s : State) (c : Bool) (id n : Nat) : (s.flagIf c id n).hubFails = s.hubFails := by unfold State.flagIf; split <;> rfl
@[simp] theorem State.flagIf_mgmt (s : State) (c : Bool) (id n : Nat) : (s.flagIf c id n).mgmt = s.mgmt := by unfold State.flagIf; split <;> rfl
@[simp] theorem State.flagIf_chain (s : State) (c : Bool) (id n : Nat) : (s.flagIf c id n).chain = s.chain := by unfold State.flagIf; split <;> rfl
@[simp] theorem State.flagIf_lastWord (s : State) (c : Bool) (id n : Nat) : (s.flagIf c id n).lastWord = s.lastWord := by unfold State.flagIf; split <;> rfl
@[simp] theorem State.flagIf_lastStatus (s : State) (c : Bool) (id n : Nat) : (s.flagIf c id n).lastStatus = s.lastStatus := by unfold State.flagIf; split <;> rfl

@[simp] theorem State.bump_pending (s : State) (id : Nat) (n : Nat) : (s.bump id n).pending = s.pending := by unfold State.bump; split <;> rfl
@[simp] theorem State.bump_loc (s : State) (id : Nat) (n : Nat) : (s.bump id n).loc = s.loc := by unfold State.bump; split <;> rfl
@[simp] theorem State.bump_free (s : State) (id : Nat) (n : Nat) : (s.bump id n).free = s.free := by unfold State.bump; split <;> rfl
@[simp] theorem State.bump_mem (s : State) (id : Nat) (n : Nat) : (s.bump id n).mem = s.mem := by unfold State.bump; split <;> rfl
@[simp] theorem State.bump_pos (s : State) (id : Nat) (n : Nat) : (s.bump id n).pos = s.pos := by unfold State.bump; split <;> rfl
@[simp] theorem State.bump_time (s : State) (id : Nat) (n : Nat) : (s.bump id n).time = s.time := by unfold State.bump; split <;> rfl
@[simp] theorem State.bump_head (s : State) (id : Nat) (n : Nat) : (s.bump id n).head = s.head := by unfold State.bump; split <;> rfl
@[simp] theorem State.bump_rtr (s : State) (id : Nat) (n : Nat) : (s.bump id n).rtr = s.rtr := by unfold State.bump; split <;> rfl
@[simp] theorem State.bump_fab (s : State) (id : Nat) (n : Nat) : (s.bump id n).fab = s.fab := by unfold State.bump; split <;> rfl
@[simp] theorem State.bump_trk (s : State) (id : Nat) (n : Nat) : (s.bump id n).trk = s.trk := by unfold State.bump; split <;> rfl
@[simp] theorem State.bump_obj (s : State) (id : Nat) (n : Nat) : (s.bump id n).obj = s.obj := by unfold State.bump; split <;> rfl
@[simp] theorem State.bump_tail (s : State) (id : Nat) (n : Nat) : (s.bump id n).tail = s.tail := by unfold State.bump; split <;> rfl
@[simp] theorem State.bump_aux (s : State) (id : Nat) (n : Nat) : (s.bump id n).aux = s.aux := by unfold State.bump; split <;> rfl
@[simp] theorem State.bump_mclk (s : State) (id : Nat) (n : Nat) : (s.bump id n).mclk = s.mclk := by unfold State.bump; split <;> rfl
@[simp] theorem State.bump_spoke (s : State) (id : Nat) (n : Nat) : (s.bump id n).spoke = s.spoke := by unfold State.bump; split <;> rfl
@[simp] theorem State.bump_host (s : State) (id : Nat) (n : Nat) : (s.bump id n).host = s.host := by unfold State.bump; split <;> rfl
@[simp] theorem State.bump_planes (s : State) (id : Nat) (n : Nat) : (s.bump id n).planes = s.planes := by unfold State.bump; split <;> rfl
@[simp] theorem State.bump_que (s : State) (id : Nat) (n : Nat) : (s.bump id n).que = s.que := by unfold State.bump; split <;> rfl
@[simp] theorem State.bump_cv (s : State) (id : Nat) (n : Nat) : (s.bump id n).cv = s.cv := by unfold State.bump; split <;> rfl
@[simp] theorem State.bump_cmd (s : State) (id : Nat) (n : Nat) : (s.bump id n).cmd = s.cmd := by unfold State.bump; split <;> rfl
@[simp] theorem State.bump_armed (s : State) (id : Nat) (n : Nat) : (s.bump id n).armed = s.armed := by unfold State.bump; split <;> rfl
@[simp] theorem State.bump_reports (s : State) (id : Nat) (n : Nat) : (s.bump id n).reports = s.reports := by unfold State.bump; split <;> rfl
@[simp] theorem State.bump_regions (s : State) (id : Nat) (n : Nat) : (s.bump id n).regions = s.regions := by unfold State.bump; split <;> rfl
@[simp] theorem State.bump_hubFails (s : State) (id : Nat) (n : Nat) : (s.bump id n).hubFails = s.hubFails := by unfold State.bump; split <;> rfl
@[simp] theorem State.bump_mgmt (s : State) (id : Nat) (n : Nat) : (s.bump id n).mgmt = s.mgmt := by unfold State.bump; split <;> rfl
@[simp] theorem State.bump_chain (s : State) (id : Nat) (n : Nat) : (s.bump id n).chain = s.chain := by unfold State.bump; split <;> rfl
@[simp] theorem State.bump_lastWord (s : State) (id : Nat) (n : Nat) : (s.bump id n).lastWord = s.lastWord := by unfold State.bump; split <;> rfl
@[simp] theorem State.bump_lastStatus (s : State) (id : Nat) (n : Nat) : (s.bump id n).lastStatus = s.lastStatus := by unfold State.bump; split <;> rfl

@[simp] theorem State.bumpIf_pending (s : State) (c : Bool) (id : Nat) : (s.bumpIf c id).pending = s.pending := by unfold State.bumpIf State.bump; (repeat' split) <;> rfl
@[simp] theorem State.bumpIf_loc (s : State) (c : Bool) (id : Nat) : (s.bumpIf c id).loc = s.loc := by unfold State.bumpIf State.bump; (repeat' split) <;> rfl
@[simp] theorem State.bumpIf_free (s : State) (c : Bool) (id : Nat) : (s.bumpIf c id).free = s.free := by unfold State.bumpIf State.bump; (repeat' split) <;> rfl
@[simp] theorem State.bumpIf_mem (s : State) (c : Bool) (id : Nat) : (s.bumpIf c id).mem = s.mem := by unfold State.bumpIf State.bump; (repeat' split) <;> rfl
@[simp] theorem State.bumpIf_pos (s : State) (c : Bool) (id : Nat) : (s.bumpIf c id).pos = s.pos := by unfold State.bumpIf State.bump; (repeat' split) <;> rfl
@[simp] theorem State.bumpIf_time (s : State) (c : Bool) (id : Nat) : (s.bumpIf c id).time = s.time := by unfold State.bumpIf State.bump; (repeat' split) <;> rfl
@[simp] theorem State.bumpIf_head (s : State) (c : Bool) (id : Nat) : (s.bumpIf c id).head = s.head := by unfold State.bumpIf State.bump; (repeat' split) <;> rfl
@[simp] theorem State.bumpIf_rtr (s : State) (c : Bool) (id : Nat) : (s.bumpIf c id).rtr = s.rtr := by unfold State.bumpIf State.bump; (repeat' split) <;> rfl
@[simp] theorem State.bumpIf_fab (s : State) (c : Bool) (id : Nat) : (s.bumpIf c id).fab = s.fab := by unfold State.bumpIf State.bump; (repeat' split) <;> rfl
@[simp] theorem State.bumpIf_trk (s : State) (c : Bool) (id : Nat) : (s.bumpIf c id).trk = s.trk := by unfold State.bumpIf State.bump; (repeat' split) <;> rfl
@[simp] theorem State.bumpIf_obj (s : State) (c : Bool) (id : Nat) : (s.bumpIf c id).obj = s.obj := by unfold State.bumpIf State.bump; (repeat' split) <;> rfl
@[simp] theorem State.bumpIf_tail (s : State) (c : Bool) (id : Nat) : (s.bumpIf c id).tail = s.tail := by unfold State.bumpIf State.bump; (repeat' split) <;> rfl
@[simp] theorem State.bumpIf_aux (s : State) (c : Bool) (id : Nat) : (s.bumpIf c id).aux = s.aux := by unfold State.bumpIf State.bump; (repeat' split) <;> rfl
@[simp] theorem State.bumpIf_mclk (s : State) (c : Bool) (id : Nat) : (s.bumpIf c id).mclk = s.mclk := by unfold State.bumpIf State.bump; (repeat' split) <;> rfl
@[simp] theorem State.bumpIf_spoke (s : State) (c : Bool) (id : Nat) : (s.bumpIf c id).spoke = s.spoke := by unfold State.bumpIf State.bump; (repeat' split) <;> rfl
@[simp] theorem State.bumpIf_host (s : State) (c : Bool) (id : Nat) : (s.bumpIf c id).host = s.host := by unfold State.bumpIf State.bump; (repeat' split) <;> rfl
@[simp] theorem State.bumpIf_planes (s : State) (c : Bool) (id : Nat) : (s.bumpIf c id).planes = s.planes := by unfold State.bumpIf State.bump; (repeat' split) <;> rfl
@[simp] theorem State.bumpIf_que (s : State) (c : Bool) (id : Nat) : (s.bumpIf c id).que = s.que := by unfold State.bumpIf State.bump; (repeat' split) <;> rfl
@[simp] theorem State.bumpIf_cv (s : State) (c : Bool) (id : Nat) : (s.bumpIf c id).cv = s.cv := by unfold State.bumpIf State.bump; (repeat' split) <;> rfl
@[simp] theorem State.bumpIf_cmd (s : State) (c : Bool) (id : Nat) : (s.bumpIf c id).cmd = s.cmd := by unfold State.bumpIf State.bump; (repeat' split) <;> rfl
@[simp] theorem State.bumpIf_armed (s : State) (c : Bool) (id : Nat) : (s.bumpIf c id).armed = s.armed := by unfold State.bumpIf State.bump; (repeat' split) <;> rfl
@[simp] theorem State.bumpIf_reports (s : State) (c : Bool) (id : Nat) : (s.bumpIf c id).reports = s.reports := by unfold State.bumpIf State.bump; (repeat' split) <;> rfl
@[simp] theorem State.bumpIf_regions (s : State) (c : Bool) (id : Nat) : (s.bumpIf c id).regions = s.regions := by unfold State.bumpIf State.bump; (repeat' split) <;> rfl
@[simp] theorem State.bumpIf_hubFails (s : State) (c : Bool) (id : Nat) : (s.bumpIf c id).hubFails = s.hubFails := by unfold State.bumpIf State.bump; (repeat' split) <;> rfl
@[simp] theorem State.bumpIf_mgmt (s : State) (c : Bool) (id : Nat) : (s.bumpIf c id).mgmt = s.mgmt := by unfold State.bumpIf State.bump; (repeat' split) <;> rfl
@[simp] theorem State.bumpIf_chain (s : State) (c : Bool) (id : Nat) : (s.bumpIf c id).chain = s.chain := by unfold State.bumpIf State.bump; (repeat' split) <;> rfl
@[simp] theorem State.bumpIf_lastWord (s : State) (c : Bool) (id : Nat) : (s.bumpIf c id).lastWord = s.lastWord := by unfold State.bumpIf State.bump; (repeat' split) <;> rfl
@[simp] theorem State.bumpIf_lastStatus (s : State) (c : Bool) (id : Nat) : (s.bumpIf c id).lastStatus = s.lastStatus := by unfold State.bumpIf State.bump; (repeat' split) <;> rfl

@[simp] theorem State.writeByte_pending (s : State) (a : Nat) (b : Byte) : (s.writeByte a b).pending = s.pending := rfl
@[simp] theorem State.writeByte_loc (s : State) (a : Nat) (b : Byte) : (s.writeByte a b).loc = s.loc := rfl
@[simp] theorem State.writeByte_free (s : State) (a : Nat) (b : Byte) : (s.writeByte a b).free = s.free := rfl
@[simp] theorem State.writeByte_regs (s : State) (a : Nat) (b : Byte) : (s.writeByte a b).regs = s.regs := rfl
@[simp] theorem State.writeByte_pos (s : State) (a : Nat) (b : Byte) : (s.writeByte a b).pos = s.pos := rfl
@[simp] theorem State.writeByte_time (s : State) (a : Nat) (b : Byte) : (s.writeByte a b).time = s.time := rfl
@[simp] theorem State.writeByte_head (s : State) (a : Nat) (b : Byte) : (s.writeByte a b).head = s.head := rfl
@[simp] theorem State.writeByte_rtr (s : State) (a : Nat) (b : Byte) : (s.writeByte a b).rtr = s.rtr := rfl
@[simp] theorem State.writeByte_fab (s : State) (a : Nat) (b : Byte) : (s.writeByte a b).fab = s.fab := rfl
@[simp] theorem State.writeByte_trk (s : State) (a : Nat) (b : Byte) : (s.writeByte a b).trk = s.trk := rfl
@[simp] theorem State.writeByte_obj (s : State) (a : Nat) (b : Byte) : (s.writeByte a b).obj = s.obj := rfl
@[simp] theorem State.writeByte_tail (s : State) (a : Nat) (b : Byte) : (s.writeByte a b).tail = s.tail := rfl
@[simp] theorem State.writeByte_aux (s : State) (a : Nat) (b : Byte) : (s.writeByte a b).aux = s.aux := rfl
@[simp] theorem State.writeByte_mclk (s : State) (a : Nat) (b : Byte) : (s.writeByte a b).mclk = s.mclk := rfl
@[simp] theorem State.writeByte_spoke (s : State) (a : Nat) (b : Byte) : (s.writeByte a b).spoke = s.spoke := rfl
@[simp] theorem State.writeByte_host (s : State) (a : Nat) (b : Byte) : (s.writeByte a b).host = s.host := rfl
@[simp] theorem State.writeByte_planes (s : State) (a : Nat) (b : Byte) : (s.writeByte a b).planes = s.planes := rfl
@[simp] theorem State.writeByte_que (s : State) (a : Nat) (b : Byte) : (s.writeByte a b).que = s.que := rfl
@[simp] theorem State.writeByte_cv (s : State) (a : Nat) (b : Byte) : (s.writeByte a b).cv = s.cv := rfl
@[simp] theorem State.writeByte_cmd (s : State) (a : Nat) (b : Byte) : (s.writeByte a b).cmd = s.cmd := rfl
@[simp] theorem State.writeByte_armed (s : State) (a : Nat) (b : Byte) : (s.writeByte a b).armed = s.armed := rfl
@[simp] theorem State.writeByte_reports (s : State) (a : Nat) (b : Byte) : (s.writeByte a b).reports = s.reports := rfl
@[simp] theorem State.writeByte_regions (s : State) (a : Nat) (b : Byte) : (s.writeByte a b).regions = s.regions := rfl
@[simp] theorem State.writeByte_hubFails (s : State) (a : Nat) (b : Byte) : (s.writeByte a b).hubFails = s.hubFails := rfl
@[simp] theorem State.writeByte_mgmt (s : State) (a : Nat) (b : Byte) : (s.writeByte a b).mgmt = s.mgmt := rfl
@[simp] theorem State.writeByte_chain (s : State) (a : Nat) (b : Byte) : (s.writeByte a b).chain = s.chain := rfl
@[simp] theorem State.writeByte_lastWord (s : State) (a : Nat) (b : Byte) : (s.writeByte a b).lastWord = s.lastWord := rfl
@[simp] theorem State.writeByte_lastStatus (s : State) (a : Nat) (b : Byte) : (s.writeByte a b).lastStatus = s.lastStatus := rfl

@[simp] theorem State.onPort_pending (s : State) (p : Nat) (f : HeadPort → HeadPort) : (s.onPort p f).pending = s.pending := rfl
@[simp] theorem State.onPort_loc (s : State) (p : Nat) (f : HeadPort → HeadPort) : (s.onPort p f).loc = s.loc := rfl
@[simp] theorem State.onPort_free (s : State) (p : Nat) (f : HeadPort → HeadPort) : (s.onPort p f).free = s.free := rfl
@[simp] theorem State.onPort_regs (s : State) (p : Nat) (f : HeadPort → HeadPort) : (s.onPort p f).regs = s.regs := rfl
@[simp] theorem State.onPort_mem (s : State) (p : Nat) (f : HeadPort → HeadPort) : (s.onPort p f).mem = s.mem := rfl
@[simp] theorem State.onPort_pos (s : State) (p : Nat) (f : HeadPort → HeadPort) : (s.onPort p f).pos = s.pos := rfl
@[simp] theorem State.onPort_time (s : State) (p : Nat) (f : HeadPort → HeadPort) : (s.onPort p f).time = s.time := rfl
@[simp] theorem State.onPort_rtr (s : State) (p : Nat) (f : HeadPort → HeadPort) : (s.onPort p f).rtr = s.rtr := rfl
@[simp] theorem State.onPort_fab (s : State) (p : Nat) (f : HeadPort → HeadPort) : (s.onPort p f).fab = s.fab := rfl
@[simp] theorem State.onPort_trk (s : State) (p : Nat) (f : HeadPort → HeadPort) : (s.onPort p f).trk = s.trk := rfl
@[simp] theorem State.onPort_obj (s : State) (p : Nat) (f : HeadPort → HeadPort) : (s.onPort p f).obj = s.obj := rfl
@[simp] theorem State.onPort_tail (s : State) (p : Nat) (f : HeadPort → HeadPort) : (s.onPort p f).tail = s.tail := rfl
@[simp] theorem State.onPort_aux (s : State) (p : Nat) (f : HeadPort → HeadPort) : (s.onPort p f).aux = s.aux := rfl
@[simp] theorem State.onPort_mclk (s : State) (p : Nat) (f : HeadPort → HeadPort) : (s.onPort p f).mclk = s.mclk := rfl
@[simp] theorem State.onPort_spoke (s : State) (p : Nat) (f : HeadPort → HeadPort) : (s.onPort p f).spoke = s.spoke := rfl
@[simp] theorem State.onPort_host (s : State) (p : Nat) (f : HeadPort → HeadPort) : (s.onPort p f).host = s.host := rfl
@[simp] theorem State.onPort_planes (s : State) (p : Nat) (f : HeadPort → HeadPort) : (s.onPort p f).planes = s.planes := rfl
@[simp] theorem State.onPort_que (s : State) (p : Nat) (f : HeadPort → HeadPort) : (s.onPort p f).que = s.que := rfl
@[simp] theorem State.onPort_cv (s : State) (p : Nat) (f : HeadPort → HeadPort) : (s.onPort p f).cv = s.cv := rfl
@[simp] theorem State.onPort_cmd (s : State) (p : Nat) (f : HeadPort → HeadPort) : (s.onPort p f).cmd = s.cmd := rfl
@[simp] theorem State.onPort_armed (s : State) (p : Nat) (f : HeadPort → HeadPort) : (s.onPort p f).armed = s.armed := rfl
@[simp] theorem State.onPort_reports (s : State) (p : Nat) (f : HeadPort → HeadPort) : (s.onPort p f).reports = s.reports := rfl
@[simp] theorem State.onPort_regions (s : State) (p : Nat) (f : HeadPort → HeadPort) : (s.onPort p f).regions = s.regions := rfl
@[simp] theorem State.onPort_hubFails (s : State) (p : Nat) (f : HeadPort → HeadPort) : (s.onPort p f).hubFails = s.hubFails := rfl
@[simp] theorem State.onPort_mgmt (s : State) (p : Nat) (f : HeadPort → HeadPort) : (s.onPort p f).mgmt = s.mgmt := rfl
@[simp] theorem State.onPort_chain (s : State) (p : Nat) (f : HeadPort → HeadPort) : (s.onPort p f).chain = s.chain := rfl
@[simp] theorem State.onPort_lastWord (s : State) (p : Nat) (f : HeadPort → HeadPort) : (s.onPort p f).lastWord = s.lastWord := rfl
@[simp] theorem State.onPort_lastStatus (s : State) (p : Nat) (f : HeadPort → HeadPort) : (s.onPort p f).lastStatus = s.lastStatus := rfl

@[simp] theorem State.onNode_pending (s : State) (r : Nat) (f : Node → Node) : (s.onNode r f).pending = s.pending := rfl
@[simp] theorem State.onNode_loc (s : State) (r : Nat) (f : Node → Node) : (s.onNode r f).loc = s.loc := rfl
@[simp] theorem State.onNode_free (s : State) (r : Nat) (f : Node → Node) : (s.onNode r f).free = s.free := rfl
@[simp] theorem State.onNode_regs (s : State) (r : Nat) (f : Node → Node) : (s.onNode r f).regs = s.regs := rfl
@[simp] theorem State.onNode_mem (s : State) (r : Nat) (f : Node → Node) : (s.onNode r f).mem = s.mem := rfl
@[simp] theorem State.onNode_pos (s : State) (r : Nat) (f : Node → Node) : (s.onNode r f).pos = s.pos := rfl
@[simp] theorem State.onNode_time (s : State) (r : Nat) (f : Node → Node) : (s.onNode r f).time = s.time := rfl
@[simp] theorem State.onNode_head (s : State) (r : Nat) (f : Node → Node) : (s.onNode r f).head = s.head := rfl
@[simp] theorem State.onNode_fab (s : State) (r : Nat) (f : Node → Node) : (s.onNode r f).fab = s.fab := rfl
@[simp] theorem State.onNode_trk (s : State) (r : Nat) (f : Node → Node) : (s.onNode r f).trk = s.trk := rfl
@[simp] theorem State.onNode_obj (s : State) (r : Nat) (f : Node → Node) : (s.onNode r f).obj = s.obj := rfl
@[simp] theorem State.onNode_tail (s : State) (r : Nat) (f : Node → Node) : (s.onNode r f).tail = s.tail := rfl
@[simp] theorem State.onNode_aux (s : State) (r : Nat) (f : Node → Node) : (s.onNode r f).aux = s.aux := rfl
@[simp] theorem State.onNode_mclk (s : State) (r : Nat) (f : Node → Node) : (s.onNode r f).mclk = s.mclk := rfl
@[simp] theorem State.onNode_spoke (s : State) (r : Nat) (f : Node → Node) : (s.onNode r f).spoke = s.spoke := rfl
@[simp] theorem State.onNode_host (s : State) (r : Nat) (f : Node → Node) : (s.onNode r f).host = s.host := rfl
@[simp] theorem State.onNode_planes (s : State) (r : Nat) (f : Node → Node) : (s.onNode r f).planes = s.planes := rfl
@[simp] theorem State.onNode_que (s : State) (r : Nat) (f : Node → Node) : (s.onNode r f).que = s.que := rfl
@[simp] theorem State.onNode_cv (s : State) (r : Nat) (f : Node → Node) : (s.onNode r f).cv = s.cv := rfl
@[simp] theorem State.onNode_cmd (s : State) (r : Nat) (f : Node → Node) : (s.onNode r f).cmd = s.cmd := rfl
@[simp] theorem State.onNode_armed (s : State) (r : Nat) (f : Node → Node) : (s.onNode r f).armed = s.armed := rfl
@[simp] theorem State.onNode_reports (s : State) (r : Nat) (f : Node → Node) : (s.onNode r f).reports = s.reports := rfl
@[simp] theorem State.onNode_regions (s : State) (r : Nat) (f : Node → Node) : (s.onNode r f).regions = s.regions := rfl
@[simp] theorem State.onNode_hubFails (s : State) (r : Nat) (f : Node → Node) : (s.onNode r f).hubFails = s.hubFails := rfl
@[simp] theorem State.onNode_mgmt (s : State) (r : Nat) (f : Node → Node) : (s.onNode r f).mgmt = s.mgmt := rfl
@[simp] theorem State.onNode_chain (s : State) (r : Nat) (f : Node → Node) : (s.onNode r f).chain = s.chain := rfl
@[simp] theorem State.onNode_lastWord (s : State) (r : Nat) (f : Node → Node) : (s.onNode r f).lastWord = s.lastWord := rfl
@[simp] theorem State.onNode_lastStatus (s : State) (r : Nat) (f : Node → Node) : (s.onNode r f).lastStatus = s.lastStatus := rfl

@[simp] theorem State.onBlock_pending (s : State) (b : Nat) (f : Block → Block) : (s.onBlock b f).pending = s.pending := rfl
@[simp] theorem State.onBlock_loc (s : State) (b : Nat) (f : Block → Block) : (s.onBlock b f).loc = s.loc := rfl
@[simp] theorem State.onBlock_free (s : State) (b : Nat) (f : Block → Block) : (s.onBlock b f).free = s.free := rfl
@[simp] theorem State.onBlock_regs (s : State) (b : Nat) (f : Block → Block) : (s.onBlock b f).regs = s.regs := rfl
@[simp] theorem State.onBlock_mem (s : State) (b : Nat) (f : Block → Block) : (s.onBlock b f).mem = s.mem := rfl
@[simp] theorem State.onBlock_pos (s : State) (b : Nat) (f : Block → Block) : (s.onBlock b f).pos = s.pos := rfl
@[simp] theorem State.onBlock_time (s : State) (b : Nat) (f : Block → Block) : (s.onBlock b f).time = s.time := rfl
@[simp] theorem State.onBlock_head (s : State) (b : Nat) (f : Block → Block) : (s.onBlock b f).head = s.head := rfl
@[simp] theorem State.onBlock_rtr (s : State) (b : Nat) (f : Block → Block) : (s.onBlock b f).rtr = s.rtr := rfl
@[simp] theorem State.onBlock_trk (s : State) (b : Nat) (f : Block → Block) : (s.onBlock b f).trk = s.trk := rfl
@[simp] theorem State.onBlock_obj (s : State) (b : Nat) (f : Block → Block) : (s.onBlock b f).obj = s.obj := rfl
@[simp] theorem State.onBlock_tail (s : State) (b : Nat) (f : Block → Block) : (s.onBlock b f).tail = s.tail := rfl
@[simp] theorem State.onBlock_aux (s : State) (b : Nat) (f : Block → Block) : (s.onBlock b f).aux = s.aux := rfl
@[simp] theorem State.onBlock_mclk (s : State) (b : Nat) (f : Block → Block) : (s.onBlock b f).mclk = s.mclk := rfl
@[simp] theorem State.onBlock_spoke (s : State) (b : Nat) (f : Block → Block) : (s.onBlock b f).spoke = s.spoke := rfl
@[simp] theorem State.onBlock_host (s : State) (b : Nat) (f : Block → Block) : (s.onBlock b f).host = s.host := rfl
@[simp] theorem State.onBlock_planes (s : State) (b : Nat) (f : Block → Block) : (s.onBlock b f).planes = s.planes := rfl
@[simp] theorem State.onBlock_que (s : State) (b : Nat) (f : Block → Block) : (s.onBlock b f).que = s.que := rfl
@[simp] theorem State.onBlock_cv (s : State) (b : Nat) (f : Block → Block) : (s.onBlock b f).cv = s.cv := rfl
@[simp] theorem State.onBlock_cmd (s : State) (b : Nat) (f : Block → Block) : (s.onBlock b f).cmd = s.cmd := rfl
@[simp] theorem State.onBlock_armed (s : State) (b : Nat) (f : Block → Block) : (s.onBlock b f).armed = s.armed := rfl
@[simp] theorem State.onBlock_reports (s : State) (b : Nat) (f : Block → Block) : (s.onBlock b f).reports = s.reports := rfl
@[simp] theorem State.onBlock_regions (s : State) (b : Nat) (f : Block → Block) : (s.onBlock b f).regions = s.regions := rfl
@[simp] theorem State.onBlock_hubFails (s : State) (b : Nat) (f : Block → Block) : (s.onBlock b f).hubFails = s.hubFails := rfl
@[simp] theorem State.onBlock_mgmt (s : State) (b : Nat) (f : Block → Block) : (s.onBlock b f).mgmt = s.mgmt := rfl
@[simp] theorem State.onBlock_chain (s : State) (b : Nat) (f : Block → Block) : (s.onBlock b f).chain = s.chain := rfl
@[simp] theorem State.onBlock_lastWord (s : State) (b : Nat) (f : Block → Block) : (s.onBlock b f).lastWord = s.lastWord := rfl
@[simp] theorem State.onBlock_lastStatus (s : State) (b : Nat) (f : Block → Block) : (s.onBlock b f).lastStatus = s.lastStatus := rfl

@[simp] theorem State.onConv_pending (s : State) (r : Nat) (f : Conv → Conv) : (s.onConv r f).pending = s.pending := rfl
@[simp] theorem State.onConv_loc (s : State) (r : Nat) (f : Conv → Conv) : (s.onConv r f).loc = s.loc := rfl
@[simp] theorem State.onConv_free (s : State) (r : Nat) (f : Conv → Conv) : (s.onConv r f).free = s.free := rfl
@[simp] theorem State.onConv_regs (s : State) (r : Nat) (f : Conv → Conv) : (s.onConv r f).regs = s.regs := rfl
@[simp] theorem State.onConv_mem (s : State) (r : Nat) (f : Conv → Conv) : (s.onConv r f).mem = s.mem := rfl
@[simp] theorem State.onConv_pos (s : State) (r : Nat) (f : Conv → Conv) : (s.onConv r f).pos = s.pos := rfl
@[simp] theorem State.onConv_time (s : State) (r : Nat) (f : Conv → Conv) : (s.onConv r f).time = s.time := rfl
@[simp] theorem State.onConv_head (s : State) (r : Nat) (f : Conv → Conv) : (s.onConv r f).head = s.head := rfl
@[simp] theorem State.onConv_rtr (s : State) (r : Nat) (f : Conv → Conv) : (s.onConv r f).rtr = s.rtr := rfl
@[simp] theorem State.onConv_trk (s : State) (r : Nat) (f : Conv → Conv) : (s.onConv r f).trk = s.trk := rfl
@[simp] theorem State.onConv_obj (s : State) (r : Nat) (f : Conv → Conv) : (s.onConv r f).obj = s.obj := rfl
@[simp] theorem State.onConv_tail (s : State) (r : Nat) (f : Conv → Conv) : (s.onConv r f).tail = s.tail := rfl
@[simp] theorem State.onConv_aux (s : State) (r : Nat) (f : Conv → Conv) : (s.onConv r f).aux = s.aux := rfl
@[simp] theorem State.onConv_mclk (s : State) (r : Nat) (f : Conv → Conv) : (s.onConv r f).mclk = s.mclk := rfl
@[simp] theorem State.onConv_spoke (s : State) (r : Nat) (f : Conv → Conv) : (s.onConv r f).spoke = s.spoke := rfl
@[simp] theorem State.onConv_host (s : State) (r : Nat) (f : Conv → Conv) : (s.onConv r f).host = s.host := rfl
@[simp] theorem State.onConv_planes (s : State) (r : Nat) (f : Conv → Conv) : (s.onConv r f).planes = s.planes := rfl
@[simp] theorem State.onConv_que (s : State) (r : Nat) (f : Conv → Conv) : (s.onConv r f).que = s.que := rfl
@[simp] theorem State.onConv_cv (s : State) (r : Nat) (f : Conv → Conv) : (s.onConv r f).cv = s.cv := rfl
@[simp] theorem State.onConv_cmd (s : State) (r : Nat) (f : Conv → Conv) : (s.onConv r f).cmd = s.cmd := rfl
@[simp] theorem State.onConv_armed (s : State) (r : Nat) (f : Conv → Conv) : (s.onConv r f).armed = s.armed := rfl
@[simp] theorem State.onConv_reports (s : State) (r : Nat) (f : Conv → Conv) : (s.onConv r f).reports = s.reports := rfl
@[simp] theorem State.onConv_regions (s : State) (r : Nat) (f : Conv → Conv) : (s.onConv r f).regions = s.regions := rfl
@[simp] theorem State.onConv_hubFails (s : State) (r : Nat) (f : Conv → Conv) : (s.onConv r f).hubFails = s.hubFails := rfl
@[simp] theorem State.onConv_mgmt (s : State) (r : Nat) (f : Conv → Conv) : (s.onConv r f).mgmt = s.mgmt := rfl
@[simp] theorem State.onConv_chain (s : State) (r : Nat) (f : Conv → Conv) : (s.onConv r f).chain = s.chain := rfl
@[simp] theorem State.onConv_lastWord (s : State) (r : Nat) (f : Conv → Conv) : (s.onConv r f).lastWord = s.lastWord := rfl
@[simp] theorem State.onConv_lastStatus (s : State) (r : Nat) (f : Conv → Conv) : (s.onConv r f).lastStatus = s.lastStatus := rfl

@[simp] theorem State.onHist_pending (s : State) (lr : Nat) (f : HistState → HistState) : (s.onHist lr f).pending = s.pending := rfl
@[simp] theorem State.onHist_loc (s : State) (lr : Nat) (f : HistState → HistState) : (s.onHist lr f).loc = s.loc := rfl
@[simp] theorem State.onHist_free (s : State) (lr : Nat) (f : HistState → HistState) : (s.onHist lr f).free = s.free := rfl
@[simp] theorem State.onHist_regs (s : State) (lr : Nat) (f : HistState → HistState) : (s.onHist lr f).regs = s.regs := rfl
@[simp] theorem State.onHist_mem (s : State) (lr : Nat) (f : HistState → HistState) : (s.onHist lr f).mem = s.mem := rfl
@[simp] theorem State.onHist_pos (s : State) (lr : Nat) (f : HistState → HistState) : (s.onHist lr f).pos = s.pos := rfl
@[simp] theorem State.onHist_time (s : State) (lr : Nat) (f : HistState → HistState) : (s.onHist lr f).time = s.time := rfl
@[simp] theorem State.onHist_head (s : State) (lr : Nat) (f : HistState → HistState) : (s.onHist lr f).head = s.head := rfl
@[simp] theorem State.onHist_rtr (s : State) (lr : Nat) (f : HistState → HistState) : (s.onHist lr f).rtr = s.rtr := rfl
@[simp] theorem State.onHist_fab (s : State) (lr : Nat) (f : HistState → HistState) : (s.onHist lr f).fab = s.fab := rfl
@[simp] theorem State.onHist_trk (s : State) (lr : Nat) (f : HistState → HistState) : (s.onHist lr f).trk = s.trk := rfl
@[simp] theorem State.onHist_tail (s : State) (lr : Nat) (f : HistState → HistState) : (s.onHist lr f).tail = s.tail := rfl
@[simp] theorem State.onHist_aux (s : State) (lr : Nat) (f : HistState → HistState) : (s.onHist lr f).aux = s.aux := rfl
@[simp] theorem State.onHist_mclk (s : State) (lr : Nat) (f : HistState → HistState) : (s.onHist lr f).mclk = s.mclk := rfl
@[simp] theorem State.onHist_spoke (s : State) (lr : Nat) (f : HistState → HistState) : (s.onHist lr f).spoke = s.spoke := rfl
@[simp] theorem State.onHist_host (s : State) (lr : Nat) (f : HistState → HistState) : (s.onHist lr f).host = s.host := rfl
@[simp] theorem State.onHist_planes (s : State) (lr : Nat) (f : HistState → HistState) : (s.onHist lr f).planes = s.planes := rfl
@[simp] theorem State.onHist_que (s : State) (lr : Nat) (f : HistState → HistState) : (s.onHist lr f).que = s.que := rfl
@[simp] theorem State.onHist_cv (s : State) (lr : Nat) (f : HistState → HistState) : (s.onHist lr f).cv = s.cv := rfl
@[simp] theorem State.onHist_cmd (s : State) (lr : Nat) (f : HistState → HistState) : (s.onHist lr f).cmd = s.cmd := rfl
@[simp] theorem State.onHist_armed (s : State) (lr : Nat) (f : HistState → HistState) : (s.onHist lr f).armed = s.armed := rfl
@[simp] theorem State.onHist_reports (s : State) (lr : Nat) (f : HistState → HistState) : (s.onHist lr f).reports = s.reports := rfl
@[simp] theorem State.onHist_regions (s : State) (lr : Nat) (f : HistState → HistState) : (s.onHist lr f).regions = s.regions := rfl
@[simp] theorem State.onHist_hubFails (s : State) (lr : Nat) (f : HistState → HistState) : (s.onHist lr f).hubFails = s.hubFails := rfl
@[simp] theorem State.onHist_mgmt (s : State) (lr : Nat) (f : HistState → HistState) : (s.onHist lr f).mgmt = s.mgmt := rfl
@[simp] theorem State.onHist_chain (s : State) (lr : Nat) (f : HistState → HistState) : (s.onHist lr f).chain = s.chain := rfl
@[simp] theorem State.onHist_lastWord (s : State) (lr : Nat) (f : HistState → HistState) : (s.onHist lr f).lastWord = s.lastWord := rfl
@[simp] theorem State.onHist_lastStatus (s : State) (lr : Nat) (f : HistState → HistState) : (s.onHist lr f).lastStatus = s.lastStatus := rfl

@[simp] theorem State.onDense_pending (s : State) (u : Nat) (f : DenseUnit → DenseUnit) : (s.onDense u f).pending = s.pending := rfl
@[simp] theorem State.onDense_loc (s : State) (u : Nat) (f : DenseUnit → DenseUnit) : (s.onDense u f).loc = s.loc := rfl
@[simp] theorem State.onDense_free (s : State) (u : Nat) (f : DenseUnit → DenseUnit) : (s.onDense u f).free = s.free := rfl
@[simp] theorem State.onDense_regs (s : State) (u : Nat) (f : DenseUnit → DenseUnit) : (s.onDense u f).regs = s.regs := rfl
@[simp] theorem State.onDense_mem (s : State) (u : Nat) (f : DenseUnit → DenseUnit) : (s.onDense u f).mem = s.mem := rfl
@[simp] theorem State.onDense_pos (s : State) (u : Nat) (f : DenseUnit → DenseUnit) : (s.onDense u f).pos = s.pos := rfl
@[simp] theorem State.onDense_time (s : State) (u : Nat) (f : DenseUnit → DenseUnit) : (s.onDense u f).time = s.time := rfl
@[simp] theorem State.onDense_head (s : State) (u : Nat) (f : DenseUnit → DenseUnit) : (s.onDense u f).head = s.head := rfl
@[simp] theorem State.onDense_rtr (s : State) (u : Nat) (f : DenseUnit → DenseUnit) : (s.onDense u f).rtr = s.rtr := rfl
@[simp] theorem State.onDense_fab (s : State) (u : Nat) (f : DenseUnit → DenseUnit) : (s.onDense u f).fab = s.fab := rfl
@[simp] theorem State.onDense_trk (s : State) (u : Nat) (f : DenseUnit → DenseUnit) : (s.onDense u f).trk = s.trk := rfl
@[simp] theorem State.onDense_tail (s : State) (u : Nat) (f : DenseUnit → DenseUnit) : (s.onDense u f).tail = s.tail := rfl
@[simp] theorem State.onDense_aux (s : State) (u : Nat) (f : DenseUnit → DenseUnit) : (s.onDense u f).aux = s.aux := rfl
@[simp] theorem State.onDense_mclk (s : State) (u : Nat) (f : DenseUnit → DenseUnit) : (s.onDense u f).mclk = s.mclk := rfl
@[simp] theorem State.onDense_spoke (s : State) (u : Nat) (f : DenseUnit → DenseUnit) : (s.onDense u f).spoke = s.spoke := rfl
@[simp] theorem State.onDense_host (s : State) (u : Nat) (f : DenseUnit → DenseUnit) : (s.onDense u f).host = s.host := rfl
@[simp] theorem State.onDense_planes (s : State) (u : Nat) (f : DenseUnit → DenseUnit) : (s.onDense u f).planes = s.planes := rfl
@[simp] theorem State.onDense_que (s : State) (u : Nat) (f : DenseUnit → DenseUnit) : (s.onDense u f).que = s.que := rfl
@[simp] theorem State.onDense_cv (s : State) (u : Nat) (f : DenseUnit → DenseUnit) : (s.onDense u f).cv = s.cv := rfl
@[simp] theorem State.onDense_cmd (s : State) (u : Nat) (f : DenseUnit → DenseUnit) : (s.onDense u f).cmd = s.cmd := rfl
@[simp] theorem State.onDense_armed (s : State) (u : Nat) (f : DenseUnit → DenseUnit) : (s.onDense u f).armed = s.armed := rfl
@[simp] theorem State.onDense_reports (s : State) (u : Nat) (f : DenseUnit → DenseUnit) : (s.onDense u f).reports = s.reports := rfl
@[simp] theorem State.onDense_regions (s : State) (u : Nat) (f : DenseUnit → DenseUnit) : (s.onDense u f).regions = s.regions := rfl
@[simp] theorem State.onDense_hubFails (s : State) (u : Nat) (f : DenseUnit → DenseUnit) : (s.onDense u f).hubFails = s.hubFails := rfl
@[simp] theorem State.onDense_mgmt (s : State) (u : Nat) (f : DenseUnit → DenseUnit) : (s.onDense u f).mgmt = s.mgmt := rfl
@[simp] theorem State.onDense_chain (s : State) (u : Nat) (f : DenseUnit → DenseUnit) : (s.onDense u f).chain = s.chain := rfl
@[simp] theorem State.onDense_lastWord (s : State) (u : Nat) (f : DenseUnit → DenseUnit) : (s.onDense u f).lastWord = s.lastWord := rfl
@[simp] theorem State.onDense_lastStatus (s : State) (u : Nat) (f : DenseUnit → DenseUnit) : (s.onDense u f).lastStatus = s.lastStatus := rfl

@[simp] theorem State.onTracker_pending (s : State) (lr : Nat) (f : Tracker → Tracker) : (s.onTracker lr f).pending = s.pending := rfl
@[simp] theorem State.onTracker_loc (s : State) (lr : Nat) (f : Tracker → Tracker) : (s.onTracker lr f).loc = s.loc := rfl
@[simp] theorem State.onTracker_free (s : State) (lr : Nat) (f : Tracker → Tracker) : (s.onTracker lr f).free = s.free := rfl
@[simp] theorem State.onTracker_regs (s : State) (lr : Nat) (f : Tracker → Tracker) : (s.onTracker lr f).regs = s.regs := rfl
@[simp] theorem State.onTracker_mem (s : State) (lr : Nat) (f : Tracker → Tracker) : (s.onTracker lr f).mem = s.mem := rfl
@[simp] theorem State.onTracker_pos (s : State) (lr : Nat) (f : Tracker → Tracker) : (s.onTracker lr f).pos = s.pos := rfl
@[simp] theorem State.onTracker_time (s : State) (lr : Nat) (f : Tracker → Tracker) : (s.onTracker lr f).time = s.time := rfl
@[simp] theorem State.onTracker_head (s : State) (lr : Nat) (f : Tracker → Tracker) : (s.onTracker lr f).head = s.head := rfl
@[simp] theorem State.onTracker_rtr (s : State) (lr : Nat) (f : Tracker → Tracker) : (s.onTracker lr f).rtr = s.rtr := rfl
@[simp] theorem State.onTracker_fab (s : State) (lr : Nat) (f : Tracker → Tracker) : (s.onTracker lr f).fab = s.fab := rfl
@[simp] theorem State.onTracker_obj (s : State) (lr : Nat) (f : Tracker → Tracker) : (s.onTracker lr f).obj = s.obj := rfl
@[simp] theorem State.onTracker_tail (s : State) (lr : Nat) (f : Tracker → Tracker) : (s.onTracker lr f).tail = s.tail := rfl
@[simp] theorem State.onTracker_aux (s : State) (lr : Nat) (f : Tracker → Tracker) : (s.onTracker lr f).aux = s.aux := rfl
@[simp] theorem State.onTracker_mclk (s : State) (lr : Nat) (f : Tracker → Tracker) : (s.onTracker lr f).mclk = s.mclk := rfl
@[simp] theorem State.onTracker_spoke (s : State) (lr : Nat) (f : Tracker → Tracker) : (s.onTracker lr f).spoke = s.spoke := rfl
@[simp] theorem State.onTracker_host (s : State) (lr : Nat) (f : Tracker → Tracker) : (s.onTracker lr f).host = s.host := rfl
@[simp] theorem State.onTracker_planes (s : State) (lr : Nat) (f : Tracker → Tracker) : (s.onTracker lr f).planes = s.planes := rfl
@[simp] theorem State.onTracker_que (s : State) (lr : Nat) (f : Tracker → Tracker) : (s.onTracker lr f).que = s.que := rfl
@[simp] theorem State.onTracker_cv (s : State) (lr : Nat) (f : Tracker → Tracker) : (s.onTracker lr f).cv = s.cv := rfl
@[simp] theorem State.onTracker_cmd (s : State) (lr : Nat) (f : Tracker → Tracker) : (s.onTracker lr f).cmd = s.cmd := rfl
@[simp] theorem State.onTracker_armed (s : State) (lr : Nat) (f : Tracker → Tracker) : (s.onTracker lr f).armed = s.armed := rfl
@[simp] theorem State.onTracker_reports (s : State) (lr : Nat) (f : Tracker → Tracker) : (s.onTracker lr f).reports = s.reports := rfl
@[simp] theorem State.onTracker_regions (s : State) (lr : Nat) (f : Tracker → Tracker) : (s.onTracker lr f).regions = s.regions := rfl
@[simp] theorem State.onTracker_hubFails (s : State) (lr : Nat) (f : Tracker → Tracker) : (s.onTracker lr f).hubFails = s.hubFails := rfl
@[simp] theorem State.onTracker_mgmt (s : State) (lr : Nat) (f : Tracker → Tracker) : (s.onTracker lr f).mgmt = s.mgmt := rfl
@[simp] theorem State.onTracker_chain (s : State) (lr : Nat) (f : Tracker → Tracker) : (s.onTracker lr f).chain = s.chain := rfl
@[simp] theorem State.onTracker_lastWord (s : State) (lr : Nat) (f : Tracker → Tracker) : (s.onTracker lr f).lastWord = s.lastWord := rfl
@[simp] theorem State.onTracker_lastStatus (s : State) (lr : Nat) (f : Tracker → Tracker) : (s.onTracker lr f).lastStatus = s.lastStatus := rfl

@[simp] theorem State.setSlot_pending (s : State) (lr i : Nat) (t : Option Slot) : (s.setSlot lr i t).pending = s.pending := rfl
@[simp] theorem State.setSlot_loc (s : State) (lr i : Nat) (t : Option Slot) : (s.setSlot lr i t).loc = s.loc := rfl
@[simp] theorem State.setSlot_free (s : State) (lr i : Nat) (t : Option Slot) : (s.setSlot lr i t).free = s.free := rfl
@[simp] theorem State.setSlot_regs (s : State) (lr i : Nat) (t : Option Slot) : (s.setSlot lr i t).regs = s.regs := rfl
@[simp] theorem State.setSlot_mem (s : State) (lr i : Nat) (t : Option Slot) : (s.setSlot lr i t).mem = s.mem := rfl
@[simp] theorem State.setSlot_pos (s : State) (lr i : Nat) (t : Option Slot) : (s.setSlot lr i t).pos = s.pos := rfl
@[simp] theorem State.setSlot_time (s : State) (lr i : Nat) (t : Option Slot) : (s.setSlot lr i t).time = s.time := rfl
@[simp] theorem State.setSlot_head (s : State) (lr i : Nat) (t : Option Slot) : (s.setSlot lr i t).head = s.head := rfl
@[simp] theorem State.setSlot_rtr (s : State) (lr i : Nat) (t : Option Slot) : (s.setSlot lr i t).rtr = s.rtr := rfl
@[simp] theorem State.setSlot_fab (s : State) (lr i : Nat) (t : Option Slot) : (s.setSlot lr i t).fab = s.fab := rfl
@[simp] theorem State.setSlot_obj (s : State) (lr i : Nat) (t : Option Slot) : (s.setSlot lr i t).obj = s.obj := rfl
@[simp] theorem State.setSlot_tail (s : State) (lr i : Nat) (t : Option Slot) : (s.setSlot lr i t).tail = s.tail := rfl
@[simp] theorem State.setSlot_aux (s : State) (lr i : Nat) (t : Option Slot) : (s.setSlot lr i t).aux = s.aux := rfl
@[simp] theorem State.setSlot_mclk (s : State) (lr i : Nat) (t : Option Slot) : (s.setSlot lr i t).mclk = s.mclk := rfl
@[simp] theorem State.setSlot_spoke (s : State) (lr i : Nat) (t : Option Slot) : (s.setSlot lr i t).spoke = s.spoke := rfl
@[simp] theorem State.setSlot_host (s : State) (lr i : Nat) (t : Option Slot) : (s.setSlot lr i t).host = s.host := rfl
@[simp] theorem State.setSlot_planes (s : State) (lr i : Nat) (t : Option Slot) : (s.setSlot lr i t).planes = s.planes := rfl
@[simp] theorem State.setSlot_que (s : State) (lr i : Nat) (t : Option Slot) : (s.setSlot lr i t).que = s.que := rfl
@[simp] theorem State.setSlot_cv (s : State) (lr i : Nat) (t : Option Slot) : (s.setSlot lr i t).cv = s.cv := rfl
@[simp] theorem State.setSlot_cmd (s : State) (lr i : Nat) (t : Option Slot) : (s.setSlot lr i t).cmd = s.cmd := rfl
@[simp] theorem State.setSlot_armed (s : State) (lr i : Nat) (t : Option Slot) : (s.setSlot lr i t).armed = s.armed := rfl
@[simp] theorem State.setSlot_reports (s : State) (lr i : Nat) (t : Option Slot) : (s.setSlot lr i t).reports = s.reports := rfl
@[simp] theorem State.setSlot_regions (s : State) (lr i : Nat) (t : Option Slot) : (s.setSlot lr i t).regions = s.regions := rfl
@[simp] theorem State.setSlot_hubFails (s : State) (lr i : Nat) (t : Option Slot) : (s.setSlot lr i t).hubFails = s.hubFails := rfl
@[simp] theorem State.setSlot_mgmt (s : State) (lr i : Nat) (t : Option Slot) : (s.setSlot lr i t).mgmt = s.mgmt := rfl
@[simp] theorem State.setSlot_chain (s : State) (lr i : Nat) (t : Option Slot) : (s.setSlot lr i t).chain = s.chain := rfl
@[simp] theorem State.setSlot_lastWord (s : State) (lr i : Nat) (t : Option Slot) : (s.setSlot lr i t).lastWord = s.lastWord := rfl
@[simp] theorem State.setSlot_lastStatus (s : State) (lr i : Nat) (t : Option Slot) : (s.setSlot lr i t).lastStatus = s.lastStatus := rfl

@[simp] theorem State.onModel_pending (s : State) (f : ModelState → ModelState) : (s.onModel f).pending = s.pending := rfl
@[simp] theorem State.onModel_loc (s : State) (f : ModelState → ModelState) : (s.onModel f).loc = s.loc := rfl
@[simp] theorem State.onModel_free (s : State) (f : ModelState → ModelState) : (s.onModel f).free = s.free := rfl
@[simp] theorem State.onModel_regs (s : State) (f : ModelState → ModelState) : (s.onModel f).regs = s.regs := rfl
@[simp] theorem State.onModel_mem (s : State) (f : ModelState → ModelState) : (s.onModel f).mem = s.mem := rfl
@[simp] theorem State.onModel_pos (s : State) (f : ModelState → ModelState) : (s.onModel f).pos = s.pos := rfl
@[simp] theorem State.onModel_time (s : State) (f : ModelState → ModelState) : (s.onModel f).time = s.time := rfl
@[simp] theorem State.onModel_head (s : State) (f : ModelState → ModelState) : (s.onModel f).head = s.head := rfl
@[simp] theorem State.onModel_rtr (s : State) (f : ModelState → ModelState) : (s.onModel f).rtr = s.rtr := rfl
@[simp] theorem State.onModel_fab (s : State) (f : ModelState → ModelState) : (s.onModel f).fab = s.fab := rfl
@[simp] theorem State.onModel_trk (s : State) (f : ModelState → ModelState) : (s.onModel f).trk = s.trk := rfl
@[simp] theorem State.onModel_obj (s : State) (f : ModelState → ModelState) : (s.onModel f).obj = s.obj := rfl
@[simp] theorem State.onModel_tail (s : State) (f : ModelState → ModelState) : (s.onModel f).tail = s.tail := rfl
@[simp] theorem State.onModel_aux (s : State) (f : ModelState → ModelState) : (s.onModel f).aux = s.aux := rfl
@[simp] theorem State.onModel_mclk (s : State) (f : ModelState → ModelState) : (s.onModel f).mclk = s.mclk := rfl
@[simp] theorem State.onModel_spoke (s : State) (f : ModelState → ModelState) : (s.onModel f).spoke = s.spoke := rfl
@[simp] theorem State.onModel_host (s : State) (f : ModelState → ModelState) : (s.onModel f).host = s.host := rfl
@[simp] theorem State.onModel_planes (s : State) (f : ModelState → ModelState) : (s.onModel f).planes = s.planes := rfl
@[simp] theorem State.onModel_que (s : State) (f : ModelState → ModelState) : (s.onModel f).que = s.que := rfl
@[simp] theorem State.onModel_cv (s : State) (f : ModelState → ModelState) : (s.onModel f).cv = s.cv := rfl
@[simp] theorem State.onModel_cmd (s : State) (f : ModelState → ModelState) : (s.onModel f).cmd = s.cmd := rfl
@[simp] theorem State.onModel_armed (s : State) (f : ModelState → ModelState) : (s.onModel f).armed = s.armed := rfl
@[simp] theorem State.onModel_reports (s : State) (f : ModelState → ModelState) : (s.onModel f).reports = s.reports := rfl
@[simp] theorem State.onModel_regions (s : State) (f : ModelState → ModelState) : (s.onModel f).regions = s.regions := rfl
@[simp] theorem State.onModel_hubFails (s : State) (f : ModelState → ModelState) : (s.onModel f).hubFails = s.hubFails := rfl
@[simp] theorem State.onModel_chain (s : State) (f : ModelState → ModelState) : (s.onModel f).chain = s.chain := rfl
@[simp] theorem State.onModel_lastWord (s : State) (f : ModelState → ModelState) : (s.onModel f).lastWord = s.lastWord := rfl
@[simp] theorem State.onModel_lastStatus (s : State) (f : ModelState → ModelState) : (s.onModel f).lastStatus = s.lastStatus := rfl

@[simp] theorem State.onPower_pending (s : State) (f : PowerState → PowerState) : (s.onPower f).pending = s.pending := rfl
@[simp] theorem State.onPower_loc (s : State) (f : PowerState → PowerState) : (s.onPower f).loc = s.loc := rfl
@[simp] theorem State.onPower_free (s : State) (f : PowerState → PowerState) : (s.onPower f).free = s.free := rfl
@[simp] theorem State.onPower_regs (s : State) (f : PowerState → PowerState) : (s.onPower f).regs = s.regs := rfl
@[simp] theorem State.onPower_mem (s : State) (f : PowerState → PowerState) : (s.onPower f).mem = s.mem := rfl
@[simp] theorem State.onPower_pos (s : State) (f : PowerState → PowerState) : (s.onPower f).pos = s.pos := rfl
@[simp] theorem State.onPower_time (s : State) (f : PowerState → PowerState) : (s.onPower f).time = s.time := rfl
@[simp] theorem State.onPower_head (s : State) (f : PowerState → PowerState) : (s.onPower f).head = s.head := rfl
@[simp] theorem State.onPower_rtr (s : State) (f : PowerState → PowerState) : (s.onPower f).rtr = s.rtr := rfl
@[simp] theorem State.onPower_fab (s : State) (f : PowerState → PowerState) : (s.onPower f).fab = s.fab := rfl
@[simp] theorem State.onPower_trk (s : State) (f : PowerState → PowerState) : (s.onPower f).trk = s.trk := rfl
@[simp] theorem State.onPower_obj (s : State) (f : PowerState → PowerState) : (s.onPower f).obj = s.obj := rfl
@[simp] theorem State.onPower_tail (s : State) (f : PowerState → PowerState) : (s.onPower f).tail = s.tail := rfl
@[simp] theorem State.onPower_aux (s : State) (f : PowerState → PowerState) : (s.onPower f).aux = s.aux := rfl
@[simp] theorem State.onPower_mclk (s : State) (f : PowerState → PowerState) : (s.onPower f).mclk = s.mclk := rfl
@[simp] theorem State.onPower_spoke (s : State) (f : PowerState → PowerState) : (s.onPower f).spoke = s.spoke := rfl
@[simp] theorem State.onPower_host (s : State) (f : PowerState → PowerState) : (s.onPower f).host = s.host := rfl
@[simp] theorem State.onPower_planes (s : State) (f : PowerState → PowerState) : (s.onPower f).planes = s.planes := rfl
@[simp] theorem State.onPower_que (s : State) (f : PowerState → PowerState) : (s.onPower f).que = s.que := rfl
@[simp] theorem State.onPower_cv (s : State) (f : PowerState → PowerState) : (s.onPower f).cv = s.cv := rfl
@[simp] theorem State.onPower_cmd (s : State) (f : PowerState → PowerState) : (s.onPower f).cmd = s.cmd := rfl
@[simp] theorem State.onPower_armed (s : State) (f : PowerState → PowerState) : (s.onPower f).armed = s.armed := rfl
@[simp] theorem State.onPower_reports (s : State) (f : PowerState → PowerState) : (s.onPower f).reports = s.reports := rfl
@[simp] theorem State.onPower_regions (s : State) (f : PowerState → PowerState) : (s.onPower f).regions = s.regions := rfl
@[simp] theorem State.onPower_hubFails (s : State) (f : PowerState → PowerState) : (s.onPower f).hubFails = s.hubFails := rfl
@[simp] theorem State.onPower_chain (s : State) (f : PowerState → PowerState) : (s.onPower f).chain = s.chain := rfl
@[simp] theorem State.onPower_lastWord (s : State) (f : PowerState → PowerState) : (s.onPower f).lastWord = s.lastWord := rfl
@[simp] theorem State.onPower_lastStatus (s : State) (f : PowerState → PowerState) : (s.onPower f).lastStatus = s.lastStatus := rfl

@[simp] theorem State.onLogs_pending (s : State) (f : LogState → LogState) : (s.onLogs f).pending = s.pending := rfl
@[simp] theorem State.onLogs_loc (s : State) (f : LogState → LogState) : (s.onLogs f).loc = s.loc := rfl
@[simp] theorem State.onLogs_free (s : State) (f : LogState → LogState) : (s.onLogs f).free = s.free := rfl
@[simp] theorem State.onLogs_regs (s : State) (f : LogState → LogState) : (s.onLogs f).regs = s.regs := rfl
@[simp] theorem State.onLogs_mem (s : State) (f : LogState → LogState) : (s.onLogs f).mem = s.mem := rfl
@[simp] theorem State.onLogs_pos (s : State) (f : LogState → LogState) : (s.onLogs f).pos = s.pos := rfl
@[simp] theorem State.onLogs_time (s : State) (f : LogState → LogState) : (s.onLogs f).time = s.time := rfl
@[simp] theorem State.onLogs_head (s : State) (f : LogState → LogState) : (s.onLogs f).head = s.head := rfl
@[simp] theorem State.onLogs_rtr (s : State) (f : LogState → LogState) : (s.onLogs f).rtr = s.rtr := rfl
@[simp] theorem State.onLogs_fab (s : State) (f : LogState → LogState) : (s.onLogs f).fab = s.fab := rfl
@[simp] theorem State.onLogs_trk (s : State) (f : LogState → LogState) : (s.onLogs f).trk = s.trk := rfl
@[simp] theorem State.onLogs_obj (s : State) (f : LogState → LogState) : (s.onLogs f).obj = s.obj := rfl
@[simp] theorem State.onLogs_tail (s : State) (f : LogState → LogState) : (s.onLogs f).tail = s.tail := rfl
@[simp] theorem State.onLogs_aux (s : State) (f : LogState → LogState) : (s.onLogs f).aux = s.aux := rfl
@[simp] theorem State.onLogs_mclk (s : State) (f : LogState → LogState) : (s.onLogs f).mclk = s.mclk := rfl
@[simp] theorem State.onLogs_spoke (s : State) (f : LogState → LogState) : (s.onLogs f).spoke = s.spoke := rfl
@[simp] theorem State.onLogs_host (s : State) (f : LogState → LogState) : (s.onLogs f).host = s.host := rfl
@[simp] theorem State.onLogs_planes (s : State) (f : LogState → LogState) : (s.onLogs f).planes = s.planes := rfl
@[simp] theorem State.onLogs_que (s : State) (f : LogState → LogState) : (s.onLogs f).que = s.que := rfl
@[simp] theorem State.onLogs_cv (s : State) (f : LogState → LogState) : (s.onLogs f).cv = s.cv := rfl
@[simp] theorem State.onLogs_cmd (s : State) (f : LogState → LogState) : (s.onLogs f).cmd = s.cmd := rfl
@[simp] theorem State.onLogs_armed (s : State) (f : LogState → LogState) : (s.onLogs f).armed = s.armed := rfl
@[simp] theorem State.onLogs_reports (s : State) (f : LogState → LogState) : (s.onLogs f).reports = s.reports := rfl
@[simp] theorem State.onLogs_regions (s : State) (f : LogState → LogState) : (s.onLogs f).regions = s.regions := rfl
@[simp] theorem State.onLogs_hubFails (s : State) (f : LogState → LogState) : (s.onLogs f).hubFails = s.hubFails := rfl
@[simp] theorem State.onLogs_chain (s : State) (f : LogState → LogState) : (s.onLogs f).chain = s.chain := rfl
@[simp] theorem State.onLogs_lastWord (s : State) (f : LogState → LogState) : (s.onLogs f).lastWord = s.lastWord := rfl
@[simp] theorem State.onLogs_lastStatus (s : State) (f : LogState → LogState) : (s.onLogs f).lastStatus = s.lastStatus := rfl

@[simp] theorem State.onFault_pending (s : State) (f : FaultState → FaultState) : (s.onFault f).pending = s.pending := rfl
@[simp] theorem State.onFault_loc (s : State) (f : FaultState → FaultState) : (s.onFault f).loc = s.loc := rfl
@[simp] theorem State.onFault_free (s : State) (f : FaultState → FaultState) : (s.onFault f).free = s.free := rfl
@[simp] theorem State.onFault_regs (s : State) (f : FaultState → FaultState) : (s.onFault f).regs = s.regs := rfl
@[simp] theorem State.onFault_mem (s : State) (f : FaultState → FaultState) : (s.onFault f).mem = s.mem := rfl
@[simp] theorem State.onFault_pos (s : State) (f : FaultState → FaultState) : (s.onFault f).pos = s.pos := rfl
@[simp] theorem State.onFault_time (s : State) (f : FaultState → FaultState) : (s.onFault f).time = s.time := rfl
@[simp] theorem State.onFault_head (s : State) (f : FaultState → FaultState) : (s.onFault f).head = s.head := rfl
@[simp] theorem State.onFault_rtr (s : State) (f : FaultState → FaultState) : (s.onFault f).rtr = s.rtr := rfl
@[simp] theorem State.onFault_fab (s : State) (f : FaultState → FaultState) : (s.onFault f).fab = s.fab := rfl
@[simp] theorem State.onFault_trk (s : State) (f : FaultState → FaultState) : (s.onFault f).trk = s.trk := rfl
@[simp] theorem State.onFault_obj (s : State) (f : FaultState → FaultState) : (s.onFault f).obj = s.obj := rfl
@[simp] theorem State.onFault_tail (s : State) (f : FaultState → FaultState) : (s.onFault f).tail = s.tail := rfl
@[simp] theorem State.onFault_aux (s : State) (f : FaultState → FaultState) : (s.onFault f).aux = s.aux := rfl
@[simp] theorem State.onFault_mclk (s : State) (f : FaultState → FaultState) : (s.onFault f).mclk = s.mclk := rfl
@[simp] theorem State.onFault_spoke (s : State) (f : FaultState → FaultState) : (s.onFault f).spoke = s.spoke := rfl
@[simp] theorem State.onFault_host (s : State) (f : FaultState → FaultState) : (s.onFault f).host = s.host := rfl
@[simp] theorem State.onFault_planes (s : State) (f : FaultState → FaultState) : (s.onFault f).planes = s.planes := rfl
@[simp] theorem State.onFault_que (s : State) (f : FaultState → FaultState) : (s.onFault f).que = s.que := rfl
@[simp] theorem State.onFault_cv (s : State) (f : FaultState → FaultState) : (s.onFault f).cv = s.cv := rfl
@[simp] theorem State.onFault_cmd (s : State) (f : FaultState → FaultState) : (s.onFault f).cmd = s.cmd := rfl
@[simp] theorem State.onFault_armed (s : State) (f : FaultState → FaultState) : (s.onFault f).armed = s.armed := rfl
@[simp] theorem State.onFault_reports (s : State) (f : FaultState → FaultState) : (s.onFault f).reports = s.reports := rfl
@[simp] theorem State.onFault_regions (s : State) (f : FaultState → FaultState) : (s.onFault f).regions = s.regions := rfl
@[simp] theorem State.onFault_hubFails (s : State) (f : FaultState → FaultState) : (s.onFault f).hubFails = s.hubFails := rfl
@[simp] theorem State.onFault_chain (s : State) (f : FaultState → FaultState) : (s.onFault f).chain = s.chain := rfl
@[simp] theorem State.onFault_lastWord (s : State) (f : FaultState → FaultState) : (s.onFault f).lastWord = s.lastWord := rfl
@[simp] theorem State.onFault_lastStatus (s : State) (f : FaultState → FaultState) : (s.onFault f).lastStatus = s.lastStatus := rfl

@[simp] theorem State.onSec_pending (s : State) (f : SecState → SecState) : (s.onSec f).pending = s.pending := rfl
@[simp] theorem State.onSec_loc (s : State) (f : SecState → SecState) : (s.onSec f).loc = s.loc := rfl
@[simp] theorem State.onSec_free (s : State) (f : SecState → SecState) : (s.onSec f).free = s.free := rfl
@[simp] theorem State.onSec_regs (s : State) (f : SecState → SecState) : (s.onSec f).regs = s.regs := rfl
@[simp] theorem State.onSec_mem (s : State) (f : SecState → SecState) : (s.onSec f).mem = s.mem := rfl
@[simp] theorem State.onSec_pos (s : State) (f : SecState → SecState) : (s.onSec f).pos = s.pos := rfl
@[simp] theorem State.onSec_time (s : State) (f : SecState → SecState) : (s.onSec f).time = s.time := rfl
@[simp] theorem State.onSec_head (s : State) (f : SecState → SecState) : (s.onSec f).head = s.head := rfl
@[simp] theorem State.onSec_rtr (s : State) (f : SecState → SecState) : (s.onSec f).rtr = s.rtr := rfl
@[simp] theorem State.onSec_fab (s : State) (f : SecState → SecState) : (s.onSec f).fab = s.fab := rfl
@[simp] theorem State.onSec_trk (s : State) (f : SecState → SecState) : (s.onSec f).trk = s.trk := rfl
@[simp] theorem State.onSec_obj (s : State) (f : SecState → SecState) : (s.onSec f).obj = s.obj := rfl
@[simp] theorem State.onSec_tail (s : State) (f : SecState → SecState) : (s.onSec f).tail = s.tail := rfl
@[simp] theorem State.onSec_aux (s : State) (f : SecState → SecState) : (s.onSec f).aux = s.aux := rfl
@[simp] theorem State.onSec_mclk (s : State) (f : SecState → SecState) : (s.onSec f).mclk = s.mclk := rfl
@[simp] theorem State.onSec_spoke (s : State) (f : SecState → SecState) : (s.onSec f).spoke = s.spoke := rfl
@[simp] theorem State.onSec_host (s : State) (f : SecState → SecState) : (s.onSec f).host = s.host := rfl
@[simp] theorem State.onSec_planes (s : State) (f : SecState → SecState) : (s.onSec f).planes = s.planes := rfl
@[simp] theorem State.onSec_que (s : State) (f : SecState → SecState) : (s.onSec f).que = s.que := rfl
@[simp] theorem State.onSec_cv (s : State) (f : SecState → SecState) : (s.onSec f).cv = s.cv := rfl
@[simp] theorem State.onSec_cmd (s : State) (f : SecState → SecState) : (s.onSec f).cmd = s.cmd := rfl
@[simp] theorem State.onSec_armed (s : State) (f : SecState → SecState) : (s.onSec f).armed = s.armed := rfl
@[simp] theorem State.onSec_reports (s : State) (f : SecState → SecState) : (s.onSec f).reports = s.reports := rfl
@[simp] theorem State.onSec_regions (s : State) (f : SecState → SecState) : (s.onSec f).regions = s.regions := rfl
@[simp] theorem State.onSec_hubFails (s : State) (f : SecState → SecState) : (s.onSec f).hubFails = s.hubFails := rfl
@[simp] theorem State.onSec_chain (s : State) (f : SecState → SecState) : (s.onSec f).chain = s.chain := rfl
@[simp] theorem State.onSec_lastWord (s : State) (f : SecState → SecState) : (s.onSec f).lastWord = s.lastWord := rfl
@[simp] theorem State.onSec_lastStatus (s : State) (f : SecState → SecState) : (s.onSec f).lastStatus = s.lastStatus := rfl

@[simp] theorem State.onTest_pending (s : State) (f : TestState → TestState) : (s.onTest f).pending = s.pending := rfl
@[simp] theorem State.onTest_loc (s : State) (f : TestState → TestState) : (s.onTest f).loc = s.loc := rfl
@[simp] theorem State.onTest_free (s : State) (f : TestState → TestState) : (s.onTest f).free = s.free := rfl
@[simp] theorem State.onTest_regs (s : State) (f : TestState → TestState) : (s.onTest f).regs = s.regs := rfl
@[simp] theorem State.onTest_mem (s : State) (f : TestState → TestState) : (s.onTest f).mem = s.mem := rfl
@[simp] theorem State.onTest_pos (s : State) (f : TestState → TestState) : (s.onTest f).pos = s.pos := rfl
@[simp] theorem State.onTest_time (s : State) (f : TestState → TestState) : (s.onTest f).time = s.time := rfl
@[simp] theorem State.onTest_head (s : State) (f : TestState → TestState) : (s.onTest f).head = s.head := rfl
@[simp] theorem State.onTest_rtr (s : State) (f : TestState → TestState) : (s.onTest f).rtr = s.rtr := rfl
@[simp] theorem State.onTest_fab (s : State) (f : TestState → TestState) : (s.onTest f).fab = s.fab := rfl
@[simp] theorem State.onTest_trk (s : State) (f : TestState → TestState) : (s.onTest f).trk = s.trk := rfl
@[simp] theorem State.onTest_obj (s : State) (f : TestState → TestState) : (s.onTest f).obj = s.obj := rfl
@[simp] theorem State.onTest_tail (s : State) (f : TestState → TestState) : (s.onTest f).tail = s.tail := rfl
@[simp] theorem State.onTest_aux (s : State) (f : TestState → TestState) : (s.onTest f).aux = s.aux := rfl
@[simp] theorem State.onTest_mclk (s : State) (f : TestState → TestState) : (s.onTest f).mclk = s.mclk := rfl
@[simp] theorem State.onTest_spoke (s : State) (f : TestState → TestState) : (s.onTest f).spoke = s.spoke := rfl
@[simp] theorem State.onTest_host (s : State) (f : TestState → TestState) : (s.onTest f).host = s.host := rfl
@[simp] theorem State.onTest_planes (s : State) (f : TestState → TestState) : (s.onTest f).planes = s.planes := rfl
@[simp] theorem State.onTest_que (s : State) (f : TestState → TestState) : (s.onTest f).que = s.que := rfl
@[simp] theorem State.onTest_cv (s : State) (f : TestState → TestState) : (s.onTest f).cv = s.cv := rfl
@[simp] theorem State.onTest_cmd (s : State) (f : TestState → TestState) : (s.onTest f).cmd = s.cmd := rfl
@[simp] theorem State.onTest_armed (s : State) (f : TestState → TestState) : (s.onTest f).armed = s.armed := rfl
@[simp] theorem State.onTest_reports (s : State) (f : TestState → TestState) : (s.onTest f).reports = s.reports := rfl
@[simp] theorem State.onTest_regions (s : State) (f : TestState → TestState) : (s.onTest f).regions = s.regions := rfl
@[simp] theorem State.onTest_hubFails (s : State) (f : TestState → TestState) : (s.onTest f).hubFails = s.hubFails := rfl
@[simp] theorem State.onTest_chain (s : State) (f : TestState → TestState) : (s.onTest f).chain = s.chain := rfl
@[simp] theorem State.onTest_lastWord (s : State) (f : TestState → TestState) : (s.onTest f).lastWord = s.lastWord := rfl
@[simp] theorem State.onTest_lastStatus (s : State) (f : TestState → TestState) : (s.onTest f).lastStatus = s.lastStatus := rfl

@[simp] theorem State.onBoard_pending (s : State) (f : BoardState → BoardState) : (s.onBoard f).pending = s.pending := rfl
@[simp] theorem State.onBoard_loc (s : State) (f : BoardState → BoardState) : (s.onBoard f).loc = s.loc := rfl
@[simp] theorem State.onBoard_free (s : State) (f : BoardState → BoardState) : (s.onBoard f).free = s.free := rfl
@[simp] theorem State.onBoard_regs (s : State) (f : BoardState → BoardState) : (s.onBoard f).regs = s.regs := rfl
@[simp] theorem State.onBoard_mem (s : State) (f : BoardState → BoardState) : (s.onBoard f).mem = s.mem := rfl
@[simp] theorem State.onBoard_pos (s : State) (f : BoardState → BoardState) : (s.onBoard f).pos = s.pos := rfl
@[simp] theorem State.onBoard_time (s : State) (f : BoardState → BoardState) : (s.onBoard f).time = s.time := rfl
@[simp] theorem State.onBoard_head (s : State) (f : BoardState → BoardState) : (s.onBoard f).head = s.head := rfl
@[simp] theorem State.onBoard_rtr (s : State) (f : BoardState → BoardState) : (s.onBoard f).rtr = s.rtr := rfl
@[simp] theorem State.onBoard_fab (s : State) (f : BoardState → BoardState) : (s.onBoard f).fab = s.fab := rfl
@[simp] theorem State.onBoard_trk (s : State) (f : BoardState → BoardState) : (s.onBoard f).trk = s.trk := rfl
@[simp] theorem State.onBoard_obj (s : State) (f : BoardState → BoardState) : (s.onBoard f).obj = s.obj := rfl
@[simp] theorem State.onBoard_tail (s : State) (f : BoardState → BoardState) : (s.onBoard f).tail = s.tail := rfl
@[simp] theorem State.onBoard_aux (s : State) (f : BoardState → BoardState) : (s.onBoard f).aux = s.aux := rfl
@[simp] theorem State.onBoard_mclk (s : State) (f : BoardState → BoardState) : (s.onBoard f).mclk = s.mclk := rfl
@[simp] theorem State.onBoard_spoke (s : State) (f : BoardState → BoardState) : (s.onBoard f).spoke = s.spoke := rfl
@[simp] theorem State.onBoard_host (s : State) (f : BoardState → BoardState) : (s.onBoard f).host = s.host := rfl
@[simp] theorem State.onBoard_planes (s : State) (f : BoardState → BoardState) : (s.onBoard f).planes = s.planes := rfl
@[simp] theorem State.onBoard_que (s : State) (f : BoardState → BoardState) : (s.onBoard f).que = s.que := rfl
@[simp] theorem State.onBoard_cv (s : State) (f : BoardState → BoardState) : (s.onBoard f).cv = s.cv := rfl
@[simp] theorem State.onBoard_cmd (s : State) (f : BoardState → BoardState) : (s.onBoard f).cmd = s.cmd := rfl
@[simp] theorem State.onBoard_armed (s : State) (f : BoardState → BoardState) : (s.onBoard f).armed = s.armed := rfl
@[simp] theorem State.onBoard_reports (s : State) (f : BoardState → BoardState) : (s.onBoard f).reports = s.reports := rfl
@[simp] theorem State.onBoard_regions (s : State) (f : BoardState → BoardState) : (s.onBoard f).regions = s.regions := rfl
@[simp] theorem State.onBoard_hubFails (s : State) (f : BoardState → BoardState) : (s.onBoard f).hubFails = s.hubFails := rfl
@[simp] theorem State.onBoard_chain (s : State) (f : BoardState → BoardState) : (s.onBoard f).chain = s.chain := rfl
@[simp] theorem State.onBoard_lastWord (s : State) (f : BoardState → BoardState) : (s.onBoard f).lastWord = s.lastWord := rfl
@[simp] theorem State.onBoard_lastStatus (s : State) (f : BoardState → BoardState) : (s.onBoard f).lastStatus = s.lastStatus := rfl

@[simp] theorem State.onPdom_pending (s : State) (d : Nat) (f : PowerDom → PowerDom) : (s.onPdom d f).pending = s.pending := rfl
@[simp] theorem State.onPdom_loc (s : State) (d : Nat) (f : PowerDom → PowerDom) : (s.onPdom d f).loc = s.loc := rfl
@[simp] theorem State.onPdom_free (s : State) (d : Nat) (f : PowerDom → PowerDom) : (s.onPdom d f).free = s.free := rfl
@[simp] theorem State.onPdom_regs (s : State) (d : Nat) (f : PowerDom → PowerDom) : (s.onPdom d f).regs = s.regs := rfl
@[simp] theorem State.onPdom_mem (s : State) (d : Nat) (f : PowerDom → PowerDom) : (s.onPdom d f).mem = s.mem := rfl
@[simp] theorem State.onPdom_pos (s : State) (d : Nat) (f : PowerDom → PowerDom) : (s.onPdom d f).pos = s.pos := rfl
@[simp] theorem State.onPdom_time (s : State) (d : Nat) (f : PowerDom → PowerDom) : (s.onPdom d f).time = s.time := rfl
@[simp] theorem State.onPdom_head (s : State) (d : Nat) (f : PowerDom → PowerDom) : (s.onPdom d f).head = s.head := rfl
@[simp] theorem State.onPdom_rtr (s : State) (d : Nat) (f : PowerDom → PowerDom) : (s.onPdom d f).rtr = s.rtr := rfl
@[simp] theorem State.onPdom_fab (s : State) (d : Nat) (f : PowerDom → PowerDom) : (s.onPdom d f).fab = s.fab := rfl
@[simp] theorem State.onPdom_trk (s : State) (d : Nat) (f : PowerDom → PowerDom) : (s.onPdom d f).trk = s.trk := rfl
@[simp] theorem State.onPdom_obj (s : State) (d : Nat) (f : PowerDom → PowerDom) : (s.onPdom d f).obj = s.obj := rfl
@[simp] theorem State.onPdom_tail (s : State) (d : Nat) (f : PowerDom → PowerDom) : (s.onPdom d f).tail = s.tail := rfl
@[simp] theorem State.onPdom_aux (s : State) (d : Nat) (f : PowerDom → PowerDom) : (s.onPdom d f).aux = s.aux := rfl
@[simp] theorem State.onPdom_mclk (s : State) (d : Nat) (f : PowerDom → PowerDom) : (s.onPdom d f).mclk = s.mclk := rfl
@[simp] theorem State.onPdom_spoke (s : State) (d : Nat) (f : PowerDom → PowerDom) : (s.onPdom d f).spoke = s.spoke := rfl
@[simp] theorem State.onPdom_host (s : State) (d : Nat) (f : PowerDom → PowerDom) : (s.onPdom d f).host = s.host := rfl
@[simp] theorem State.onPdom_planes (s : State) (d : Nat) (f : PowerDom → PowerDom) : (s.onPdom d f).planes = s.planes := rfl
@[simp] theorem State.onPdom_que (s : State) (d : Nat) (f : PowerDom → PowerDom) : (s.onPdom d f).que = s.que := rfl
@[simp] theorem State.onPdom_cv (s : State) (d : Nat) (f : PowerDom → PowerDom) : (s.onPdom d f).cv = s.cv := rfl
@[simp] theorem State.onPdom_cmd (s : State) (d : Nat) (f : PowerDom → PowerDom) : (s.onPdom d f).cmd = s.cmd := rfl
@[simp] theorem State.onPdom_armed (s : State) (d : Nat) (f : PowerDom → PowerDom) : (s.onPdom d f).armed = s.armed := rfl
@[simp] theorem State.onPdom_reports (s : State) (d : Nat) (f : PowerDom → PowerDom) : (s.onPdom d f).reports = s.reports := rfl
@[simp] theorem State.onPdom_regions (s : State) (d : Nat) (f : PowerDom → PowerDom) : (s.onPdom d f).regions = s.regions := rfl
@[simp] theorem State.onPdom_hubFails (s : State) (d : Nat) (f : PowerDom → PowerDom) : (s.onPdom d f).hubFails = s.hubFails := rfl
@[simp] theorem State.onPdom_chain (s : State) (d : Nat) (f : PowerDom → PowerDom) : (s.onPdom d f).chain = s.chain := rfl
@[simp] theorem State.onPdom_lastWord (s : State) (d : Nat) (f : PowerDom → PowerDom) : (s.onPdom d f).lastWord = s.lastWord := rfl
@[simp] theorem State.onPdom_lastStatus (s : State) (d : Nat) (f : PowerDom → PowerDom) : (s.onPdom d f).lastStatus = s.lastStatus := rfl

@[simp] theorem State.onMon_pending (s : State) (n : Nat) (f : MonChan → MonChan) : (s.onMon n f).pending = s.pending := rfl
@[simp] theorem State.onMon_loc (s : State) (n : Nat) (f : MonChan → MonChan) : (s.onMon n f).loc = s.loc := rfl
@[simp] theorem State.onMon_free (s : State) (n : Nat) (f : MonChan → MonChan) : (s.onMon n f).free = s.free := rfl
@[simp] theorem State.onMon_regs (s : State) (n : Nat) (f : MonChan → MonChan) : (s.onMon n f).regs = s.regs := rfl
@[simp] theorem State.onMon_mem (s : State) (n : Nat) (f : MonChan → MonChan) : (s.onMon n f).mem = s.mem := rfl
@[simp] theorem State.onMon_pos (s : State) (n : Nat) (f : MonChan → MonChan) : (s.onMon n f).pos = s.pos := rfl
@[simp] theorem State.onMon_time (s : State) (n : Nat) (f : MonChan → MonChan) : (s.onMon n f).time = s.time := rfl
@[simp] theorem State.onMon_head (s : State) (n : Nat) (f : MonChan → MonChan) : (s.onMon n f).head = s.head := rfl
@[simp] theorem State.onMon_rtr (s : State) (n : Nat) (f : MonChan → MonChan) : (s.onMon n f).rtr = s.rtr := rfl
@[simp] theorem State.onMon_fab (s : State) (n : Nat) (f : MonChan → MonChan) : (s.onMon n f).fab = s.fab := rfl
@[simp] theorem State.onMon_trk (s : State) (n : Nat) (f : MonChan → MonChan) : (s.onMon n f).trk = s.trk := rfl
@[simp] theorem State.onMon_obj (s : State) (n : Nat) (f : MonChan → MonChan) : (s.onMon n f).obj = s.obj := rfl
@[simp] theorem State.onMon_tail (s : State) (n : Nat) (f : MonChan → MonChan) : (s.onMon n f).tail = s.tail := rfl
@[simp] theorem State.onMon_aux (s : State) (n : Nat) (f : MonChan → MonChan) : (s.onMon n f).aux = s.aux := rfl
@[simp] theorem State.onMon_mclk (s : State) (n : Nat) (f : MonChan → MonChan) : (s.onMon n f).mclk = s.mclk := rfl
@[simp] theorem State.onMon_spoke (s : State) (n : Nat) (f : MonChan → MonChan) : (s.onMon n f).spoke = s.spoke := rfl
@[simp] theorem State.onMon_host (s : State) (n : Nat) (f : MonChan → MonChan) : (s.onMon n f).host = s.host := rfl
@[simp] theorem State.onMon_planes (s : State) (n : Nat) (f : MonChan → MonChan) : (s.onMon n f).planes = s.planes := rfl
@[simp] theorem State.onMon_que (s : State) (n : Nat) (f : MonChan → MonChan) : (s.onMon n f).que = s.que := rfl
@[simp] theorem State.onMon_cv (s : State) (n : Nat) (f : MonChan → MonChan) : (s.onMon n f).cv = s.cv := rfl
@[simp] theorem State.onMon_cmd (s : State) (n : Nat) (f : MonChan → MonChan) : (s.onMon n f).cmd = s.cmd := rfl
@[simp] theorem State.onMon_armed (s : State) (n : Nat) (f : MonChan → MonChan) : (s.onMon n f).armed = s.armed := rfl
@[simp] theorem State.onMon_reports (s : State) (n : Nat) (f : MonChan → MonChan) : (s.onMon n f).reports = s.reports := rfl
@[simp] theorem State.onMon_regions (s : State) (n : Nat) (f : MonChan → MonChan) : (s.onMon n f).regions = s.regions := rfl
@[simp] theorem State.onMon_hubFails (s : State) (n : Nat) (f : MonChan → MonChan) : (s.onMon n f).hubFails = s.hubFails := rfl
@[simp] theorem State.onMon_chain (s : State) (n : Nat) (f : MonChan → MonChan) : (s.onMon n f).chain = s.chain := rfl
@[simp] theorem State.onMon_lastWord (s : State) (n : Nat) (f : MonChan → MonChan) : (s.onMon n f).lastWord = s.lastWord := rfl
@[simp] theorem State.onMon_lastStatus (s : State) (n : Nat) (f : MonChan → MonChan) : (s.onMon n f).lastStatus = s.lastStatus := rfl

@[simp] theorem State.setRegion_pending (s : State) (r v : Nat) : (s.setRegion r v).pending = s.pending := rfl
@[simp] theorem State.setRegion_loc (s : State) (r v : Nat) : (s.setRegion r v).loc = s.loc := rfl
@[simp] theorem State.setRegion_free (s : State) (r v : Nat) : (s.setRegion r v).free = s.free := rfl
@[simp] theorem State.setRegion_regs (s : State) (r v : Nat) : (s.setRegion r v).regs = s.regs := rfl
@[simp] theorem State.setRegion_mem (s : State) (r v : Nat) : (s.setRegion r v).mem = s.mem := rfl
@[simp] theorem State.setRegion_pos (s : State) (r v : Nat) : (s.setRegion r v).pos = s.pos := rfl
@[simp] theorem State.setRegion_time (s : State) (r v : Nat) : (s.setRegion r v).time = s.time := rfl
@[simp] theorem State.setRegion_head (s : State) (r v : Nat) : (s.setRegion r v).head = s.head := rfl
@[simp] theorem State.setRegion_rtr (s : State) (r v : Nat) : (s.setRegion r v).rtr = s.rtr := rfl
@[simp] theorem State.setRegion_fab (s : State) (r v : Nat) : (s.setRegion r v).fab = s.fab := rfl
@[simp] theorem State.setRegion_trk (s : State) (r v : Nat) : (s.setRegion r v).trk = s.trk := rfl
@[simp] theorem State.setRegion_obj (s : State) (r v : Nat) : (s.setRegion r v).obj = s.obj := rfl
@[simp] theorem State.setRegion_tail (s : State) (r v : Nat) : (s.setRegion r v).tail = s.tail := rfl
@[simp] theorem State.setRegion_aux (s : State) (r v : Nat) : (s.setRegion r v).aux = s.aux := rfl
@[simp] theorem State.setRegion_mclk (s : State) (r v : Nat) : (s.setRegion r v).mclk = s.mclk := rfl
@[simp] theorem State.setRegion_spoke (s : State) (r v : Nat) : (s.setRegion r v).spoke = s.spoke := rfl
@[simp] theorem State.setRegion_host (s : State) (r v : Nat) : (s.setRegion r v).host = s.host := rfl
@[simp] theorem State.setRegion_planes (s : State) (r v : Nat) : (s.setRegion r v).planes = s.planes := rfl
@[simp] theorem State.setRegion_que (s : State) (r v : Nat) : (s.setRegion r v).que = s.que := rfl
@[simp] theorem State.setRegion_cv (s : State) (r v : Nat) : (s.setRegion r v).cv = s.cv := rfl
@[simp] theorem State.setRegion_cmd (s : State) (r v : Nat) : (s.setRegion r v).cmd = s.cmd := rfl
@[simp] theorem State.setRegion_armed (s : State) (r v : Nat) : (s.setRegion r v).armed = s.armed := rfl
@[simp] theorem State.setRegion_reports (s : State) (r v : Nat) : (s.setRegion r v).reports = s.reports := rfl
@[simp] theorem State.setRegion_hubFails (s : State) (r v : Nat) : (s.setRegion r v).hubFails = s.hubFails := rfl
@[simp] theorem State.setRegion_mgmt (s : State) (r v : Nat) : (s.setRegion r v).mgmt = s.mgmt := rfl
@[simp] theorem State.setRegion_chain (s : State) (r v : Nat) : (s.setRegion r v).chain = s.chain := rfl
@[simp] theorem State.setRegion_lastWord (s : State) (r v : Nat) : (s.setRegion r v).lastWord = s.lastWord := rfl
@[simp] theorem State.setRegion_lastStatus (s : State) (r v : Nat) : (s.setRegion r v).lastStatus = s.lastStatus := rfl

@[simp] theorem State.onCv_pending (s : State) (c : Nat) (f : CvContext → CvContext) : (s.onCv c f).pending = s.pending := rfl
@[simp] theorem State.onCv_loc (s : State) (c : Nat) (f : CvContext → CvContext) : (s.onCv c f).loc = s.loc := rfl
@[simp] theorem State.onCv_free (s : State) (c : Nat) (f : CvContext → CvContext) : (s.onCv c f).free = s.free := rfl
@[simp] theorem State.onCv_regs (s : State) (c : Nat) (f : CvContext → CvContext) : (s.onCv c f).regs = s.regs := rfl
@[simp] theorem State.onCv_mem (s : State) (c : Nat) (f : CvContext → CvContext) : (s.onCv c f).mem = s.mem := rfl
@[simp] theorem State.onCv_pos (s : State) (c : Nat) (f : CvContext → CvContext) : (s.onCv c f).pos = s.pos := rfl
@[simp] theorem State.onCv_time (s : State) (c : Nat) (f : CvContext → CvContext) : (s.onCv c f).time = s.time := rfl
@[simp] theorem State.onCv_head (s : State) (c : Nat) (f : CvContext → CvContext) : (s.onCv c f).head = s.head := rfl
@[simp] theorem State.onCv_rtr (s : State) (c : Nat) (f : CvContext → CvContext) : (s.onCv c f).rtr = s.rtr := rfl
@[simp] theorem State.onCv_fab (s : State) (c : Nat) (f : CvContext → CvContext) : (s.onCv c f).fab = s.fab := rfl
@[simp] theorem State.onCv_trk (s : State) (c : Nat) (f : CvContext → CvContext) : (s.onCv c f).trk = s.trk := rfl
@[simp] theorem State.onCv_obj (s : State) (c : Nat) (f : CvContext → CvContext) : (s.onCv c f).obj = s.obj := rfl
@[simp] theorem State.onCv_tail (s : State) (c : Nat) (f : CvContext → CvContext) : (s.onCv c f).tail = s.tail := rfl
@[simp] theorem State.onCv_aux (s : State) (c : Nat) (f : CvContext → CvContext) : (s.onCv c f).aux = s.aux := rfl
@[simp] theorem State.onCv_mclk (s : State) (c : Nat) (f : CvContext → CvContext) : (s.onCv c f).mclk = s.mclk := rfl
@[simp] theorem State.onCv_spoke (s : State) (c : Nat) (f : CvContext → CvContext) : (s.onCv c f).spoke = s.spoke := rfl
@[simp] theorem State.onCv_host (s : State) (c : Nat) (f : CvContext → CvContext) : (s.onCv c f).host = s.host := rfl
@[simp] theorem State.onCv_planes (s : State) (c : Nat) (f : CvContext → CvContext) : (s.onCv c f).planes = s.planes := rfl
@[simp] theorem State.onCv_que (s : State) (c : Nat) (f : CvContext → CvContext) : (s.onCv c f).que = s.que := rfl
@[simp] theorem State.onCv_cmd (s : State) (c : Nat) (f : CvContext → CvContext) : (s.onCv c f).cmd = s.cmd := rfl
@[simp] theorem State.onCv_armed (s : State) (c : Nat) (f : CvContext → CvContext) : (s.onCv c f).armed = s.armed := rfl
@[simp] theorem State.onCv_reports (s : State) (c : Nat) (f : CvContext → CvContext) : (s.onCv c f).reports = s.reports := rfl
@[simp] theorem State.onCv_regions (s : State) (c : Nat) (f : CvContext → CvContext) : (s.onCv c f).regions = s.regions := rfl
@[simp] theorem State.onCv_hubFails (s : State) (c : Nat) (f : CvContext → CvContext) : (s.onCv c f).hubFails = s.hubFails := rfl
@[simp] theorem State.onCv_mgmt (s : State) (c : Nat) (f : CvContext → CvContext) : (s.onCv c f).mgmt = s.mgmt := rfl
@[simp] theorem State.onCv_chain (s : State) (c : Nat) (f : CvContext → CvContext) : (s.onCv c f).chain = s.chain := rfl
@[simp] theorem State.onCv_lastWord (s : State) (c : Nat) (f : CvContext → CvContext) : (s.onCv c f).lastWord = s.lastWord := rfl
@[simp] theorem State.onCv_lastStatus (s : State) (c : Nat) (f : CvContext → CvContext) : (s.onCv c f).lastStatus = s.lastStatus := rfl

@[simp] theorem State.onChan_pending (s : State) (c : Nat) (f : AuxChan → AuxChan) : (s.onChan c f).pending = s.pending := rfl
@[simp] theorem State.onChan_loc (s : State) (c : Nat) (f : AuxChan → AuxChan) : (s.onChan c f).loc = s.loc := rfl
@[simp] theorem State.onChan_free (s : State) (c : Nat) (f : AuxChan → AuxChan) : (s.onChan c f).free = s.free := rfl
@[simp] theorem State.onChan_regs (s : State) (c : Nat) (f : AuxChan → AuxChan) : (s.onChan c f).regs = s.regs := rfl
@[simp] theorem State.onChan_mem (s : State) (c : Nat) (f : AuxChan → AuxChan) : (s.onChan c f).mem = s.mem := rfl
@[simp] theorem State.onChan_pos (s : State) (c : Nat) (f : AuxChan → AuxChan) : (s.onChan c f).pos = s.pos := rfl
@[simp] theorem State.onChan_time (s : State) (c : Nat) (f : AuxChan → AuxChan) : (s.onChan c f).time = s.time := rfl
@[simp] theorem State.onChan_head (s : State) (c : Nat) (f : AuxChan → AuxChan) : (s.onChan c f).head = s.head := rfl
@[simp] theorem State.onChan_rtr (s : State) (c : Nat) (f : AuxChan → AuxChan) : (s.onChan c f).rtr = s.rtr := rfl
@[simp] theorem State.onChan_fab (s : State) (c : Nat) (f : AuxChan → AuxChan) : (s.onChan c f).fab = s.fab := rfl
@[simp] theorem State.onChan_trk (s : State) (c : Nat) (f : AuxChan → AuxChan) : (s.onChan c f).trk = s.trk := rfl
@[simp] theorem State.onChan_obj (s : State) (c : Nat) (f : AuxChan → AuxChan) : (s.onChan c f).obj = s.obj := rfl
@[simp] theorem State.onChan_tail (s : State) (c : Nat) (f : AuxChan → AuxChan) : (s.onChan c f).tail = s.tail := rfl
@[simp] theorem State.onChan_mclk (s : State) (c : Nat) (f : AuxChan → AuxChan) : (s.onChan c f).mclk = s.mclk := rfl
@[simp] theorem State.onChan_spoke (s : State) (c : Nat) (f : AuxChan → AuxChan) : (s.onChan c f).spoke = s.spoke := rfl
@[simp] theorem State.onChan_host (s : State) (c : Nat) (f : AuxChan → AuxChan) : (s.onChan c f).host = s.host := rfl
@[simp] theorem State.onChan_planes (s : State) (c : Nat) (f : AuxChan → AuxChan) : (s.onChan c f).planes = s.planes := rfl
@[simp] theorem State.onChan_que (s : State) (c : Nat) (f : AuxChan → AuxChan) : (s.onChan c f).que = s.que := rfl
@[simp] theorem State.onChan_cv (s : State) (c : Nat) (f : AuxChan → AuxChan) : (s.onChan c f).cv = s.cv := rfl
@[simp] theorem State.onChan_cmd (s : State) (c : Nat) (f : AuxChan → AuxChan) : (s.onChan c f).cmd = s.cmd := rfl
@[simp] theorem State.onChan_armed (s : State) (c : Nat) (f : AuxChan → AuxChan) : (s.onChan c f).armed = s.armed := rfl
@[simp] theorem State.onChan_reports (s : State) (c : Nat) (f : AuxChan → AuxChan) : (s.onChan c f).reports = s.reports := rfl
@[simp] theorem State.onChan_regions (s : State) (c : Nat) (f : AuxChan → AuxChan) : (s.onChan c f).regions = s.regions := rfl
@[simp] theorem State.onChan_hubFails (s : State) (c : Nat) (f : AuxChan → AuxChan) : (s.onChan c f).hubFails = s.hubFails := rfl
@[simp] theorem State.onChan_mgmt (s : State) (c : Nat) (f : AuxChan → AuxChan) : (s.onChan c f).mgmt = s.mgmt := rfl
@[simp] theorem State.onChan_chain (s : State) (c : Nat) (f : AuxChan → AuxChan) : (s.onChan c f).chain = s.chain := rfl
@[simp] theorem State.onChan_lastWord (s : State) (c : Nat) (f : AuxChan → AuxChan) : (s.onChan c f).lastWord = s.lastWord := rfl
@[simp] theorem State.onChan_lastStatus (s : State) (c : Nat) (f : AuxChan → AuxChan) : (s.onChan c f).lastStatus = s.lastStatus := rfl

@[simp] theorem State.onHost_pending (s : State) (f : HostState → HostState) : (s.onHost f).pending = s.pending := rfl
@[simp] theorem State.onHost_loc (s : State) (f : HostState → HostState) : (s.onHost f).loc = s.loc := rfl
@[simp] theorem State.onHost_free (s : State) (f : HostState → HostState) : (s.onHost f).free = s.free := rfl
@[simp] theorem State.onHost_regs (s : State) (f : HostState → HostState) : (s.onHost f).regs = s.regs := rfl
@[simp] theorem State.onHost_mem (s : State) (f : HostState → HostState) : (s.onHost f).mem = s.mem := rfl
@[simp] theorem State.onHost_pos (s : State) (f : HostState → HostState) : (s.onHost f).pos = s.pos := rfl
@[simp] theorem State.onHost_time (s : State) (f : HostState → HostState) : (s.onHost f).time = s.time := rfl
@[simp] theorem State.onHost_head (s : State) (f : HostState → HostState) : (s.onHost f).head = s.head := rfl
@[simp] theorem State.onHost_rtr (s : State) (f : HostState → HostState) : (s.onHost f).rtr = s.rtr := rfl
@[simp] theorem State.onHost_fab (s : State) (f : HostState → HostState) : (s.onHost f).fab = s.fab := rfl
@[simp] theorem State.onHost_trk (s : State) (f : HostState → HostState) : (s.onHost f).trk = s.trk := rfl
@[simp] theorem State.onHost_obj (s : State) (f : HostState → HostState) : (s.onHost f).obj = s.obj := rfl
@[simp] theorem State.onHost_tail (s : State) (f : HostState → HostState) : (s.onHost f).tail = s.tail := rfl
@[simp] theorem State.onHost_aux (s : State) (f : HostState → HostState) : (s.onHost f).aux = s.aux := rfl
@[simp] theorem State.onHost_mclk (s : State) (f : HostState → HostState) : (s.onHost f).mclk = s.mclk := rfl
@[simp] theorem State.onHost_spoke (s : State) (f : HostState → HostState) : (s.onHost f).spoke = s.spoke := rfl
@[simp] theorem State.onHost_planes (s : State) (f : HostState → HostState) : (s.onHost f).planes = s.planes := rfl
@[simp] theorem State.onHost_que (s : State) (f : HostState → HostState) : (s.onHost f).que = s.que := rfl
@[simp] theorem State.onHost_cv (s : State) (f : HostState → HostState) : (s.onHost f).cv = s.cv := rfl
@[simp] theorem State.onHost_cmd (s : State) (f : HostState → HostState) : (s.onHost f).cmd = s.cmd := rfl
@[simp] theorem State.onHost_armed (s : State) (f : HostState → HostState) : (s.onHost f).armed = s.armed := rfl
@[simp] theorem State.onHost_reports (s : State) (f : HostState → HostState) : (s.onHost f).reports = s.reports := rfl
@[simp] theorem State.onHost_regions (s : State) (f : HostState → HostState) : (s.onHost f).regions = s.regions := rfl
@[simp] theorem State.onHost_hubFails (s : State) (f : HostState → HostState) : (s.onHost f).hubFails = s.hubFails := rfl
@[simp] theorem State.onHost_mgmt (s : State) (f : HostState → HostState) : (s.onHost f).mgmt = s.mgmt := rfl
@[simp] theorem State.onHost_chain (s : State) (f : HostState → HostState) : (s.onHost f).chain = s.chain := rfl
@[simp] theorem State.onHost_lastWord (s : State) (f : HostState → HostState) : (s.onHost f).lastWord = s.lastWord := rfl
@[simp] theorem State.onHost_lastStatus (s : State) (f : HostState → HostState) : (s.onHost f).lastStatus = s.lastStatus := rfl

@[simp] theorem State.onSdio_pending (s : State) (f : SdioState → SdioState) : (s.onSdio f).pending = s.pending := rfl
@[simp] theorem State.onSdio_loc (s : State) (f : SdioState → SdioState) : (s.onSdio f).loc = s.loc := rfl
@[simp] theorem State.onSdio_free (s : State) (f : SdioState → SdioState) : (s.onSdio f).free = s.free := rfl
@[simp] theorem State.onSdio_regs (s : State) (f : SdioState → SdioState) : (s.onSdio f).regs = s.regs := rfl
@[simp] theorem State.onSdio_mem (s : State) (f : SdioState → SdioState) : (s.onSdio f).mem = s.mem := rfl
@[simp] theorem State.onSdio_pos (s : State) (f : SdioState → SdioState) : (s.onSdio f).pos = s.pos := rfl
@[simp] theorem State.onSdio_time (s : State) (f : SdioState → SdioState) : (s.onSdio f).time = s.time := rfl
@[simp] theorem State.onSdio_head (s : State) (f : SdioState → SdioState) : (s.onSdio f).head = s.head := rfl
@[simp] theorem State.onSdio_rtr (s : State) (f : SdioState → SdioState) : (s.onSdio f).rtr = s.rtr := rfl
@[simp] theorem State.onSdio_fab (s : State) (f : SdioState → SdioState) : (s.onSdio f).fab = s.fab := rfl
@[simp] theorem State.onSdio_trk (s : State) (f : SdioState → SdioState) : (s.onSdio f).trk = s.trk := rfl
@[simp] theorem State.onSdio_obj (s : State) (f : SdioState → SdioState) : (s.onSdio f).obj = s.obj := rfl
@[simp] theorem State.onSdio_tail (s : State) (f : SdioState → SdioState) : (s.onSdio f).tail = s.tail := rfl
@[simp] theorem State.onSdio_aux (s : State) (f : SdioState → SdioState) : (s.onSdio f).aux = s.aux := rfl
@[simp] theorem State.onSdio_mclk (s : State) (f : SdioState → SdioState) : (s.onSdio f).mclk = s.mclk := rfl
@[simp] theorem State.onSdio_spoke (s : State) (f : SdioState → SdioState) : (s.onSdio f).spoke = s.spoke := rfl
@[simp] theorem State.onSdio_planes (s : State) (f : SdioState → SdioState) : (s.onSdio f).planes = s.planes := rfl
@[simp] theorem State.onSdio_que (s : State) (f : SdioState → SdioState) : (s.onSdio f).que = s.que := rfl
@[simp] theorem State.onSdio_cv (s : State) (f : SdioState → SdioState) : (s.onSdio f).cv = s.cv := rfl
@[simp] theorem State.onSdio_cmd (s : State) (f : SdioState → SdioState) : (s.onSdio f).cmd = s.cmd := rfl
@[simp] theorem State.onSdio_armed (s : State) (f : SdioState → SdioState) : (s.onSdio f).armed = s.armed := rfl
@[simp] theorem State.onSdio_reports (s : State) (f : SdioState → SdioState) : (s.onSdio f).reports = s.reports := rfl
@[simp] theorem State.onSdio_regions (s : State) (f : SdioState → SdioState) : (s.onSdio f).regions = s.regions := rfl
@[simp] theorem State.onSdio_hubFails (s : State) (f : SdioState → SdioState) : (s.onSdio f).hubFails = s.hubFails := rfl
@[simp] theorem State.onSdio_mgmt (s : State) (f : SdioState → SdioState) : (s.onSdio f).mgmt = s.mgmt := rfl
@[simp] theorem State.onSdio_chain (s : State) (f : SdioState → SdioState) : (s.onSdio f).chain = s.chain := rfl
@[simp] theorem State.onSdio_lastWord (s : State) (f : SdioState → SdioState) : (s.onSdio f).lastWord = s.lastWord := rfl
@[simp] theorem State.onSdio_lastStatus (s : State) (f : SdioState → SdioState) : (s.onSdio f).lastStatus = s.lastStatus := rfl

@[simp] theorem State.onQueue_pending (s : State) (q : Nat) (f : Queue → Queue) : (s.onQueue q f).pending = s.pending := rfl
@[simp] theorem State.onQueue_loc (s : State) (q : Nat) (f : Queue → Queue) : (s.onQueue q f).loc = s.loc := rfl
@[simp] theorem State.onQueue_free (s : State) (q : Nat) (f : Queue → Queue) : (s.onQueue q f).free = s.free := rfl
@[simp] theorem State.onQueue_regs (s : State) (q : Nat) (f : Queue → Queue) : (s.onQueue q f).regs = s.regs := rfl
@[simp] theorem State.onQueue_mem (s : State) (q : Nat) (f : Queue → Queue) : (s.onQueue q f).mem = s.mem := rfl
@[simp] theorem State.onQueue_pos (s : State) (q : Nat) (f : Queue → Queue) : (s.onQueue q f).pos = s.pos := rfl
@[simp] theorem State.onQueue_time (s : State) (q : Nat) (f : Queue → Queue) : (s.onQueue q f).time = s.time := rfl
@[simp] theorem State.onQueue_head (s : State) (q : Nat) (f : Queue → Queue) : (s.onQueue q f).head = s.head := rfl
@[simp] theorem State.onQueue_rtr (s : State) (q : Nat) (f : Queue → Queue) : (s.onQueue q f).rtr = s.rtr := rfl
@[simp] theorem State.onQueue_fab (s : State) (q : Nat) (f : Queue → Queue) : (s.onQueue q f).fab = s.fab := rfl
@[simp] theorem State.onQueue_trk (s : State) (q : Nat) (f : Queue → Queue) : (s.onQueue q f).trk = s.trk := rfl
@[simp] theorem State.onQueue_obj (s : State) (q : Nat) (f : Queue → Queue) : (s.onQueue q f).obj = s.obj := rfl
@[simp] theorem State.onQueue_tail (s : State) (q : Nat) (f : Queue → Queue) : (s.onQueue q f).tail = s.tail := rfl
@[simp] theorem State.onQueue_aux (s : State) (q : Nat) (f : Queue → Queue) : (s.onQueue q f).aux = s.aux := rfl
@[simp] theorem State.onQueue_mclk (s : State) (q : Nat) (f : Queue → Queue) : (s.onQueue q f).mclk = s.mclk := rfl
@[simp] theorem State.onQueue_spoke (s : State) (q : Nat) (f : Queue → Queue) : (s.onQueue q f).spoke = s.spoke := rfl
@[simp] theorem State.onQueue_host (s : State) (q : Nat) (f : Queue → Queue) : (s.onQueue q f).host = s.host := rfl
@[simp] theorem State.onQueue_planes (s : State) (q : Nat) (f : Queue → Queue) : (s.onQueue q f).planes = s.planes := rfl
@[simp] theorem State.onQueue_cv (s : State) (q : Nat) (f : Queue → Queue) : (s.onQueue q f).cv = s.cv := rfl
@[simp] theorem State.onQueue_cmd (s : State) (q : Nat) (f : Queue → Queue) : (s.onQueue q f).cmd = s.cmd := rfl
@[simp] theorem State.onQueue_armed (s : State) (q : Nat) (f : Queue → Queue) : (s.onQueue q f).armed = s.armed := rfl
@[simp] theorem State.onQueue_reports (s : State) (q : Nat) (f : Queue → Queue) : (s.onQueue q f).reports = s.reports := rfl
@[simp] theorem State.onQueue_regions (s : State) (q : Nat) (f : Queue → Queue) : (s.onQueue q f).regions = s.regions := rfl
@[simp] theorem State.onQueue_hubFails (s : State) (q : Nat) (f : Queue → Queue) : (s.onQueue q f).hubFails = s.hubFails := rfl
@[simp] theorem State.onQueue_mgmt (s : State) (q : Nat) (f : Queue → Queue) : (s.onQueue q f).mgmt = s.mgmt := rfl
@[simp] theorem State.onQueue_chain (s : State) (q : Nat) (f : Queue → Queue) : (s.onQueue q f).chain = s.chain := rfl
@[simp] theorem State.onQueue_lastWord (s : State) (q : Nat) (f : Queue → Queue) : (s.onQueue q f).lastWord = s.lastWord := rfl
@[simp] theorem State.onQueue_lastStatus (s : State) (q : Nat) (f : Queue → Queue) : (s.onQueue q f).lastStatus = s.lastStatus := rfl

@[simp] theorem State.setClaim_pending (s : State) (e : Nat) (c : Option Claim) : (s.setClaim e c).pending = s.pending := rfl
@[simp] theorem State.setClaim_loc (s : State) (e : Nat) (c : Option Claim) : (s.setClaim e c).loc = s.loc := rfl
@[simp] theorem State.setClaim_free (s : State) (e : Nat) (c : Option Claim) : (s.setClaim e c).free = s.free := rfl
@[simp] theorem State.setClaim_regs (s : State) (e : Nat) (c : Option Claim) : (s.setClaim e c).regs = s.regs := rfl
@[simp] theorem State.setClaim_mem (s : State) (e : Nat) (c : Option Claim) : (s.setClaim e c).mem = s.mem := rfl
@[simp] theorem State.setClaim_pos (s : State) (e : Nat) (c : Option Claim) : (s.setClaim e c).pos = s.pos := rfl
@[simp] theorem State.setClaim_time (s : State) (e : Nat) (c : Option Claim) : (s.setClaim e c).time = s.time := rfl
@[simp] theorem State.setClaim_head (s : State) (e : Nat) (c : Option Claim) : (s.setClaim e c).head = s.head := rfl
@[simp] theorem State.setClaim_rtr (s : State) (e : Nat) (c : Option Claim) : (s.setClaim e c).rtr = s.rtr := rfl
@[simp] theorem State.setClaim_fab (s : State) (e : Nat) (c : Option Claim) : (s.setClaim e c).fab = s.fab := rfl
@[simp] theorem State.setClaim_trk (s : State) (e : Nat) (c : Option Claim) : (s.setClaim e c).trk = s.trk := rfl
@[simp] theorem State.setClaim_obj (s : State) (e : Nat) (c : Option Claim) : (s.setClaim e c).obj = s.obj := rfl
@[simp] theorem State.setClaim_tail (s : State) (e : Nat) (c : Option Claim) : (s.setClaim e c).tail = s.tail := rfl
@[simp] theorem State.setClaim_aux (s : State) (e : Nat) (c : Option Claim) : (s.setClaim e c).aux = s.aux := rfl
@[simp] theorem State.setClaim_mclk (s : State) (e : Nat) (c : Option Claim) : (s.setClaim e c).mclk = s.mclk := rfl
@[simp] theorem State.setClaim_spoke (s : State) (e : Nat) (c : Option Claim) : (s.setClaim e c).spoke = s.spoke := rfl
@[simp] theorem State.setClaim_host (s : State) (e : Nat) (c : Option Claim) : (s.setClaim e c).host = s.host := rfl
@[simp] theorem State.setClaim_planes (s : State) (e : Nat) (c : Option Claim) : (s.setClaim e c).planes = s.planes := rfl
@[simp] theorem State.setClaim_cv (s : State) (e : Nat) (c : Option Claim) : (s.setClaim e c).cv = s.cv := rfl
@[simp] theorem State.setClaim_cmd (s : State) (e : Nat) (c : Option Claim) : (s.setClaim e c).cmd = s.cmd := rfl
@[simp] theorem State.setClaim_armed (s : State) (e : Nat) (c : Option Claim) : (s.setClaim e c).armed = s.armed := rfl
@[simp] theorem State.setClaim_reports (s : State) (e : Nat) (c : Option Claim) : (s.setClaim e c).reports = s.reports := rfl
@[simp] theorem State.setClaim_regions (s : State) (e : Nat) (c : Option Claim) : (s.setClaim e c).regions = s.regions := rfl
@[simp] theorem State.setClaim_hubFails (s : State) (e : Nat) (c : Option Claim) : (s.setClaim e c).hubFails = s.hubFails := rfl
@[simp] theorem State.setClaim_mgmt (s : State) (e : Nat) (c : Option Claim) : (s.setClaim e c).mgmt = s.mgmt := rfl
@[simp] theorem State.setClaim_chain (s : State) (e : Nat) (c : Option Claim) : (s.setClaim e c).chain = s.chain := rfl
@[simp] theorem State.setClaim_lastWord (s : State) (e : Nat) (c : Option Claim) : (s.setClaim e c).lastWord = s.lastWord := rfl
@[simp] theorem State.setClaim_lastStatus (s : State) (e : Nat) (c : Option Claim) : (s.setClaim e c).lastStatus = s.lastStatus := rfl

@[simp] theorem State.onSpk_pending (s : State) (p : Nat) (f : SpokePort → SpokePort) : (s.onSpk p f).pending = s.pending := rfl
@[simp] theorem State.onSpk_loc (s : State) (p : Nat) (f : SpokePort → SpokePort) : (s.onSpk p f).loc = s.loc := rfl
@[simp] theorem State.onSpk_free (s : State) (p : Nat) (f : SpokePort → SpokePort) : (s.onSpk p f).free = s.free := rfl
@[simp] theorem State.onSpk_regs (s : State) (p : Nat) (f : SpokePort → SpokePort) : (s.onSpk p f).regs = s.regs := rfl
@[simp] theorem State.onSpk_mem (s : State) (p : Nat) (f : SpokePort → SpokePort) : (s.onSpk p f).mem = s.mem := rfl
@[simp] theorem State.onSpk_pos (s : State) (p : Nat) (f : SpokePort → SpokePort) : (s.onSpk p f).pos = s.pos := rfl
@[simp] theorem State.onSpk_time (s : State) (p : Nat) (f : SpokePort → SpokePort) : (s.onSpk p f).time = s.time := rfl
@[simp] theorem State.onSpk_head (s : State) (p : Nat) (f : SpokePort → SpokePort) : (s.onSpk p f).head = s.head := rfl
@[simp] theorem State.onSpk_rtr (s : State) (p : Nat) (f : SpokePort → SpokePort) : (s.onSpk p f).rtr = s.rtr := rfl
@[simp] theorem State.onSpk_fab (s : State) (p : Nat) (f : SpokePort → SpokePort) : (s.onSpk p f).fab = s.fab := rfl
@[simp] theorem State.onSpk_trk (s : State) (p : Nat) (f : SpokePort → SpokePort) : (s.onSpk p f).trk = s.trk := rfl
@[simp] theorem State.onSpk_obj (s : State) (p : Nat) (f : SpokePort → SpokePort) : (s.onSpk p f).obj = s.obj := rfl
@[simp] theorem State.onSpk_tail (s : State) (p : Nat) (f : SpokePort → SpokePort) : (s.onSpk p f).tail = s.tail := rfl
@[simp] theorem State.onSpk_aux (s : State) (p : Nat) (f : SpokePort → SpokePort) : (s.onSpk p f).aux = s.aux := rfl
@[simp] theorem State.onSpk_mclk (s : State) (p : Nat) (f : SpokePort → SpokePort) : (s.onSpk p f).mclk = s.mclk := rfl
@[simp] theorem State.onSpk_host (s : State) (p : Nat) (f : SpokePort → SpokePort) : (s.onSpk p f).host = s.host := rfl
@[simp] theorem State.onSpk_planes (s : State) (p : Nat) (f : SpokePort → SpokePort) : (s.onSpk p f).planes = s.planes := rfl
@[simp] theorem State.onSpk_que (s : State) (p : Nat) (f : SpokePort → SpokePort) : (s.onSpk p f).que = s.que := rfl
@[simp] theorem State.onSpk_cv (s : State) (p : Nat) (f : SpokePort → SpokePort) : (s.onSpk p f).cv = s.cv := rfl
@[simp] theorem State.onSpk_cmd (s : State) (p : Nat) (f : SpokePort → SpokePort) : (s.onSpk p f).cmd = s.cmd := rfl
@[simp] theorem State.onSpk_armed (s : State) (p : Nat) (f : SpokePort → SpokePort) : (s.onSpk p f).armed = s.armed := rfl
@[simp] theorem State.onSpk_reports (s : State) (p : Nat) (f : SpokePort → SpokePort) : (s.onSpk p f).reports = s.reports := rfl
@[simp] theorem State.onSpk_regions (s : State) (p : Nat) (f : SpokePort → SpokePort) : (s.onSpk p f).regions = s.regions := rfl
@[simp] theorem State.onSpk_hubFails (s : State) (p : Nat) (f : SpokePort → SpokePort) : (s.onSpk p f).hubFails = s.hubFails := rfl
@[simp] theorem State.onSpk_mgmt (s : State) (p : Nat) (f : SpokePort → SpokePort) : (s.onSpk p f).mgmt = s.mgmt := rfl
@[simp] theorem State.onSpk_chain (s : State) (p : Nat) (f : SpokePort → SpokePort) : (s.onSpk p f).chain = s.chain := rfl
@[simp] theorem State.onSpk_lastWord (s : State) (p : Nat) (f : SpokePort → SpokePort) : (s.onSpk p f).lastWord = s.lastWord := rfl
@[simp] theorem State.onSpk_lastStatus (s : State) (p : Nat) (f : SpokePort → SpokePort) : (s.onSpk p f).lastStatus = s.lastStatus := rfl

@[simp] theorem State.setRoute_pending (s : State) (a v : Nat) : (s.setRoute a v).pending = s.pending := rfl
@[simp] theorem State.setRoute_loc (s : State) (a v : Nat) : (s.setRoute a v).loc = s.loc := rfl
@[simp] theorem State.setRoute_free (s : State) (a v : Nat) : (s.setRoute a v).free = s.free := rfl
@[simp] theorem State.setRoute_regs (s : State) (a v : Nat) : (s.setRoute a v).regs = s.regs := rfl
@[simp] theorem State.setRoute_mem (s : State) (a v : Nat) : (s.setRoute a v).mem = s.mem := rfl
@[simp] theorem State.setRoute_pos (s : State) (a v : Nat) : (s.setRoute a v).pos = s.pos := rfl
@[simp] theorem State.setRoute_time (s : State) (a v : Nat) : (s.setRoute a v).time = s.time := rfl
@[simp] theorem State.setRoute_head (s : State) (a v : Nat) : (s.setRoute a v).head = s.head := rfl
@[simp] theorem State.setRoute_rtr (s : State) (a v : Nat) : (s.setRoute a v).rtr = s.rtr := rfl
@[simp] theorem State.setRoute_fab (s : State) (a v : Nat) : (s.setRoute a v).fab = s.fab := rfl
@[simp] theorem State.setRoute_trk (s : State) (a v : Nat) : (s.setRoute a v).trk = s.trk := rfl
@[simp] theorem State.setRoute_obj (s : State) (a v : Nat) : (s.setRoute a v).obj = s.obj := rfl
@[simp] theorem State.setRoute_tail (s : State) (a v : Nat) : (s.setRoute a v).tail = s.tail := rfl
@[simp] theorem State.setRoute_aux (s : State) (a v : Nat) : (s.setRoute a v).aux = s.aux := rfl
@[simp] theorem State.setRoute_mclk (s : State) (a v : Nat) : (s.setRoute a v).mclk = s.mclk := rfl
@[simp] theorem State.setRoute_host (s : State) (a v : Nat) : (s.setRoute a v).host = s.host := rfl
@[simp] theorem State.setRoute_planes (s : State) (a v : Nat) : (s.setRoute a v).planes = s.planes := rfl
@[simp] theorem State.setRoute_que (s : State) (a v : Nat) : (s.setRoute a v).que = s.que := rfl
@[simp] theorem State.setRoute_cv (s : State) (a v : Nat) : (s.setRoute a v).cv = s.cv := rfl
@[simp] theorem State.setRoute_cmd (s : State) (a v : Nat) : (s.setRoute a v).cmd = s.cmd := rfl
@[simp] theorem State.setRoute_armed (s : State) (a v : Nat) : (s.setRoute a v).armed = s.armed := rfl
@[simp] theorem State.setRoute_reports (s : State) (a v : Nat) : (s.setRoute a v).reports = s.reports := rfl
@[simp] theorem State.setRoute_regions (s : State) (a v : Nat) : (s.setRoute a v).regions = s.regions := rfl
@[simp] theorem State.setRoute_hubFails (s : State) (a v : Nat) : (s.setRoute a v).hubFails = s.hubFails := rfl
@[simp] theorem State.setRoute_mgmt (s : State) (a v : Nat) : (s.setRoute a v).mgmt = s.mgmt := rfl
@[simp] theorem State.setRoute_chain (s : State) (a v : Nat) : (s.setRoute a v).chain = s.chain := rfl
@[simp] theorem State.setRoute_lastWord (s : State) (a v : Nat) : (s.setRoute a v).lastWord = s.lastWord := rfl
@[simp] theorem State.setRoute_lastStatus (s : State) (a v : Nat) : (s.setRoute a v).lastStatus = s.lastStatus := rfl

@[simp] theorem State.setNode_pending (s : State) (a : Nat) (n : Option ChainNode) : (s.setNode a n).pending = s.pending := rfl
@[simp] theorem State.setNode_loc (s : State) (a : Nat) (n : Option ChainNode) : (s.setNode a n).loc = s.loc := rfl
@[simp] theorem State.setNode_free (s : State) (a : Nat) (n : Option ChainNode) : (s.setNode a n).free = s.free := rfl
@[simp] theorem State.setNode_regs (s : State) (a : Nat) (n : Option ChainNode) : (s.setNode a n).regs = s.regs := rfl
@[simp] theorem State.setNode_mem (s : State) (a : Nat) (n : Option ChainNode) : (s.setNode a n).mem = s.mem := rfl
@[simp] theorem State.setNode_pos (s : State) (a : Nat) (n : Option ChainNode) : (s.setNode a n).pos = s.pos := rfl
@[simp] theorem State.setNode_time (s : State) (a : Nat) (n : Option ChainNode) : (s.setNode a n).time = s.time := rfl
@[simp] theorem State.setNode_head (s : State) (a : Nat) (n : Option ChainNode) : (s.setNode a n).head = s.head := rfl
@[simp] theorem State.setNode_rtr (s : State) (a : Nat) (n : Option ChainNode) : (s.setNode a n).rtr = s.rtr := rfl
@[simp] theorem State.setNode_fab (s : State) (a : Nat) (n : Option ChainNode) : (s.setNode a n).fab = s.fab := rfl
@[simp] theorem State.setNode_trk (s : State) (a : Nat) (n : Option ChainNode) : (s.setNode a n).trk = s.trk := rfl
@[simp] theorem State.setNode_obj (s : State) (a : Nat) (n : Option ChainNode) : (s.setNode a n).obj = s.obj := rfl
@[simp] theorem State.setNode_tail (s : State) (a : Nat) (n : Option ChainNode) : (s.setNode a n).tail = s.tail := rfl
@[simp] theorem State.setNode_aux (s : State) (a : Nat) (n : Option ChainNode) : (s.setNode a n).aux = s.aux := rfl
@[simp] theorem State.setNode_mclk (s : State) (a : Nat) (n : Option ChainNode) : (s.setNode a n).mclk = s.mclk := rfl
@[simp] theorem State.setNode_host (s : State) (a : Nat) (n : Option ChainNode) : (s.setNode a n).host = s.host := rfl
@[simp] theorem State.setNode_planes (s : State) (a : Nat) (n : Option ChainNode) : (s.setNode a n).planes = s.planes := rfl
@[simp] theorem State.setNode_que (s : State) (a : Nat) (n : Option ChainNode) : (s.setNode a n).que = s.que := rfl
@[simp] theorem State.setNode_cv (s : State) (a : Nat) (n : Option ChainNode) : (s.setNode a n).cv = s.cv := rfl
@[simp] theorem State.setNode_cmd (s : State) (a : Nat) (n : Option ChainNode) : (s.setNode a n).cmd = s.cmd := rfl
@[simp] theorem State.setNode_armed (s : State) (a : Nat) (n : Option ChainNode) : (s.setNode a n).armed = s.armed := rfl
@[simp] theorem State.setNode_reports (s : State) (a : Nat) (n : Option ChainNode) : (s.setNode a n).reports = s.reports := rfl
@[simp] theorem State.setNode_regions (s : State) (a : Nat) (n : Option ChainNode) : (s.setNode a n).regions = s.regions := rfl
@[simp] theorem State.setNode_hubFails (s : State) (a : Nat) (n : Option ChainNode) : (s.setNode a n).hubFails = s.hubFails := rfl
@[simp] theorem State.setNode_mgmt (s : State) (a : Nat) (n : Option ChainNode) : (s.setNode a n).mgmt = s.mgmt := rfl
@[simp] theorem State.setNode_chain (s : State) (a : Nat) (n : Option ChainNode) : (s.setNode a n).chain = s.chain := rfl
@[simp] theorem State.setNode_lastWord (s : State) (a : Nat) (n : Option ChainNode) : (s.setNode a n).lastWord = s.lastWord := rfl
@[simp] theorem State.setNode_lastStatus (s : State) (a : Nat) (n : Option ChainNode) : (s.setNode a n).lastStatus = s.lastStatus := rfl

/-! ### What an update writes -/

@[simp] theorem State.setWord_regs (s : State) (id : Nat) (w : Word) : (s.setWord id w).regs = Sparse.set resetWord s.regs id w := rfl
@[simp] theorem State.writeByte_mem (s : State) (a : Nat) (b : Byte) : (s.writeByte a b).mem = Sparse.set memDefault s.mem a b := rfl
@[simp] theorem State.onHost_host (s : State) (f : HostState → HostState) : (s.onHost f).host = f s.host := rfl
@[simp] theorem State.onSdio_host (s : State) (f : SdioState → SdioState) : (s.onSdio f).host = { s.host with sdio := f s.host.sdio } := rfl
@[simp] theorem State.onModel_mgmt (s : State) (f : ModelState → ModelState) : (s.onModel f).mgmt = { s.mgmt with model := f s.mgmt.model } := rfl
@[simp] theorem State.onPower_mgmt (s : State) (f : PowerState → PowerState) : (s.onPower f).mgmt = { s.mgmt with power := f s.mgmt.power } := rfl
@[simp] theorem State.onLogs_mgmt (s : State) (f : LogState → LogState) : (s.onLogs f).mgmt = { s.mgmt with logs := f s.mgmt.logs } := rfl
@[simp] theorem State.onFault_mgmt (s : State) (f : FaultState → FaultState) : (s.onFault f).mgmt = { s.mgmt with fault := f s.mgmt.fault } := rfl
@[simp] theorem State.onSec_mgmt (s : State) (f : SecState → SecState) : (s.onSec f).mgmt = { s.mgmt with sec := f s.mgmt.sec } := rfl
@[simp] theorem State.onTest_mgmt (s : State) (f : TestState → TestState) : (s.onTest f).mgmt = { s.mgmt with test := f s.mgmt.test } := rfl
@[simp] theorem State.onBoard_mgmt (s : State) (f : BoardState → BoardState) : (s.onBoard f).mgmt = { s.mgmt with board := f s.mgmt.board } := rfl

end Sys2Proof.Machine
end

