-- ==== Sys2Proof/Laws/Carry.lean ====
section
/-!
SUPPORT. What every operation of the model carries over from the state it starts from: the waiting commands, no fall of the
counter of free values, and the canonical form of every store.
-/

namespace Sys2Proof.Machine

/-- `t` has the queue of `s`, has taken no fewer free values, and is canonical if `s` is. -/
structure Carries (s t : State) : Prop where
  pending : t.pending = s.pending
  free : s.free ≤ t.free
  canonical : s.canonical → t.canonical

@[simp] theorem Carries.refl (s : State) : Carries s s := ⟨rfl, le_refl _, id⟩

theorem Carries.trans {s t u : State} (h : Carries s t) (k : Carries t u) : Carries s u :=
  ⟨k.pending.trans h.pending, h.free.trans k.free, fun c => k.canonical (h.canonical c)⟩

/-- A conjunction of two checks stands when each of them does. -/
theorem keepBoth {a b c d : Bool} (h : a = true → c = true) (k : b = true → d = true) (x : (a && b) = true) :
    (c && d) = true :=
  Bool.and_eq_true_iff.2 ((Bool.and_eq_true_iff.1 x).imp h k)

/-- A record update: the queue stands, and each store that changes stays canonical. -/
@[simp] theorem Carries.record {s0 s : State} {loc : Nat} {free : Nat} {regs : Sparse Word} {mem : Sparse Byte} {pos : PosState} {time : TimeState} {head : HeadState} {rtr : RouterState} {fab : FabState} {trk : TrkState} {obj : ObjState} {tail : TailState} {aux : Sparse AuxChan} {mclk : Nat × Nat} {spoke : SpokeState} {host : HostState} {planes : List PartPlane} {que : QueState} {cv : Sparse CvContext} {cmd : CmdState} {armed : Bool} {reports : List (Nat × ErrorReport)} {regions : Sparse Nat} {hubFails : List Nat} {mgmt : MgmtState} {chain : Option Byte} {lastWord : Word} {lastStatus : Status} (h : Carries s0 s) (hf : s.free ≤ free)
    (hm : Sparse.wf memDefault s.mem = true → Sparse.wf memDefault mem = true)
    (hr : Sparse.wf resetWord s.regs = true → Sparse.wf resetWord regs = true)
    (w1 : Sparse.wf (fun _ => Tracker.empty) s.trk.trackers = true → Sparse.wf (fun _ => Tracker.empty) trk.trackers = true)
    (w2 : Sparse.wf (fun _ => none) s.trk.slots = true → Sparse.wf (fun _ => none) trk.slots = true)
    (w3 : Sparse.wf (fun _ => none) s.trk.mirror = true → Sparse.wf (fun _ => none) trk.mirror = true)
    (w4 : Sparse.wf resetWord s.trk.mirrorWords = true → Sparse.wf resetWord trk.mirrorWords = true)
    (w5 : Sparse.wf (fun _ => []) s.trk.refine = true → Sparse.wf (fun _ => []) trk.refine = true)
    (w6 : Sparse.wf (fun _ => DenseUnit.empty) s.obj.units = true → Sparse.wf (fun _ => DenseUnit.empty) obj.units = true)
    (w7 : Sparse.wf (fun _ => HistState.empty) s.obj.hist = true → Sparse.wf (fun _ => HistState.empty) obj.hist = true)
    (w8 : Sparse.wf (fun _ => 0) s.time.snapTcu = true → Sparse.wf (fun _ => 0) time.snapTcu = true)
    (w9 : Sparse.wf (fun _ => []) s.time.tcu = true → Sparse.wf (fun _ => []) time.tcu = true)
    (w10 : Sparse.wf (fun _ => AuxChan.empty) s.aux = true → Sparse.wf (fun _ => AuxChan.empty) aux = true)
    (w11 : Sparse.wf (fun _ => HeadPort.reset) s.head.ports = true → Sparse.wf (fun _ => HeadPort.reset) head.ports = true)
    (w12 : Sparse.wf (fun _ => 0) s.head.sub = true → Sparse.wf (fun _ => 0) head.sub = true)
    (w13 : Sparse.wf (fun _ => 0) s.head.passed = true → Sparse.wf (fun _ => 0) head.passed = true)
    (w14 : Sparse.wf (fun _ => 0) s.rtr.grants = true → Sparse.wf (fun _ => 0) rtr.grants = true)
    (w15 : Sparse.wf (fun _ => Node.empty) s.rtr.nodes = true → Sparse.wf (fun _ => Node.empty) rtr.nodes = true)
    (w16 : Sparse.wf (fun _ => 0) s.rtr.subs = true → Sparse.wf (fun _ => 0) rtr.subs = true)
    (w17 : Sparse.wf transDefault s.rtr.trans = true → Sparse.wf transDefault rtr.trans = true)
    (w18 : Sparse.wf (fun _ => Block.empty) s.fab.blocks = true → Sparse.wf (fun _ => Block.empty) fab.blocks = true)
    (w19 : Sparse.wf (fun _ => Conv.empty) s.fab.convs = true → Sparse.wf (fun _ => Conv.empty) fab.convs = true)
    (w20 : Sparse.wf (fun _ => (0 : Byte)) s.host.sdio.f0 = true → Sparse.wf (fun _ => (0 : Byte)) host.sdio.f0 = true)
    (w21 : Sparse.wf (fun _ => (0 : Byte)) s.host.sdio.inbox = true → Sparse.wf (fun _ => (0 : Byte)) host.sdio.inbox = true)
    (w22 : Sparse.wf (fun _ => SpokePort.reset) s.spoke.ports = true → Sparse.wf (fun _ => SpokePort.reset) spoke.ports = true)
    (w23 : Sparse.wf (fun _ => 7) s.spoke.routes = true → Sparse.wf (fun _ => 7) spoke.routes = true)
    (w24 : Sparse.wf (fun _ => none) s.spoke.nodes = true → Sparse.wf (fun _ => none) spoke.nodes = true)
    (w25 : Sparse.wf (fun _ => 0) s.regions = true → Sparse.wf (fun _ => 0) regions = true)
    (w26 : Sparse.wf (fun _ => CvContext.reset) s.cv = true → Sparse.wf (fun _ => CvContext.reset) cv = true)
    (w27 : Sparse.wf (fun _ => PowerDom.reset) s.mgmt.power.doms = true → Sparse.wf (fun _ => PowerDom.reset) mgmt.power.doms = true)
    (w28 : Sparse.wf (fun _ => MonChan.reset) s.mgmt.mon = true → Sparse.wf (fun _ => MonChan.reset) mgmt.mon = true)
    (w29 : Sparse.wf (fun _ => Queue.empty) s.que.queues = true → Sparse.wf (fun _ => Queue.empty) que.queues = true)
    (w30 : Sparse.wf (fun _ => none) s.que.claims = true → Sparse.wf (fun _ => none) que.claims = true) :
    Carries s0 (State.mk s.pending loc free regs mem pos time head rtr fab trk obj tail aux mclk spoke host planes que cv cmd armed reports regions hubFails mgmt chain lastWord lastStatus) :=
  h.trans ⟨rfl, hf, fun c =>
    { mem := hm c.mem
      regs := hr c.regs
      objects := (keepBoth (keepBoth (keepBoth (keepBoth (keepBoth (keepBoth (keepBoth (keepBoth (keepBoth w1 w2) w3) w4) w5) w6) w7) w8) w9) w10) c.objects
      fabric := (keepBoth (keepBoth (keepBoth (keepBoth (keepBoth (keepBoth (keepBoth (keepBoth w11 w12) w13) w14) w15) w16) w17) w18) w19) c.fabric
      system := (keepBoth (keepBoth (keepBoth (keepBoth (keepBoth (keepBoth (keepBoth (keepBoth (keepBoth (keepBoth w20 w21) w22) w23) w24) w25) w26) w27) w28) w29) w30) c.system }⟩

/-- A change of the queue's rest keeps the canonical form. -/
theorem State.canonical_pending {s : State} {q : List Instr} (h : s.canonical) : { s with pending := q }.canonical :=
  ⟨h.mem, h.regs, h.objects, h.fabric, h.system⟩

/-! ### Updates of a store -/

section

variable {s0 s : State} (h : Carries s0 s)

include h

@[simp] theorem State.setWord_carries (id : Nat) (w : Word) : Carries s0 (s.setWord id w) :=
  h.trans ⟨rfl, le_refl _, fun c => ⟨c.mem, Sparse.set_wf id w c.regs, c.objects, c.fabric, c.system⟩⟩

@[simp] theorem State.writeByte_carries (a : Nat) (b : Byte) : Carries s0 (s.writeByte a b) :=
  h.trans ⟨rfl, le_refl _, fun c => ⟨Sparse.set_wf a b c.mem, c.regs, c.objects, c.fabric, c.system⟩⟩

@[simp] theorem Carries.filterMem (p : Nat × Byte → Bool) : Carries s0 { s with mem := s.mem.filter p } :=
  h.trans ⟨rfl, le_refl _, fun c => ⟨Sparse.filter_wf p c.mem, c.regs, c.objects, c.fabric, c.system⟩⟩

end

@[simp] theorem Carries.ite {s0 a b : State} {c : Prop} [Decidable c] (ha : Carries s0 a) (hb : Carries s0 b) :
    Carries s0 (if c then a else b) := by
  split <;> assumption

theorem Carries.getD {s0 s : State} {o : Option State} (ho : ∀ t, o = some t → Carries s0 t) (h : Carries s0 s) :
    Carries s0 (o.getD s) := by
  cases o with
  | none => exact h
  | some t => exact ho t rfl

theorem whenDue_carries {s0 s : State} {due : Bool} {f : State → State} (h : Carries s0 s) (hf : Carries s0 (f s)) :
    Carries s0 (whenDue due f s) := by
  unfold whenDue
  split <;> assumption

/-! ### Folds -/

@[simp] theorem forEach_carries {α : Type} {s0 : State} {f : State → α → State} (hf : ∀ s x, Carries s0 s → Carries s0 (f s x)) :
    ∀ (xs : List α) {s : State}, Carries s0 s → Carries s0 (forEach xs f s)
  | [], _, h => h
  | x :: xs, s, h => forEach_carries hf xs (hf s x h)

@[simp] theorem foldl_carries {α : Type} {s0 : State} {f : State → α → State} (hf : ∀ s x, Carries s0 s → Carries s0 (f s x)) :
    ∀ (xs : List α) {s : State}, Carries s0 s → Carries s0 (xs.foldl f s) := forEach_carries hf

@[simp] theorem foldl_carries_snd {α β : Type} {s0 : State} {f : β × State → α → β × State}
    (hf : ∀ a x, Carries s0 a.2 → Carries s0 (f a x).2) :
    ∀ (xs : List α) {a : β × State}, Carries s0 a.2 → Carries s0 (xs.foldl f a).2
  | [], _, h => h
  | x :: xs, a, h => foldl_carries_snd hf xs (hf a x h)

@[simp] theorem foldl_carries_fst {α β : Type} {s0 : State} {f : State × β → α → State × β}
    (hf : ∀ a x, Carries s0 a.1 → Carries s0 (f a x).1) :
    ∀ (xs : List α) {a : State × β}, Carries s0 a.1 → Carries s0 (xs.foldl f a).1
  | [], _, h => h
  | x :: xs, a, h => foldl_carries_fst hf xs (hf a x h)

end Sys2Proof.Machine
end

