-- ==== Sys2Proof/Laws/CarryOps.lean ====
section
/-!
SUPPORT. What the operations of the words, the queues, the check values, the ring and the spoke links' flits carry over.
-/

namespace Sys2Proof.Machine

@[simp] theorem State.setFld_carries {s0 s : State} (hc : Carries s0 s) (id : Nat) (lsb : Nat) (width : Nat) (v : Nat) :
      Carries s0 (State.setFld s id lsb width v) := by
  unfold State.setFld
  simp +contextual (maxDischargeDepth := 40) only [hc, State.setWord_carries, implies_true, Sparse.wf_nil, eq_self]

@[simp] theorem State.flag_carries {s0 s : State} (hc : Carries s0 s) (id : Nat) (n : Nat) : Carries s0 (State.flag s id
      n) := by
  unfold State.flag
  simp +contextual (maxDischargeDepth := 40) only [hc, State.setFld_carries, implies_true, Sparse.wf_nil, eq_self]

@[simp] theorem State.flagIf_carries {s0 s : State} (hc : Carries s0 s) (c : Bool) (id : Nat) (n : Nat) : Carries s0
      (State.flagIf s c id n) := by
  unfold State.flagIf
  (repeat' split) <;> simp +contextual (maxDischargeDepth := 40) only [hc, State.flag_carries, Carries.ite, implies_true,
      Sparse.wf_nil, eq_self]

@[simp] theorem State.bump_carries {s0 s : State} (hc : Carries s0 s) (id : Nat) (n : Nat) : Carries s0 (State.bump s id
      n) := by
  unfold State.bump
  (repeat' split) <;> simp +contextual (maxDischargeDepth := 40) only [hc, State.setWord_carries, Carries.ite,
      implies_true, Sparse.wf_nil, eq_self]

@[simp] theorem State.bumpIf_carries {s0 s : State} (hc : Carries s0 s) (c : Bool) (id : Nat) : Carries s0 (State.bumpIf
      s c id) := by
  unfold State.bumpIf
  (repeat' split) <;> simp +contextual (maxDischargeDepth := 40) only [hc, State.bump_carries, Carries.ite, implies_true,
      Sparse.wf_nil, eq_self]

@[simp] theorem State.takeFree_carries {s0 s : State} (hc : Carries s0 s)  : Carries s0 (State.takeFree s).2 := by
  unfold State.takeFree
  simp +contextual (maxDischargeDepth := 40) only [hc, Carries.record, Nat.le_refl, Nat.le_add_right, imp_self,
      implies_true, Sparse.wf_nil, eq_self]
theorem State.takeFree_to {s0 t1 s : State} {x1 : Nat} (hc : Carries s0 s)  (hx : State.takeFree s = (x1,
      t1)) : Carries s0 t1 := by
  have k := State.takeFree_carries hc
  rw [hx] at k
  exact k

@[simp] theorem State.writeBytes_carries {s0 s : State} (hc : Carries s0 s) (a : Nat) (bs : List Byte) :
    Carries s0 (State.writeBytes s a bs) := by
  unfold State.writeBytes
  exact foldl_carries_fst (fun a x ha => State.writeByte_carries ha _ _) bs hc

@[simp] theorem State.setDomain_carries {s0 s : State} (hc : Carries s0 s) (d : Nat) (x : Domain) : Carries s0
      (State.setDomain s d x) := by
  unfold State.setDomain
  (repeat' split) <;> simp +contextual (maxDischargeDepth := 40) only [hc, Carries.ite, Carries.record, Nat.le_refl,
      Nat.le_add_right, imp_self, implies_true, Sparse.wf_nil, eq_self]

@[simp] theorem State.stampOf_carries {s0 s : State} (hc : Carries s0 s) (t : Int) : Carries s0 (State.stampOf s t).2 := by
  unfold State.stampOf
  dsimp only
  (repeat' split) <;> simp +contextual (maxDischargeDepth := 40) only [hc, State.flag_carries, State.bump_carries,
      Carries.ite, implies_true, Sparse.wf_nil, eq_self]
theorem State.stampOf_to {s0 t1 s : State} {x1 : Nat} (hc : Carries s0 s) (t : Int) (hx : State.stampOf s t = (x1,
      t1)) : Carries s0 t1 := by
  have k := State.stampOf_carries hc t
  rw [hx] at k
  exact k

@[simp] theorem State.posNow_carries {s0 s : State} (hc : Carries s0 s)  : Carries s0 (State.posNow s).2 := by
  unfold State.posNow
  dsimp only
  (repeat' split) <;>
    (try have h0 := State.stampOf_to (s0 := s0) (by simp +contextual (maxDischargeDepth := 40) only [hc,
      State.stampOf_carries, Carries.ite, implies_true, Sparse.wf_nil, eq_self]) ‹State.stampOf _ _ = _›) <;>
    simp +contextual (maxDischargeDepth := 40) only [hc, *, State.stampOf_carries, Carries.ite, implies_true,
      Sparse.wf_nil, eq_self]
theorem State.posNow_to {s0 t1 s : State} {x1 : Nat} (hc : Carries s0 s)  (hx : State.posNow s = (x1, t1)) : Carries s0 t1 := by
  have k := State.posNow_carries hc
  rw [hx] at k
  exact k

@[simp] theorem State.setRegion_carries {s0 s : State} (hc : Carries s0 s) (r : Nat) (v : Nat) : Carries s0
      (State.setRegion s r v) := by
  unfold State.setRegion
  simp +contextual (maxDischargeDepth := 40) only [hc, Carries.record, Nat.le_refl, Nat.le_add_right, imp_self,
      Sparse.set_wf, implies_true, Sparse.wf_nil, eq_self]

@[simp] theorem State.onPort_carries {s0 s : State} (hc : Carries s0 s) (p : Nat) (f : HeadPort → HeadPort) : Carries s0
      (State.onPort s p f) := by
  unfold State.onPort
  simp +contextual (maxDischargeDepth := 40) only [hc, Carries.record, Nat.le_refl, Nat.le_add_right, imp_self,
      Sparse.modify_wf, implies_true, Sparse.wf_nil, eq_self]

@[simp] theorem State.onNode_carries {s0 s : State} (hc : Carries s0 s) (r : Nat) (f : Node → Node) : Carries s0
      (State.onNode s r f) := by
  unfold State.onNode
  simp +contextual (maxDischargeDepth := 40) only [hc, Carries.record, Nat.le_refl, Nat.le_add_right, imp_self,
      Sparse.modify_wf, implies_true, Sparse.wf_nil, eq_self]

@[simp] theorem State.onBlock_carries {s0 s : State} (hc : Carries s0 s) (b : Nat) (f : Block → Block) : Carries s0
      (State.onBlock s b f) := by
  unfold State.onBlock
  simp +contextual (maxDischargeDepth := 40) only [hc, Carries.record, Nat.le_refl, Nat.le_add_right, imp_self,
      Sparse.modify_wf, implies_true, Sparse.wf_nil, eq_self]

@[simp] theorem State.onConv_carries {s0 s : State} (hc : Carries s0 s) (r : Nat) (f : Conv → Conv) : Carries s0
      (State.onConv s r f) := by
  unfold State.onConv
  simp +contextual (maxDischargeDepth := 40) only [hc, Carries.record, Nat.le_refl, Nat.le_add_right, imp_self,
      Sparse.modify_wf, implies_true, Sparse.wf_nil, eq_self]

@[simp] theorem State.onHist_carries {s0 s : State} (hc : Carries s0 s) (lr : Nat) (f : HistState → HistState) : Carries
      s0 (State.onHist s lr f) := by
  unfold State.onHist
  simp +contextual (maxDischargeDepth := 40) only [hc, Carries.record, Nat.le_refl, Nat.le_add_right, imp_self,
      Sparse.modify_wf, implies_true, Sparse.wf_nil, eq_self]

@[simp] theorem State.onModel_carries {s0 s : State} (hc : Carries s0 s) (f : ModelState → ModelState) : Carries s0
      (State.onModel s f) := by
  unfold State.onModel
  simp +contextual (maxDischargeDepth := 40) only [hc, Carries.record, Nat.le_refl, Nat.le_add_right, imp_self,
      implies_true, Sparse.wf_nil, eq_self]

@[simp] theorem State.onPower_carries {s0 s : State} (hc : Carries s0 s) (f : PowerState → PowerState) (h0 : Sparse.wf
      (fun _ => PowerDom.reset) s.mgmt.power.doms = true → Sparse.wf (fun _ => PowerDom.reset) (f s.mgmt.power).doms = true) :
    Carries s0 (State.onPower s f) := by
  unfold State.onPower
  apply Carries.record hc (Nat.le_refl _) <;> first | assumption | exact id

@[simp] theorem State.onLogs_carries {s0 s : State} (hc : Carries s0 s) (f : LogState → LogState) : Carries s0
      (State.onLogs s f) := by
  unfold State.onLogs
  simp +contextual (maxDischargeDepth := 40) only [hc, Carries.record, Nat.le_refl, Nat.le_add_right, imp_self,
      implies_true, Sparse.wf_nil, eq_self]

@[simp] theorem State.onFault_carries {s0 s : State} (hc : Carries s0 s) (f : FaultState → FaultState) : Carries s0
      (State.onFault s f) := by
  unfold State.onFault
  simp +contextual (maxDischargeDepth := 40) only [hc, Carries.record, Nat.le_refl, Nat.le_add_right, imp_self,
      implies_true, Sparse.wf_nil, eq_self]

@[simp] theorem State.relocked_carries {s0 s : State} (hc : Carries s0 s) (ds : List Nat) : Carries s0 (State.relocked s
      ds) := by
  unfold State.relocked
  simp +contextual (maxDischargeDepth := 40) only [hc, State.onFault_carries, Carries.record, Nat.le_refl,
      Nat.le_add_right, imp_self, Sparse.filter_wf, implies_true, Sparse.wf_nil, eq_self]

@[simp] theorem State.onSec_carries {s0 s : State} (hc : Carries s0 s) (f : SecState → SecState) : Carries s0
      (State.onSec s f) := by
  unfold State.onSec
  simp +contextual (maxDischargeDepth := 40) only [hc, Carries.record, Nat.le_refl, Nat.le_add_right, imp_self,
      implies_true, Sparse.wf_nil, eq_self]

@[simp] theorem State.onTest_carries {s0 s : State} (hc : Carries s0 s) (f : TestState → TestState) : Carries s0
      (State.onTest s f) := by
  unfold State.onTest
  simp +contextual (maxDischargeDepth := 40) only [hc, Carries.record, Nat.le_refl, Nat.le_add_right, imp_self,
      implies_true, Sparse.wf_nil, eq_self]

@[simp] theorem State.onBoard_carries {s0 s : State} (hc : Carries s0 s) (f : BoardState → BoardState) : Carries s0
      (State.onBoard s f) := by
  unfold State.onBoard
  simp +contextual (maxDischargeDepth := 40) only [hc, Carries.record, Nat.le_refl, Nat.le_add_right, imp_self,
      implies_true, Sparse.wf_nil, eq_self]

@[simp] theorem State.onPdom_carries {s0 s : State} (hc : Carries s0 s) (d : Nat) (f : PowerDom → PowerDom) : Carries s0
      (State.onPdom s d f) := by
  unfold State.onPdom
  simp +contextual (maxDischargeDepth := 40) only [hc, State.onPower_carries, Carries.record, Nat.le_refl,
      Nat.le_add_right, imp_self, Sparse.modify_wf, implies_true, Sparse.wf_nil, eq_self]

@[simp] theorem State.logEntry_carries {s0 s : State} (hc : Carries s0 s) (level : Nat) (action : Nat) (r : ErrorReport)
      : Carries s0 (State.logEntry s level action r) := by
  unfold State.logEntry
  dsimp only
  (repeat' split) <;> simp +contextual (maxDischargeDepth := 40) only [hc, State.bump_carries, State.onLogs_carries,
      Carries.ite, Carries.record, Nat.le_refl, Nat.le_add_right, imp_self, implies_true, Sparse.wf_nil, eq_self]

@[simp] theorem State.queueReport_carries {s0 s : State} (hc : Carries s0 s) (level : Nat) (r : ErrorReport) : Carries s0
      (State.queueReport s level r) := by
  unfold State.queueReport
  (repeat' split) <;> simp +contextual (maxDischargeDepth := 40) only [hc, State.bump_carries, Carries.ite,
      Carries.record, Nat.le_refl, Nat.le_add_right, imp_self, implies_true, Sparse.wf_nil, eq_self]

@[simp] theorem State.takeReport_carries {s0 s : State} (hc : Carries s0 s) (level : Nat) (r : ErrorReport) : Carries s0
      (State.takeReport s level r) := by
  unfold State.takeReport
  (repeat' split) <;> simp +contextual (maxDischargeDepth := 40) only [hc, State.logEntry_carries, Carries.ite,
      implies_true, Sparse.wf_nil, eq_self]

@[simp] theorem State.countUe_carries {s0 s : State} (hc : Carries s0 s) (code : Nat) : Carries s0 (State.countUe s code) := by
  unfold State.countUe
  simp +contextual (maxDischargeDepth := 40) only [hc, State.bumpIf_carries, implies_true, Sparse.wf_nil, eq_self]

@[simp] theorem State.reportAt_carries {s0 s : State} (hc : Carries s0 s) (level : Nat) (r : ErrorReport) : Carries s0
      (State.reportAt s level r) := by
  unfold State.reportAt
  (repeat' split) <;> simp +contextual (maxDischargeDepth := 40) only [hc, State.queueReport_carries,
      State.takeReport_carries, Carries.ite, implies_true, Sparse.wf_nil, eq_self]

@[simp] theorem State.report_carries {s0 s : State} (hc : Carries s0 s) (block : Nat) (inst : Nat) (code : Nat) (detail :
      Nat) : Carries s0 (State.report s block inst code detail) := by
  unfold State.report
  simp +contextual (maxDischargeDepth := 40) only [hc, State.reportAt_carries, implies_true, Sparse.wf_nil, eq_self]

@[simp] theorem State.onMon_carries {s0 s : State} (hc : Carries s0 s) (n : Nat) (f : MonChan → MonChan) : Carries s0
      (State.onMon s n f) := by
  unfold State.onMon
  simp +contextual (maxDischargeDepth := 40) only [hc, Carries.record, Nat.le_refl, Nat.le_add_right, imp_self,
      Sparse.modify_wf, implies_true, Sparse.wf_nil, eq_self]

@[simp] theorem State.sampleOn_carries {s0 s : State} (hc : Carries s0 s) (n : Nat) (v : Int) : Carries s0
      (State.sampleOn s n v) := by
  unfold State.sampleOn
  simp +contextual (maxDischargeDepth := 40) only [hc, State.onMon_carries, Carries.record, Nat.le_refl,
      Nat.le_add_right, imp_self, implies_true, Sparse.wf_nil, eq_self]

@[simp] theorem State.sample_carries {s0 s : State} (hc : Carries s0 s) (quantity : Nat) (inst : Nat) (v : Int) : Carries
      s0 (State.sample s quantity inst v) := by
  unfold State.sample
  simp +contextual (maxDischargeDepth := 40) only [hc, State.sampleOn_carries, forEach_carries, implies_true,
      Sparse.wf_nil, eq_self]

@[simp] theorem State.hubFail_carries {s0 s : State} (hc : Carries s0 s) (r : Nat) : Carries s0 (State.hubFail s r) := by
  unfold State.hubFail
  (repeat' split) <;> simp +contextual (maxDischargeDepth := 40) only [hc, Carries.ite, Carries.record, Nat.le_refl,
      Nat.le_add_right, imp_self, implies_true, Sparse.wf_nil, eq_self]

@[simp] theorem State.markPos_carries {s0 s : State} (hc : Carries s0 s) (k : Int) (mask : Nat) : Carries s0
      (State.markPos s k mask) := by
  unfold State.markPos
  simp +contextual (maxDischargeDepth := 40) only [hc, Carries.record, Nat.le_refl, Nat.le_add_right, imp_self,
      implies_true, Sparse.wf_nil, eq_self]

@[simp] theorem State.markSsn_carries {s0 s : State} (hc : Carries s0 s) (ssn : Nat) (mask : Nat) : Carries s0
      (State.markSsn s ssn mask) := by
  unfold State.markSsn
  simp +contextual (maxDischargeDepth := 40) only [hc, Carries.record, Nat.le_refl, Nat.le_add_right, imp_self,
      implies_true, Sparse.wf_nil, eq_self]

@[simp] theorem State.setClaim_carries {s0 s : State} (hc : Carries s0 s) (e : Nat) (c : Option Claim) : Carries s0
      (State.setClaim s e c) := by
  unfold State.setClaim
  simp +contextual (maxDischargeDepth := 40) only [hc, Carries.record, Nat.le_refl, Nat.le_add_right, imp_self,
      Sparse.set_wf, implies_true, Sparse.wf_nil, eq_self]

@[simp] theorem State.onQueue_carries {s0 s : State} (hc : Carries s0 s) (q : Nat) (f : Queue → Queue) : Carries s0
      (State.onQueue s q f) := by
  unfold State.onQueue
  simp +contextual (maxDischargeDepth := 40) only [hc, Carries.record, Nat.le_refl, Nat.le_add_right, imp_self,
      Sparse.modify_wf, implies_true, Sparse.wf_nil, eq_self]

@[simp] theorem State.queueReset_carries {s0 s : State} (hc : Carries s0 s) (q : Nat) : Carries s0 (State.queueReset s q) := by
  unfold State.queueReset
  simp +contextual (maxDischargeDepth := 40) only [hc, State.flag_carries, State.bump_carries, State.report_carries,
      State.onQueue_carries, implies_true, Sparse.wf_nil, eq_self]

@[simp] theorem State.pointerCheck_carries {s0 s : State} (hc : Carries s0 s) (q : Nat) (c : PtrCheck) : Carries s0
      (State.pointerCheck s q c) := by
  unfold State.pointerCheck
  (repeat' split) <;> simp +contextual (maxDischargeDepth := 40) only [hc, State.bumpIf_carries,
      State.queueReset_carries, Carries.record, Nat.le_refl, Nat.le_add_right, imp_self, implies_true, Sparse.wf_nil, eq_self]

@[simp] theorem State.pushWords_carries {s0 s : State} (hc : Carries s0 s) (q : Nat) (ws : List (BitVec 64)) (eop : Bool)
      : Carries s0 (State.pushWords s q ws eop) := by
  unfold State.pushWords
  dsimp only
  (repeat' split) <;> simp +contextual (maxDischargeDepth := 40) only [hc, State.onQueue_carries, Carries.ite,
      Carries.record, Nat.le_refl, Nat.le_add_right, imp_self, implies_true, Sparse.wf_nil, eq_self]

@[simp] theorem State.dataCorrected_carries {s0 s : State} (hc : Carries s0 s) (q : Nat) : Carries s0
      (State.dataCorrected s q) := by
  unfold State.dataCorrected
  simp +contextual (maxDischargeDepth := 40) only [hc, State.bump_carries, State.bumpIf_carries, implies_true,
      Sparse.wf_nil, eq_self]

@[simp] theorem State.popWord_carries {s0 s : State} (hc : Carries s0 s) (q : Nat) (ecc : EccCheck) : Carries s0
      (State.popWord s q ecc).2.2 := by
  unfold State.popWord
  dsimp only
  (repeat' split) <;> simp +contextual (maxDischargeDepth := 40) only [hc, State.flag_carries, State.bump_carries,
      State.bumpIf_carries, State.report_carries, State.onQueue_carries, State.dataCorrected_carries, Carries.ite,
      Carries.record, Nat.le_refl, Nat.le_add_right, imp_self, Sparse.filter_wf, implies_true, Sparse.wf_nil, eq_self]
theorem State.popWord_to {s0 t1 s : State} {x1 : QWord} {x2 : Nat} (hc : Carries s0 s) (q : Nat) (ecc : EccCheck) (hx :
      State.popWord s q ecc = (x1, x2, t1)) : Carries s0 t1 := by
  have k := State.popWord_carries hc q ecc
  rw [hx] at k
  exact k

@[simp] theorem State.soOp_carries {s0 s : State} (hc : Carries s0 s) (n : Nat) (op : Nat) (operand : Nat) (expected :
      Nat) : Carries s0 (State.soOp s n op operand expected).2.2 := by
  unfold State.soOp
  dsimp only
  (repeat' split) <;> simp +contextual (maxDischargeDepth := 40) only [hc, State.setWord_carries, Carries.record,
      Nat.le_refl, Nat.le_add_right, imp_self, implies_true, Sparse.wf_nil, eq_self]
theorem State.soOp_to {s0 t1 s : State} {x1 : Status} {x2 : Word} (hc : Carries s0 s) (n : Nat) (op : Nat) (operand :
      Nat) (expected : Nat) (hx : State.soOp s n op operand expected = (x1, x2, t1)) : Carries s0 t1 := by
  have k := State.soOp_carries hc n op operand expected
  rw [hx] at k
  exact k

@[simp] theorem State.onCv_carries {s0 s : State} (hc : Carries s0 s) (c : Nat) (f : CvContext → CvContext) : Carries s0
      (State.onCv s c f) := by
  unfold State.onCv
  simp +contextual (maxDischargeDepth := 40) only [hc, Carries.record, Nat.le_refl, Nat.le_add_right, imp_self,
      Sparse.modify_wf, implies_true, Sparse.wf_nil, eq_self]

@[simp] theorem State.cvFeed_carries {s0 s : State} (hc : Carries s0 s) (c : Nat) (bs : List Byte) : Carries s0
      (State.cvFeed s c bs) := by
  unfold State.cvFeed
  dsimp only
  simp +contextual (maxDischargeDepth := 40) only [hc, State.onCv_carries, Carries.record, Nat.le_refl, Nat.le_add_right,
      imp_self, implies_true, Sparse.wf_nil, eq_self]

@[simp] theorem State.cvStart_carries {s0 s : State} (hc : Carries s0 s) (c : Nat) : Carries s0 (State.cvStart s c) := by
  unfold State.cvStart
  dsimp only
  (repeat' split) <;> simp +contextual (maxDischargeDepth := 40) only [hc, State.onCv_carries, State.cvFeed_carries,
      Carries.record, Nat.le_refl, Nat.le_add_right, imp_self, implies_true, Sparse.wf_nil, eq_self]

@[simp] theorem State.cvWritten_carries {s0 s : State} (hc : Carries s0 s) (c : Nat) (i : Nat) (v : Word) : Carries s0
      (State.cvWritten s c i v) := by
  unfold State.cvWritten
  dsimp only
  (repeat' split) <;> simp +contextual (maxDischargeDepth := 40) only [hc, State.onCv_carries, State.cvFeed_carries,
      State.cvStart_carries, Carries.ite, Carries.record, Nat.le_refl, Nat.le_add_right, imp_self, implies_true,
      Sparse.wf_nil, eq_self]

@[simp] theorem State.cvRead_carries {s0 s : State} (hc : Carries s0 s) (c : Nat) (i : Nat) : ∀ a t,
      State.cvRead s c i = some (a, t) → Carries s0 t := by
  unfold State.cvRead
  dsimp only
  (repeat' split) <;> simp +contextual (maxDischargeDepth := 40) only [hc, State.onCv_carries, Carries.record,
      Nat.le_refl, Nat.le_add_right, imp_self, implies_true, Sparse.wf_nil, eq_self, reduceCtorEq, false_implies,
      forall_const, Option.some.injEq, Prod.mk.injEq, and_imp, forall_eq', forall_apply_eq_imp_iff]

@[simp] theorem State.setSlot_carries {s0 s : State} (hc : Carries s0 s) (lr : Nat) (i : Nat) (t : Option Slot) : Carries
      s0 (State.setSlot s lr i t) := by
  unfold State.setSlot
  simp +contextual (maxDischargeDepth := 40) only [hc, Carries.record, Nat.le_refl, Nat.le_add_right, imp_self,
      Sparse.set_wf, implies_true, Sparse.wf_nil, eq_self]

@[simp] theorem State.onTracker_carries {s0 s : State} (hc : Carries s0 s) (lr : Nat) (f : Tracker → Tracker) : Carries
      s0 (State.onTracker s lr f) := by
  unfold State.onTracker
  simp +contextual (maxDischargeDepth := 40) only [hc, Carries.record, Nat.le_refl, Nat.le_add_right, imp_self,
      Sparse.modify_wf, implies_true, Sparse.wf_nil, eq_self]

@[simp] theorem State.onDense_carries {s0 s : State} (hc : Carries s0 s) (u : Nat) (f : DenseUnit → DenseUnit) : Carries
      s0 (State.onDense s u f) := by
  unfold State.onDense
  simp +contextual (maxDischargeDepth := 40) only [hc, Carries.record, Nat.le_refl, Nat.le_add_right, imp_self,
      Sparse.modify_wf, implies_true, Sparse.wf_nil, eq_self]

@[simp] theorem State.cancelWork_carries {s0 s : State} (hc : Carries s0 s) (lr : Nat) (id : Nat) (keep : Bool) : Carries
      s0 (State.cancelWork s lr id keep) := by
  unfold State.cancelWork
  dsimp only
  simp +contextual (maxDischargeDepth := 40) only [hc, State.bump_carries, State.onDense_carries, forEach_carries,
      foldl_carries, foldl_carries_snd, foldl_carries_fst, Carries.record, Nat.le_refl, Nat.le_add_right, imp_self,
      Sparse.filter_wf, implies_true, Sparse.wf_nil, eq_self]

@[simp] theorem State.closeTrack_carries {s0 s : State} (hc : Carries s0 s) (lr : Nat) (i : Nat) (keep : Bool) : Carries
      s0 (State.closeTrack s lr i keep) := by
  unfold State.closeTrack
  (repeat' split) <;> simp +contextual (maxDischargeDepth := 40) only [hc, State.setSlot_carries,
      State.cancelWork_carries, Carries.record, Nat.le_refl, Nat.le_add_right, imp_self, implies_true, Sparse.wf_nil, eq_self]

@[simp] theorem State.closeObject_carries {s0 s : State} (hc : Carries s0 s) (lr : Nat) (i : Nat) (id : Nat) (keep :
      Bool) : Carries s0 (State.closeObject s lr i id keep) := by
  unfold State.closeObject
  (repeat' split) <;> simp +contextual (maxDischargeDepth := 40) only [hc, State.cancelWork_carries,
      State.closeTrack_carries, Carries.ite, implies_true, Sparse.wf_nil, eq_self]

@[simp] theorem State.freeTracks_carries {s0 s : State} (hc : Carries s0 s) : Carries s0 (State.freeTracks s) := by
  unfold State.freeTracks
  dsimp only
  (repeat' with_reducible first
      | assumption
      | exact Carries.refl _
      | refine State.cancelWork_carries ?_ _ _ _
      | refine State.onTracker_carries ?_ _ _
      | refine State.onConv_carries ?_ _ _
      | refine forEach_carries (fun _ _ _ => ?_) _ ?_
      | split
      | intro _
      | apply Carries.record)
  all_goals simp +contextual only [Nat.le_refl, Nat.le_add_right, imp_self, implies_true, Sparse.wf_nil, Sparse.set_wf,
      Sparse.modify_wf, Sparse.filter_wf, eq_self, *]

@[simp] theorem State.sleepIdle_carries {s0 s : State} (hc : Carries s0 s) (b : Nat) : Carries s0 (State.sleepIdle s b) := by
  unfold State.sleepIdle
  (repeat' split) <;> simp +contextual (maxDischargeDepth := 40) only [hc, State.setFld_carries, Carries.ite,
      implies_true, Sparse.wf_nil, eq_self]

@[simp] theorem State.feedBlock_carries {s0 s : State} (hc : Carries s0 s) (b : Nat) (h : Held) : Carries s0
      (State.feedBlock s b h) := by
  unfold State.feedBlock
  dsimp only
  (repeat' split) <;> simp +contextual (maxDischargeDepth := 40) only [hc, State.flag_carries, State.flagIf_carries,
      State.bumpIf_carries, State.onBlock_carries, Carries.ite, Carries.record, Nat.le_refl, Nat.le_add_right, imp_self,
      implies_true, Sparse.wf_nil, eq_self]

@[simp] theorem State.historyTap_carries {s0 s : State} (hc : Carries s0 s) (r : Nat) (h : Held) : Carries s0
      (State.historyTap s r h) := by
  unfold State.historyTap
  (repeat' split) <;> simp +contextual (maxDischargeDepth := 40) only [hc, State.onHist_carries, Carries.ite,
      Carries.record, Nat.le_refl, Nat.le_add_right, imp_self, implies_true, Sparse.wf_nil, eq_self]

@[simp] theorem State.deliver_carries {s0 s : State} (hc : Carries s0 s) (r : Nat) (h : Held) : Carries s0 (State.deliver
      s r h) := by
  unfold State.deliver
  simp +contextual (maxDischargeDepth := 40) only [hc, State.feedBlock_carries, State.historyTap_carries,
      forEach_carries, Carries.record, Nat.le_refl, Nat.le_add_right, imp_self, implies_true, Sparse.wf_nil, eq_self]

@[simp] theorem State.countGrant_carries {s0 s : State} (hc : Carries s0 s) (p : Nat) (up : Bool) (inject : Bool) (fresh
      : Bool) : Carries s0 (State.countGrant s p up inject fresh) := by
  unfold State.countGrant
  dsimp only
  (repeat' split) <;> simp +contextual (maxDischargeDepth := 40) only [hc, Carries.ite, Carries.record, Nat.le_refl,
      Nat.le_add_right, imp_self, Sparse.set_wf, implies_true, Sparse.wf_nil, eq_self]

@[simp] theorem State.takeFlit_carries {s0 s : State} (hc : Carries s0 s) (f : Flit) : Carries s0 (State.takeFlit s f) := by
  unfold State.takeFlit
  simp +contextual (maxDischargeDepth := 40) only [hc, Carries.record, Nat.le_refl, Nat.le_add_right, imp_self,
      implies_true, Sparse.wf_nil, eq_self]

@[simp] theorem State.passFlit_carries {s0 s : State} (hc : Carries s0 s) (f : Flit) (node : Nat) : Carries s0
      (State.passFlit s f node) := by
  unfold State.passFlit
  simp +contextual (maxDischargeDepth := 40) only [hc, Carries.record, Nat.le_refl, Nat.le_add_right, imp_self,
      implies_true, Sparse.wf_nil, eq_self]

@[simp] theorem State.sendFlit_carries {s0 s : State} (hc : Carries s0 s) (dest : Nat) (src : Nat) (body : FlitBody) :
      Carries s0 (State.sendFlit s dest src body) := by
  unfold State.sendFlit
  simp +contextual (maxDischargeDepth := 40) only [hc, Carries.record, Nat.le_refl, Nat.le_add_right, imp_self,
      implies_true, Sparse.wf_nil, eq_self]

@[simp] theorem State.queueEvent_carries {s0 s : State} (hc : Carries s0 s) (dest : Nat) (src : Nat) (h : Held) : Carries
      s0 (State.queueEvent s dest src h) := by
  unfold State.queueEvent
  (repeat' split) <;> simp +contextual (maxDischargeDepth := 40) only [hc, State.sendFlit_carries, Carries.record,
      Nat.le_refl, Nat.le_add_right, imp_self, implies_true, Sparse.wf_nil, eq_self]

@[simp] theorem State.forward_carries {s0 s : State} (hc : Carries s0 s) (r : Nat) (h : Held) : Carries s0 (State.forward
      s r h) := by
  unfold State.forward
  dsimp only
  (repeat' split) <;> simp +contextual (maxDischargeDepth := 40) only [hc, State.queueEvent_carries, forEach_carries,
      Carries.ite, Carries.record, Nat.le_refl, Nat.le_add_right, imp_self, Sparse.filter_wf, implies_true,
      Sparse.wf_nil, eq_self]

@[simp] theorem State.markHeld_carries {s0 s : State} (hc : Carries s0 s) (fs : List Flit) (h : Held) (mask : Nat) :
      Carries s0 (State.markHeld s fs h mask) := by
  unfold State.markHeld
  (repeat' split) <;> simp +contextual (maxDischargeDepth := 40) only [hc, State.markPos_carries, State.markSsn_carries,
      Carries.ite, Carries.record, Nat.le_refl, Nat.le_add_right, imp_self, implies_true, Sparse.wf_nil, eq_self]

@[simp] theorem State.spillDrop_carries {s0 s : State} (hc : Carries s0 s) (r : Nat) (h : Held) : Carries s0
      (State.spillDrop s r h) := by
  unfold State.spillDrop
  simp +contextual (maxDischargeDepth := 40) only [hc, State.flag_carries, State.bump_carries, State.report_carries,
      State.markHeld_carries, implies_true, Sparse.wf_nil, eq_self]

@[simp] theorem State.holdEvent_carries {s0 s : State} (hc : Carries s0 s) (r : Nat) (h : Held) : Carries s0
      (State.holdEvent s r h) := by
  unfold State.holdEvent
  dsimp only
  (repeat' split) <;> simp +contextual (maxDischargeDepth := 40) only [hc, State.onNode_carries, State.deliver_carries,
      State.forward_carries, State.spillDrop_carries, Carries.ite, Carries.record, Nat.le_refl, Nat.le_add_right,
      imp_self, implies_true, Sparse.wf_nil, eq_self]

@[simp] theorem State.sendEvent_carries {s0 s : State} (hc : Carries s0 s) (srcPos : Nat) (unit : Nat) (h : Held) :
      Carries s0 (State.sendEvent s srcPos unit h) := by
  unfold State.sendEvent
  dsimp only
  (repeat' split) <;> simp +contextual (maxDischargeDepth := 40) only [hc, State.bump_carries, State.queueEvent_carries,
      State.holdEvent_carries, forEach_carries, Carries.ite, Carries.record, Nat.le_refl, Nat.le_add_right, imp_self,
      Sparse.filter_wf, implies_true, Sparse.wf_nil, eq_self]

@[simp] theorem State.releaseNode_carries {s0 s : State} (hc : Carries s0 s) (r : Nat) : Carries s0 (State.releaseNode s
      r) := by
  unfold State.releaseNode
  dsimp only
  (repeat' split) <;> simp +contextual (maxDischargeDepth := 40) only [hc, State.onNode_carries, State.deliver_carries,
      State.sendFlit_carries, State.forward_carries, forEach_carries, Carries.ite, Carries.record, Nat.le_refl,
      Nat.le_add_right, imp_self, Sparse.filter_wf, implies_true, Sparse.wf_nil, eq_self]

@[simp] theorem State.sendClose_carries {s0 s : State} (hc : Carries s0 s) (k : Int) (backstop : Bool) (ssn : Nat) :
      Carries s0 (State.sendClose s k backstop ssn) := by
  unfold State.sendClose
  simp +contextual (maxDischargeDepth := 40) only [hc, State.sendFlit_carries, forEach_carries, implies_true,
      Sparse.wf_nil, eq_self]

@[simp] theorem State.takeClose_carries {s0 s : State} (hc : Carries s0 s) (r : Nat) (k : Int) (backstop : Bool) (ssn :
      Nat) : Carries s0 (State.takeClose s r k backstop ssn) := by
  unfold State.takeClose
  dsimp only
  (repeat' split) <;> simp +contextual (maxDischargeDepth := 40) only [hc, State.onNode_carries,
      State.releaseNode_carries, Carries.ite, Carries.record, Nat.le_refl, Nat.le_add_right, imp_self, implies_true,
      Sparse.wf_nil, eq_self]

@[simp] theorem State.clearRouter_carries {s0 s : State} (hc : Carries s0 s)  : Carries s0 (State.clearRouter s) := by
  unfold State.clearRouter
  (repeat' with_reducible first
      | assumption
      | exact Carries.refl _
      | split
      | intro _
      | apply Carries.record)
  all_goals simp +contextual only [Nat.le_refl, Nat.le_add_right, imp_self, implies_true, Sparse.wf_nil, Sparse.set_wf,
      Sparse.modify_wf, Sparse.filter_wf, eq_self, *]

@[simp] theorem State.onSpk_carries {s0 s : State} (hc : Carries s0 s) (p : Nat) (f : SpokePort → SpokePort) : Carries s0
      (State.onSpk s p f) := by
  unfold State.onSpk
  simp +contextual (maxDischargeDepth := 40) only [hc, Carries.record, Nat.le_refl, Nat.le_add_right, imp_self,
      Sparse.modify_wf, implies_true, Sparse.wf_nil, eq_self]

@[simp] theorem State.sendPlain_carries {s0 s : State} (hc : Carries s0 s) (p : Nat) (f : SpokeFlit) : Carries s0
      (State.sendPlain s p f) := by
  unfold State.sendPlain
  simp +contextual (maxDischargeDepth := 40) only [hc, State.bump_carries, State.onSpk_carries, Carries.record,
      Nat.le_refl, Nat.le_add_right, imp_self, implies_true, Sparse.wf_nil, eq_self]

@[simp] theorem State.freeEntryOf_carries {s0 s : State} (hc : Carries s0 s) (p : Nat) (v : Nat) : Carries s0
      (State.freeEntryOf s p v) := by
  unfold State.freeEntryOf
  simp +contextual (maxDischargeDepth := 40) only [hc, State.onSpk_carries, Carries.record, Nat.le_refl,
      Nat.le_add_right, imp_self, implies_true, Sparse.wf_nil, eq_self]

@[simp] theorem State.freeWaiting_carries {s0 s : State} (hc : Carries s0 s) (w : Waiting) : Carries s0
      (State.freeWaiting s w) := by
  unfold State.freeWaiting
  (repeat' split) <;> simp +contextual (maxDischargeDepth := 40) only [hc, State.freeEntryOf_carries, Carries.ite,
      Carries.record, Nat.le_refl, Nat.le_add_right, imp_self, implies_true, Sparse.wf_nil, eq_self]

@[simp] theorem State.dropWaiting_carries {s0 s : State} (hc : Carries s0 s) (p : Nat) (gone : Waiting → Bool) : Carries
      s0 (State.dropWaiting s p gone) := by
  unfold State.dropWaiting
  dsimp only
  simp +contextual (maxDischargeDepth := 40) only [hc, State.onSpk_carries, State.freeWaiting_carries, forEach_carries,
      Carries.record, Nat.le_refl, Nat.le_add_right, imp_self, Sparse.filter_wf, implies_true, Sparse.wf_nil, eq_self]

@[simp] theorem State.sendWaiting_carries {s0 s : State} (hc : Carries s0 s) (p : Nat) (v : Nat) (w : Waiting) : Carries
      s0 (State.sendWaiting s p v w) := by
  unfold State.sendWaiting
  dsimp only
  (repeat' split) <;> simp +contextual (maxDischargeDepth := 40) only [hc, State.bump_carries, State.onSpk_carries,
      State.freeWaiting_carries, Carries.ite, Carries.record, Nat.le_refl, Nat.le_add_right, imp_self, implies_true,
      Sparse.wf_nil, eq_self]

@[simp] theorem State.pump_carries {s0 s : State} (hc : Carries s0 s) (p : Nat) : Carries s0 (State.pump s p) := by
  unfold State.pump
  (repeat' with_reducible first
      | assumption
      | exact Carries.refl _
      | refine State.sendWaiting_carries ?_ _ _ _
      | refine foldl_carries (fun _ _ _ => ?_) _ ?_
      | refine foldl_carries_snd (fun _ _ _ => ?_) _ ?_
      | refine foldl_carries_fst (fun _ _ _ => ?_) _ ?_
      | split
      | intro _
      | apply Carries.record)
  all_goals simp +contextual only [Nat.le_refl, Nat.le_add_right, imp_self, implies_true, Sparse.wf_nil, Sparse.set_wf,
      Sparse.modify_wf, Sparse.filter_wf, eq_self, *, Sparse.foldl_wf]

@[simp] theorem State.flushLink_carries {s0 s : State} (hc : Carries s0 s) (p : Nat) : Carries s0 (State.flushLink s p) := by
  unfold State.flushLink
  dsimp only
  (repeat' split) <;> simp +contextual (maxDischargeDepth := 40) only [hc, State.sendPlain_carries, foldl_carries,
      foldl_carries_snd, foldl_carries_fst, Carries.ite, implies_true, Sparse.wf_nil, eq_self]

@[simp] theorem State.pumpAll_carries {s0 s : State} (hc : Carries s0 s)  : Carries s0 (State.pumpAll s) := by
  unfold State.pumpAll
  dsimp only
  simp +contextual (maxDischargeDepth := 40) only [hc, State.pump_carries, State.flushLink_carries, forEach_carries,
      implies_true, Sparse.wf_nil, eq_self]

@[simp] theorem State.resendAll_carries {s0 s : State} (hc : Carries s0 s) (p : Nat) : Carries s0 (State.resendAll s p) := by
  unfold State.resendAll
  dsimp only
  simp +contextual (maxDischargeDepth := 40) only [hc, State.bump_carries, State.onSpk_carries, foldl_carries,
      foldl_carries_snd, foldl_carries_fst, Carries.record, Nat.le_refl, Nat.le_add_right, imp_self, implies_true,
      Sparse.wf_nil, eq_self]

@[simp] theorem State.sendOn_carries {s0 s : State} (hc : Carries s0 s) (p : Nat) (vc : Nat) (mtype : Nat) (sub : Nat)
      (dest : Nat) (body : List Byte) : Carries s0 (State.sendOn s p vc mtype sub dest body) := by
  unfold State.sendOn
  simp +contextual (maxDischargeDepth := 40) only [hc, State.onSpk_carries, Carries.record, Nat.le_refl,
      Nat.le_add_right, imp_self, implies_true, Sparse.wf_nil, eq_self]

@[simp] theorem State.sendTo_carries {s0 s : State} (hc : Carries s0 s) (dest : Nat) (vc : Nat) (mtype : Nat) (sub : Nat)
      (body : List Byte) : ∀ t, State.sendTo s dest vc mtype sub body = some t → Carries s0 t := by
  unfold State.sendTo
  (repeat' split) <;> simp +contextual (maxDischargeDepth := 40) only [hc, State.pumpAll_carries, State.sendOn_carries,
      Carries.ite, Carries.record, Nat.le_refl, Nat.le_add_right, imp_self, implies_true, Sparse.wf_nil, eq_self,
      reduceCtorEq, false_implies, forall_const, Option.some.injEq, Prod.mk.injEq, and_imp, forall_eq', forall_apply_eq_imp_iff]

@[simp] theorem State.sendBcast_carries {s0 s : State} (hc : Carries s0 s) (body : List Byte) : Carries s0
      (State.sendBcast s body) := by
  unfold State.sendBcast
  simp +contextual (maxDischargeDepth := 40) only [hc, State.onSpk_carries, State.pumpAll_carries, forEach_carries,
      Carries.record, Nat.le_refl, Nat.le_add_right, imp_self, Sparse.filter_wf, implies_true, Sparse.wf_nil, eq_self]

@[simp] theorem State.sendHalo_carries {s0 s : State} (hc : Carries s0 s) (p : Nat) (event : Nat) : ∀ t,
      State.sendHalo s p event = some t → Carries s0 t := by
  unfold State.sendHalo
  dsimp only
  (repeat' split) <;> simp +contextual (maxDischargeDepth := 40) only [hc, State.pumpAll_carries, State.sendOn_carries,
      Carries.ite, Carries.record, Nat.le_refl, Nat.le_add_right, imp_self, implies_true, Sparse.wf_nil, eq_self,
      reduceCtorEq, false_implies, forall_const, Option.some.injEq, Prod.mk.injEq, and_imp, forall_eq', forall_apply_eq_imp_iff]

theorem State.sendVerdict_carries {s0 s : State} (hc : Carries s0 s) (dev : Nat) (group : Nat) (record : List Byte)
    (launch : Int) : ∀ t, State.sendVerdict s dev group record launch = some t → Carries s0 t :=
  State.sendTo_carries hc _ _ _ _ _

@[simp] theorem State.haloShed_carries {s0 s : State} (hc : Carries s0 s)  : Carries s0 (State.haloShed s) := by
  unfold State.haloShed
  dsimp only
  (repeat' split) <;> simp +contextual (maxDischargeDepth := 40) only [hc, State.markPos_carries, forEach_carries,
      Carries.ite, implies_true, Sparse.wf_nil, eq_self]

end Sys2Proof.Machine
end

