-- ==== Sys2Proof/Laws/CarryTime.lean ====
section
/-!
SUPPORT. What the operations of time, of the position unit, of the Tailrace and of the tracker carry over.
-/

namespace Sys2Proof.Machine

@[simp] theorem State.startSwitch_carries {s0 s : State} (hc : Carries s0 s) (y : Nat) : Carries s0 (State.startSwitch s
      y) := by
  unfold State.startSwitch
  dsimp only
  simp +contextual (maxDischargeDepth := 40) only [hc, Carries.record, Nat.le_refl, Nat.le_add_right, imp_self,
      implies_true, Sparse.wf_nil, eq_self]

@[simp] theorem State.reanchor_carries {s0 s : State} (hc : Carries s0 s)  : Carries s0 (State.reanchor s) := by
  unfold State.reanchor
  (repeat' split) <;> simp +contextual (maxDischargeDepth := 40) only [hc, State.startSwitch_carries, Carries.record,
      Nat.le_refl, Nat.le_add_right, imp_self, implies_true, Sparse.wf_nil, eq_self]

@[simp] theorem State.slewTo_carries {s0 s : State} (hc : Carries s0 s) (d : Nat) (x : Domain) : Carries s0 (State.slewTo
      s d x) := by
  unfold State.slewTo
  dsimp only
  (repeat' split) <;> simp +contextual (maxDischargeDepth := 40) only [hc, State.setDomain_carries, Carries.ite,
      Carries.record, Nat.le_refl, Nat.le_add_right, imp_self, implies_true, Sparse.wf_nil, eq_self]

@[simp] theorem State.switchWritten_carries {s0 s : State} (hc : Carries s0 s) (v : Word) : Carries s0
      (State.switchWritten s v) := by
  unfold State.switchWritten
  dsimp only
  (repeat' split) <;> simp +contextual (maxDischargeDepth := 40) only [hc, State.startSwitch_carries, Carries.ite,
      implies_true, Sparse.wf_nil, eq_self]

@[simp] theorem State.autoSwitch_carries {s0 s : State} (hc : Carries s0 s) (d : Nat) : Carries s0 (State.autoSwitch s d) := by
  unfold State.autoSwitch
  dsimp only
  (repeat' split) <;> simp +contextual (maxDischargeDepth := 40) only [hc, State.flag_carries, State.startSwitch_carries,
      Carries.ite, implies_true, Sparse.wf_nil, eq_self]

@[simp] theorem State.refreshDomain_carries {s0 s : State} (hc : Carries s0 s) (d : Nat) : Carries s0
      (State.refreshDomain s d) := by
  unfold State.refreshDomain
  dsimp only
  (repeat' split) <;> simp +contextual (maxDischargeDepth := 40) only [hc, State.setDomain_carries, Carries.ite,
      Carries.record, Nat.le_refl, Nat.le_add_right, imp_self, implies_true, Sparse.wf_nil, eq_self]

@[simp] theorem State.relock_carries {s0 s : State} (hc : Carries s0 s) (d : Nat) : Carries s0 (State.relock s d) := by
  unfold State.relock
  dsimp only
  (repeat' split) <;> simp +contextual (maxDischargeDepth := 40) only [hc, State.setDomain_carries, Carries.ite,
      Carries.record, Nat.le_refl, Nat.le_add_right, imp_self, implies_true, Sparse.wf_nil, eq_self]

@[simp] theorem State.enterFreewheel_carries {s0 s : State} (hc : Carries s0 s) (d : Nat) : Carries s0
      (State.enterFreewheel s d) := by
  unfold State.enterFreewheel
  dsimp only
  simp +contextual (maxDischargeDepth := 40) only [hc, State.setDomain_carries, State.autoSwitch_carries, Carries.record,
      Nat.le_refl, Nat.le_add_right, imp_self, implies_true, Sparse.wf_nil, eq_self]

@[simp] theorem State.loseMaster_carries {s0 s : State} (hc : Carries s0 s) (d : Nat) : Carries s0 (State.loseMaster s d) := by
  unfold State.loseMaster
  dsimp only
  (repeat' split) <;> simp +contextual (maxDischargeDepth := 40) only [hc, State.setDomain_carries,
      State.enterFreewheel_carries, Carries.record, Nat.le_refl, Nat.le_add_right, imp_self, Sparse.filter_wf,
      implies_true, Sparse.wf_nil, eq_self]

@[simp] theorem State.domainWritten_carries {s0 s : State} (hc : Carries s0 s) (d : Nat) (old : Nat) (new : Nat) :
      Carries s0 (State.domainWritten s d old new) := by
  unfold State.domainWritten
  dsimp only
  (repeat' split) <;> simp +contextual (maxDischargeDepth := 40) only [hc, State.setDomain_carries,
      State.loseMaster_carries, Carries.ite, Carries.record, Nat.le_refl, Nat.le_add_right, imp_self, Sparse.filter_wf,
      implies_true, Sparse.wf_nil, eq_self]

@[simp] theorem State.shiftTimes_carries {s0 s : State} (hc : Carries s0 s) (n : Int) : Carries s0 (State.shiftTimes s n) := by
  unfold State.shiftTimes
  dsimp only
  apply Carries.record hc (Nat.le_refl _) <;> first
    | exact id
    | exact Sparse.map_wf (α := List Capture) (fun xs => xs.map fun c => { c with t := c.t + n }) (fun k v hv he => hv
      (List.map_eq_nil_iff.1 he))
    | refine Sparse.map_wf (α := HeadPort) (fun x => { x with t0 := x.t0.map (· + n) }) (fun k v hv he => hv ?_)
      cases v with
      | mk a b => cases b <;> simp_all [HeadPort.reset]

@[simp] theorem State.firstLock_carries {s0 s : State} (hc : Carries s0 s) (d : Nat) : Carries s0 (State.firstLock s d) := by
  unfold State.firstLock
  dsimp only
  (repeat' split) <;> simp +contextual (maxDischargeDepth := 40) only [hc, State.flag_carries, State.setDomain_carries,
      State.slewTo_carries, State.shiftTimes_carries, Carries.ite, Carries.record, Nat.le_refl, Nat.le_add_right,
      imp_self, implies_true, Sparse.wf_nil, eq_self]

@[simp] theorem State.offsetSample_carries {s0 s : State} (hc : Carries s0 s) (d : Nat) (o : Int) (t2 : Int) : Carries s0
      (State.offsetSample s d o t2) := by
  unfold State.offsetSample
  dsimp only
  (repeat' split) <;> simp +contextual (maxDischargeDepth := 40) only [hc, State.setDomain_carries, State.sample_carries,
      State.firstLock_carries, Carries.ite, Carries.record, Nat.le_refl, Nat.le_add_right, imp_self, implies_true,
      Sparse.wf_nil, eq_self]

@[simp] theorem State.syncPair_carries {s0 s : State} (hc : Carries s0 s) (d : Nat) (t1 : Int) (t2 : Int) (c : Int) :
      Carries s0 (State.syncPair s d t1 t2 c) := by
  unfold State.syncPair
  dsimp only
  (repeat' split) <;> simp +contextual (maxDischargeDepth := 40) only [hc, State.setDomain_carries,
      State.offsetSample_carries, Carries.record, Nat.le_refl, Nat.le_add_right, imp_self, implies_true, Sparse.wf_nil, eq_self]

@[simp] theorem State.ptpIgnore_carries {s0 s : State} (hc : Carries s0 s) (p : Nat) : Carries s0 (State.ptpIgnore s p) := by
  unfold State.ptpIgnore
  simp +contextual (maxDischargeDepth := 40) only [hc, State.bump_carries, implies_true, Sparse.wf_nil, eq_self]

@[simp] theorem State.framesRx_carries {s0 s : State} (hc : Carries s0 s) (p : Nat) : Carries s0 (State.framesRx s p) := by
  unfold State.framesRx
  simp +contextual (maxDischargeDepth := 40) only [hc, State.bump_carries, implies_true, Sparse.wf_nil, eq_self]

@[simp] theorem State.framesTx_carries {s0 s : State} (hc : Carries s0 s) (p : Nat) (n : Nat) : Carries s0
      (State.framesTx s p n) := by
  unfold State.framesTx
  simp +contextual (maxDischargeDepth := 40) only [hc, State.bump_carries, implies_true, Sparse.wf_nil, eq_self]

@[simp] theorem State.requestSent_carries {s0 s : State} (hc : Carries s0 s) (w : PtpWait) (t3 : Int) : Carries s0
      (State.requestSent s w t3) := by
  unfold State.requestSent
  dsimp only
  (repeat' split) <;> simp +contextual (maxDischargeDepth := 40) only [hc, State.setDomain_carries, Carries.ite,
      Carries.record, Nat.le_refl, Nat.le_add_right, imp_self, implies_true, Sparse.wf_nil, eq_self]

@[simp] theorem State.ptpStart_carries {s0 s : State} (hc : Carries s0 s) (w : PtpWait) : Carries s0 (State.ptpStart s w) := by
  unfold State.ptpStart
  dsimp only
  (repeat' split) <;> simp +contextual (maxDischargeDepth := 40) only [hc, State.framesTx_carries,
      State.requestSent_carries, Carries.ite, Carries.record, Nat.le_refl, Nat.le_add_right, imp_self, implies_true,
      Sparse.wf_nil, eq_self]

@[simp] theorem State.ptpKick_carries {s0 s : State} (hc : Carries s0 s) (p : Nat) : Carries s0 (State.ptpKick s p) := by
  unfold State.ptpKick
  (repeat' split) <;> simp +contextual (maxDischargeDepth := 40) only [hc, State.ptpStart_carries, Carries.ite,
      Carries.record, Nat.le_refl, Nat.le_add_right, imp_self, implies_true, Sparse.wf_nil, eq_self]

@[simp] theorem State.ptpSend_carries {s0 s : State} (hc : Carries s0 s) (w : PtpWait) : Carries s0 (State.ptpSend s w) := by
  unfold State.ptpSend
  simp +contextual (maxDischargeDepth := 40) only [hc, State.ptpKick_carries, Carries.record, Nat.le_refl,
      Nat.le_add_right, imp_self, implies_true, Sparse.wf_nil, eq_self]

@[simp] theorem State.setCaptures_carries {s0 s : State} (hc : Carries s0 s) (u : Nat) (cs : List Capture) : Carries s0
      (State.setCaptures s u cs) := by
  unfold State.setCaptures
  simp +contextual (maxDischargeDepth := 40) only [hc, Carries.record, Nat.le_refl, Nat.le_add_right, imp_self,
      Sparse.set_wf, implies_true, Sparse.wf_nil, eq_self]

@[simp] theorem State.capture_carries {s0 s : State} (hc : Carries s0 s) (u : Nat) (falling : Bool) : Carries s0
      (State.capture s u falling) := by
  unfold State.capture
  (repeat' split) <;> simp +contextual (maxDischargeDepth := 40) only [hc, State.bump_carries, State.setCaptures_carries,
      Carries.ite, implies_true, Sparse.wf_nil, eq_self]

@[simp] theorem State.captureEdge_carries {s0 s : State} (hc : Carries s0 s) (src : Nat) (falling : Bool) : Carries s0
      (State.captureEdge s src falling) := by
  unfold State.captureEdge
  (repeat' split) <;> simp +contextual (maxDischargeDepth := 40) only [hc, State.capture_carries, forEach_carries,
      Carries.ite, implies_true, Sparse.wf_nil, eq_self]

@[simp] theorem State.readTcu_carries {s0 s : State} (hc : Carries s0 s) (u : Nat) (i : Nat) : Carries s0 (State.readTcu
      s u i).2 := by
  unfold State.readTcu
  dsimp only
  (repeat' split) <;> simp +contextual (maxDischargeDepth := 40) only [hc, State.setCaptures_carries, Carries.ite,
      Carries.record, Nat.le_refl, Nat.le_add_right, imp_self, Sparse.set_wf, implies_true, Sparse.wf_nil, eq_self]
theorem State.readTcu_to {s0 t1 s : State} {x1 : Word} (hc : Carries s0 s) (u : Nat) (i : Nat) (hx : State.readTcu s u i
      = (x1, t1)) : Carries s0 t1 := by
  have k := State.readTcu_carries hc u i
  rw [hx] at k
  exact k

@[simp] theorem State.setLaunchQ_carries {s0 s : State} (hc : Carries s0 s) (p : Nat) (q : List Launch) : Carries s0
      (State.setLaunchQ s p q) := by
  unfold State.setLaunchQ
  (repeat' split) <;> simp +contextual (maxDischargeDepth := 40) only [hc, Carries.ite, Carries.record, Nat.le_refl,
      Nat.le_add_right, imp_self, implies_true, Sparse.wf_nil, eq_self]

theorem State.record_snapNow {s0 s : State} (hc : Carries s0 s) (n : Nat) :
    Carries s0 { s with time := { s.time with snapNow := n } } := by
  apply Carries.record hc (Nat.le_refl _) <;> exact id

theorem State.record_snapLocal {s0 s : State} (hc : Carries s0 s) (n : Nat) :
    Carries s0 { s with time := { s.time with snapLocal := n } } := by
  apply Carries.record hc (Nat.le_refl _) <;> exact id

theorem State.timeRead_carries {s0 s : State} (hc : Carries s0 s) (u i : Nat) :
    ∀ a t, State.timeRead s u i = some (a, t) → Carries s0 t := by
  intro a t e
  unfold State.timeRead at e
  have h1 := State.record_snapNow hc
  have h2 := State.record_snapLocal hc
  (repeat' split at e) <;> simp only [Option.some.injEq, Option.map_eq_some_iff, Prod.mk.injEq, reduceCtorEq] at e
  all_goals first
    | (obtain ⟨-, rfl⟩ := e; first | exact hc | exact h1 _ | exact h2 _)
    | (obtain ⟨_, -, -, rfl⟩ := e; exact hc)
    | exact State.readTcu_to hc _ _ e

@[simp] theorem State.disengage_carries {s0 s : State} (hc : Carries s0 s)  : Carries s0 (State.disengage s) := by
  unfold State.disengage
  simp +contextual (maxDischargeDepth := 40) only [hc, Carries.record, Nat.le_refl, Nat.le_add_right, imp_self,
      implies_true, Sparse.wf_nil, eq_self]

@[simp] theorem State.sluiceFall_carries {s0 s : State} (hc : Carries s0 s)  : Carries s0 (State.sluiceFall s) := by
  unfold State.sluiceFall
  (repeat' split) <;> simp +contextual (maxDischargeDepth := 40) only [hc, State.disengage_carries, Carries.ite,
      implies_true, Sparse.wf_nil, eq_self]

@[simp] theorem State.sluiceClosure_carries {s0 s : State} (hc : Carries s0 s)  : Carries s0 (State.sluiceClosure s) := by
  unfold State.sluiceClosure
  (repeat' with_reducible first
      | assumption
      | exact Carries.refl _
      | refine State.disengage_carries ?_
      | split
      | intro _
      | apply Carries.record)
  all_goals simp +contextual only [Nat.le_refl, Nat.le_add_right, imp_self, implies_true, Sparse.wf_nil, Sparse.set_wf,
      Sparse.modify_wf, Sparse.filter_wf, eq_self, *]

@[simp] theorem State.dropHeld_carries {s0 s : State} (hc : Carries s0 s) (k : Int) (h : Held) : Carries s0
      (State.dropHeld s k h) := by
  unfold State.dropHeld
  dsimp only
  (repeat' split) <;> simp +contextual (maxDischargeDepth := 40) only [hc, State.bump_carries, State.markPos_carries,
      Carries.ite, Carries.record, Nat.le_refl, Nat.le_add_right, imp_self, implies_true, Sparse.wf_nil, eq_self]

@[simp] theorem State.dropPending_carries {s0 s : State} (hc : Carries s0 s) (k : Int) : Carries s0 (State.dropPending s
      k) := by
  unfold State.dropPending
  dsimp only
  simp +contextual (maxDischargeDepth := 40) only [hc, State.onNode_carries, State.dropHeld_carries, forEach_carries,
      Carries.record, Nat.le_refl, Nat.le_add_right, imp_self, Sparse.filter_wf, implies_true, Sparse.wf_nil, eq_self]

@[simp] theorem State.markCut_carries {s0 s : State} (hc : Carries s0 s) (k : Int) (ssn : Nat) : Carries s0
      (State.markCut s k ssn) := by
  unfold State.markCut
  dsimp only
  (repeat' split) <;> simp +contextual (maxDischargeDepth := 40) only [hc, State.onModel_carries, Carries.ite,
      Carries.record, Nat.le_refl, Nat.le_add_right, imp_self, implies_true, Sparse.wf_nil, eq_self]

@[simp] theorem State.makeStep_carries {s0 s : State} (hc : Carries s0 s) (st : FabStep) : Carries s0 (State.makeStep s
      st) := by
  unfold State.makeStep
  dsimp only
  (repeat' split) <;> simp +contextual (maxDischargeDepth := 40) only [hc, State.setWord_carries, State.flagIf_carries,
      State.sample_carries, State.sendClose_carries, State.sluiceClosure_carries, State.markCut_carries, Carries.ite,
      Carries.record, Nat.le_refl, Nat.le_add_right, imp_self, implies_true, Sparse.wf_nil, eq_self]

@[simp] theorem State.closeFabric_carries {s0 s : State} (hc : Carries s0 s) (k : Int) (backstop : Bool) : Carries s0
      (State.closeFabric s k backstop) := by
  unfold State.closeFabric
  dsimp only
  (repeat' split) <;> simp +contextual (maxDischargeDepth := 40) only [hc, State.makeStep_carries, foldl_carries,
      foldl_carries_snd, foldl_carries_fst, Carries.ite, Carries.record, Nat.le_refl, Nat.le_add_right, imp_self,
      Sparse.filter_wf, implies_true, Sparse.wf_nil, eq_self]

@[simp] theorem State.makeOwed_carries {s0 s : State} (hc : Carries s0 s)  : Carries s0 (State.makeOwed s) := by
  unfold State.makeOwed
  (repeat' split) <;> simp +contextual (maxDischargeDepth := 40) only [hc, State.makeStep_carries, Carries.ite,
      Carries.record, Nat.le_refl, Nat.le_add_right, imp_self, implies_true, Sparse.wf_nil, eq_self]

@[simp] theorem State.closeStep_carries {s0 s : State} (hc : Carries s0 s)  : Carries s0 (State.closeStep s) := by
  unfold State.closeStep
  dsimp only
  (repeat' split) <;> simp +contextual (maxDischargeDepth := 40) only [hc, State.flag_carries, State.haloShed_carries,
      State.dropPending_carries, State.closeFabric_carries, Carries.ite, Carries.record, Nat.le_refl, Nat.le_add_right,
      imp_self, implies_true, Sparse.wf_nil, eq_self]

@[simp] theorem State.closeDue_carries {s0 s : State} (hc : Carries s0 s)  : Carries s0 (State.closeDue s) := by
  unfold State.closeDue
  dsimp only
  (repeat' split) <;> simp +contextual (maxDischargeDepth := 40) only [hc, State.closeStep_carries, foldl_carries,
      foldl_carries_snd, foldl_carries_fst, Carries.ite, implies_true, Sparse.wf_nil, eq_self]

@[simp] theorem State.followHw_carries {s0 s : State} (hc : Carries s0 s)  : Carries s0 (State.followHw s) := by
  unfold State.followHw
  dsimp only
  (repeat' split) <;> simp +contextual (maxDischargeDepth := 40) only [hc, State.flagIf_carries, Carries.ite,
      Carries.record, Nat.le_refl, Nat.le_add_right, imp_self, implies_true, Sparse.wf_nil, eq_self]

@[simp] theorem State.updateSpeed_carries {s0 s : State} (hc : Carries s0 s)  : Carries s0 (State.updateSpeed s) := by
  unfold State.updateSpeed
  simp +contextual (maxDischargeDepth := 40) only [hc, State.setWord_carries, implies_true, Sparse.wf_nil, eq_self]

@[simp] theorem State.countEdge_carries {s0 s : State} (hc : Carries s0 s) (dir : Int) : Carries s0 (State.countEdge s
      dir) := by
  unfold State.countEdge
  dsimp only
  (repeat' split) <;> simp +contextual (maxDischargeDepth := 40) only [hc, State.closeDue_carries,
      State.followHw_carries, State.updateSpeed_carries, Carries.ite, Carries.record, Nat.le_refl, Nat.le_add_right,
      imp_self, implies_true, Sparse.wf_nil, eq_self]

@[simp] theorem State.loadCount_carries {s0 s : State} (hc : Carries s0 s) (c : Nat) : Carries s0 (State.loadCount s c) := by
  unfold State.loadCount
  simp +contextual (maxDischargeDepth := 40) only [hc, Carries.record, Nat.le_refl, Nat.le_add_right, imp_self,
      implies_true, Sparse.wf_nil, eq_self]

@[simp] theorem encoderEdge_carries {s0 s : State} (hc : Carries s0 s) (a : Bool) (b : Bool) : Carries s0 (encoderEdge a
      b s) := by
  unfold encoderEdge
  dsimp only
  (repeat' split) <;> simp +contextual (maxDischargeDepth := 40) only [hc, State.flag_carries, State.flagIf_carries,
      State.bump_carries, State.takeFree_carries, State.countEdge_carries, Carries.ite, Carries.record, Nat.le_refl,
      Nat.le_add_right, imp_self, implies_true, Sparse.wf_nil, eq_self]

@[simp] theorem State.captureZ_carries {s0 s : State} (hc : Carries s0 s)  : Carries s0 (State.captureZ s) := by
  unfold State.captureZ
  dsimp only
  (repeat' split) <;>
    (try have h0 := State.posNow_to (s0 := s0) (by simp +contextual (maxDischargeDepth := 40) only [hc,
      State.setWord_carries, State.posNow_carries, implies_true, Sparse.wf_nil, eq_self]) ‹State.posNow _ = _›) <;>
    simp +contextual (maxDischargeDepth := 40) only [hc, *, State.setWord_carries, State.posNow_carries, implies_true,
      Sparse.wf_nil, eq_self]

@[simp] theorem State.readCount_carries {s0 s : State} (hc : Carries s0 s)  : Carries s0 (State.readCount s).2 := by
  unfold State.readCount
  dsimp only
  (repeat' split) <;>
    (try have h0 := State.posNow_to (s0 := s0) (by simp +contextual (maxDischargeDepth := 40) only [hc,
      State.posNow_carries, Carries.record, Nat.le_refl, Nat.le_add_right, imp_self, implies_true, Sparse.wf_nil,
      eq_self]) ‹State.posNow _ = _›) <;>
    simp +contextual (maxDischargeDepth := 40) only [hc, *, State.posNow_carries, Carries.record, Nat.le_refl,
      Nat.le_add_right, imp_self, implies_true, Sparse.wf_nil, eq_self]
theorem State.readCount_to {s0 t1 s : State} {x1 : Word} (hc : Carries s0 s)  (hx : State.readCount s = (x1,
      t1)) : Carries s0 t1 := by
  have k := State.readCount_carries hc
  rw [hx] at k
  exact k

@[simp] theorem State.replayFree_carries {s0 s : State} (hc : Carries s0 s)  : Carries s0 (State.replayFree s) := by
  unfold State.replayFree
  (repeat' split) <;> simp +contextual (maxDischargeDepth := 40) only [hc, State.closeStep_carries, Carries.ite,
      implies_true, Sparse.wf_nil, eq_self]

@[simp] theorem State.wakeBlocks_carries {s0 s : State} (hc : Carries s0 s)  : Carries s0 (State.wakeBlocks s) := by
  unfold State.wakeBlocks
  (repeat' split) <;> simp +contextual (maxDischargeDepth := 40) only [hc, State.flag_carries, State.onBlock_carries,
      forEach_carries, Carries.ite, Carries.record, Nat.le_refl, Nat.le_add_right, imp_self, implies_true, Sparse.wf_nil,
      eq_self]

@[simp] theorem State.markFailing_carries {s0 s : State} (hc : Carries s0 s) (ssn : Nat) : Carries s0 (State.markFailing
      s ssn) := by
  unfold State.markFailing
  simp +contextual (maxDischargeDepth := 40) only [hc, State.markSsn_carries, forEach_carries, implies_true,
      Sparse.wf_nil, eq_self]

@[simp] theorem startStep_carries {s0 s : State} (hc : Carries s0 s)  : Carries s0 (startStep s) := by
  unfold startStep
  dsimp only
  (repeat' split) <;> simp +contextual (maxDischargeDepth := 40) only [hc, State.onNode_carries, State.sample_carries,
      State.releaseNode_carries, State.wakeBlocks_carries, State.markFailing_carries, forEach_carries, Carries.ite,
      Carries.record, Nat.le_refl, Nat.le_add_right, imp_self, implies_true, Sparse.wf_nil, eq_self]

@[simp] theorem State.evalNeuron_carries {s0 s : State} (hc : Carries s0 s) (b : Nat) (async : Bool) (ssn : Nat) (n :
      Nat) (a : Int) : Carries s0 (State.evalNeuron s b async ssn n a) := by
  unfold State.evalNeuron
  dsimp only
  (repeat' split) <;> simp +contextual (maxDischargeDepth := 40) only [hc, State.bumpIf_carries, State.onBlock_carries,
      State.sendEvent_carries, forEach_carries, Carries.ite, Carries.record, Nat.le_refl, Nat.le_add_right, imp_self,
      implies_true, Sparse.wf_nil, eq_self]

@[simp] theorem State.evalOrder_carries {s0 s : State} (hc : Carries s0 s) (b : Nat) (ns : List Nat) : Carries s0
      (State.evalOrder s b ns).2 := by
  unfold State.evalOrder
  dsimp only
  (repeat' split) <;>
    (try have h0 := State.takeFree_to (s0 := s0) (by simp +contextual (maxDischargeDepth := 40) only [hc,
      State.takeFree_carries, Carries.ite, implies_true, Sparse.wf_nil, eq_self]) ‹State.takeFree _ = _›) <;>
    simp +contextual (maxDischargeDepth := 40) only [hc, *, State.takeFree_carries, Carries.ite, implies_true,
      Sparse.wf_nil, eq_self]
theorem State.evalOrder_to {s0 t1 s : State} {x1 : List Nat} (hc : Carries s0 s) (b : Nat) (ns : List Nat) (hx :
      State.evalOrder s b ns = (x1, t1)) : Carries s0 t1 := by
  have k := State.evalOrder_carries hc b ns
  rw [hx] at k
  exact k

@[simp] theorem State.evalBlock_carries {s0 s : State} (hc : Carries s0 s) (b : Nat) (ssn : Nat) : Carries s0
      (State.evalBlock s b ssn) := by
  unfold State.evalBlock
  dsimp only
  (repeat' split) <;>
    (try have h0 := State.evalOrder_to (s0 := s0) (by simp +contextual (maxDischargeDepth := 40) only [hc,
      State.flag_carries, State.bump_carries, State.onBlock_carries, State.evalNeuron_carries, State.evalOrder_carries,
      forEach_carries, Carries.ite, Carries.record, Nat.le_refl, Nat.le_add_right, imp_self, Sparse.filter_wf,
      implies_true, Sparse.wf_nil, eq_self]) ‹State.evalOrder _ _ _ = _›) <;>
    (try have h1 := State.evalOrder_to (s0 := s0) (by simp +contextual (maxDischargeDepth := 40) only [hc, *,
      State.flag_carries, State.bump_carries, State.onBlock_carries, State.evalNeuron_carries, State.evalOrder_carries,
      forEach_carries, Carries.ite, Carries.record, Nat.le_refl, Nat.le_add_right, imp_self, Sparse.filter_wf,
      implies_true, Sparse.wf_nil, eq_self]) ‹State.evalOrder _ _ _ = _›) <;>
    simp +contextual (maxDischargeDepth := 40) only [hc, *, State.flag_carries, State.bump_carries,
      State.onBlock_carries, State.evalNeuron_carries, State.evalOrder_carries, forEach_carries, Carries.ite,
      Carries.record, Nat.le_refl, Nat.le_add_right, imp_self, Sparse.filter_wf, implies_true, Sparse.wf_nil, eq_self]

@[simp] theorem State.flitCorr_carries {s0 s : State} (hc : Carries s0 s) (node : Nat) (ecc : List EccCheck) : Carries s0
      (State.flitCorr s node ecc) := by
  unfold State.flitCorr
  simp +contextual (maxDischargeDepth := 40) only [hc, State.bump_carries, implies_true, Sparse.wf_nil, eq_self]

@[simp] theorem State.flitUe_carries {s0 s : State} (hc : Carries s0 s) (node : Nat) (ecc : List EccCheck) : Carries s0
      (State.flitUe s node ecc) := by
  unfold State.flitUe
  simp +contextual (maxDischargeDepth := 40) only [hc, State.flagIf_carries, implies_true, Sparse.wf_nil, eq_self]

@[simp] theorem State.flitLost_carries {s0 s : State} (hc : Carries s0 s) (node : Nat) (f : Flit) (evs : List Held) (fs :
      List Flit) : Carries s0 (State.flitLost s node f evs fs) := by
  unfold State.flitLost
  dsimp only
  (repeat' split) <;> simp +contextual (maxDischargeDepth := 40) only [hc, State.flag_carries, State.bump_carries,
      State.report_carries, State.markHeld_carries, forEach_carries, Carries.ite, Carries.record, Nat.le_refl,
      Nat.le_add_right, imp_self, implies_true, Sparse.wf_nil, eq_self]

@[simp] theorem State.copiesLost_carries {s0 s : State} (hc : Carries s0 s) (node : Nat) (f : Flit) : Carries s0
      (State.copiesLost s node f) := by
  unfold State.copiesLost
  (repeat' split) <;> simp +contextual (maxDischargeDepth := 40) only [hc, State.hubFail_carries, State.takeFlit_carries,
      Carries.record, Nat.le_refl, Nat.le_add_right, imp_self, implies_true, Sparse.wf_nil, eq_self]

@[simp] theorem State.takeStepEnd_carries {s0 s : State} (hc : Carries s0 s) (r : Nat) (q : Nat) (ssn : Nat) : Carries s0
      (State.takeStepEnd s r q ssn) := by
  unfold State.takeStepEnd
  (repeat' split) <;> simp +contextual (maxDischargeDepth := 40) only [hc, State.onNode_carries, Carries.ite,
      Carries.record, Nat.le_refl, Nat.le_add_right, imp_self, implies_true, Sparse.wf_nil, eq_self]

@[simp] theorem State.takeControl_carries {s0 s : State} (hc : Carries s0 s) (node : Nat) (ecc : List EccCheck) (f :
      Flit) : Carries s0 (State.takeControl s node ecc f) := by
  unfold State.takeControl
  dsimp only
  (repeat' split) <;> simp +contextual (maxDischargeDepth := 40) only [hc, State.takeFlit_carries,
      State.passFlit_carries, State.flitCorr_carries, State.flitUe_carries, Carries.ite, implies_true, Sparse.wf_nil, eq_self]

@[simp] theorem State.arrival_carries {s0 s : State} (hc : Carries s0 s) (l : Nat) (target : Nat) : Carries s0
      (State.arrival s l target).2 := by
  unfold State.arrival
  dsimp only
  (repeat' split) <;>
    (try have h0 := State.posNow_to (s0 := s0) (by simp +contextual (maxDischargeDepth := 40) only [hc,
      State.posNow_carries, Carries.ite, implies_true, Sparse.wf_nil, eq_self]) ‹State.posNow _ = _›) <;>
    simp +contextual (maxDischargeDepth := 40) only [hc, *, State.posNow_carries, Carries.ite, implies_true,
      Sparse.wf_nil, eq_self]
theorem State.arrival_to {s0 t1 s : State} {x1 : (Int × Int)} (hc : Carries s0 s) (l : Nat) (target : Nat) (hx :
      State.arrival s l target = (x1, t1)) : Carries s0 t1 := by
  have k := State.arrival_carries hc l target
  rw [hx] at k
  exact k

@[simp] theorem State.enqueue_carries {s0 s : State} (hc : Carries s0 s) (p : Nat) (l : Launch) : Carries s0
      (State.enqueue s p l) := by
  unfold State.enqueue
  simp +contextual (maxDischargeDepth := 40) only [hc, State.setLaunchQ_carries, implies_true, Sparse.wf_nil, eq_self]

@[simp] theorem State.writeCopy_carries {s0 s : State} (hc : Carries s0 s) (p : Nat) (t : Int) (f : List Byte) (udp :
      Bool) : Carries s0 (State.writeCopy s p t f udp) := by
  unfold State.writeCopy
  (repeat' split) <;> simp +contextual (maxDischargeDepth := 40) only [hc, State.flag_carries, State.bump_carries,
      State.enqueue_carries, Carries.ite, Carries.record, Nat.le_refl, Nat.le_add_right, imp_self, implies_true,
      Sparse.wf_nil, eq_self]

@[simp] theorem State.refillOne_carries {s0 s : State} (hc : Carries s0 s) (p : Nat) : Carries s0 (State.refillOne s p) := by
  unfold State.refillOne
  dsimp only
  (repeat' split) <;> simp +contextual (maxDischargeDepth := 40) only [hc, State.flag_carries, State.bump_carries,
      State.enqueue_carries, Carries.ite, Carries.record, Nat.le_refl, Nat.le_add_right, imp_self, implies_true,
      Sparse.wf_nil, eq_self]

@[simp] theorem State.refillQueue_carries {s0 s : State} (hc : Carries s0 s) (p : Nat) : Carries s0 (State.refillQueue s
      p) := by
  unfold State.refillQueue
  simp +contextual (maxDischargeDepth := 40) only [hc, State.refillOne_carries, foldl_carries, foldl_carries_snd,
      foldl_carries_fst, implies_true, Sparse.wf_nil, eq_self]

@[simp] theorem State.buildFrame_carries {s0 s : State} (hc : Carries s0 s) (g : Nat) : Carries s0 (State.buildFrame s g) := by
  unfold State.buildFrame
  dsimp only
  (repeat' split) <;> simp +contextual (maxDischargeDepth := 40) only [hc, State.setFld_carries, State.bump_carries,
      State.writeCopy_carries, forEach_carries, foldl_carries, foldl_carries_snd, foldl_carries_fst, Carries.ite,
      Carries.record, Nat.le_refl, Nat.le_add_right, imp_self, Sparse.filter_wf, implies_true, Sparse.wf_nil, eq_self]

@[simp] theorem State.relayRec_carries {s0 s : State} (hc : Carries s0 s) (r : VerdictRec) : Carries s0 (State.relayRec s
      r) := by
  unfold State.relayRec
  dsimp only
  (repeat' with_reducible first
      | assumption
      | exact Carries.refl _
      | refine State.sendVerdict_carries ?_ _ _ _ _ _ (by assumption)
      | refine Carries.getD (State.sendVerdict_carries ?_ _ _ _ _) ?_
      | refine State.bump_carries ?_ _ _
      | refine State.flag_carries ?_ _ _
      | split
      | intro _
      | apply Carries.record)
  all_goals simp +contextual only [Nat.le_refl, Nat.le_add_right, imp_self, implies_true, Sparse.wf_nil, Sparse.set_wf,
      Sparse.modify_wf, Sparse.filter_wf, eq_self, *]

@[simp] theorem State.writeLate_carries {s0 s : State} (hc : Carries s0 s) (r : VerdictRec) : Carries s0 (State.writeLate
      s r) := by
  unfold State.writeLate
  (repeat' split) <;> simp +contextual (maxDischargeDepth := 40) only [hc, State.buildFrame_carries, Carries.ite,
      implies_true, Sparse.wf_nil, eq_self]

@[simp] theorem State.placeRec_carries {s0 s : State} (hc : Carries s0 s) (r : VerdictRec) : Carries s0 (State.placeRec s
      r) := by
  unfold State.placeRec
  dsimp only
  (repeat' split) <;> simp +contextual (maxDischargeDepth := 40) only [hc, State.bump_carries, State.relayRec_carries,
      State.writeLate_carries, Carries.ite, Carries.record, Nat.le_refl, Nat.le_add_right, imp_self, implies_true,
      Sparse.wf_nil, eq_self]

@[simp] theorem State.formRec_carries {s0 s : State} (hc : Carries s0 s) (e : PendVerdict) (late : Bool) (pass : Bool) (v
      : Vote) : Carries s0 (State.formRec s e late pass v) := by
  unfold State.formRec
  dsimp only
  (repeat' split) <;> simp +contextual (maxDischargeDepth := 40) only [hc, State.bump_carries, State.arrival_carries,
      State.placeRec_carries, Carries.ite, implies_true, Sparse.wf_nil, eq_self]

@[simp] theorem State.dropPend_carries {s0 s : State} (hc : Carries s0 s) (e : PendVerdict) : Carries s0 (State.dropPend
      s e) := by
  unfold State.dropPend
  simp +contextual (maxDischargeDepth := 40) only [hc, Carries.record, Nat.le_refl, Nat.le_add_right, imp_self,
      implies_true, Sparse.wf_nil, eq_self]

@[simp] theorem State.formVote_carries {s0 s : State} (hc : Carries s0 s) (e : PendVerdict) (v : Vote) : Carries s0
      (State.formVote s e v) := by
  unfold State.formVote
  simp +contextual (maxDischargeDepth := 40) only [hc, State.sample_carries, State.formRec_carries,
      State.dropPend_carries, implies_true, Sparse.wf_nil, eq_self]

@[simp] theorem State.endWait_carries {s0 s : State} (hc : Carries s0 s) (e : PendVerdict) : Carries s0 (State.endWait s
      e) := by
  unfold State.endWait
  (repeat' split) <;> simp +contextual (maxDischargeDepth := 40) only [hc, State.formVote_carries, Carries.ite,
      Carries.record, Nat.le_refl, Nat.le_add_right, imp_self, implies_true, Sparse.wf_nil, eq_self]

@[simp] theorem State.enterBoundary_carries {s0 s : State} (hc : Carries s0 s) (e : PendVerdict) : Carries s0
      (State.enterBoundary s e) := by
  unfold State.enterBoundary
  dsimp only
  (repeat' split) <;> simp +contextual (maxDischargeDepth := 40) only [hc, State.bump_carries, State.closeTrack_carries,
      State.closeObject_carries, State.dropPend_carries, State.endWait_carries, Carries.ite, Carries.record, Nat.le_refl,
      Nat.le_add_right, imp_self, implies_true, Sparse.wf_nil, eq_self]

@[simp] theorem State.handOver_carries {s0 s : State} (hc : Carries s0 s) (lr : Nat) (i : Nat) (k : Nat) (t : Slot) :
      Carries s0 (State.handOver s lr i k t) := by
  unfold State.handOver
  dsimp only
  (repeat' split) <;> simp +contextual (maxDischargeDepth := 40) only [hc, State.flag_carries, State.bump_carries,
      State.bumpIf_carries, State.report_carries, State.closeTrack_carries, State.arrival_carries,
      State.enterBoundary_carries, Carries.ite, Carries.record, Nat.le_refl, Nat.le_add_right, imp_self, implies_true,
      Sparse.wf_nil, eq_self]

@[simp] theorem State.lateDefault_carries {s0 s : State} (hc : Carries s0 s) (e : PendVerdict) : Carries s0
      (State.lateDefault s e) := by
  unfold State.lateDefault
  dsimp only
  (repeat' split) <;>
    (try have h0 := State.takeFree_to (s0 := s0) (by simp +contextual (maxDischargeDepth := 40) only [hc,
      State.flag_carries, State.bump_carries, State.takeFree_carries, State.sample_carries, State.closeObject_carries,
      State.formRec_carries, State.dropPend_carries, Carries.ite, Carries.record, Nat.le_refl, Nat.le_add_right,
      imp_self, implies_true, Sparse.wf_nil, eq_self]) ‹State.takeFree _ = _›) <;>
    simp +contextual (maxDischargeDepth := 40) only [hc, *, State.flag_carries, State.bump_carries,
      State.takeFree_carries, State.sample_carries, State.closeObject_carries, State.formRec_carries,
      State.dropPend_carries, Carries.ite, Carries.record, Nat.le_refl, Nat.le_add_right, imp_self, implies_true,
      Sparse.wf_nil, eq_self]

@[simp] theorem State.takeVote_carries {s0 s : State} (hc : Carries s0 s) (lr : Nat) (t : Slot) (cls : Nat) (conf : Nat)
      (conflict : Bool) (uncertain : Bool) (boxes : Option Nat) : Carries s0 (State.takeVote s lr t cls conf conflict
      uncertain boxes) := by
  unfold State.takeVote
  dsimp only
  (repeat' split) <;>
    (try have h0 := State.takeFree_to (s0 := s0) (by simp +contextual (maxDischargeDepth := 40) only [hc,
      State.bump_carries, State.bumpIf_carries, State.takeFree_carries, State.closeTrack_carries, State.formVote_carries,
      Carries.ite, Carries.record, Nat.le_refl, Nat.le_add_right, imp_self, implies_true, Sparse.wf_nil,
      eq_self]) ‹State.takeFree _ = _›) <;>
    simp +contextual (maxDischargeDepth := 40) only [hc, *, State.bump_carries, State.bumpIf_carries,
      State.takeFree_carries, State.closeTrack_carries, State.formVote_carries, Carries.ite, Carries.record, Nat.le_refl,
      Nat.le_add_right, imp_self, implies_true, Sparse.wf_nil, eq_self]

@[simp] theorem State.relayIn_carries {s0 s : State} (hc : Carries s0 s) (r : VerdictRec) : Carries s0 (State.relayIn s r) := by
  unfold State.relayIn
  dsimp only
  (repeat' split) <;> simp +contextual (maxDischargeDepth := 40) only [hc, State.flag_carries, State.bump_carries,
      State.report_carries, State.relayRec_carries, State.writeLate_carries, Carries.ite, Carries.record, Nat.le_refl,
      Nat.le_add_right, imp_self, implies_true, Sparse.wf_nil, eq_self]

@[simp] theorem State.startFrame_carries {s0 s : State} (hc : Carries s0 s) (p : Nat) (f : List Byte) (late : Bool) :
      Carries s0 (State.startFrame s p f late) := by
  unfold State.startFrame
  dsimp only
  (repeat' split) <;> simp +contextual (maxDischargeDepth := 40) only [hc, State.framesTx_carries, Carries.ite,
      Carries.record, Nat.le_refl, Nat.le_add_right, imp_self, implies_true, Sparse.wf_nil, eq_self]

@[simp] theorem State.mapSlots_carries {s0 s : State} (hc : Carries s0 s) (lr : Nat) (f : Slot → Slot) : Carries s0
      (State.mapSlots s lr f) := by
  unfold State.mapSlots
  simp +contextual (maxDischargeDepth := 40) only [hc, State.setSlot_carries, forEach_carries, implies_true,
      Sparse.wf_nil, eq_self]

@[simp] theorem State.markTaken_carries {s0 s : State} (hc : Carries s0 s) (ssn : Nat) (mask : Nat) : Carries s0
      (State.markTaken s ssn mask) := by
  unfold State.markTaken
  dsimp only
  (repeat' split) <;> simp +contextual (maxDischargeDepth := 40) only [hc, State.onTracker_carries,
      State.mapSlots_carries, forEach_carries, Carries.ite, Carries.record, Nat.le_refl, Nat.le_add_right, imp_self,
      implies_true, Sparse.wf_nil, eq_self]

@[simp] theorem State.onSlot_carries {s0 s : State} (hc : Carries s0 s) (lr : Nat) (i : Nat) (f : Slot → Slot) : Carries
      s0 (State.onSlot s lr i f) := by
  unfold State.onSlot
  (repeat' split) <;> simp +contextual (maxDischargeDepth := 40) only [hc, State.setSlot_carries, Carries.record,
      Nat.le_refl, Nat.le_add_right, imp_self, implies_true, Sparse.wf_nil, eq_self]

@[simp] theorem State.covFault_carries {s0 s : State} (hc : Carries s0 s) (lr : Nat) (i : Nat) : Carries s0
      (State.covFault s lr i) := by
  unfold State.covFault
  simp +contextual (maxDischargeDepth := 40) only [hc, State.flag_carries, State.bump_carries, State.onSlot_carries,
      Carries.record, Nat.le_refl, Nat.le_add_right, imp_self, implies_true, Sparse.wf_nil, eq_self]

@[simp] theorem State.takeMeas_carries {s0 s : State} (hc : Carries s0 s) (lr : Nat) (q : Nat) (k : Nat) (ssn : Nat) (hw
      : Nat) (shed : Nat) (p : Pair) (m : Meas) : Carries s0 (State.takeMeas s lr q k ssn hw shed p m) := by
  unfold State.takeMeas
  dsimp only
  (repeat' split) <;> simp +contextual (maxDischargeDepth := 40) only [hc, State.bump_carries, State.setSlot_carries,
      Carries.ite, Carries.record, Nat.le_refl, Nat.le_add_right, imp_self, implies_true, Sparse.wf_nil, eq_self]

@[simp] theorem State.birth_carries {s0 s : State} (hc : Carries s0 s) (lr : Nat) (q : Nat) (k : Nat) (st : StepInfo)
      (shed : Nat) (m : Meas) : Carries s0 (State.birth s lr q k st shed m) := by
  unfold State.birth
  dsimp only
  (repeat' split) <;> simp +contextual (maxDischargeDepth := 40) only [hc, State.flag_carries, State.bump_carries,
      State.setSlot_carries, State.onTracker_carries, State.markTaken_carries, Carries.record, Nat.le_refl,
      Nat.le_add_right, imp_self, implies_true, Sparse.wf_nil, eq_self]

@[simp] theorem State.sourceStep_carries {s0 s : State} (hc : Carries s0 s) (lr : Nat) (q : Nat) (st : StepInfo) (recs :
      List DecRec) (w : StepWork) : Carries s0 (State.sourceStep s lr q st recs w).1 := by
  unfold State.sourceStep
  dsimp only
  (repeat' split) <;>
    (try have h0 := State.takeFree_to (s0 := s0) (by simp +contextual (maxDischargeDepth := 40) only [hc,
      State.takeFree_carries, State.covFault_carries, State.takeMeas_carries, State.birth_carries, forEach_carries,
      foldl_carries, foldl_carries_snd, foldl_carries_fst, Carries.ite, Carries.record, Nat.le_refl, Nat.le_add_right,
      imp_self, Sparse.filter_wf, implies_true, Sparse.wf_nil, eq_self]) ‹State.takeFree _ = _›) <;>
    simp +contextual (maxDischargeDepth := 40) only [hc, *, State.takeFree_carries, State.covFault_carries,
      State.takeMeas_carries, State.birth_carries, forEach_carries, foldl_carries, foldl_carries_snd, foldl_carries_fst,
      Carries.ite, Carries.record, Nat.le_refl, Nat.le_add_right, imp_self, Sparse.filter_wf, implies_true,
      Sparse.wf_nil, eq_self]
theorem State.sourceStep_to {s0 t1 s : State} {x1 : StepWork} (hc : Carries s0 s) (lr : Nat) (q : Nat) (st : StepInfo)
      (recs : List DecRec) (w : StepWork) (hx : State.sourceStep s lr q st recs w = (t1, x1)) : Carries s0 t1 := by
  have k := State.sourceStep_carries hc lr q st recs w
  rw [hx] at k
  exact k

@[simp] theorem State.feed_carries {s0 s : State} (hc : Carries s0 s) (lr : Nat) (cond : Slot → Bool) (f : Slot → Slot) :
      Carries s0 (State.feed s lr cond f) := by
  unfold State.feed
  dsimp only
  (repeat' split) <;> simp +contextual (maxDischargeDepth := 40) only [hc, State.bump_carries, State.setSlot_carries,
      forEach_carries, Carries.ite, implies_true, Sparse.wf_nil, eq_self]

@[simp] theorem State.featureRec_carries {s0 s : State} (hc : Carries s0 s) (lr : Nat) (q : Nat) (hw : Nat) (r : DecRec)
      : Carries s0 (State.featureRec s lr q hw r) := by
  unfold State.featureRec
  dsimp only
  (repeat' split) <;> simp +contextual (maxDischargeDepth := 40) only [hc, State.feed_carries, Carries.ite,
      Carries.record, Nat.le_refl, Nat.le_add_right, imp_self, implies_true, Sparse.wf_nil, eq_self]

@[simp] theorem State.auxFeed_carries {s0 s : State} (hc : Carries s0 s) (lr : Nat) (c : Nat) (stamp : Nat) (value : Int)
      : Carries s0 (State.auxFeed s lr c stamp value) := by
  unfold State.auxFeed
  dsimp only
  (repeat' split) <;> simp +contextual (maxDischargeDepth := 40) only [hc, State.feed_carries, Carries.ite,
      Carries.record, Nat.le_refl, Nat.le_add_right, imp_self, implies_true, Sparse.wf_nil, eq_self]

@[simp] theorem State.addRefine_carries {s0 s : State} (hc : Carries s0 s) (p : Nat) (r : RefSample) : Carries s0
      (State.addRefine s p r) := by
  unfold State.addRefine
  (repeat' split) <;> simp +contextual (maxDischargeDepth := 40) only [hc, Carries.ite, Carries.record, Nat.le_refl,
      Nat.le_add_right, imp_self, Sparse.modify_wf, implies_true, Sparse.wf_nil, eq_self]

@[simp] theorem State.fiducial_carries {s0 s : State} (hc : Carries s0 s) (lr : Nat) (q : Nat) (r : DecRec) : Carries s0
      (State.fiducial s lr q r) := by
  unfold State.fiducial
  dsimp only
  (repeat' split) <;> simp +contextual (maxDischargeDepth := 40) only [hc, State.addRefine_carries, Carries.ite,
      Carries.record, Nat.le_refl, Nat.le_add_right, imp_self, implies_true, Sparse.wf_nil, eq_self]

@[simp] theorem State.pairSamples_carries {s0 s : State} (hc : Carries s0 s) (lr : Nat) (taken : List (Nat × Nat × Meas))
      : Carries s0 (State.pairSamples s lr taken) := by
  unfold State.pairSamples
  dsimp only
  (repeat' with_reducible first
      | assumption
      | exact Carries.refl _
      | refine State.addRefine_carries ?_ _ _
      | refine forEach_carries (fun _ _ _ => ?_) _ ?_
      | split
      | intro _
      | apply Carries.record)
  all_goals simp +contextual only [Nat.le_refl, Nat.le_add_right, imp_self, implies_true, Sparse.wf_nil, Sparse.set_wf,
      Sparse.modify_wf, Sparse.filter_wf, eq_self, *]

@[simp] theorem State.builderFor_carries {s0 s : State} (hc : Carries s0 s) (lr : Nat) : Carries s0 (State.builderFor s
      lr).2 := by
  unfold State.builderFor
  dsimp only
  (repeat' split) <;> simp +contextual (maxDischargeDepth := 40) only [hc, Carries.ite, Carries.record, Nat.le_refl,
      Nat.le_add_right, imp_self, Sparse.filter_wf, implies_true, Sparse.wf_nil, eq_self]
theorem State.builderFor_to {s0 t1 s : State} {x1 : Nat} (hc : Carries s0 s) (lr : Nat) (hx : State.builderFor s lr =
      (x1, t1)) : Carries s0 t1 := by
  have k := State.builderFor_carries hc lr
  rw [hx] at k
  exact k

@[simp] theorem State.requestTile_carries {s0 s : State} (hc : Carries s0 s) (r : TileReq) : Carries s0
      (State.requestTile s r) := by
  unfold State.requestTile
  dsimp only
  (repeat' split) <;>
    (try have h0 := State.builderFor_to (s0 := s0) (by simp +contextual (maxDischargeDepth := 40) only [hc,
      State.flagIf_carries, State.bumpIf_carries, State.onDense_carries, State.builderFor_carries, Carries.record,
      Nat.le_refl, Nat.le_add_right, imp_self, implies_true, Sparse.wf_nil, eq_self]) ‹State.builderFor _ _ = _›) <;>
    simp +contextual (maxDischargeDepth := 40) only [hc, *, State.flagIf_carries, State.bumpIf_carries,
      State.onDense_carries, State.builderFor_carries, Carries.record, Nat.le_refl, Nat.le_add_right, imp_self,
      implies_true, Sparse.wf_nil, eq_self]

@[simp] theorem State.mature_carries {s0 s : State} (hc : Carries s0 s) (lr : Nat) (i : Nat) (ssn : Nat) (t : Slot) :
      Carries s0 (State.mature s lr i ssn t) := by
  unfold State.mature
  dsimp only
  (repeat' split) <;>
    (try have h0 := State.takeFree_to (s0 := s0) (by simp +contextual (maxDischargeDepth := 40) only [hc,
      State.bump_carries, State.takeFree_carries, State.setSlot_carries, State.handOver_carries,
      State.requestTile_carries, Carries.ite, Carries.record, Nat.le_refl, Nat.le_add_right, imp_self, implies_true,
      Sparse.wf_nil, eq_self]) ‹State.takeFree _ = _›) <;>
    simp +contextual (maxDischargeDepth := 40) only [hc, *, State.bump_carries, State.takeFree_carries,
      State.setSlot_carries, State.handOver_carries, State.requestTile_carries, Carries.ite, Carries.record, Nat.le_refl,
      Nat.le_add_right, imp_self, implies_true, Sparse.wf_nil, eq_self]

@[simp] theorem State.lifeCycle_carries {s0 s : State} (hc : Carries s0 s) (lr : Nat) (ssn : Nat) (w : StepWork) (i :
      Nat) (t : Slot) : Carries s0 (State.lifeCycle s lr ssn w i t) := by
  unfold State.lifeCycle
  dsimp only
  (repeat' split) <;> simp +contextual (maxDischargeDepth := 40) only [hc, State.bump_carries, State.setSlot_carries,
      State.mature_carries, Carries.ite, Carries.record, Nat.le_refl, Nat.le_add_right, imp_self, implies_true,
      Sparse.wf_nil, eq_self]

@[simp] theorem State.trackStep_carries {s0 s : State} (hc : Carries s0 s) (lr : Nat) (st : StepInfo) (recs : List
      DecRec) : Carries s0 (State.trackStep s lr st recs) := by
  unfold State.trackStep
  dsimp only
  (repeat' split) <;>
    (try have h0 := State.takeFree_to (s0 := s0) (by simp +contextual (maxDischargeDepth := 40) only [hc,
      State.takeFree_carries, State.mapSlots_carries, State.sourceStep_carries, State.featureRec_carries,
      State.fiducial_carries, State.pairSamples_carries, State.lifeCycle_carries, forEach_carries, foldl_carries,
      foldl_carries_snd, foldl_carries_fst, Carries.ite, Carries.record, Nat.le_refl, Nat.le_add_right, imp_self,
      Sparse.filter_wf, implies_true, Sparse.wf_nil, eq_self]) ‹State.takeFree _ = _›) <;>
    simp +contextual (maxDischargeDepth := 40) only [hc, *, State.takeFree_carries, State.mapSlots_carries,
      State.sourceStep_carries, State.featureRec_carries, State.fiducial_carries, State.pairSamples_carries,
      State.lifeCycle_carries, forEach_carries, foldl_carries, foldl_carries_snd, foldl_carries_fst, Carries.ite,
      Carries.record, Nat.le_refl, Nat.le_add_right, imp_self, Sparse.filter_wf, implies_true, Sparse.wf_nil, eq_self]

@[simp] theorem State.trackerFeeds_carries {s0 s : State} (hc : Carries s0 s) (lr : Nat) : Carries s0 (State.trackerFeeds
      s lr) := by
  unfold State.trackerFeeds
  dsimp only
  (repeat' with_reducible first
      | assumption
      | exact Carries.refl _
      | refine State.onConv_carries ?_ _ _
      | refine State.takeFree_carries ?_
      | refine State.takeFree_to ?_ (by assumption)
      | refine forEach_carries (fun _ _ _ => ?_) _ ?_
      | split
      | intro _
      | apply Carries.record)
  all_goals simp +contextual only [Nat.le_refl, Nat.le_add_right, imp_self, implies_true, Sparse.wf_nil, Sparse.set_wf,
      Sparse.modify_wf, Sparse.filter_wf, eq_self, *]

@[simp] theorem State.loadMirror_carries {s0 s : State} (hc : Carries s0 s) (lr : Nat) :
    Carries s0 (State.loadMirror s lr) := by
  unfold State.loadMirror
  dsimp only
  refine forEach_carries (fun _ _ h => State.setWord_carries h _ _) _ ?_
  apply Carries.record hc (Nat.le_refl _) <;> first
    | with_reducible exact id
    | (intro c; dsimp only; refine Sparse.foldl_wf _ (fun _ _ h => ?_) _ c; exact Sparse.set_wf _ _ h)

@[simp] theorem State.refinePort_carries {s0 s : State} (hc : Carries s0 s) (p : Nat) (unfinished : Bool) : Carries s0
      (State.refinePort s p unfinished) := by
  unfold State.refinePort
  dsimp only
  (repeat' split) <;>
    (try have h0 := State.takeFree_to (s0 := s0) (by simp +contextual (maxDischargeDepth := 40) only [hc,
      State.setWord_carries, State.flag_carries, State.flagIf_carries, State.takeFree_carries, State.onPort_carries,
      forEach_carries, Carries.ite, Carries.record, Nat.le_refl, Nat.le_add_right, imp_self, Sparse.set_wf,
      Sparse.filter_wf, implies_true, Sparse.wf_nil, eq_self]) ‹State.takeFree _ = _›) <;>
    simp +contextual (maxDischargeDepth := 40) only [hc, *, State.setWord_carries, State.flag_carries,
      State.flagIf_carries, State.takeFree_carries, State.onPort_carries, forEach_carries, Carries.ite, Carries.record,
      Nat.le_refl, Nat.le_add_right, imp_self, Sparse.set_wf, Sparse.filter_wf, implies_true, Sparse.wf_nil, eq_self]

end Sys2Proof.Machine
end

