-- ==== Sys2Proof/Laws/CarryUnits.lean ====
section
/-!
SUPPORT. What the operations of the fusion voter, the tiles, the arrays, the converters, the auxiliary filter, the spoke chain and the camera ports carry over.
-/

namespace Sys2Proof.Machine

@[simp] theorem State.histogram_carries {s0 s : State} (hc : Carries s0 s) (lr : Nat) (j : Nat) (r : F32) : Carries s0
      (State.histogram s lr j r) := by
  unfold State.histogram
  dsimp only
  (repeat' with_reducible first
      | assumption
      | exact Carries.refl _
      | refine State.bump_carries ?_ _ _
      | split
      | intro _)

@[simp] theorem State.runSensor_carries {s0 s : State} (hc : Carries s0 s) (lr : Nat) (j : Nat) (bad : Bool) : Carries s0
      (State.runSensor s lr j bad) := by
  unfold State.runSensor
  dsimp only
  (repeat' split) <;> simp +contextual (maxDischargeDepth := 40) only [hc, State.setFld_carries, State.report_carries,
      Carries.ite, implies_true, Sparse.wf_nil, eq_self]

@[simp] theorem State.forceSensor_carries {s0 s : State} (hc : Carries s0 s) (lr : Nat) (j : Nat) : Carries s0
      (State.forceSensor s lr j) := by
  unfold State.forceSensor
  (repeat' split) <;> simp +contextual (maxDischargeDepth := 40) only [hc, State.setFld_carries, Carries.record,
      Nat.le_refl, Nat.le_add_right, imp_self, implies_true, Sparse.wf_nil, eq_self]

@[simp] theorem State.judgeSensors_carries {s0 s : State} (hc : Carries s0 s) (lr : Nat) (i : Nat) (t : Slot) (ss : List
      Source) (v : VoteResult) : Carries s0 (State.judgeSensors s lr i t ss v) := by
  unfold State.judgeSensors
  dsimp only
  (repeat' with_reducible first
      | assumption
      | exact Carries.refl _
      | refine State.runSensor_carries ?_ _ _ _
      | refine State.histogram_carries ?_ _ _ _
      | refine State.sample_carries ?_ _ _ _
      | refine forEach_carries (fun _ _ _ => ?_) _ ?_
      | split
      | intro _
      | apply Carries.record)
  all_goals simp +contextual only [Nat.le_refl, Nat.le_add_right, imp_self, implies_true, Sparse.wf_nil, Sparse.set_wf,
      Sparse.modify_wf, Sparse.filter_wf, eq_self, *]

@[simp] theorem State.dropScored_carries {s0 s : State} (hc : Carries s0 s) (lr : Nat) (id : Nat) : Carries s0
      (State.dropScored s lr id) := by
  unfold State.dropScored
  simp +contextual (maxDischargeDepth := 40) only [hc, State.onDense_carries, forEach_carries, Carries.record,
      Nat.le_refl, Nat.le_add_right, imp_self, Sparse.filter_wf, implies_true, Sparse.wf_nil, eq_self]

@[simp] theorem State.appendHist_carries {s0 s : State} (hc : Carries s0 s) (lr : Nat) (st : FabStep) (emitted : List
      Held) : Carries s0 (State.appendHist s lr st emitted) := by
  unfold State.appendHist
  dsimp only
  (repeat' split) <;> simp +contextual (maxDischargeDepth := 40) only [hc, State.onHist_carries, Carries.ite,
      Carries.record, Nat.le_refl, Nat.le_add_right, imp_self, Sparse.filter_wf, implies_true, Sparse.wf_nil, eq_self]

@[simp] theorem State.startTile_carries {s0 s : State} (hc : Carries s0 s) (u : Nat) (r : TileReq) (i : Nat) (t : Slot) :
      Carries s0 (State.startTile s u r i t) := by
  unfold State.startTile
  dsimp only
  (repeat' split) <;> simp +contextual (maxDischargeDepth := 40) only [hc, State.flag_carries, State.bump_carries,
      State.onDense_carries, State.onSlot_carries, Carries.ite, Carries.record, Nat.le_refl, Nat.le_add_right, imp_self,
      implies_true, Sparse.wf_nil, eq_self]

@[simp] theorem State.kickEdge_carries {s0 s : State} (hc : Carries s0 s) (u : Nat) : Carries s0 (State.kickEdge s u) := by
  unfold State.kickEdge
  (repeat' split) <;> simp +contextual (maxDischargeDepth := 40) only [hc, State.onDense_carries, Carries.ite,
      Carries.record, Nat.le_refl, Nat.le_add_right, imp_self, implies_true, Sparse.wf_nil, eq_self]

@[simp] theorem State.countConv_carries {s0 s : State} (hc : Carries s0 s) (block : Nat) (u : Nat) (c : ConvCount) :
      Carries s0 (State.countConv s block u c) := by
  unfold State.countConv
  simp +contextual (maxDischargeDepth := 40) only [hc, State.bump_carries, implies_true, Sparse.wf_nil, eq_self]

@[simp] theorem State.sendPlane_carries {s0 s : State} (hc : Carries s0 s) (t : Tile) (layer : Nat) :
    Carries s0 (State.sendPlane s t layer) := by
  unfold State.sendPlane
  refine forEach_carries (fun s e hs => ?_) _ hc
  split
  · exact forEach_carries (fun s c hs => Carries.getD (State.sendTo_carries hs _ _ _ _ _) hs) _ hs
  · exact hs

@[simp] theorem State.jobDone_carries {s0 s : State} (hc : Carries s0 s) (u : Nat) (j : RunJob) (f : Tile → Tile) :
      Carries s0 (State.jobDone s u j f) := by
  unfold State.jobDone
  dsimp only
  (repeat' split) <;> simp +contextual (maxDischargeDepth := 40) only [hc, State.onDense_carries, State.kickEdge_carries,
      State.sendPlane_carries, Carries.ite, Carries.record, Nat.le_refl, Nat.le_add_right, imp_self, implies_true,
      Sparse.wf_nil, eq_self]

@[simp] theorem State.abandon_carries {s0 s : State} (hc : Carries s0 s) (u : Nat) (d : Nat) : Carries s0 (State.abandon
      s u d) := by
  unfold State.abandon
  simp +contextual (maxDischargeDepth := 40) only [hc, State.onDense_carries, implies_true, Sparse.wf_nil, eq_self]

@[simp] theorem State.edgeDone_carries {s0 s : State} (hc : Carries s0 s) (u : Nat) (j : RunJob) : Carries s0
      (State.edgeDone s u j) := by
  unfold State.edgeDone
  dsimp only
  (repeat' split) <;>
    (try have h0 := State.takeFree_to (s0 := s0) (by simp +contextual (maxDischargeDepth := 40) only [hc,
      State.bump_carries, State.takeFree_carries, State.countConv_carries, State.jobDone_carries, Carries.record,
      Nat.le_refl, Nat.le_add_right, imp_self, implies_true, Sparse.wf_nil, eq_self]) ‹State.takeFree _ = _›) <;>
    simp +contextual (maxDischargeDepth := 40) only [hc, *, State.bump_carries, State.takeFree_carries,
      State.countConv_carries, State.jobDone_carries, Carries.record, Nat.le_refl, Nat.le_add_right, imp_self,
      implies_true, Sparse.wf_nil, eq_self]

@[simp] theorem State.onHost_carries {s0 s : State} (hc : Carries s0 s) (f : HostState → HostState) (h0 : Sparse.wf (fun
      _ => (0 : Byte)) s.host.sdio.f0 = true → Sparse.wf (fun _ => (0 : Byte)) (f s.host).sdio.f0 = true) (h1 : Sparse.wf
      (fun _ => (0 : Byte)) s.host.sdio.inbox = true → Sparse.wf (fun _ => (0 : Byte)) (f s.host).sdio.inbox = true) :
    Carries s0 (State.onHost s f) := by
  unfold State.onHost
  apply Carries.record hc (Nat.le_refl _) <;> first | assumption | exact id

@[simp] theorem State.onSdio_carries {s0 s : State} (hc : Carries s0 s) (f : SdioState → SdioState) (h0 : Sparse.wf (fun
      _ => (0 : Byte)) s.host.sdio.f0 = true → Sparse.wf (fun _ => (0 : Byte)) (f s.host.sdio).f0 = true) (h1 : Sparse.wf
      (fun _ => (0 : Byte)) s.host.sdio.inbox = true → Sparse.wf (fun _ => (0 : Byte)) (f s.host.sdio).inbox = true) :
    Carries s0 (State.onSdio s f) := by
  unfold State.onSdio
  apply Carries.record hc (Nat.le_refl _) <;> first | assumption | exact id

@[simp] theorem State.outboxHead_carries {s0 s : State} (hc : Carries s0 s)  : Carries s0 (State.outboxHead s) := by
  unfold State.outboxHead
  (repeat' split) <;> simp +contextual (maxDischargeDepth := 40) only [hc, State.onHost_carries, Carries.ite,
      Carries.record, Nat.le_refl, Nat.le_add_right, imp_self, implies_true, Sparse.wf_nil, eq_self]

@[simp] theorem State.pushReply_carries {s0 s : State} (hc : Carries s0 s) (tag : Nat) (b : List Byte) : Carries s0
      (State.pushReply s tag b) := by
  unfold State.pushReply
  dsimp only
  (repeat' split) <;> simp +contextual (maxDischargeDepth := 40) only [hc, State.onHost_carries,
      State.outboxHead_carries, Carries.ite, Carries.record, Nat.le_refl, Nat.le_add_right, imp_self, implies_true,
      Sparse.wf_nil, eq_self]

@[simp] theorem State.sendReplyAs_carries {s0 s : State} (hc : Carries s0 s) (held : Nat) (opcode : Nat) (tag : Nat)
      (dest : Nat) (st : Status) (payload : List Byte) : Carries s0 (State.sendReplyAs s held opcode tag dest st payload) := by
  unfold State.sendReplyAs
  dsimp only
  (repeat' with_reducible first
      | assumption
      | exact Carries.refl _
      | refine State.pushReply_carries ?_ _ _
      | refine State.sendTo_carries ?_ _ _ _ _ _ _ (by assumption)
      | refine Carries.getD (State.sendTo_carries ?_ _ _ _ _ _) ?_
      | refine State.bump_carries ?_ _ _
      | split
      | intro _
      | apply Carries.record)
  all_goals simp +contextual only [Nat.le_refl, Nat.le_add_right, imp_self, implies_true, Sparse.wf_nil, Sparse.set_wf,
      Sparse.modify_wf, Sparse.filter_wf, eq_self, *]

@[simp] theorem State.sendReply_carries {s0 s : State} (hc : Carries s0 s) (opcode : Nat) (tag : Nat) (dest : Nat) (st :
      Status) (payload : List Byte) : Carries s0 (State.sendReply s opcode tag dest st payload) := by
  unfold State.sendReply
  (repeat' with_reducible first
      | assumption
      | exact Carries.refl _
      | refine State.sendReplyAs_carries ?_ _ _ _ _ _ _
      | split
      | intro _)

@[simp] theorem State.refusePacket_carries {s0 s : State} (hc : Carries s0 s) (opcode : Nat) (tag : Nat) (dest : Nat) (st
      : Status) : Carries s0 (State.refusePacket s opcode tag dest st) := by
  unfold State.refusePacket
  simp +contextual (maxDischargeDepth := 40) only [hc, State.sendReplyAs_carries, implies_true, Sparse.wf_nil, eq_self]

@[simp] theorem State.answer_carries {s0 s : State} (hc : Carries s0 s) (opcode : Nat) (r : Req) (st : Status) (payload :
      List Byte) : Carries s0 (State.answer s opcode r st payload) := by
  unfold State.answer
  simp +contextual (maxDischargeDepth := 40) only [hc, State.sendReply_carries, implies_true, Sparse.wf_nil, eq_self]

@[simp] theorem State.endSessions_carries {s0 s : State} (hc : Carries s0 s) : Carries s0 (State.endSessions s) := by
  unfold State.endSessions
  dsimp only
  simp +contextual (maxDischargeDepth := 40) only [hc, State.onHost_carries, State.pushReply_carries, forEach_carries,
      Carries.record, Nat.le_refl, Nat.le_add_right, imp_self, Sparse.filter_wf, implies_true, Sparse.wf_nil, eq_self]

@[simp] theorem State.startRunning_carries {s0 s : State} (hc : Carries s0 s) (opcode : Nat) (r : Req) (status : Status)
      (note : List Byte) : Carries s0 (State.startRunning s opcode r status note) := by
  unfold State.startRunning
  simp +contextual (maxDischargeDepth := 40) only [hc, State.onHost_carries, Carries.record, Nat.le_refl,
      Nat.le_add_right, imp_self, implies_true, Sparse.wf_nil, eq_self]

@[simp] theorem State.endRunning_carries {s0 s : State} (hc : Carries s0 s) (r : Running) : Carries s0 (State.endRunning
      s r) := by
  unfold State.endRunning
  simp +contextual (maxDischargeDepth := 40) only [hc, State.onHost_carries, Carries.record, Nat.le_refl,
      Nat.le_add_right, imp_self, implies_true, Sparse.wf_nil, eq_self]

@[simp] theorem State.finish_carries {s0 s : State} (hc : Carries s0 s) (r : Running) (st : Status) (payload : List Byte)
      : Carries s0 (State.finish s r st payload) := by
  unfold State.finish
  simp +contextual (maxDischargeDepth := 40) only [hc, State.answer_carries, State.endRunning_carries, implies_true,
      Sparse.wf_nil, eq_self]

@[simp] theorem State.finishOpt_carries {s0 s : State} (hc : Carries s0 s) (r : Option Running) (st : Status) (payload :
      List Byte) : Carries s0 (State.finishOpt s r st payload) := by
  unfold State.finishOpt
  (repeat' split) <;> simp +contextual (maxDischargeDepth := 40) only [hc, State.finish_carries, Carries.record,
      Nat.le_refl, Nat.le_add_right, imp_self, implies_true, Sparse.wf_nil, eq_self]

@[simp] theorem State.startPending_carries {s0 s : State} (hc : Carries s0 s) (d : Nat) : Carries s0 (State.startPending
      s d) := by
  unfold State.startPending
  (repeat' split) <;> simp +contextual (maxDischargeDepth := 40) only [hc, State.onPdom_carries, Carries.ite,
      Carries.record, Nat.le_refl, Nat.le_add_right, imp_self, implies_true, Sparse.wf_nil, eq_self]

@[simp] theorem State.endMove_carries {s0 s : State} (hc : Carries s0 s) (d : Nat) (st : Status) : Carries s0
      (State.endMove s d st) := by
  unfold State.endMove
  simp +contextual (maxDischargeDepth := 40) only [hc, State.onPdom_carries, State.startPending_carries, Carries.record,
      Nat.le_refl, Nat.le_add_right, imp_self, implies_true, Sparse.wf_nil, eq_self]

@[simp] theorem State.startMove_carries {s0 s : State} (hc : Carries s0 s) (d : Nat) (t : PwrState) : Carries s0
      (State.startMove s d t) := by
  unfold State.startMove
  simp +contextual (maxDischargeDepth := 40) only [hc, State.onPdom_carries, Carries.record, Nat.le_refl,
      Nat.le_add_right, imp_self, implies_true, Sparse.wf_nil, eq_self]

@[simp] theorem State.parkNext_carries {s0 s : State} (hc : Carries s0 s)  : Carries s0 (State.parkNext s) := by
  unfold State.parkNext
  dsimp only
  (repeat' split) <;> simp +contextual (maxDischargeDepth := 40) only [hc, State.onPower_carries, State.onPdom_carries,
      State.finishOpt_carries, State.startMove_carries, Carries.ite, Carries.record, Nat.le_refl, Nat.le_add_right,
      imp_self, implies_true, Sparse.wf_nil, eq_self]

@[simp] theorem State.parkStep_carries {s0 s : State} (hc : Carries s0 s) (st : Option Status) : Carries s0
      (State.parkStep s st) := by
  unfold State.parkStep
  dsimp only
  (repeat' split) <;> simp +contextual (maxDischargeDepth := 40) only [hc, State.onPower_carries, State.onHost_carries,
      State.parkNext_carries, Carries.ite, Carries.record, Nat.le_refl, Nat.le_add_right, imp_self, implies_true,
      Sparse.wf_nil, eq_self]

@[simp] theorem State.parkAfter_carries {s0 s : State} (hc : Carries s0 s) (own : Bool) (st : Option Status) : Carries s0
      (State.parkAfter s own st) := by
  unfold State.parkAfter
  (repeat' with_reducible first
      | assumption
      | exact Carries.refl _
      | refine State.parkStep_carries ?_ _
      | refine State.parkNext_carries ?_
      | split
      | intro _)

@[simp] theorem State.parkRefused_carries {s0 s : State} (hc : Carries s0 s) (own : Bool) (st : Status) (payload : List
      Byte) : Carries s0 (State.parkRefused s own st payload) := by
  unfold State.parkRefused
  (repeat' split) <;> simp +contextual (maxDischargeDepth := 40) only [hc, State.onPower_carries,
      State.finishOpt_carries, State.parkNext_carries, Carries.ite, Carries.record, Nat.le_refl, Nat.le_add_right,
      imp_self, implies_true, Sparse.wf_nil, eq_self]

@[simp] theorem State.refuseEntry_carries {s0 s : State} (hc : Carries s0 s) (d : Nat) (code : Nat) (inst : Nat) :
      Carries s0 (State.refuseEntry s d code inst) := by
  unfold State.refuseEntry
  dsimp only
  simp +contextual (maxDischargeDepth := 40) only [hc, State.bump_carries, State.onPdom_carries, State.finishOpt_carries,
      State.endMove_carries, State.parkRefused_carries, Carries.record, Nat.le_refl, Nat.le_add_right, imp_self,
      implies_true, Sparse.wf_nil, eq_self]

@[simp] theorem State.refuseHeld_carries {s0 s : State} (hc : Carries s0 s) (d : Nat) : Carries s0 (State.refuseHeld s d) := by
  unfold State.refuseHeld
  dsimp only
  simp +contextual (maxDischargeDepth := 40) only [hc, State.onPdom_carries, State.finishOpt_carries,
      State.endMove_carries, State.parkRefused_carries, Carries.record, Nat.le_refl, Nat.le_add_right, imp_self,
      implies_true, Sparse.wf_nil, eq_self]

@[simp] theorem State.wakeEntry_carries {s0 s : State} (hc : Carries s0 s) (d : Nat) : Carries s0 (State.wakeEntry s d) := by
  unfold State.wakeEntry
  dsimp only
  simp +contextual (maxDischargeDepth := 40) only [hc, State.onPdom_carries, State.finishOpt_carries,
      State.endMove_carries, State.parkAfter_carries, Carries.record, Nat.le_refl, Nat.le_add_right, imp_self,
      implies_true, Sparse.wf_nil, eq_self]

@[simp] theorem State.endEntry_carries {s0 s : State} (hc : Carries s0 s) (d : Nat) : Carries s0 (State.endEntry s d) := by
  unfold State.endEntry
  dsimp only
  (repeat' split) <;> simp +contextual (maxDischargeDepth := 40) only [hc, State.wakeEntry_carries, Carries.ite,
      implies_true, Sparse.wf_nil, eq_self]

@[simp] theorem State.startWake_carries {s0 s : State} (hc : Carries s0 s) (d : Nat) : Carries s0 (State.startWake s d) := by
  unfold State.startWake
  simp +contextual (maxDischargeDepth := 40) only [hc, State.bump_carries, State.startMove_carries, implies_true,
      Sparse.wf_nil, eq_self]

@[simp] theorem State.accessWake_carries {s0 s : State} (hc : Carries s0 s) (d : Nat) : Carries s0 (State.accessWake s d) := by
  unfold State.accessWake
  dsimp only
  (repeat' split) <;> simp +contextual (maxDischargeDepth := 40) only [hc, State.onPdom_carries, State.endEntry_carries,
      State.startWake_carries, Carries.ite, Carries.record, Nat.le_refl, Nat.le_add_right, imp_self, implies_true,
      Sparse.wf_nil, eq_self]

@[simp] theorem State.queueAccess_carries {s0 s : State} (hc : Carries s0 s) (q : Nat) (pointers : PtrCheck) : Carries s0
      (State.queueAccess s q pointers) := by
  unfold State.queueAccess
  (repeat' split) <;> simp +contextual (maxDischargeDepth := 40) only [hc, State.pointerCheck_carries,
      State.accessWake_carries, Carries.ite, implies_true, Sparse.wf_nil, eq_self]

@[simp] theorem State.countDiscard_carries {s0 s : State} (hc : Carries s0 s) (q : Nat) (p : Producer) : Carries s0
      (State.countDiscard s q p) := by
  unfold State.countDiscard
  (repeat' split) <;> simp +contextual (maxDischargeDepth := 40) only [hc, State.bump_carries, Carries.record,
      Nat.le_refl, Nat.le_add_right, imp_self, implies_true, Sparse.wf_nil, eq_self]

@[simp] theorem State.writeBoxes_carries {s0 s : State} (hc : Carries s0 s) (r : Nat) (recs : List (List Byte)) (pointers
      : PtrCheck) : Carries s0 (State.writeBoxes s r recs pointers) := by
  unfold State.writeBoxes
  dsimp only
  (repeat' split) <;> simp +contextual (maxDischargeDepth := 40) only [hc, State.bump_carries, State.pushWords_carries,
      State.queueAccess_carries, forEach_carries, Carries.ite, implies_true, Sparse.wf_nil, eq_self]

@[simp] theorem State.passBoxes_carries {s0 s : State} (hc : Carries s0 s) (u : Nat) : Carries s0 (State.passBoxes s u) := by
  unfold State.passBoxes
  dsimp only
  (repeat' split) <;> simp +contextual (maxDischargeDepth := 40) only [hc, State.onDense_carries, Carries.ite,
      Carries.record, Nat.le_refl, Nat.le_add_right, imp_self, implies_true, Sparse.wf_nil, eq_self]

@[simp] theorem State.runEncoder_carries {s0 s : State} (hc : Carries s0 s) (lr : Nat) (k : Nat) (ssn : Nat) (x : Int) :
      Carries s0 (State.runEncoder s lr k ssn x) := by
  unfold State.runEncoder
  dsimp only
  (repeat' split) <;> simp +contextual (maxDischargeDepth := 40) only [hc, State.onConv_carries, State.sendEvent_carries,
      Carries.ite, Carries.record, Nat.le_refl, Nat.le_add_right, imp_self, implies_true, Sparse.wf_nil, eq_self]

@[simp] theorem State.onChan_carries {s0 s : State} (hc : Carries s0 s) (c : Nat) (f : AuxChan → AuxChan) : Carries s0
      (State.onChan s c f) := by
  unfold State.onChan
  simp +contextual (maxDischargeDepth := 40) only [hc, Carries.record, Nat.le_refl, Nat.le_add_right, imp_self,
      Sparse.modify_wf, implies_true, Sparse.wf_nil, eq_self]

@[simp] theorem State.encodersEnd_carries {s0 s : State} (hc : Carries s0 s) (st : FabStep) (lr : Nat) : Carries s0
      (State.encodersEnd s st lr) := by
  unfold State.encodersEnd
  (repeat' with_reducible first
      | assumption
      | exact Carries.refl _
      | refine State.runEncoder_carries ?_ _ _ _ _
      | refine forEach_carries (fun _ _ _ => ?_) _ ?_
      | split
      | intro _
      | apply Carries.record)
  all_goals simp +contextual only [Nat.le_refl, Nat.le_add_right, imp_self, implies_true, Sparse.wf_nil, Sparse.set_wf,
      Sparse.modify_wf, Sparse.filter_wf, eq_self, *]

@[simp] theorem State.encodersAsync_carries {s0 s : State} (hc : Carries s0 s) (c : Nat) (x : Int) (lr : Nat) : Carries
      s0 (State.encodersAsync s c x lr) := by
  unfold State.encodersAsync
  dsimp only
  (repeat' split) <;> simp +contextual (maxDischargeDepth := 40) only [hc, State.runEncoder_carries, forEach_carries,
      Carries.ite, implies_true, Sparse.wf_nil, eq_self]

@[simp] theorem State.consumeRec_carries {s0 s : State} (hc : Carries s0 s) (lr : Nat) (r : DecRec) : Carries s0
      (State.consumeRec s lr r) := by
  unfold State.consumeRec
  (repeat' split) <;> simp +contextual (maxDischargeDepth := 40) only [hc, State.onHist_carries, State.onTracker_carries,
      Carries.ite, Carries.record, Nat.le_refl, Nat.le_add_right, imp_self, Sparse.set_wf, implies_true, Sparse.wf_nil, eq_self]

@[simp] theorem State.postRec_carries {s0 s : State} (hc : Carries s0 s) (lr : Nat) (r : DecRec) : Carries s0
      (State.postRec s lr r) := by
  unfold State.postRec
  dsimp only
  (repeat' split) <;>
    (try have h0 := State.takeFree_to (s0 := s0) (by simp +contextual (maxDischargeDepth := 40) only [hc,
      State.takeFree_carries, State.onConv_carries, State.consumeRec_carries, Carries.ite, Carries.record, Nat.le_refl,
      Nat.le_add_right, imp_self, implies_true, Sparse.wf_nil, eq_self]) ‹State.takeFree _ = _›) <;>
    simp +contextual (maxDischargeDepth := 40) only [hc, *, State.takeFree_carries, State.onConv_carries,
      State.consumeRec_carries, Carries.ite, Carries.record, Nat.le_refl, Nat.le_add_right, imp_self, implies_true,
      Sparse.wf_nil, eq_self]

@[simp] theorem State.decodersEnd_carries {s0 s : State} (hc : Carries s0 s) (ssn : Nat) (emitted : List Held) (lr : Nat)
      : Carries s0 (State.decodersEnd s ssn emitted lr) := by
  unfold State.decodersEnd
  dsimp only
  (repeat' with_reducible first
      | assumption
      | exact Carries.refl _
      | refine State.postRec_carries ?_ _ _
      | refine State.onConv_carries ?_ _ _
      | refine forEach_carries (fun _ _ _ => ?_) _ ?_
      | split
      | intro _
      | apply Carries.record)
  all_goals simp +contextual only [Nat.le_refl, Nat.le_add_right, imp_self, implies_true, Sparse.wf_nil, Sparse.set_wf,
      Sparse.modify_wf, Sparse.filter_wf, eq_self, *]

@[simp] theorem State.countStalls_carries {s0 s : State} (hc : Carries s0 s) (ssn : Nat) (lr : Nat) : Carries s0
      (State.countStalls s ssn lr) := by
  unfold State.countStalls
  simp +contextual (maxDischargeDepth := 40) only [hc, State.bump_carries, implies_true, Sparse.wf_nil, eq_self]

@[simp] theorem State.clearBlock_carries {s0 s : State} (hc : Carries s0 s) (b : Nat) : Carries s0 (State.clearBlock s b) := by
  unfold State.clearBlock
  simp +contextual (maxDischargeDepth := 40) only [hc, State.sleepIdle_carries, Carries.record, Nat.le_refl,
      Nat.le_add_right, imp_self, Sparse.modify_wf, Sparse.filter_wf, implies_true, Sparse.wf_nil, eq_self]

@[simp] theorem State.blankBlock_carries {s0 s : State} (hc : Carries s0 s) (b : Nat) : Carries s0 (State.blankBlock s b) := by
  unfold State.blankBlock
  dsimp only
  simp +contextual (maxDischargeDepth := 40) only [hc, State.onBlock_carries, State.clearBlock_carries, implies_true,
      Sparse.wf_nil, eq_self]

@[simp] theorem State.loadBlock_carries {s0 s : State} (hc : Carries s0 s) (b : Nat) (ib : ImageBlock) : Carries s0
      (State.loadBlock s b ib) := by
  unfold State.loadBlock
  dsimp only
  simp +contextual (maxDischargeDepth := 40) only [hc, State.setWord_carries, State.onBlock_carries,
      State.clearBlock_carries, forEach_carries, Carries.record, Nat.le_refl, Nat.le_add_right, imp_self, implies_true,
      Sparse.wf_nil, eq_self]

@[simp] theorem State.loadGuests_carries {s0 s : State} (hc : Carries s0 s) (e : Nat) : Carries s0 (State.loadGuests s e) := by
  unfold State.loadGuests
  (repeat' with_reducible first
      | assumption
      | exact Carries.refl _
      | refine State.loadBlock_carries ?_ _ _
      | refine forEach_carries (fun _ _ _ => ?_) _ ?_
      | split
      | intro _
      | apply Carries.record)
  all_goals simp +contextual only [Nat.le_refl, Nat.le_add_right, imp_self, implies_true, Sparse.wf_nil, Sparse.set_wf,
      Sparse.modify_wf, Sparse.filter_wf, eq_self, *]

@[simp] theorem State.loadRegion_carries {s0 s : State} (hc : Carries s0 s) (e : Nat) : Carries s0 (State.loadRegion s e) := by
  unfold State.loadRegion
  dsimp only
  (repeat' with_reducible first
      | assumption
      | exact Carries.refl _
      | refine State.loadBlock_carries ?_ _ _
      | refine State.blankBlock_carries ?_ _
      | refine State.clearBlock_carries ?_ _
      | refine forEach_carries (fun _ _ _ => ?_) _ ?_
      | split
      | intro _
      | apply Carries.record)
  all_goals simp +contextual only [Nat.le_refl, Nat.le_add_right, imp_self, implies_true, Sparse.wf_nil, Sparse.set_wf,
      Sparse.modify_wf, Sparse.filter_wf, eq_self, *]

@[simp] theorem State.copyStates_carries {s0 s : State} (hc : Carries s0 s) (p : Nat) (q : Nat) : Carries s0
      (State.copyStates s p q) := by
  unfold State.copyStates
  dsimp only
  simp +contextual (maxDischargeDepth := 40) only [hc, State.onBlock_carries, Carries.record, Nat.le_refl,
      Nat.le_add_right, imp_self, implies_true, Sparse.wf_nil, eq_self]

@[simp] theorem State.setMap_carries {s0 s : State} (hc : Carries s0 s) (m : Nat) : Carries s0 (State.setMap s m) := by
  unfold State.setMap
  simp +contextual (maxDischargeDepth := 40) only [hc, Carries.record, Nat.le_refl, Nat.le_add_right, imp_self,
      implies_true, Sparse.wf_nil, eq_self]

@[simp] theorem State.redealTiles_carries {s0 s : State} (hc : Carries s0 s) (e : Nat) : Carries s0 (State.redealTiles s
      e) := by
  unfold State.redealTiles
  dsimp only
  (repeat' split) <;> simp +contextual (maxDischargeDepth := 40) only [hc, State.bump_carries, State.onDense_carries,
      State.requestTile_carries, State.mature_carries, forEach_carries, foldl_carries, foldl_carries_snd,
      foldl_carries_fst, Carries.ite, Carries.record, Nat.le_refl, Nat.le_add_right, imp_self, Sparse.filter_wf,
      implies_true, Sparse.wf_nil, eq_self]

@[simp] theorem State.derail_carries {s0 s : State} (hc : Carries s0 s) (e : Nat) : Carries s0 (State.derail s e) := by
  have h1 := State.loadGuests_carries hc e
  have h2 := Carries.ite (c := (s.loadGuests e).stepMode = true) (State.loadMirror_carries h1 e) h1
  have h3 := State.onConv_carries (State.onTracker_carries h2 e fun t => { t with inbox := [] }) e
    fun c => { Conv.empty with lfsr := c.lfsr }
  have h4 := State.bump_carries (State.setRegion_carries (State.setMap_carries h3 (e + 1)) e 2) (pid 1 0 0x120) 1
  exact State.onPower_carries (State.passBoxes_carries (State.redealTiles_carries h4 e) e)
    (fun p => { p with failing := p.failing.filter (· != e) }) id

@[simp] theorem State.parkMap_carries {s0 s : State} (hc : Carries s0 s) (e : Nat) : Carries s0 (State.parkMap s e) := by
  unfold State.parkMap
  dsimp only
  simp +contextual (maxDischargeDepth := 40) only [hc, State.bump_carries, State.setRegion_carries,
      State.onPower_carries, State.passBoxes_carries, State.loadGuests_carries, State.copyStates_carries,
      State.setMap_carries, State.redealTiles_carries, forEach_carries, Carries.record, Nat.le_refl, Nat.le_add_right,
      imp_self, implies_true, Sparse.wf_nil, eq_self]

@[simp] theorem State.unparkMap_carries {s0 s : State} (hc : Carries s0 s) (e : Nat) : Carries s0 (State.unparkMap s e) := by
  unfold State.unparkMap
  dsimp only
  (repeat' with_reducible first
      | assumption
      | exact Carries.refl _
      | refine State.setMap_carries ?_ _
      | refine State.copyStates_carries ?_ _ _
      | refine State.loadBlock_carries ?_ _ _
      | refine State.clearBlock_carries ?_ _
      | refine State.onDense_carries ?_ _ _
      | apply State.onPower_carries
      | refine State.setRegion_carries ?_ _ _
      | refine State.bump_carries ?_ _ _
      | refine forEach_carries (fun _ _ _ => ?_) _ ?_
      | refine foldl_carries (fun _ _ _ => ?_) _ ?_
      | refine foldl_carries_snd (fun _ _ _ => ?_) _ ?_
      | refine foldl_carries_fst (fun _ _ _ => ?_) _ ?_
      | split
      | intro _
      | apply Carries.record)
  all_goals simp +contextual only [Nat.le_refl, Nat.le_add_right, imp_self, implies_true, Sparse.wf_nil, Sparse.set_wf,
      Sparse.modify_wf, Sparse.filter_wf, eq_self, *, Sparse.foldl_wf]

@[simp] theorem State.switchMap_carries {s0 s : State} (hc : Carries s0 s) (w : MapSwitch) : Carries s0 (State.switchMap
      s w) := by
  unfold State.switchMap
  (repeat' split) <;> simp +contextual (maxDischargeDepth := 40) only [hc, State.derail_carries, State.parkMap_carries,
      State.unparkMap_carries, Carries.record, Nat.le_refl, Nat.le_add_right, imp_self, implies_true, Sparse.wf_nil, eq_self]

@[simp] theorem State.switchMaps_carries {s0 s : State} (hc : Carries s0 s)  : Carries s0 (State.switchMaps s) := by
  unfold State.switchMaps
  dsimp only
  simp +contextual (maxDischargeDepth := 40) only [hc, State.onPower_carries, State.switchMap_carries, forEach_carries,
      Carries.record, Nat.le_refl, Nat.le_add_right, imp_self, implies_true, Sparse.wf_nil, eq_self]

theorem transSets_wf : Sparse.wf transDefault transSets = true :=
  Sparse.foldl_wf _ (fun _ _ h => Sparse.foldl_wf _ (fun _ _ h => by split; exact h; exact Sparse.set_wf _ _ h) _ h) _ rfl

@[simp] theorem State.installStores_carries {s0 s : State} (hc : Carries s0 s) (m : Model) :
    Carries s0 (State.installStores s m) := by
  unfold State.installStores
  dsimp only
  refine forEach_carries (fun s lr h => forEach_carries (fun s j h => State.forceSensor_carries h lr j) _ h) _
    (forEach_carries (fun s w h => ?_) _ (forEach_carries (fun s ib h => ?_) _
      (forEach_carries (fun s b h => State.blankBlock_carries h b) _ (State.setMap_carries ?_ _))))
  · split
    · exact State.setWord_carries h _ _
    · exact h
  · split
    · exact State.loadBlock_carries h _ _
    · exact h
  · apply Carries.record (State.onModel_carries hc _) (Nat.le_refl _) <;> first
      | with_reducible exact id
      | with_reducible exact fun _ => transSets_wf
      | (intro _; dsimp only; refine Sparse.foldl_wf _ (fun _ _ h => ?_) _ rfl; exact Sparse.set_wf _ _ h)

@[simp] theorem State.placeRegions_carries {s0 s : State} (hc : Carries s0 s) (m : Model) : Carries s0
      (State.placeRegions s m) := by
  unfold State.placeRegions
  (repeat' split) <;> simp +contextual (maxDischargeDepth := 40) only [hc, State.setRegion_carries, forEach_carries,
      Carries.ite, implies_true, Sparse.wf_nil, eq_self]

@[simp] theorem State.installPlan_carries {s0 s : State} (hc : Carries s0 s) (p : Plan) : Carries s0 (State.installPlan s
      p) := by
  unfold State.installPlan
  simp +contextual (maxDischargeDepth := 40) only [hc, Carries.record, Nat.le_refl, Nat.le_add_right, imp_self,
      implies_true, Sparse.wf_nil, eq_self]

@[simp] theorem State.installModel_carries {s0 s : State} (hc : Carries s0 s) (m : Model) : Carries s0
      (State.installModel s m) := by
  unfold State.installModel
  simp +contextual (maxDischargeDepth := 40) only [hc, State.installStores_carries, State.placeRegions_carries,
      State.installPlan_carries, implies_true, Sparse.wf_nil, eq_self]

@[simp] theorem State.unloadModel_carries {s0 s : State} (hc : Carries s0 s)  : Carries s0 (State.unloadModel s) := by
  unfold State.unloadModel
  dsimp only
  (repeat' with_reducible first
      | assumption
      | exact Carries.refl _
      | refine State.installPlan_carries ?_ _
      | refine State.setMap_carries ?_ _
      | refine State.clearBlock_carries ?_ _
      | refine State.onModel_carries ?_ _
      | refine State.setRegion_carries ?_ _ _
      | refine forEach_carries (fun _ _ _ => ?_) _ ?_
      | split
      | intro _
      | apply Carries.record)
  all_goals simp +contextual only [Nat.le_refl, Nat.le_add_right, imp_self, implies_true, Sparse.wf_nil, Sparse.set_wf,
      Sparse.modify_wf, Sparse.filter_wf, eq_self, *]

@[simp] theorem State.ringWrite_carries {s0 s : State} (hc : Carries s0 s) (c : Nat) (seq : Nat) (r : Nat) : Carries s0
      (State.ringWrite s c seq r) := by
  unfold State.ringWrite
  dsimp only
  (repeat' split) <;> simp +contextual (maxDischargeDepth := 40) only [hc, State.writeBytes_carries, Carries.ite,
      implies_true, Sparse.wf_nil, eq_self]

@[simp] theorem State.auxConsume_carries {s0 s : State} (hc : Carries s0 s) (c : Nat) (stamp : Nat) (value : Int) :
      Carries s0 (State.auxConsume s c stamp value) := by
  unfold State.auxConsume
  dsimp only
  (repeat' split) <;> simp +contextual (maxDischargeDepth := 40) only [hc, State.auxFeed_carries, State.onChan_carries,
      State.encodersAsync_carries, forEach_carries, Carries.ite, Carries.record, Nat.le_refl, Nat.le_add_right, imp_self,
      implies_true, Sparse.wf_nil, eq_self]

@[simp] theorem State.auxOutput_carries {s0 s : State} (hc : Carries s0 s) (c : Nat) (l : Nat) (h : Int × Bool) : Carries
      s0 (State.auxOutput s c l h) := by
  unfold State.auxOutput
  dsimp only
  (repeat' split) <;>
    (try have h0 := State.stampOf_to (s0 := s0) (by simp +contextual (maxDischargeDepth := 40) only [hc,
      State.flagIf_carries, State.bump_carries, State.bumpIf_carries, State.takeFree_carries, State.stampOf_carries,
      State.onChan_carries, State.ringWrite_carries, State.auxConsume_carries, Carries.ite, Carries.record, Nat.le_refl,
      Nat.le_add_right, imp_self, implies_true, Sparse.wf_nil, eq_self]) ‹State.stampOf _ _ = _›) <;>
    simp +contextual (maxDischargeDepth := 40) only [hc, *, State.flagIf_carries, State.bump_carries,
      State.bumpIf_carries, State.takeFree_carries, State.stampOf_carries, State.onChan_carries, State.ringWrite_carries,
      State.auxConsume_carries, Carries.ite, Carries.record, Nat.le_refl, Nat.le_add_right, imp_self, implies_true,
      Sparse.wf_nil, eq_self]

@[simp] theorem State.auxStuckRule_carries {s0 s : State} (hc : Carries s0 s) (c : Nat) (l : Nat) (b : Bool) : Carries s0
      (State.auxStuckRule s c l b) := by
  unfold State.auxStuckRule
  dsimp only
  (repeat' split) <;> simp +contextual (maxDischargeDepth := 40) only [hc, State.flag_carries, State.bump_carries,
      State.report_carries, State.onChan_carries, Carries.ite, Carries.record, Nat.le_refl, Nat.le_add_right, imp_self,
      implies_true, Sparse.wf_nil, eq_self]

@[simp] theorem State.auxBit_carries {s0 s : State} (hc : Carries s0 s) (c : Nat) (b : Bool) : Carries s0 (State.auxBit s
      c b) := by
  unfold State.auxBit
  dsimp only
  (repeat' with_reducible first
      | assumption
      | exact Carries.refl _
      | refine State.auxStuckRule_carries ?_ _ _ _
      | refine State.auxOutput_carries ?_ _ _ _
      | refine State.onChan_carries ?_ _ _
      | refine State.bump_carries ?_ _ _
      | split
      | intro _
      | apply Carries.record)
  all_goals simp +contextual only [Nat.le_refl, Nat.le_add_right, imp_self, implies_true, Sparse.wf_nil, Sparse.set_wf,
      Sparse.modify_wf, Sparse.filter_wf, eq_self, *]

@[simp] theorem State.auxBits_carries {s0 s : State} (hc : Carries s0 s) (c : Nat) (bits : List Bool) : Carries s0
      (State.auxBits s c bits) := by
  unfold State.auxBits
  simp +contextual (maxDischargeDepth := 40) only [hc, State.auxBit_carries, forEach_carries, implies_true,
      Sparse.wf_nil, eq_self]

@[simp] theorem State.romError_carries {s0 s : State} (hc : Carries s0 s) (c : Nat) (k : Nat) : Carries s0
      (State.romError s c k) := by
  unfold State.romError
  dsimp only
  (repeat' split) <;> simp +contextual (maxDischargeDepth := 40) only [hc, State.flag_carries, State.bump_carries,
      State.report_carries, State.onChan_carries, forEach_carries, Carries.ite, Carries.record, Nat.le_refl,
      Nat.le_add_right, imp_self, implies_true, Sparse.wf_nil, eq_self]

@[simp] theorem State.auxReset_carries {s0 s : State} (hc : Carries s0 s) (c : Nat) (l : Nat) : Carries s0
      (State.auxReset s c l) := by
  unfold State.auxReset
  dsimp only
  (repeat' split) <;> simp +contextual (maxDischargeDepth := 40) only [hc, State.onChan_carries, Carries.ite,
      Carries.record, Nat.le_refl, Nat.le_add_right, imp_self, implies_true, Sparse.wf_nil, eq_self]

@[simp] theorem State.mclkRestart_carries {s0 s : State} (hc : Carries s0 s) (k : Bool) : Carries s0 (State.mclkRestart s
      k) := by
  unfold State.mclkRestart
  dsimp only
  (repeat' split) <;> simp +contextual (maxDischargeDepth := 40) only [hc, State.onChan_carries, State.auxReset_carries,
      forEach_carries, Carries.ite, Carries.record, Nat.le_refl, Nat.le_add_right, imp_self, implies_true, Sparse.wf_nil,
      eq_self]

@[simp] theorem State.auxWritten_carries {s0 s : State} (hc : Carries s0 s) (u : Nat) (i : Nat) (old : Word) (v : Word) :
      Carries s0 (State.auxWritten s u i old v) := by
  unfold State.auxWritten
  dsimp only
  (repeat' split) <;> simp +contextual (maxDischargeDepth := 40) only [hc, State.onChan_carries, State.auxReset_carries,
      State.mclkRestart_carries, forEach_carries, Carries.ite, Carries.record, Nat.le_refl, Nat.le_add_right, imp_self,
      implies_true, Sparse.wf_nil, eq_self]

@[simp] theorem State.auxRead_carries {s0 s : State} (hc : Carries s0 s) (u : Nat) (i : Nat) : ∀ a t,
      State.auxRead s u i = some (a, t) → Carries s0 t := by
  unfold State.auxRead
  dsimp only
  (repeat' split) <;> simp +contextual (maxDischargeDepth := 40) only [hc, State.onChan_carries, Carries.ite,
      Carries.record, Nat.le_refl, Nat.le_add_right, imp_self, implies_true, Sparse.wf_nil, eq_self, reduceCtorEq,
      false_implies, forall_const, Option.some.injEq, Prod.mk.injEq, and_imp, forall_eq', forall_apply_eq_imp_iff]

@[simp] theorem State.setRoute_carries {s0 s : State} (hc : Carries s0 s) (a : Nat) (v : Nat) : Carries s0
      (State.setRoute s a v) := by
  unfold State.setRoute
  simp +contextual (maxDischargeDepth := 40) only [hc, Carries.record, Nat.le_refl, Nat.le_add_right, imp_self,
      Sparse.set_wf, implies_true, Sparse.wf_nil, eq_self]

@[simp] theorem State.setRole_carries {s0 s : State} (hc : Carries s0 s) (p : Nat) (v : Nat) : Carries s0 (State.setRole
      s p v) := by
  unfold State.setRole
  simp +contextual (maxDischargeDepth := 40) only [hc, State.setFld_carries, implies_true, Sparse.wf_nil, eq_self]

@[simp] theorem State.setNode_carries {s0 s : State} (hc : Carries s0 s) (a : Nat) (n : Option ChainNode) : Carries s0
      (State.setNode s a n) := by
  unfold State.setNode
  simp +contextual (maxDischargeDepth := 40) only [hc, Carries.record, Nat.le_refl, Nat.le_add_right, imp_self,
      Sparse.set_wf, implies_true, Sparse.wf_nil, eq_self]

@[simp] theorem State.addLink_carries {s0 s : State} (hc : Carries s0 s) (l : ChainLink) : Carries s0 (State.addLink s l) := by
  unfold State.addLink
  (repeat' split) <;> simp +contextual (maxDischargeDepth := 40) only [hc, Carries.ite, Carries.record, Nat.le_refl,
      Nat.le_add_right, imp_self, implies_true, Sparse.wf_nil, eq_self]

@[simp] theorem State.takeRoles_carries {s0 s : State} (hc : Carries s0 s) (tree : Nat) : Carries s0 (State.takeRoles s
      tree) := by
  unfold State.takeRoles
  (repeat' split) <;> simp +contextual (maxDischargeDepth := 40) only [hc, State.setRole_carries, forEach_carries,
      Carries.ite, implies_true, Sparse.wf_nil, eq_self]

@[simp] theorem State.reflow_carries {s0 s : State} (hc : Carries s0 s) (r : Nat) (v : Nat) (w : Flow) : Carries s0
      (State.reflow s r v w) := by
  unfold State.reflow
  simp +contextual (maxDischargeDepth := 40) only [hc, State.onSpk_carries, Carries.record, Nat.le_refl,
      Nat.le_add_right, imp_self, implies_true, Sparse.wf_nil, eq_self]

@[simp] theorem State.abortMessage_carries {s0 s : State} (hc : Carries s0 s) (p : Nat) (v : Nat) (w : Waiting) : Carries
      s0 (State.abortMessage s p v w) := by
  unfold State.abortMessage
  dsimp only
  (repeat' split) <;> simp +contextual (maxDischargeDepth := 40) only [hc, State.onSpk_carries,
      State.dropWaiting_carries, State.reflow_carries, Carries.ite, Carries.record, Nat.le_refl, Nat.le_add_right,
      imp_self, Sparse.filter_wf, implies_true, Sparse.wf_nil, eq_self]

@[simp] theorem State.moveWaiting_carries {s0 s : State} (hc : Carries s0 s) (p : Nat) (w : Waiting) : Carries s0
      (State.moveWaiting s p w) := by
  unfold State.moveWaiting
  dsimp only
  (repeat' split) <;> simp +contextual (maxDischargeDepth := 40) only [hc, State.bumpIf_carries, State.onSpk_carries,
      State.freeWaiting_carries, State.reflow_carries, Carries.ite, Carries.record, Nat.le_refl, Nat.le_add_right,
      imp_self, implies_true, Sparse.wf_nil, eq_self]

@[simp] theorem State.unrouted_carries {s0 s : State} (hc : Carries s0 s) (w : Waiting) : Carries s0 (State.unrouted s w) := by
  unfold State.unrouted
  dsimp only
  (repeat' split) <;> simp +contextual (maxDischargeDepth := 40) only [hc, State.bump_carries,
      State.refusePacket_carries, Carries.ite, implies_true, Sparse.wf_nil, eq_self]

@[simp] theorem State.abortRerouted_carries {s0 s : State} (hc : Carries s0 s) : Carries s0 (State.abortRerouted s) := by
  unfold State.abortRerouted
  dsimp only
  (repeat' with_reducible first
      | assumption
      | exact Carries.refl _
      | refine State.unrouted_carries ?_ _
      | refine State.moveWaiting_carries ?_ _ _
      | refine State.abortMessage_carries ?_ _ _ _
      | refine forEach_carries (fun _ _ _ => ?_) _ ?_
      | split
      | intro _
      | apply Carries.record)
  all_goals simp +contextual only [Nat.le_refl, Nat.le_add_right, imp_self, implies_true, Sparse.wf_nil, Sparse.set_wf,
      Sparse.modify_wf, Sparse.filter_wf, eq_self, *]

@[simp] theorem State.takeRoutes_carries {s0 s : State} (hc : Carries s0 s) (body : List Byte) :
    Carries s0 (State.takeRoutes s body) := by
  unfold State.takeRoutes
  dsimp only
  refine State.endSessions_carries (State.abortRerouted_carries (State.takeRoles_carries ?_ _))
  apply Carries.record hc (Nat.le_refl _) <;> first
    | with_reducible exact id
    | (intro _; dsimp only; refine Sparse.foldl_wf _ (fun _ _ h => ?_) _ rfl; exact Sparse.set_wf _ _ h)

@[simp] theorem State.markNodes_carries {s0 s : State} (hc : Carries s0 s) (t : List TreeEdge) : Carries s0
      (State.markNodes s t) := by
  unfold State.markNodes
  (repeat' with_reducible first
      | assumption
      | exact Carries.refl _
      | refine State.setNode_carries ?_ _ _
      | refine State.flagIf_carries ?_ _ _ _
      | refine forEach_carries (fun _ _ _ => ?_) _ ?_
      | split
      | intro _
      | apply Carries.record)
  all_goals simp +contextual only [Nat.le_refl, Nat.le_add_right, imp_self, implies_true, Sparse.wf_nil, Sparse.set_wf,
      Sparse.modify_wf, Sparse.filter_wf, eq_self, *]

@[simp] theorem State.sendRoutes_carries {s0 s : State} (hc : Carries s0 s)  : Carries s0 (State.sendRoutes s) := by
  unfold State.sendRoutes
  dsimp only
  (repeat' with_reducible first
      | assumption
      | exact Carries.refl _
      | refine State.markNodes_carries ?_ _
      | refine State.takeRoutes_carries ?_ _
      | refine State.sendTo_carries ?_ _ _ _ _ _ _ (by assumption)
      | refine Carries.getD (State.sendTo_carries ?_ _ _ _ _ _) ?_
      | refine State.pumpAll_carries ?_
      | refine forEach_carries (fun _ _ _ => ?_) _ ?_
      | split
      | intro _)

@[simp] theorem State.discoverOn_carries {s0 s : State} (hc : Carries s0 s) (p : Nat) : Carries s0 (State.discoverOn s p) := by
  unfold State.discoverOn
  simp +contextual (maxDischargeDepth := 40) only [hc, State.pumpAll_carries, State.sendOn_carries, implies_true,
      Sparse.wf_nil, eq_self]

@[simp] theorem State.exploreNext_carries {s0 s : State} (hc : Carries s0 s)  : Carries s0 (State.exploreNext s) := by
  unfold State.exploreNext
  (repeat' with_reducible first
      | assumption
      | exact Carries.refl _
      | refine State.discoverOn_carries ?_ _
      | refine State.sendRoutes_carries ?_
      | refine State.sendTo_carries ?_ _ _ _ _ _ _ (by assumption)
      | refine Carries.getD (State.sendTo_carries ?_ _ _ _ _ _) ?_
      | split
      | intro _
      | apply Carries.record)
  all_goals simp +contextual only [Nat.le_refl, Nat.le_add_right, imp_self, implies_true, Sparse.wf_nil, Sparse.set_wf,
      Sparse.modify_wf, Sparse.filter_wf, eq_self, *]

@[simp] theorem State.exploreDone_carries {s0 s : State} (hc : Carries s0 s) (more : List (Nat × Nat)) : Carries s0
      (State.exploreDone s more) := by
  unfold State.exploreDone
  simp +contextual (maxDischargeDepth := 40) only [hc, Carries.record, Nat.le_refl, Nat.le_add_right, imp_self,
      implies_true, Sparse.wf_nil, eq_self]

@[simp] theorem State.assignTo_carries {s0 s : State} (hc : Carries s0 s) (a : Nat) (p : Nat) (b : Nat) : Carries s0
      (State.assignTo s a p b) := by
  unfold State.assignTo
  dsimp only
  (repeat' with_reducible first
      | assumption
      | exact Carries.refl _
      | refine State.setRoute_carries ?_ _ _
      | refine State.sendTo_carries ?_ _ _ _ _ _ _ (by assumption)
      | refine Carries.getD (State.sendTo_carries ?_ _ _ _ _ _) ?_
      | refine State.sendOn_carries ?_ _ _ _ _ _ _
      | refine State.pumpAll_carries ?_
      | split
      | intro _)

@[simp] theorem State.adopt_carries {s0 s : State} (hc : Carries s0 s) (a : Nat) (p : Nat) (b : Nat) (n : ChainNode) (i :
      Identity) : Carries s0 (State.adopt s a p b n i) := by
  unfold State.adopt
  dsimp only
  (repeat' split) <;> simp +contextual (maxDischargeDepth := 40) only [hc, State.setRole_carries, State.setNode_carries,
      State.addLink_carries, State.exploreNext_carries, State.exploreDone_carries, State.assignTo_carries, Carries.ite,
      implies_true, Sparse.wf_nil, eq_self]

@[simp] theorem State.explored_carries {s0 s : State} (hc : Carries s0 s) (a : Nat) (p : Nat) (i : Identity) : Carries s0
      (State.explored s a p i) := by
  unfold State.explored
  dsimp only
  (repeat' split) <;> simp +contextual (maxDischargeDepth := 40) only [hc, State.flag_carries, State.setRole_carries,
      State.addLink_carries, State.exploreNext_carries, State.exploreDone_carries, State.adopt_carries, Carries.ite,
      Carries.record, Nat.le_refl, Nat.le_add_right, imp_self, implies_true, Sparse.wf_nil, eq_self]

@[simp] theorem State.exploredIf_carries {s0 s : State} (hc : Carries s0 s) (a : Nat) (p : Nat) (i : Identity) : Carries
      s0 (State.exploredIf s a p i) := by
  unfold State.exploredIf
  (repeat' split) <;> simp +contextual (maxDischargeDepth := 40) only [hc, State.explored_carries, Carries.ite,
      implies_true, Sparse.wf_nil, eq_self]

@[simp] theorem State.startEnumeration_carries {s0 s : State} (hc : Carries s0 s) :
    Carries s0 (State.startEnumeration s) := by
  unfold State.startEnumeration
  dsimp only
  refine State.exploreNext_carries (forEach_carries (fun s p h => State.setRole_carries h _ _) _ ?_)
  apply Carries.record hc (Nat.le_refl _) <;> first
    | with_reducible exact id
    | exact fun _ => rfl

@[simp] theorem State.heal_carries {s0 s : State} (hc : Carries s0 s) : Carries s0 (State.heal s) := by
  unfold State.heal
  dsimp only
  exact State.flagIf_carries (State.flag_carries (State.sendRoutes_carries hc) _ _) _ _ _

@[simp] theorem State.dropTodo_carries {s0 s : State} (hc : Carries s0 s) (a : Nat) (p : Nat) : Carries s0 (State.dropTodo s
      a p) := by
  unfold State.dropTodo
  dsimp only
  (repeat' split) <;> simp +contextual (maxDischargeDepth := 40) only [hc, State.exploreNext_carries, Carries.record,
      Nat.le_refl, Nat.le_add_right, imp_self, Sparse.filter_wf, implies_true, Sparse.wf_nil, eq_self]

@[simp] theorem State.rootNotify_carries {s0 s : State} (hc : Carries s0 s) (a : Nat) (p : Nat) (st : Nat) : Carries s0
      (State.rootNotify s a p st) := by
  unfold State.rootNotify
  dsimp only
  (repeat' split) <;> simp +contextual (maxDischargeDepth := 40) only [hc, State.heal_carries,
      State.dropTodo_carries, State.exploreNext_carries, Carries.ite, Carries.record,
      Nat.le_refl, Nat.le_add_right, imp_self, Sparse.filter_wf, implies_true, Sparse.wf_nil, eq_self]

@[simp] theorem State.notifyRoot_carries {s0 s : State} (hc : Carries s0 s) (p : Nat) (st : Nat) : Carries s0
      (State.notifyRoot s p st) := by
  unfold State.notifyRoot
  (repeat' with_reducible first
      | assumption
      | exact Carries.refl _
      | refine State.rootNotify_carries ?_ _ _ _
      | refine State.sendTo_carries ?_ _ _ _ _ _ _ (by assumption)
      | refine Carries.getD (State.sendTo_carries ?_ _ _ _ _ _) ?_
      | split
      | intro _
      | apply Carries.record)
  all_goals simp +contextual only [Nat.le_refl, Nat.le_add_right, imp_self, implies_true, Sparse.wf_nil, Sparse.set_wf,
      Sparse.modify_wf, Sparse.filter_wf, eq_self, *]

@[simp] theorem State.refract_carries {s0 s : State} (hc : Carries s0 s) (p : Nat) (x : Nat) (y : Nat) (ts : Nat) :
      Carries s0 (State.refract s p x y ts).2 := by
  unfold State.refract
  dsimp only
  (repeat' split) <;> simp +contextual (maxDischargeDepth := 40) only [hc, State.onPort_carries, Carries.ite,
      Carries.record, Nat.le_refl, Nat.le_add_right, imp_self, Sparse.set_wf, implies_true, Sparse.wf_nil, eq_self]
theorem State.refract_to {s0 t1 s : State} {x1 : Bool} (hc : Carries s0 s) (p : Nat) (x : Nat) (y : Nat) (ts : Nat) (hx :
      State.refract s p x y ts = (x1, t1)) : Carries s0 t1 := by
  have k := State.refract_carries hc p x y ts
  rw [hx] at k
  exact k

@[simp] theorem State.setRecWrite_carries {s0 s : State} (hc : Carries s0 s)  : Carries s0 (State.setRecWrite s) := by
  unfold State.setRecWrite
  dsimp only
  simp +contextual (maxDischargeDepth := 40) only [hc, State.setWord_carries, implies_true, Sparse.wf_nil, eq_self]

@[simp] theorem State.recWord_carries {s0 s : State} (hc : Carries s0 s) (w : Nat) : Carries s0 (State.recWord s w) := by
  unfold State.recWord
  dsimp only
  (repeat' split) <;> simp +contextual (maxDischargeDepth := 40) only [hc, State.flag_carries, State.writeBytes_carries,
      State.setRecWrite_carries, Carries.ite, Carries.record, Nat.le_refl, Nat.le_add_right, imp_self, implies_true,
      Sparse.wf_nil, eq_self]

@[simp] theorem State.gapMarker_carries {s0 s : State} (hc : Carries s0 s)  : Carries s0 (State.gapMarker s) := by
  unfold State.gapMarker
  (repeat' split) <;> simp +contextual (maxDischargeDepth := 40) only [hc, State.recWord_carries, Carries.ite,
      Carries.record, Nat.le_refl, Nat.le_add_right, imp_self, implies_true, Sparse.wf_nil, eq_self]

@[simp] theorem State.recordTap_carries {s0 s : State} (hc : Carries s0 s) (e : Ev) : Carries s0 (State.recordTap s e) := by
  unfold State.recordTap
  dsimp only
  (repeat' split) <;>
    (try have h0 := State.takeFree_to (s0 := s0) (by simp +contextual (maxDischargeDepth := 40) only [hc,
      State.takeFree_carries, State.recWord_carries, State.gapMarker_carries, Carries.ite, Carries.record, Nat.le_refl,
      Nat.le_add_right, imp_self, implies_true, Sparse.wf_nil, eq_self]) ‹State.takeFree _ = _›) <;>
    simp +contextual (maxDischargeDepth := 40) only [hc, *, State.takeFree_carries, State.recWord_carries,
      State.gapMarker_carries, Carries.ite, Carries.record, Nat.le_refl, Nat.le_add_right, imp_self, implies_true,
      Sparse.wf_nil, eq_self]

@[simp] theorem State.sluiceRule_carries {s0 s : State} (hc : Carries s0 s) (k : Nat) (e : Ev) : Carries s0
      (State.sluiceRule s k e).2 := by
  unfold State.sluiceRule
  dsimp only
  (repeat' with_reducible first
      | assumption
      | exact Carries.refl _
      | split
      | intro _
      | apply Carries.record)
  all_goals simp +contextual only [Nat.le_refl, Nat.le_add_right, imp_self, implies_true, Sparse.wf_nil, Sparse.set_wf,
      Sparse.modify_wf, Sparse.filter_wf, eq_self, *]
theorem State.sluiceRule_to {s0 t1 s : State} {x1 : Bool} (hc : Carries s0 s) (k : Nat) (e : Ev) (hx : State.sluiceRule s
      k e = (x1, t1)) : Carries s0 t1 := by
  have k := State.sluiceRule_carries hc k e
  rw [hx] at k
  exact k

@[simp] theorem State.sluice_carries {s0 s : State} (hc : Carries s0 s) (e : Ev) : Carries s0 (State.sluice s e).2 := by
  unfold State.sluice
  dsimp only
  (repeat' with_reducible first
      | assumption
      | exact Carries.refl _
      | refine State.sluiceRule_carries ?_ _ _
      | refine State.sluiceRule_to ?_ _ _ (by assumption)
      | refine foldl_carries (fun _ _ _ => ?_) _ ?_
      | refine foldl_carries_snd (fun _ _ _ => ?_) _ ?_
      | refine foldl_carries_fst (fun _ _ _ => ?_) _ ?_
      | split
      | intro _)
theorem State.sluice_to {s0 t1 s : State} {x1 : Bool} (hc : Carries s0 s) (e : Ev) (hx : State.sluice s e = (x1,
      t1)) : Carries s0 t1 := by
  have k := State.sluice_carries hc e
  rw [hx] at k
  exact k

@[simp] theorem State.sluiceDrop_carries {s0 s : State} (hc : Carries s0 s) (e : Ev) : Carries s0 (State.sluiceDrop s e) := by
  unfold State.sluiceDrop
  simp +contextual (maxDischargeDepth := 40) only [hc, State.bump_carries, State.markPos_carries, implies_true,
      Sparse.wf_nil, eq_self]

@[simp] theorem State.addressEvent_carries {s0 s : State} (hc : Carries s0 s) (dev : Nat) (remote : Bool) (e : Ev) (tag :
      Nat) (pending : Bool) : Carries s0 (State.addressEvent s dev remote e tag pending) := by
  unfold State.addressEvent
  dsimp only
  (repeat' with_reducible first
      | assumption
      | exact Carries.refl _
      | refine State.sendEvent_carries ?_ _ _ _
      | refine State.bump_carries ?_ _ _
      | refine forEach_carries (fun _ _ _ => ?_) _ ?_
      | split
      | intro _
      | apply Carries.record)
  all_goals simp +contextual only [Nat.le_refl, Nat.le_add_right, imp_self, implies_true, Sparse.wf_nil, Sparse.set_wf,
      Sparse.modify_wf, Sparse.filter_wf, eq_self, *]

@[simp] theorem State.countPassed_carries {s0 s : State} (hc : Carries s0 s) (p : Nat) : Carries s0 (State.countPassed s
      p) := by
  unfold State.countPassed
  dsimp only
  (repeat' with_reducible first
      | assumption
      | exact Carries.refl _
      | refine foldl_carries (fun _ _ _ => ?_) _ ?_
      | refine foldl_carries_snd (fun _ _ _ => ?_) _ ?_
      | refine foldl_carries_fst (fun _ _ _ => ?_) _ ?_
      | split
      | intro _
      | apply Carries.record)
  all_goals simp +contextual only [Nat.le_refl, Nat.le_add_right, imp_self, implies_true, Sparse.wf_nil, Sparse.set_wf,
      Sparse.modify_wf, Sparse.filter_wf, eq_self, *, Sparse.foldl_wf]

@[simp] theorem State.edgeCopies_carries {s0 s : State} (hc : Carries s0 s) (e : Ev) : Carries s0 (State.edgeCopies s e) := by
  unfold State.edgeCopies
  dsimp only
  (repeat' with_reducible first
      | assumption
      | exact Carries.refl _
      | refine State.sendHalo_carries ?_ _ _ _ (by assumption)
      | refine Carries.getD (State.sendHalo_carries ?_ _ _) ?_
      | refine State.bump_carries ?_ _ _
      | refine forEach_carries (fun _ _ _ => ?_) _ ?_
      | split
      | intro _
      | apply Carries.record)
  all_goals simp +contextual only [Nat.le_refl, Nat.le_add_right, imp_self, implies_true, Sparse.wf_nil, Sparse.set_wf,
      Sparse.modify_wf, Sparse.filter_wf, eq_self, *]

@[simp] theorem State.takeEvent_carries {s0 s : State} (hc : Carries s0 s) (dev : Nat) (remote : Bool) (e : Ev) : Carries
      s0 (State.takeEvent s dev remote e) := by
  unfold State.takeEvent
  dsimp only
  (repeat' split) <;> simp +contextual (maxDischargeDepth := 40) only [hc, State.bumpIf_carries,
      State.addressEvent_carries, Carries.ite, implies_true, Sparse.wf_nil, eq_self]

@[simp] theorem State.sluiceInput_carries {s0 s : State} (hc : Carries s0 s) (e : Ev) : Carries s0 (State.sluiceInput s e) := by
  unfold State.sluiceInput
  dsimp only
  (repeat' split) <;> simp +contextual (maxDischargeDepth := 40) only [hc, State.flag_carries, State.sluice_carries,
      State.sluiceDrop_carries, State.countPassed_carries, State.edgeCopies_carries, State.takeEvent_carries,
      Carries.ite, implies_true, Sparse.wf_nil, eq_self]

@[simp] theorem State.rebase_carries {s0 s : State} (hc : Carries s0 s) (p : Nat) (ts : Nat) : Carries s0 (State.rebase s
      p ts).2 := by
  unfold State.rebase
  dsimp only
  (repeat' split) <;> simp +contextual (maxDischargeDepth := 40) only [hc, State.onPort_carries, Carries.ite,
      Carries.record, Nat.le_refl, Nat.le_add_right, imp_self, implies_true, Sparse.wf_nil, eq_self]
theorem State.rebase_to {s0 t1 s : State} {x1 : Option Int} (hc : Carries s0 s) (p : Nat) (ts : Nat) (hx : State.rebase s
      p ts = (x1, t1)) : Carries s0 t1 := by
  have k := State.rebase_carries hc p ts
  rw [hx] at k
  exact k

@[simp] theorem State.ingest_carries {s0 s : State} (hc : Carries s0 s) (p : Nat) (r : RawEvent) : Carries s0
      (State.ingest s p r) := by
  unfold State.ingest
  dsimp only
  (repeat' with_reducible first
      | assumption
      | exact Carries.refl _
      | refine State.rebase_carries ?_ _ _
      | refine State.rebase_to ?_ _ _ (by assumption)
      | refine State.sluiceInput_carries ?_ _
      | refine State.recordTap_carries ?_ _
      | refine State.refract_carries ?_ _ _ _ _
      | refine State.refract_to ?_ _ _ _ _ (by assumption)
      | refine State.stampOf_carries ?_ _
      | refine State.stampOf_to ?_ _ (by assumption)
      | refine State.bump_carries ?_ _ _
      | split
      | intro _
      | apply Carries.record)
  all_goals simp +contextual only [Nat.le_refl, Nat.le_add_right, imp_self, implies_true, Sparse.wf_nil, Sparse.set_wf,
      Sparse.modify_wf, Sparse.filter_wf, eq_self, *]

@[simp] theorem State.diagPacket_carries {s0 s : State} (hc : Carries s0 s) (p : Nat) (bs : List Byte) (pointers :
      PtrCheck) : Carries s0 (State.diagPacket s p bs pointers) := by
  unfold State.diagPacket
  dsimp only
  (repeat' split) <;> simp +contextual (maxDischargeDepth := 40) only [hc, State.bump_carries, State.pushWords_carries,
      State.queueAccess_carries, Carries.ite, implies_true, Sparse.wf_nil, eq_self]

@[simp] theorem State.eventPacket_carries {s0 s : State} (hc : Carries s0 s) (p : Nat) (k : CsiPacket) : Carries s0
      (State.eventPacket s p k) := by
  unfold State.eventPacket
  dsimp only
  (repeat' split) <;> simp +contextual (maxDischargeDepth := 40) only [hc, State.bump_carries, State.bumpIf_carries,
      State.onPort_carries, State.ingest_carries, forEach_carries, Carries.record, Nat.le_refl, Nat.le_add_right,
      imp_self, Sparse.set_wf, Sparse.filter_wf, implies_true, Sparse.wf_nil, eq_self]

@[simp] theorem State.csiPacket_carries {s0 s : State} (hc : Carries s0 s) (p : Nat) (k : CsiPacket) :
      Carries s0 (State.csiPacket s p k) := by
  unfold State.csiPacket
  dsimp only
  (repeat' split) <;> simp +contextual (maxDischargeDepth := 40) only [hc, State.flag_carries, State.bump_carries,
      State.bumpIf_carries, State.markPos_carries, State.diagPacket_carries, State.eventPacket_carries, Carries.ite,
      Carries.record, Nat.le_refl, Nat.le_add_right, imp_self, implies_true, Sparse.wf_nil, eq_self]

@[simp] theorem State.endSync_carries {s0 s : State} (hc : Carries s0 s) (p : Nat) : Carries s0 (State.endSync s p) := by
  unfold State.endSync
  (repeat' split) <;> simp +contextual (maxDischargeDepth := 40) only [hc, State.onPort_carries,
      State.captureEdge_carries, Carries.ite, Carries.record, Nat.le_refl, Nat.le_add_right, imp_self, implies_true,
      Sparse.wf_nil, eq_self]

@[simp] theorem State.replayMarker_carries {s0 s : State} (hc : Carries s0 s) (c : Nat) : Carries s0 (State.replayMarker
      s c) := by
  unfold State.replayMarker
  dsimp only
  (repeat' split) <;> simp +contextual (maxDischargeDepth := 40) only [hc, State.followHw_carries,
      State.updateSpeed_carries, State.replayFree_carries, Carries.ite, Carries.record, Nat.le_refl, Nat.le_add_right,
      imp_self, implies_true, Sparse.wf_nil, eq_self]

@[simp] theorem State.replayMoved_carries {s0 s : State} (hc : Carries s0 s) : Carries s0 (State.replayMoved s) := by
  unfold State.replayMoved
  simp +contextual (maxDischargeDepth := 40) only [hc, Carries.record, Nat.le_refl, Nat.le_add_right, imp_self,
      implies_true, Sparse.wf_nil, eq_self]

@[simp] theorem State.replayTaken_carries {s0 s : State} (hc : Carries s0 s) (w : Nat) : Carries s0 (State.replayTaken s
      w) := by
  unfold State.replayTaken
  (repeat' split) <;> simp +contextual (maxDischargeDepth := 40) only [hc, State.bump_carries, State.sluiceInput_carries,
      State.replayMarker_carries, Carries.ite, Carries.record, Nat.le_refl, Nat.le_add_right, imp_self, implies_true,
      Sparse.wf_nil, eq_self]

@[simp] theorem State.setLink_carries {s0 s : State} (hc : Carries s0 s) (p : Nat) (x : LinkState) : Carries s0
      (State.setLink s p x) := by
  unfold State.setLink
  simp +contextual (maxDischargeDepth := 40) only [hc, State.onSpk_carries, Carries.record, Nat.le_refl,
      Nat.le_add_right, imp_self, implies_true, Sparse.wf_nil, eq_self]

@[simp] theorem State.startAttempt_carries {s0 s : State} (hc : Carries s0 s) (p : Nat) : Carries s0 (State.startAttempt
      s p) := by
  unfold State.startAttempt
  simp +contextual (maxDischargeDepth := 40) only [hc, State.onSpk_carries, Carries.record, Nat.le_refl,
      Nat.le_add_right, imp_self, Sparse.filter_wf, implies_true, Sparse.wf_nil, eq_self]

@[simp] theorem State.trainNext_carries {s0 s : State} (hc : Carries s0 s)  : Carries s0 (State.trainNext s) := by
  unfold State.trainNext
  (repeat' split) <;> simp +contextual (maxDischargeDepth := 40) only [hc, State.startAttempt_carries, Carries.record,
      Nat.le_refl, Nat.le_add_right, imp_self, implies_true, Sparse.wf_nil, eq_self]

@[simp] theorem State.queueAttempt_carries {s0 s : State} (hc : Carries s0 s) (p : Nat) : Carries s0 (State.queueAttempt
      s p) := by
  unfold State.queueAttempt
  dsimp only
  simp +contextual (maxDischargeDepth := 40) only [hc, State.setLink_carries, State.trainNext_carries, Carries.record,
      Nat.le_refl, Nat.le_add_right, imp_self, Sparse.filter_wf, implies_true, Sparse.wf_nil, eq_self]

@[simp] theorem State.trainKick_carries {s0 s : State} (hc : Carries s0 s)  : Carries s0 (State.trainKick s) := by
  unfold State.trainKick
  (repeat' split) <;> simp +contextual (maxDischargeDepth := 40) only [hc, State.startAttempt_carries, Carries.ite,
      Carries.record, Nat.le_refl, Nat.le_add_right, imp_self, implies_true, Sparse.wf_nil, eq_self]

@[simp] theorem State.enterHold_carries {s0 s : State} (hc : Carries s0 s) (p : Nat) : Carries s0 (State.enterHold s p) := by
  unfold State.enterHold
  dsimp only
  simp +contextual (maxDischargeDepth := 40) only [hc, State.onSpk_carries, Carries.record, Nat.le_refl,
      Nat.le_add_right, imp_self, Sparse.filter_wf, implies_true, Sparse.wf_nil, eq_self]

@[simp] theorem State.linkUp_carries {s0 s : State} (hc : Carries s0 s) (p : Nat) (t : Ts2) : Carries s0 (State.linkUp s
      p t) := by
  unfold State.linkUp
  dsimp only
  (repeat' split) <;> simp +contextual (maxDischargeDepth := 40) only [hc, State.setWord_carries, State.setFld_carries,
      State.onSpk_carries, State.haloShed_carries, State.pumpAll_carries, State.notifyRoot_carries, State.trainNext_carries, foldl_carries,
      foldl_carries_snd, foldl_carries_fst, Carries.record, Nat.le_refl, Nat.le_add_right, imp_self, implies_true,
      Sparse.wf_nil, eq_self]

@[simp] theorem State.abortForwards_carries {s0 s : State} (hc : Carries s0 s) (p : Nat) : Carries s0
      (State.abortForwards s p) := by
  unfold State.abortForwards
  dsimp only
  (repeat' with_reducible first
      | assumption
      | exact Carries.refl _
      | refine State.onSpk_carries ?_ _ _
      | refine forEach_carries (fun _ _ _ => ?_) _ ?_
      | split
      | intro _
      | apply Carries.record)
  all_goals simp +contextual only [Nat.le_refl, Nat.le_add_right, imp_self, implies_true, Sparse.wf_nil, Sparse.set_wf,
      Sparse.modify_wf, Sparse.filter_wf, eq_self, *]

@[simp] theorem State.dropPlanes_carries {s0 s : State} (hc : Carries s0 s) (keep : PartPlane → Bool) : Carries s0
      (State.dropPlanes s keep) := by
  unfold State.dropPlanes
  dsimp only
  simp +contextual (maxDischargeDepth := 40) only [hc, State.bump_carries, Carries.record, Nat.le_refl, Nat.le_add_right,
      imp_self, Sparse.filter_wf, implies_true, Sparse.wf_nil, eq_self]

@[simp] theorem State.cutFlows_carries {s0 s : State} (hc : Carries s0 s) (p : Nat) : Carries s0 (State.cutFlows s p) := by
  unfold State.cutFlows
  simp +contextual (maxDischargeDepth := 40) only [hc, State.onSpk_carries, forEach_carries, Carries.record, Nat.le_refl,
      Nat.le_add_right, imp_self, implies_true, Sparse.wf_nil, eq_self]

@[simp] theorem State.countRelays_carries {s0 s : State} (hc : Carries s0 s) (p : Nat) : Carries s0 (State.countRelays s
      p) := by
  unfold State.countRelays
  dsimp only
  simp +contextual (maxDischargeDepth := 40) only [hc, State.flagIf_carries, State.bump_carries, implies_true,
      Sparse.wf_nil, eq_self]

@[simp] theorem State.linkDown_carries {s0 s : State} (hc : Carries s0 s) (p : Nat) (next : LinkState) : Carries s0
      (State.linkDown s p next) := by
  unfold State.linkDown
  dsimp only
  (repeat' split) <;> simp +contextual (maxDischargeDepth := 40) only [hc, State.setFld_carries, State.flag_carries,
      State.bump_carries, State.report_carries, State.onSpk_carries, State.dropWaiting_carries, State.pumpAll_carries,
      State.endSessions_carries, State.notifyRoot_carries, State.trainNext_carries, State.enterHold_carries,
      State.abortForwards_carries, State.dropPlanes_carries, State.cutFlows_carries, State.countRelays_carries,
      Carries.ite, Carries.record, Nat.le_refl, Nat.le_add_right, imp_self, implies_true, Sparse.wf_nil, eq_self]

@[simp] theorem State.resend_carries {s0 s : State} (hc : Carries s0 s) (p : Nat) : Carries s0 (State.resend s p) := by
  unfold State.resend
  dsimp only
  (repeat' split) <;> simp +contextual (maxDischargeDepth := 40) only [hc, State.resendAll_carries,
      State.linkDown_carries, Carries.ite, implies_true, Sparse.wf_nil, eq_self]

@[simp] theorem State.startRetrain_carries {s0 s : State} (hc : Carries s0 s) (p : Nat) : Carries s0 (State.startRetrain
      s p) := by
  unfold State.startRetrain
  simp +contextual (maxDischargeDepth := 40) only [hc, State.onSpk_carries, Carries.record, Nat.le_refl,
      Nat.le_add_right, imp_self, implies_true, Sparse.wf_nil, eq_self]

@[simp] theorem State.takeAck_carries {s0 s : State} (hc : Carries s0 s) (p : Nat) (f : SpokeFlit) : Carries s0
      (State.takeAck s p f) := by
  unfold State.takeAck
  dsimp only
  (repeat' split) <;> simp +contextual (maxDischargeDepth := 40) only [hc, State.sample_carries, State.onSpk_carries,
      Carries.ite, Carries.record, Nat.le_refl, Nat.le_add_right, imp_self, implies_true, Sparse.wf_nil, eq_self]

@[simp] theorem State.takeCredits_carries {s0 s : State} (hc : Carries s0 s) (p : Nat) (f : SpokeFlit) : Carries s0
      (State.takeCredits s p f) := by
  unfold State.takeCredits
  simp +contextual (maxDischargeDepth := 40) only [hc, State.onSpk_carries, foldl_carries, foldl_carries_snd,
      foldl_carries_fst, implies_true, Sparse.wf_nil, eq_self]

@[simp] theorem State.sendNak_carries {s0 s : State} (hc : Carries s0 s) (p : Nat) : Carries s0 (State.sendNak s p) := by
  unfold State.sendNak
  (repeat' split) <;> simp +contextual (maxDischargeDepth := 40) only [hc, State.onSpk_carries, State.sendPlain_carries,
      Carries.ite, Carries.record, Nat.le_refl, Nat.le_add_right, imp_self, implies_true, Sparse.wf_nil, eq_self]

@[simp] theorem State.forwardFlit_carries {s0 s : State} (hc : Carries s0 s) (p : Nat) (qs : List Nat) (f : SpokeFlit) :
      Carries s0 (State.forwardFlit s p qs f) := by
  unfold State.forwardFlit
  dsimp only
  (repeat' split) <;> simp +contextual (maxDischargeDepth := 40) only [hc, State.onSpk_carries,
      State.freeEntryOf_carries, forEach_carries, Carries.ite, Carries.record, Nat.le_refl, Nat.le_add_right, imp_self,
      implies_true, Sparse.wf_nil, eq_self]

@[simp] theorem State.assemble_carries {s0 s : State} (hc : Carries s0 s) (p : Nat) (f : SpokeFlit) : Carries s0
      (State.assemble s p f).2 := by
  unfold State.assemble
  dsimp only
  (repeat' split) <;> simp +contextual (maxDischargeDepth := 40) only [hc, State.bump_carries, State.onSpk_carries,
      Carries.ite, Carries.record, Nat.le_refl, Nat.le_add_right, imp_self, implies_true, Sparse.wf_nil, eq_self]
theorem State.assemble_to {s0 t1 s : State} {x1 : Option Message} (hc : Carries s0 s) (p : Nat) (f : SpokeFlit) (hx :
      State.assemble s p f = (x1, t1)) : Carries s0 t1 := by
  have k := State.assemble_carries hc p f
  rw [hx] at k
  exact k

@[simp] theorem State.routeFlit_carries {s0 s : State} (hc : Carries s0 s) (p : Nat) (f : SpokeFlit) : Carries s0
      (State.routeFlit s p f).2 := by
  unfold State.routeFlit
  dsimp only
  (repeat' split) <;> simp +contextual (maxDischargeDepth := 40) only [hc, State.bump_carries, State.bumpIf_carries,
      State.onSpk_carries, State.freeEntryOf_carries, State.setRoute_carries, State.forwardFlit_carries,
      State.assemble_carries, Carries.ite, Carries.record, Nat.le_refl, Nat.le_add_right, imp_self, implies_true,
      Sparse.wf_nil, eq_self]
theorem State.routeFlit_to {s0 t1 s : State} {x1 : Option Message} (hc : Carries s0 s) (p : Nat) (f : SpokeFlit) (hx :
      State.routeFlit s p f = (x1, t1)) : Carries s0 t1 := by
  have k := State.routeFlit_carries hc p f
  rw [hx] at k
  exact k

@[simp] theorem State.rx_carries {s0 s : State} (hc : Carries s0 s) (p : Nat) (f : SpokeFlit) : Carries s0 (State.rx s p
      f).2 := by
  unfold State.rx
  dsimp only
  (repeat' split) <;> simp +contextual (maxDischargeDepth := 40) only [hc, State.flag_carries, State.bump_carries,
      State.onSpk_carries, State.freeEntryOf_carries, State.linkDown_carries, State.resend_carries,
      State.takeAck_carries, State.takeCredits_carries, State.sendNak_carries, State.routeFlit_carries, Carries.ite,
      Carries.record, Nat.le_refl, Nat.le_add_right, imp_self, implies_true, Sparse.wf_nil, eq_self]
theorem State.rx_to {s0 t1 s : State} {x1 : Option Message} (hc : Carries s0 s) (p : Nat) (f : SpokeFlit) (hx : State.rx
      s p f = (x1, t1)) : Carries s0 t1 := by
  have k := State.rx_carries hc p f
  rw [hx] at k
  exact k

@[simp] theorem State.takeHeartbeat_carries {s0 s : State} (hc : Carries s0 s) (p : Nat) (f : SpokeFlit) : Carries s0
      (State.takeHeartbeat s p f) := by
  unfold State.takeHeartbeat
  dsimp only
  simp +contextual (maxDischargeDepth := 40) only [hc, State.setFld_carries, State.onSpk_carries, State.haloShed_carries,
      Carries.record, Nat.le_refl, Nat.le_add_right, imp_self, implies_true, Sparse.wf_nil, eq_self]

@[simp] theorem State.remoteEvent_carries {s0 s : State} (hc : Carries s0 s) (dev : Nat) (w : Nat) : Carries s0
      (State.remoteEvent s dev w) := by
  unfold State.remoteEvent
  dsimp only
  (repeat' split) <;> simp +contextual (maxDischargeDepth := 40) only [hc, State.flag_carries, State.bump_carries,
      State.markPos_carries, State.takeEvent_carries, Carries.ite, implies_true, Sparse.wf_nil, eq_self]

@[simp] theorem State.takeIdentify_carries {s0 s : State} (hc : Carries s0 s) (p : Nat) (m : Message) : Carries s0
      (State.takeIdentify s p m) := by
  unfold State.takeIdentify
  dsimp only
  (repeat' with_reducible first
      | assumption
      | exact Carries.refl _
      | refine State.exploredIf_carries ?_ _ _ _
      | refine State.sendTo_carries ?_ _ _ _ _ _ _ (by assumption)
      | refine Carries.getD (State.sendTo_carries ?_ _ _ _ _ _) ?_
      | refine State.onSpk_carries ?_ _ _
      | split
      | intro _
      | apply Carries.record)
  all_goals simp +contextual only [Nat.le_refl, Nat.le_add_right, imp_self, implies_true, Sparse.wf_nil, Sparse.set_wf,
      Sparse.modify_wf, Sparse.filter_wf, eq_self, *]

@[simp] theorem State.takeAssign_carries {s0 s : State} (hc : Carries s0 s) (p : Nat) (m : Message) : Carries s0
      (State.takeAssign s p m) := by
  unfold State.takeAssign
  dsimp only
  (repeat' with_reducible first
      | assumption
      | exact Carries.refl _
      | refine State.setRole_carries ?_ _ _
      | refine State.setRoute_carries ?_ _ _
      | refine State.sendOn_carries ?_ _ _ _ _ _ _
      | split
      | intro _
      | apply Carries.record)
  all_goals simp +contextual only [Nat.le_refl, Nat.le_add_right, imp_self, implies_true, Sparse.wf_nil, Sparse.set_wf,
      Sparse.modify_wf, Sparse.filter_wf, eq_self, *]

@[simp] theorem State.takeEnum_carries {s0 s : State} (hc : Carries s0 s) (m : Message) : Carries s0 (State.takeEnum s m) := by
  unfold State.takeEnum
  (repeat' split) <;> simp +contextual (maxDischargeDepth := 40) only [hc, State.sendOn_carries,
      State.takeRoutes_carries, State.discoverOn_carries, State.exploredIf_carries, State.rootNotify_carries,
      State.takeIdentify_carries, State.takeAssign_carries, Carries.ite, Carries.record, Nat.le_refl, Nat.le_add_right,
      imp_self, implies_true, Sparse.wf_nil, eq_self]

@[simp] theorem State.portEnWritten_carries {s0 s : State} (hc : Carries s0 s) (p : Nat) : Carries s0
      (State.portEnWritten s p) := by
  unfold State.portEnWritten
  dsimp only
  (repeat' split) <;> simp +contextual (maxDischargeDepth := 40) only [hc, State.setLink_carries,
      State.trainNext_carries, State.linkDown_carries, Carries.ite, Carries.record, Nat.le_refl, Nat.le_add_right,
      imp_self, Sparse.filter_wf, implies_true, Sparse.wf_nil, eq_self]

@[simp] theorem State.acceptWritten_carries {s0 s : State} (hc : Carries s0 s) (v : Word) : Carries s0
      (State.acceptWritten s v) := by
  unfold State.acceptWritten
  dsimp only
  (repeat' split) <;> simp +contextual (maxDischargeDepth := 40) only [hc, State.setNode_carries, Carries.ite,
      Carries.record, Nat.le_refl, Nat.le_add_right, imp_self, implies_true, Sparse.wf_nil, eq_self]

end Sys2Proof.Machine
end

