-- ==== Sys2Proof/Laws/CarryMgmt.lean ====
section
/-!
SUPPORT. What the operations of the packets, the power manager, the parameter access, the host interface, the models and the faults carry over.
-/

namespace Sys2Proof.Machine

@[simp] theorem State.countRefused_carries {s0 s : State} (hc : Carries s0 s) (opcode : Nat) : Carries s0
      (State.countRefused s opcode) := by
  unfold State.countRefused
  simp +contextual (maxDischargeDepth := 40) only [hc, State.bumpIf_carries, implies_true, Sparse.wf_nil, eq_self]

@[simp] theorem reply_carries {s0 s : State} (hc : Carries s0 s) (st : Status) : Carries s0 (reply st s).2 := by
  unfold reply
  simp +contextual (maxDischargeDepth := 40) only [hc, implies_true, Sparse.wf_nil, eq_self]
theorem reply_to {s0 t1 s : State} {x1 : Option (Status × List Byte)} (hc : Carries s0 s) (st : Status) (hx : reply st s
      = (x1, t1)) : Carries s0 t1 := by
  have k := reply_carries hc st
  rw [hx] at k
  exact k

@[simp] theorem State.released_carries {s0 s : State} (hc : Carries s0 s) (opcode : Nat) (r : Req) :
    Carries s0 (State.released s opcode r) :=
  State.onHost_carries hc _ id id

theorem State.runCommand_carries {s0 s : State} (hc : Carries s0 s) (a : Accepted) (body : Body)
    (hb : ∀ r t, Carries s0 t → Carries s0 (body r t).2) : Carries s0 (State.runCommand s a body) := by
  unfold State.runCommand
  have hs := hb a.req s hc
  split
  · exact State.answer_carries (State.countRefused_carries (State.released_carries hc _ _) _) _ _ _ _
  · split
    · rename_i e
      rw [e] at hs
      exact State.answer_carries (State.released_carries hs _ _) _ _ _ _
    · rename_i e
      rw [e] at hs
      exact State.released_carries hs _ _

theorem State.commandRow_carries {s0 s : State} (hc : Carries s0 s) (opcode : Nat) (r : Req) (body : Body)
    (hb : ∀ r t, Carries s0 t → Carries s0 (body r t).2) : Carries s0 (State.commandRow s opcode r body) := by
  unfold State.commandRow
  dsimp only
  split
  · exact hc
  · split
    · split
      · exact State.runCommand_carries hc _ _ hb
      · exact hc
    · split
      · exact State.refusePacket_carries (State.countRefused_carries hc _) _ _ _ _
      · have h := State.onHost_carries hc (fun h => { h with accepted := h.accepted ++ [⟨opcode, r, s.loc⟩] }) id id
        split
        · exact State.runCommand_carries h _ _ hb
        · exact h

@[simp] theorem State.restoreWords_carries {s0 s : State} (hc : Carries s0 s) (d : Nat) : Carries s0 (State.restoreWords
      s d) := by
  unfold State.restoreWords
  simp +contextual (maxDischargeDepth := 40) only [hc, State.setWord_carries, forEach_carries, implies_true,
      Sparse.wf_nil, eq_self]

@[simp] theorem State.zeroQueues_carries {s0 s : State} (hc : Carries s0 s) (r : Nat) : Carries s0 (State.zeroQueues s r) := by
  unfold State.zeroQueues
  simp +contextual (maxDischargeDepth := 40) only [hc, State.onQueue_carries, forEach_carries, Carries.record,
      Nat.le_refl, Nat.le_add_right, imp_self, Sparse.filter_wf, implies_true, Sparse.wf_nil, eq_self]

@[simp] theorem State.rebuildSram_carries {s0 s : State} (hc : Carries s0 s) (d : Nat) : Carries s0 (State.rebuildSram s
      d) := by
  unfold State.rebuildSram
  dsimp only
  split
  · split
    · exact State.loadRegion_carries hc _
    · exact State.onDense_carries hc _ _
    · exact State.onDense_carries hc _ _
    · split
      · have h := State.zeroQueues_carries hc (d / 4)
        refine State.onTracker_carries ?_ _ _
        apply Carries.record h (Nat.le_refl _) <;> first
          | with_reducible exact id
          | exact fun h => Sparse.filter_wf _ h
      · exact State.zeroQueues_carries hc _
  · split
    · exact State.onPort_carries hc _ _
    · split
      · split
        · exact State.queueAttempt_carries (State.onSpk_carries hc _ _) _
        · exact State.onSpk_carries hc _ _
      · split
        · exact State.setFld_carries (State.setLaunchQ_carries hc _ _) _ _ _ _
        · split
          · refine forEach_carries (fun s c h => ?_) _ hc
            split
            · exact State.auxReset_carries (State.onChan_carries h _ _) _ _
            · exact State.onChan_carries h _ _
          · have h := State.clearRouter_carries hc
            apply Carries.record h (Nat.le_refl _) <;> exact id

@[simp] theorem State.rebuild_carries {s0 s : State} (hc : Carries s0 s) (d : Nat) : Carries s0 (State.rebuild s d) := by
  unfold State.rebuild
  simp +contextual (maxDischargeDepth := 40) only [hc, State.onFault_carries, State.restoreWords_carries,
      State.rebuildSram_carries, Carries.record, Nat.le_refl, Nat.le_add_right, imp_self, Sparse.filter_wf, implies_true,
      Sparse.wf_nil, eq_self]

@[simp] theorem State.loseDomain_carries {s0 s : State} (hc : Carries s0 s) (d : Nat) : Carries s0 (State.loseDomain s d) := by
  unfold State.loseDomain
  (repeat' split) <;> simp +contextual (maxDischargeDepth := 40) only [hc, State.setFld_carries, State.linkDown_carries,
      Carries.ite, implies_true, Sparse.wf_nil, eq_self]

@[simp] theorem State.resumeReady_carries {s0 s : State} (hc : Carries s0 s)  : Carries s0 (State.resumeReady s) := by
  unfold State.resumeReady
  (repeat' split) <;> simp +contextual (maxDischargeDepth := 40) only [hc, State.onPower_carries, State.derail_carries,
      Carries.ite, Carries.record, Nat.le_refl, Nat.le_add_right, imp_self, implies_true, Sparse.wf_nil, eq_self]

@[simp] theorem State.settleSwitches_carries {s0 s : State} (hc : Carries s0 s) : Carries s0 (State.settleSwitches s) := by
  unfold State.settleSwitches
  dsimp only
  (repeat' split) <;> simp +contextual (maxDischargeDepth := 40) only [hc, State.finishOpt_carries,
      State.parkNext_carries, State.switchMaps_carries, Carries.ite, implies_true, Sparse.wf_nil, eq_self]

@[simp] theorem State.startResume_carries {s0 s : State} (hc : Carries s0 s) (e : Nat) : Carries s0 (State.startResume s
      e) := by
  unfold State.startResume
  dsimp only
  (repeat' with_reducible first
      | assumption
      | exact Carries.refl _
      | refine State.resumeReady_carries ?_
      | refine State.endEntry_carries ?_ _
      | refine State.startMove_carries ?_ _ _
      | refine State.onPdom_carries ?_ _ _
      | apply State.onPower_carries
      | refine forEach_carries (fun _ _ _ => ?_) _ ?_
      | split
      | intro _
      | apply Carries.record)
  all_goals simp +contextual only [Nat.le_refl, Nat.le_add_right, imp_self, implies_true, Sparse.wf_nil, Sparse.set_wf,
      Sparse.modify_wf, Sparse.filter_wf, eq_self, *]

@[simp] theorem State.restoreLost_carries {s0 s : State} (hc : Carries s0 s) (d : Nat) : Carries s0 (State.restoreLost s
      d) := by
  unfold State.restoreLost
  dsimp only
  simp +contextual (maxDischargeDepth := 40) only [hc, State.onPdom_carries, State.report_carries,
      State.finishOpt_carries, State.endMove_carries, Carries.record, Nat.le_refl, Nat.le_add_right, imp_self,
      implies_true, Sparse.wf_nil, eq_self]

@[simp] theorem State.wokeUp_carries {s0 s : State} (hc : Carries s0 s) (d : Nat) : Carries s0 (State.wokeUp s d) := by
  unfold State.wokeUp
  dsimp only
  (repeat' split) <;> simp +contextual (maxDischargeDepth := 40) only [hc, State.bump_carries, State.onPdom_carries,
      State.rebuild_carries, State.finishOpt_carries, State.endMove_carries, State.resumeReady_carries,
      State.settleSwitches_carries, Carries.ite, Carries.record, Nat.le_refl, Nat.le_add_right, imp_self, implies_true,
      Sparse.wf_nil, eq_self]

@[simp] theorem State.entered_carries {s0 s : State} (hc : Carries s0 s) (d : Nat) (m : PwrMove) : Carries s0
      (State.entered s d m) := by
  unfold State.entered
  dsimp only
  (repeat' split) <;> simp +contextual (maxDischargeDepth := 40) only [hc, State.onPdom_carries, State.finishOpt_carries,
      State.endMove_carries, State.parkAfter_carries, State.endEntry_carries, State.startWake_carries, Carries.ite,
      Carries.record, Nat.le_refl, Nat.le_add_right, imp_self, implies_true, Sparse.wf_nil, eq_self]

@[simp] theorem State.millerRead_carries {s0 s : State} (hc : Carries s0 s) (i : Nat) : ∀ a t,
      State.millerRead s i = some (a, t) → Carries s0 t := by
  unfold State.millerRead
  dsimp only
  (repeat' split) <;>
    (try have h0 := State.takeFree_to (s0 := s0) (by simp +contextual (maxDischargeDepth := 40) only [hc,
      State.bump_carries, State.takeFree_carries, Carries.record, Nat.le_refl, Nat.le_add_right, imp_self, implies_true,
      Sparse.wf_nil, eq_self, reduceCtorEq, false_implies, forall_const, Option.some.injEq, Prod.mk.injEq, and_imp,
      forall_eq', forall_apply_eq_imp_iff]) ‹State.takeFree _ = _›) <;>
    simp +contextual (maxDischargeDepth := 40) only [hc, *, State.bump_carries, State.takeFree_carries, Carries.record,
      Nat.le_refl, Nat.le_add_right, imp_self, implies_true, Sparse.wf_nil, eq_self, reduceCtorEq, false_implies,
      forall_const, Option.some.injEq, Prod.mk.injEq, and_imp, forall_eq', forall_apply_eq_imp_iff]

theorem State.positionRead_carries {s0 s : State} (hc : Carries s0 s) (i : Nat) :
    ∀ a t, State.positionRead s i = some (a, t) → Carries s0 t := by
  intro a t e
  unfold State.positionRead at e
  split at e
  · exact State.readCount_to hc (Option.some.inj e)
  · cases e; exact hc
  · cases e; exact hc
  · cases e

@[simp] theorem State.valueOf_carries {s0 s : State} (hc : Carries s0 s) (id : Nat) : Carries s0 (State.valueOf s id).2 := by
  have hv : ∀ o : Option (Word × State), (∀ a t, o = some (a, t) → Carries s0 t) →
      ∀ w : Word, Carries s0 (o.getD (w, s)).2 := by
    intro o ho w
    cases o with
    | none => exact hc
    | some x => exact ho x.1 x.2 rfl
  unfold State.valueOf
  dsimp only
  refine hv _ ?_ _
  split
  · exact State.millerRead_carries hc _
  · exact State.timeRead_carries hc _ _
  · exact State.positionRead_carries hc _
  · exact State.auxRead_carries hc _ _
  · exact State.cvRead_carries hc _ _
  · intro a t e
    obtain ⟨_, -, e⟩ := Option.map_eq_some_iff.1 e
    cases e
    exact hc
theorem State.valueOf_to {s0 s t1 : State} {x1 : Word} (hc : Carries s0 s) (id : Nat)
    (hx : State.valueOf s id = (x1, t1)) : Carries s0 t1 := by
  have k := State.valueOf_carries hc id
  rw [hx] at k
  exact k

@[simp] theorem State.wakeFor_carries {s0 s : State} (hc : Carries s0 s) (id : Nat) : Carries s0 (State.wakeFor s id) := by
  unfold State.wakeFor
  (repeat' split) <;> simp +contextual (maxDischargeDepth := 40) only [hc, State.accessWake_carries, Carries.record,
      Nat.le_refl, Nat.le_add_right, imp_self, implies_true, Sparse.wf_nil, eq_self]

@[simp] theorem State.readWord_carries {s0 s : State} (hc : Carries s0 s) (id : Nat) : Carries s0 (State.readWord s
      id).2.2 := by
  unfold State.readWord
  dsimp only
  (repeat' split) <;> simp +contextual (maxDischargeDepth := 40) only [hc, State.valueOf_carries, State.wakeFor_carries,
      Carries.record, Nat.le_refl, Nat.le_add_right, imp_self, implies_true, Sparse.wf_nil, eq_self]
theorem State.readWord_to {s0 t1 s : State} {x1 : Status} {x2 : Word} (hc : Carries s0 s) (id : Nat) (hx : State.readWord
      s id = (x1, x2, t1)) : Carries s0 t1 := by
  have k := State.readWord_carries hc id
  rw [hx] at k
  exact k

@[simp] theorem State.queueWritten_carries {s0 s : State} (hc : Carries s0 s) (u : Nat) (i : Nat) (old : Word) (v : Word)
      : Carries s0 (State.queueWritten s u i old v) := by
  unfold State.queueWritten
  dsimp only
  (repeat' split) <;> simp +contextual (maxDischargeDepth := 40) only [hc, State.onQueue_carries, Carries.ite,
      Carries.record, Nat.le_refl, Nat.le_add_right, imp_self, implies_true, Sparse.wf_nil, eq_self]

@[simp] theorem monitorWritten_carries {s0 s : State} (hc : Carries s0 s) (u : Nat) (i : Nat) : Carries s0
      (monitorWritten s u i) := by
  unfold monitorWritten
  (repeat' split) <;> simp +contextual (maxDischargeDepth := 40) only [hc, State.onMon_carries, Carries.ite,
      Carries.record, Nat.le_refl, Nat.le_add_right, imp_self, implies_true, Sparse.wf_nil, eq_self]

@[simp] theorem State.startRetest_carries {s0 s : State} (hc : Carries s0 s) (e : Nat) : Carries s0 (State.startRetest s
      e) := by
  unfold State.startRetest
  simp +contextual (maxDischargeDepth := 40) only [hc, State.setRegion_carries, State.onFault_carries, Carries.record,
      Nat.le_refl, Nat.le_add_right, imp_self, implies_true, Sparse.wf_nil, eq_self]

@[simp] theorem State.written_carries {s0 s : State} (hc : Carries s0 s) (id : Nat) (old : Word) (v : Word) : Carries s0
      (State.written s id old v) := by
  unfold State.written
  dsimp only
  (repeat' split) <;> simp +contextual (maxDischargeDepth := 40) only [hc, State.setFld_carries, State.cvWritten_carries,
      State.switchWritten_carries, State.refreshDomain_carries, State.relock_carries, State.domainWritten_carries,
      State.loadCount_carries, State.forceSensor_carries, State.auxWritten_carries, State.setRecWrite_carries,
      State.portEnWritten_carries, State.acceptWritten_carries, State.queueWritten_carries, monitorWritten_carries,
      State.startRetest_carries, Carries.ite, Carries.record, Nat.le_refl, Nat.le_add_right, imp_self, implies_true,
      Sparse.wf_nil, eq_self]

@[simp] theorem State.putWord_carries {s0 s : State} (hc : Carries s0 s) (id : Nat) (v : Word) : Carries s0
      (State.putWord s id v) := by
  unfold State.putWord
  dsimp only
  (repeat' split) <;> simp +contextual (maxDischargeDepth := 40) only [hc, State.setWord_carries, State.onFault_carries,
      State.reanchor_carries, State.wakeFor_carries, State.written_carries, Carries.ite, Carries.record, Nat.le_refl,
      Nat.le_add_right, imp_self, Sparse.filter_wf, implies_true, Sparse.wf_nil, eq_self]

@[simp] theorem State.writeWord_carries {s0 s : State} (hc : Carries s0 s) (id : Nat) (v : Word) : Carries s0
      (State.writeWord s id v).2 := by
  unfold State.writeWord
  (repeat' split) <;> simp +contextual (maxDischargeDepth := 40) only [hc, State.putWord_carries, Carries.record,
      Nat.le_refl, Nat.le_add_right, imp_self, implies_true, Sparse.wf_nil, eq_self]
theorem State.writeWord_to {s0 t1 s : State} {x1 : Status} (hc : Carries s0 s) (id : Nat) (v : Word) (hx :
      State.writeWord s id v = (x1, t1)) : Carries s0 t1 := by
  have k := State.writeWord_carries hc id v
  rw [hx] at k
  exact k

@[simp] theorem State.wordWrite_carries {s0 s : State} (hc : Carries s0 s) (id : Nat) (v : Word) : Carries s0
      (State.wordWrite s id v) := by
  unfold State.wordWrite
  dsimp only
  (repeat' split) <;>
    (try have h0 := State.writeWord_to (s0 := s0) (by simp +contextual (maxDischargeDepth := 40) only [hc,
      State.writeWord_carries, Carries.ite, Carries.record, Nat.le_refl, Nat.le_add_right, imp_self, implies_true,
      Sparse.wf_nil, eq_self]) ‹State.writeWord _ _ _ = _›) <;>
    simp +contextual (maxDischargeDepth := 40) only [hc, *, State.writeWord_carries, Carries.ite, Carries.record,
      Nat.le_refl, Nat.le_add_right, imp_self, implies_true, Sparse.wf_nil, eq_self]

@[simp] theorem State.wordRead_carries {s0 s : State} (hc : Carries s0 s) (id : Nat) : Carries s0 (State.wordRead s id) := by
  unfold State.wordRead
  dsimp only
  (repeat' split) <;> simp +contextual (maxDischargeDepth := 40) only [hc, State.readWord_carries, Carries.ite,
      Carries.record, Nat.le_refl, Nat.le_add_right, imp_self, implies_true, Sparse.wf_nil, eq_self]

@[simp] theorem State.mbxError_carries {s0 s : State} (hc : Carries s0 s) (i : Nat) : Carries s0 (State.mbxError s i) := by
  unfold State.mbxError
  simp +contextual (maxDischargeDepth := 40) only [hc, State.onSdio_carries, Carries.record, Nat.le_refl,
      Nat.le_add_right, imp_self, implies_true, Sparse.wf_nil, eq_self]

@[simp] theorem State.overrun_carries {s0 s : State} (hc : Carries s0 s)  : Carries s0 (State.overrun s) := by
  unfold State.overrun
  simp +contextual (maxDischargeDepth := 40) only [hc, State.bump_carries, State.mbxError_carries, implies_true,
      Sparse.wf_nil, eq_self]

@[simp] theorem State.ringBell_carries {s0 s : State} (hc : Carries s0 s) (n : Nat) : Carries s0 (State.ringBell s n) := by
  unfold State.ringBell
  (repeat' split) <;> simp +contextual (maxDischargeDepth := 40) only [hc, State.onSdio_carries, State.overrun_carries,
      Carries.ite, Carries.record, Nat.le_refl, Nat.le_add_right, imp_self, implies_true, Sparse.wf_nil, eq_self]

@[simp] theorem State.outAck_carries {s0 s : State} (hc : Carries s0 s)  : Carries s0 (State.outAck s) := by
  unfold State.outAck
  dsimp only
  (repeat' split) <;> simp +contextual (maxDischargeDepth := 40) only [hc, State.onHost_carries,
      State.outboxHead_carries, Carries.ite, Carries.record, Nat.le_refl, Nat.le_add_right, imp_self, implies_true,
      Sparse.wf_nil, eq_self]

@[simp] theorem State.f1Write_carries {s0 s : State} (hc : Carries s0 s) (a : Nat) (b : Byte) : Carries s0 (State.f1Write
      s a b).2 := by
  unfold State.f1Write
  (repeat' split) <;> simp +contextual (maxDischargeDepth := 40) only [hc, State.onSdio_carries, State.ringBell_carries,
      State.outAck_carries, Carries.ite, Carries.record, Nat.le_refl, Nat.le_add_right, imp_self, Sparse.set_wf,
      implies_true, Sparse.wf_nil, eq_self]
theorem State.f1Write_to {s0 t1 s : State} {x1 : Bool} (hc : Carries s0 s) (a : Nat) (b : Byte) (hx : State.f1Write s a b
      = (x1, t1)) : Carries s0 t1 := by
  have k := State.f1Write_carries hc a b
  rw [hx] at k
  exact k

@[simp] theorem State.f0Write_carries {s0 s : State} (hc : Carries s0 s) (a : Nat) (b : Byte) : Carries s0 (State.f0Write
      s a b) := by
  unfold State.f0Write
  (repeat' with_reducible first
      | assumption
      | exact Carries.refl _
      | apply State.onSdio_carries
      | split
      | intro _
      | apply Carries.record)
  all_goals simp +contextual only [Nat.le_refl, Nat.le_add_right, imp_self, implies_true, Sparse.wf_nil, Sparse.set_wf,
      Sparse.modify_wf, Sparse.filter_wf, eq_self, *]

@[simp] theorem State.bulkError_carries {s0 s : State} (hc : Carries s0 s)  : Carries s0 (State.bulkError s) := by
  unfold State.bulkError
  simp +contextual (maxDischargeDepth := 40) only [hc, State.bump_carries, State.mbxError_carries, implies_true,
      Sparse.wf_nil, eq_self]

@[simp] theorem State.arrivedAll_carries {s0 s : State} (hc : Carries s0 s)  : Carries s0 (State.arrivedAll s) := by
  unfold State.arrivedAll
  simp +contextual (maxDischargeDepth := 40) only [hc, State.onModel_carries, Carries.record, Nat.le_refl,
      Nat.le_add_right, imp_self, implies_true, Sparse.wf_nil, eq_self]

@[simp] theorem State.bulkWrite_carries {s0 s : State} (hc : Carries s0 s) (data : List Byte) : Carries s0
      (State.bulkWrite s data) := by
  unfold State.bulkWrite
  dsimp only
  (repeat' with_reducible first
      | assumption
      | exact Carries.refl _
      | refine State.arrivedAll_carries ?_
      | refine State.bulkError_carries ?_
      | apply State.onHost_carries
      | refine State.sendTo_carries ?_ _ _ _ _ _ _ (by assumption)
      | refine Carries.getD (State.sendTo_carries ?_ _ _ _ _ _) ?_
      | refine State.writeBytes_carries ?_ _ _
      | split
      | intro _
      | apply Carries.record)
  all_goals simp +contextual only [Nat.le_refl, Nat.le_add_right, imp_self, implies_true, Sparse.wf_nil, Sparse.set_wf,
      Sparse.modify_wf, Sparse.filter_wf, eq_self, *]

@[simp] theorem State.bulkRead_carries {s0 s : State} (hc : Carries s0 s)  : Carries s0 (State.bulkRead s) := by
  unfold State.bulkRead
  dsimp only
  (repeat' split) <;> simp +contextual (maxDischargeDepth := 40) only [hc, State.onHost_carries, State.onSdio_carries,
      State.bulkError_carries, Carries.ite, Carries.record, Nat.le_refl, Nat.le_add_right, imp_self, implies_true,
      Sparse.wf_nil, eq_self]

@[simp] theorem State.remoteWrite_carries {s0 s : State} (hc : Carries s0 s) (a : Nat) (b : BulkIn) (off : Nat) (data :
      List Byte) : Carries s0 (State.remoteWrite s a b off data) := by
  unfold State.remoteWrite
  dsimp only
  (repeat' split) <;> simp +contextual (maxDischargeDepth := 40) only [hc, State.writeBytes_carries,
      State.onHost_carries, State.arrivedAll_carries, Carries.ite, Carries.record, Nat.le_refl, Nat.le_add_right,
      imp_self, implies_true, Sparse.wf_nil, eq_self]

@[simp] theorem State.bulkData_carries {s0 s : State} (hc : Carries s0 s) (src : Nat) (tag : Nat) (data : List Byte) :
      Carries s0 (State.bulkData s src tag data) := by
  unfold State.bulkData
  (repeat' with_reducible first
      | assumption
      | exact Carries.refl _
      | apply State.onHost_carries
      | split
      | intro _
      | apply Carries.record)
  all_goals simp +contextual only [Nat.le_refl, Nat.le_add_right, imp_self, implies_true, Sparse.wf_nil, Sparse.set_wf,
      Sparse.modify_wf, Sparse.filter_wf, eq_self, *]

@[simp] theorem State.bulkMessage_carries {s0 s : State} (hc : Carries s0 s) (src : Nat) (m : List Byte) : Carries s0
      (State.bulkMessage s src m) := by
  unfold State.bulkMessage
  dsimp only
  (repeat' split) <;> simp +contextual (maxDischargeDepth := 40) only [hc, State.remoteWrite_carries,
      State.bulkData_carries, Carries.record, Nat.le_refl, Nat.le_add_right, imp_self, Sparse.filter_wf, implies_true,
      Sparse.wf_nil, eq_self]

@[simp] theorem State.acceptPacket_carries {s0 s : State} (hc : Carries s0 s) (k : Packet) (src : Nat) : Carries s0
      (State.acceptPacket s k src) := by
  unfold State.acceptPacket
  dsimp only
  (repeat' split) <;> simp +contextual (maxDischargeDepth := 40) only [hc, State.onHost_carries,
      State.refusePacket_carries, State.countRefused_carries, Carries.record, Nat.le_refl, Nat.le_add_right, imp_self,
      implies_true, Sparse.wf_nil, eq_self]

@[simp] theorem State.awaitReply_carries {s0 s : State} (hc : Carries s0 s) (dest : Nat) (k : Packet) : Carries s0
      (State.awaitReply s dest k) := by
  unfold State.awaitReply
  simp +contextual (maxDischargeDepth := 40) only [hc, State.onHost_carries, Carries.record, Nat.le_refl,
      Nat.le_add_right, imp_self, implies_true, Sparse.wf_nil, eq_self]

@[simp] theorem State.forwardPacket_carries {s0 s : State} (hc : Carries s0 s) (k : Packet) (b : List Byte) : Carries s0
      (State.forwardPacket s k b) := by
  unfold State.forwardPacket
  dsimp only
  (repeat' with_reducible first
      | assumption
      | exact Carries.refl _
      | refine State.awaitReply_carries ?_ _ _
      | refine State.refusePacket_carries ?_ _ _ _ _
      | refine State.sendTo_carries ?_ _ _ _ _ _ _ (by assumption)
      | refine Carries.getD (State.sendTo_carries ?_ _ _ _ _ _) ?_
      | refine State.bumpIf_carries ?_ _ _
      | split
      | intro _
      | apply Carries.record)
  all_goals simp +contextual only [Nat.le_refl, Nat.le_add_right, imp_self, implies_true, Sparse.wf_nil, Sparse.set_wf,
      Sparse.modify_wf, Sparse.filter_wf, eq_self, *]

@[simp] theorem State.takePacket_carries {s0 s : State} (hc : Carries s0 s) (own : Bool) (src : Nat) (len : Nat) (b :
      List Byte) : Carries s0 (State.takePacket s own src len b) := by
  unfold State.takePacket
  dsimp only
  (repeat' with_reducible first
      | assumption
      | exact Carries.refl _
      | refine State.forwardPacket_carries ?_ _ _
      | refine State.awaitReply_carries ?_ _ _
      | refine State.acceptPacket_carries ?_ _ _
      | refine State.mbxError_carries ?_ _
      | refine State.refusePacket_carries ?_ _ _ _ _
      | refine State.sendBcast_carries ?_ _
      | refine State.sendTo_carries ?_ _ _ _ _ _ _ (by assumption)
      | refine Carries.getD (State.sendTo_carries ?_ _ _ _ _ _) ?_
      | refine State.bumpIf_carries ?_ _ _
      | refine State.bump_carries ?_ _ _
      | refine forEach_carries (fun _ _ _ => ?_) _ ?_
      | split
      | intro _
      | apply Carries.record)
  all_goals simp +contextual only [Nat.le_refl, Nat.le_add_right, imp_self, implies_true, Sparse.wf_nil, Sparse.set_wf,
      Sparse.modify_wf, Sparse.filter_wf, eq_self, *]

@[simp] theorem State.takeReply_carries {s0 s : State} (hc : Carries s0 s) (b : List Byte) : Carries s0 (State.takeReply
      s b) := by
  unfold State.takeReply
  dsimp only
  (repeat' split) <;> simp +contextual (maxDischargeDepth := 40) only [hc, State.bump_carries, State.onHost_carries,
      State.pushReply_carries, Carries.ite, Carries.record, Nat.le_refl, Nat.le_add_right, imp_self, Sparse.filter_wf,
      implies_true, Sparse.wf_nil, eq_self]

@[simp] theorem State.accessError_carries {s0 s : State} (hc : Carries s0 s)  : Carries s0 (State.accessError s) := by
  unfold State.accessError
  simp +contextual (maxDischargeDepth := 40) only [hc, State.onSdio_carries, Carries.record, Nat.le_refl,
      Nat.le_add_right, imp_self, implies_true, Sparse.wf_nil, eq_self]

@[simp] theorem State.writeFn_carries {s0 s : State} (hc : Carries s0 s) (function : Nat) (ws : List (Nat × Byte)) :
      Carries s0 (State.writeFn s function ws) := by
  unfold State.writeFn
  dsimp only
  (repeat' split) <;> simp +contextual (maxDischargeDepth := 40) only [hc, State.overrun_carries, State.f1Write_carries,
      State.f0Write_carries, forEach_carries, foldl_carries, foldl_carries_snd, foldl_carries_fst, Carries.ite,
      implies_true, Sparse.wf_nil, eq_self]

@[simp] theorem State.takeFwd_carries {s0 s : State} (hc : Carries s0 s) (m : Message) : Carries s0 (State.takeFwd s m) := by
  unfold State.takeFwd
  dsimp only
  (repeat' split) <;> simp +contextual (maxDischargeDepth := 40) only [hc, State.bulkMessage_carries,
      State.takePacket_carries, State.takeReply_carries, Carries.ite, implies_true, Sparse.wf_nil, eq_self]

@[simp] theorem replyWith_carries {s0 s : State} (hc : Carries s0 s) (st : Status) (p : List Byte) : Carries s0
      (replyWith st p s).2 := by
  unfold replyWith
  simp +contextual (maxDischargeDepth := 40) only [hc, implies_true, Sparse.wf_nil, eq_self]
theorem replyWith_to {s0 t1 s : State} {x1 : Option (Status × List Byte)} (hc : Carries s0 s) (st : Status) (p : List
      Byte) (hx : replyWith st p s = (x1, t1)) : Carries s0 t1 := by
  have k := replyWith_carries hc st p
  rw [hx] at k
  exact k

theorem State.readWords_carries {s0 : State} : ∀ (ids : List Nat) {s : State}, Carries s0 s →
    Carries s0 (State.readWords s ids).2
  | [], _, hc => hc
  | id :: ids, _, hc => State.readWords_carries ids (State.readWord_carries hc id)

@[simp] theorem State.readList_carries {s0 s : State} (hc : Carries s0 s) (ids : List Nat) :
    Carries s0 (State.readList s ids).2 := by
  unfold State.readList replyWith
  split
  · exact hc
  · exact State.readWords_carries ids hc

theorem State.writeWords_carries {s0 fin : State} : ∀ (ws : List (Nat × Word)) {s t : State} {n : Nat},
    Carries s0 s → State.writeWords fin s n ws = .ok t → Carries s0 t
  | [], _, _, _, hc, e => by cases e; exact hc
  | (id, v) :: ws, s, t, n, hc, e => by
    unfold State.writeWords at e
    split at e
    · cases e
    · exact State.writeWords_carries ws (State.putWord_carries hc id v) e

@[simp] theorem State.writeList_carries {s0 s : State} (hc : Carries s0 s) (ws : List (Nat × Word)) :
    Carries s0 (State.writeList s ws).2 := by
  unfold State.writeList replyWith reply
  split
  · exact hc
  · split
    · exact hc
    · exact State.writeWords_carries ws hc ‹_›

@[simp] theorem State.bulkAbort_carries {s0 s : State} (hc : Carries s0 s)  : Carries s0 (State.bulkAbort s) := by
  unfold State.bulkAbort
  simp +contextual (maxDischargeDepth := 40) only [hc, State.onModel_carries, State.onHost_carries, Carries.record,
      Nat.le_refl, Nat.le_add_right, imp_self, Sparse.filter_wf, implies_true, Sparse.wf_nil, eq_self]

@[simp] theorem State.sendDump_carries {s0 s : State} (hc : Carries s0 s) (dest : Nat) (tag : Nat) (off : Nat) (bs : List
      Byte) : Carries s0 (State.sendDump s dest tag off bs) := by
  unfold State.sendDump
  (repeat' with_reducible first
      | assumption
      | exact Carries.refl _
      | refine State.sendTo_carries ?_ _ _ _ _ _ _ (by assumption)
      | refine Carries.getD (State.sendTo_carries ?_ _ _ _ _ _) ?_
      | refine foldl_carries (fun _ _ _ => ?_) _ ?_
      | refine foldl_carries_snd (fun _ _ _ => ?_) _ ?_
      | refine foldl_carries_fst (fun _ _ _ => ?_) _ ?_
      | split
      | intro _)

@[simp] theorem State.creditsChanged_carries {s0 s : State} (hc : Carries s0 s) (kind : Nat) (unit : Nat) : Carries s0
      (State.creditsChanged s kind unit) := by
  unfold State.creditsChanged
  (repeat' split) <;> simp +contextual (maxDischargeDepth := 40) only [hc, State.startRetrain_carries, Carries.ite,
      implies_true, Sparse.wf_nil, eq_self]

@[simp] theorem State.queueWriteEnds_carries {s0 s : State} (hc : Carries s0 s) (r : Running) (pointers : PtrCheck) :
      Carries s0 (State.queueWriteEnds s r pointers) := by
  unfold State.queueWriteEnds
  dsimp only
  simp +contextual (maxDischargeDepth := 40) only [hc, State.pushWords_carries, State.finish_carries,
      State.queueAccess_carries, implies_true, Sparse.wf_nil, eq_self]

@[simp] theorem State.countAuth_carries {s0 s : State} (hc : Carries s0 s) (e : Status) : Carries s0 (State.countAuth s e) := by
  unfold State.countAuth
  simp +contextual (maxDischargeDepth := 40) only [hc, State.bumpIf_carries, implies_true, Sparse.wf_nil, eq_self]

@[simp] theorem State.dropImageClaims_carries {s0 s : State} (hc : Carries s0 s)  : Carries s0 (State.dropImageClaims s) := by
  unfold State.dropImageClaims
  simp +contextual (maxDischargeDepth := 40) only [hc, Carries.record, Nat.le_refl, Nat.le_add_right, imp_self,
      Sparse.filter_wf, implies_true, Sparse.wf_nil, eq_self]

theorem State.imageClaim_carries {s0 s t : State} (hc : Carries s0 s) (n : Needs) (g : Nat)
    (e : State.imageClaim s n g = .ok t) : Carries s0 t := by
  unfold State.imageClaim at e
  dsimp only at e
  repeat' split at e
  · exact Except.ok.inj e ▸ hc
  · exact absurd e (by simp)
  · exact absurd e (by simp)
  · exact absurd e (by simp)
  · exact Except.ok.inj e ▸ State.setClaim_carries hc _ _

theorem State.imageClaims_carries {s0 : State} (n : Needs) (gs : List Nat) :
    ∀ {s t : State}, Carries s0 s → State.imageClaims s n gs = .ok t → Carries s0 t := by
  induction gs with
  | nil =>
    intro s t hc e
    unfold State.imageClaims at e
    exact Except.ok.inj e ▸ hc
  | cons g gs ih =>
    intro s t hc e
    unfold State.imageClaims at e
    split at e
    · exact ih (State.imageClaim_carries hc n g ‹_›) e
    · exact absurd e (by simp)

@[simp] theorem State.dropStaged_carries {s0 s : State} (hc : Carries s0 s)  : Carries s0 (State.dropStaged s) := by
  unfold State.dropStaged
  simp +contextual (maxDischargeDepth := 40) only [hc, State.onModel_carries, Carries.record, Nat.le_refl,
      Nat.le_add_right, imp_self, implies_true, Sparse.wf_nil, eq_self]

@[simp] theorem later_carries {s0 s : State} (hc : Carries s0 s) (opcode : Nat) (st : Status) (note : List Byte) (r :
      Req) : Carries s0 (later opcode st note r s).2 := by
  unfold later
  simp +contextual (maxDischargeDepth := 40) only [hc, State.startRunning_carries, implies_true, Sparse.wf_nil, eq_self]
theorem later_to {s0 t1 s : State} {x1 : Option (Status × List Byte)} (hc : Carries s0 s) (opcode : Nat) (st : Status)
      (note : List Byte) (r : Req) (hx : later opcode st note r s = (x1, t1)) : Carries s0 t1 := by
  have k := later_carries hc opcode st note r
  rw [hx] at k
  exact k

theorem State.claimModel_carries {s0 s t : State} (hc : Carries s0 s) (m : Model) (o : Outcome)
    (e : State.claimModel s m o = .ok t) : Carries s0 t := by
  unfold State.claimModel at e
  split at e
  · exact absurd e (by simp)
  · split at e
    · exact absurd e (by simp)
    · exact Except.ok.inj e ▸ State.imageClaims_carries _ _ (State.dropImageClaims_carries hc) ‹_›

@[simp] theorem State.installFailed_carries {s0 s : State} (hc : Carries s0 s) : Carries s0 (State.installFailed s) := by
  unfold State.installFailed
  simp +contextual (maxDischargeDepth := 40) only [hc, State.unloadModel_carries, State.dropImageClaims_carries,
      implies_true, Sparse.wf_nil, eq_self]

@[simp] theorem State.storeImage_carries {s0 s : State} (hc : Carries s0 s) (img : List Byte) (m : Model) :
    Carries s0 (State.storeImage s img m) := by
  unfold State.storeImage
  split
  · exact hc
  · exact State.setFld_carries (State.onBoard_carries hc _) _ _ _ _

@[simp]theorem State.storeCommit_carries {s0 s : State} (hc : Carries s0 s) (img : List Byte) :
    Carries s0 (State.storeCommit s img) := by
  unfold State.storeCommit
  have hf := State.takeFree_carries hc
  generalize State.takeFree s = x at hf ⊢
  dsimp only at hf ⊢
  split
  · exact State.onBoard_carries (State.countAuth_carries hf _) _
  · split
    · exact State.onBoard_carries hf _
    · have hk := State.claimModel_carries hf _ _ ‹_›
      split
      · exact State.onBoard_carries (State.installFailed_carries hk) _
      · exact State.onBoard_carries (State.installModel_carries hk _) _

@[simp] theorem State.storeCommitEnds_carries {s0 s : State} (hc : Carries s0 s) : Carries s0 (State.storeCommitEnds s) := by
  unfold State.storeCommitEnds
  (repeat' split) <;> simp +contextual (maxDischargeDepth := 40) only [hc, State.setFld_carries, State.onBoard_carries,
      Carries.ite, Carries.record, Nat.le_refl, Nat.le_add_right, imp_self, implies_true, Sparse.wf_nil, eq_self]

@[simp] theorem State.closeModelSession_carries {s0 s : State} (hc : Carries s0 s)  : Carries s0 (State.closeModelSession
      s) := by
  unfold State.closeModelSession
  simp +contextual (maxDischargeDepth := 40) only [hc, State.onHost_carries, Carries.record, Nat.le_refl,
      Nat.le_add_right, imp_self, Sparse.filter_wf, implies_true, Sparse.wf_nil, eq_self]

@[simp] theorem State.swapPrepared_carries {s0 s : State} (hc : Carries s0 s) (r : Running) : Carries s0
      (State.swapPrepared s r) := by
  unfold State.swapPrepared
  dsimp only
  (repeat' split) <;> simp +contextual (maxDischargeDepth := 40) only [hc, State.onModel_carries, State.finish_carries,
      Carries.ite, Carries.record, Nat.le_refl, Nat.le_add_right, imp_self, implies_true, Sparse.wf_nil, eq_self]

@[simp] theorem State.endSwap_carries {s0 s : State} (hc : Carries s0 s) (st : Status) (note : List Byte) : Carries s0
      (State.endSwap s st note) := by
  unfold State.endSwap
  dsimp only
  simp +contextual (maxDischargeDepth := 40) only [hc, State.onModel_carries, State.finishOpt_carries, Carries.record,
      Nat.le_refl, Nat.le_add_right, imp_self, implies_true, Sparse.wf_nil, eq_self]

@[simp] theorem State.cancelSwap_carries {s0 s : State} (hc : Carries s0 s) (st : Status) : Carries s0 (State.cancelSwap
      s st) := by
  unfold State.cancelSwap
  (repeat' split) <;> simp +contextual (maxDischargeDepth := 40) only [hc, State.endSwap_carries, Carries.ite,
      implies_true, Sparse.wf_nil, eq_self]

@[simp] theorem State.dropNeuronEvents_carries {s0 s : State} (hc : Carries s0 s)  : Carries s0 (State.dropNeuronEvents s) := by
  unfold State.dropNeuronEvents
  dsimp only
  (repeat' split) <;> simp +contextual (maxDischargeDepth := 40) only [hc, State.onNode_carries, forEach_carries,
      Carries.record, Nat.le_refl, Nat.le_add_right, imp_self, Sparse.filter_wf, implies_true, Sparse.wf_nil, eq_self]

@[simp] theorem State.degradeTracks_carries {s0 s : State} (hc : Carries s0 s)  : Carries s0 (State.degradeTracks s) := by
  unfold State.degradeTracks
  (repeat' split) <;> simp +contextual (maxDischargeDepth := 40) only [hc, State.setSlot_carries, forEach_carries,
      Carries.ite, Carries.record, Nat.le_refl, Nat.le_add_right, imp_self, implies_true, Sparse.wf_nil, eq_self]

@[simp] theorem State.startContinuation_carries {s0 s : State} (hc : Carries s0 s) (lr : Nat) (id : Nat) (seg : Nat)
      (bytes : List Byte) : Carries s0 (State.startContinuation s lr id seg bytes) := by
  unfold State.startContinuation
  dsimp only
  (repeat' split) <;>
    (try have h0 := State.builderFor_to (s0 := s0) (by simp +contextual (maxDischargeDepth := 40) only [hc,
      State.onDense_carries, State.builderFor_carries, State.kickEdge_carries, implies_true, Sparse.wf_nil,
      eq_self]) ‹State.builderFor _ _ = _›) <;>
    simp +contextual (maxDischargeDepth := 40) only [hc, *, State.onDense_carries, State.builderFor_carries,
      State.kickEdge_carries, implies_true, Sparse.wf_nil, eq_self]

@[simp] theorem State.takeScores_carries {s0 s : State} (hc : Carries s0 s) (id : Nat) (seg : Nat) (bytes : List Byte) :
      Carries s0 (State.takeScores s id seg bytes) := by
  unfold State.takeScores
  dsimp only
  (repeat' split) <;> simp +contextual (maxDischargeDepth := 40) only [hc, State.bump_carries, State.onDense_carries,
      Carries.record, Nat.le_refl, Nat.le_add_right, imp_self, implies_true, Sparse.wf_nil, eq_self]

@[simp] theorem State.takeActivation_carries {s0 s : State} (hc : Carries s0 s) (m : Message) : Carries s0
      (State.takeActivation s m) := by
  unfold State.takeActivation
  dsimp only
  (repeat' split) <;> simp +contextual (maxDischargeDepth := 40) only [hc, State.bump_carries, State.rx_carries,
      State.startContinuation_carries, State.takeScores_carries, Carries.ite, Carries.record, Nat.le_refl,
      Nat.le_add_right, imp_self, Sparse.filter_wf, implies_true, Sparse.wf_nil, eq_self]

@[simp] theorem State.stepWork_carries {s0 s : State} (hc : Carries s0 s) (st : FabStep) : Carries s0 (State.stepWork s
      st) := by
  unfold State.stepWork
  dsimp only
  simp +contextual (maxDischargeDepth := 40) only [hc, State.sample_carries, State.onTracker_carries,
      State.sleepIdle_carries, State.appendHist_carries, State.encodersEnd_carries, State.decodersEnd_carries,
      State.countStalls_carries, forEach_carries, Carries.record, Nat.le_refl, Nat.le_add_right, imp_self,
      Sparse.filter_wf, implies_true, Sparse.wf_nil, eq_self]

@[simp] theorem State.stepDone_carries {s0 s : State} (hc : Carries s0 s) (st : FabStep) : Carries s0 (State.stepDone s
      st) := by
  unfold State.stepDone
  dsimp only
  simp +contextual (maxDischargeDepth := 40) only [hc, State.setWord_carries, State.sluiceFall_carries,
      State.makeOwed_carries, State.replayFree_carries, State.settleSwitches_carries, Carries.record, Nat.le_refl,
      Nat.le_add_right, imp_self, Sparse.filter_wf, implies_true, Sparse.wf_nil, eq_self]

@[simp] theorem State.endStep_carries {s0 s : State} (hc : Carries s0 s) (st : FabStep) : Carries s0 (State.endStep s st) := by
  unfold State.endStep
  simp +contextual (maxDischargeDepth := 40) only [hc, State.stepWork_carries, State.stepDone_carries, implies_true,
      Sparse.wf_nil, eq_self]

@[simp] theorem State.endIfDone_carries {s0 s : State} (hc : Carries s0 s)  : Carries s0 (State.endIfDone s) := by
  unfold State.endIfDone
  (repeat' split) <;> simp +contextual (maxDischargeDepth := 40) only [hc, State.endStep_carries, Carries.ite,
      Carries.record, Nat.le_refl, Nat.le_add_right, imp_self, implies_true, Sparse.wf_nil, eq_self]

theorem State.replayFrom_carries {s0 s : State} (hc : Carries s0 s) (k : Nat) (o : Option Nat) :
    Carries s0 (
      let a := k
      let s := { s with pos := { s.pos with src := .replay }, head := { s.head with repOff := a } }
      match o with
      | some c => { s.loadCount c with head := { s.head with repOff := a, repMark := c } }
      | none => s) := by
  dsimp only
  split
  · unfold State.loadCount
    dsimp only
    apply Carries.record hc (Nat.le_refl _) <;> with_reducible exact id
  · apply Carries.record hc (Nat.le_refl _) <;> with_reducible exact id

@[simp] theorem State.armSource_carries {s0 s : State} (hc : Carries s0 s) : Carries s0 (State.armSource s) := by
  have h1 : ∀ c : Curve, Carries s0 { s with pos := { s.pos with src := .synthetic, curve := c } } := fun c => by
    apply Carries.record hc (Nat.le_refl _) <;> with_reducible exact id
  unfold State.armSource
  split
  · exact State.loadCount_carries (h1 _) _
  · exact State.replayFrom_carries hc _ _
  · apply Carries.record hc (Nat.le_refl _) <;> with_reducible exact id

@[simp] theorem State.armSteps_carries {s0 s : State} (hc : Carries s0 s)  : Carries s0 (State.armSteps s) := by
  unfold State.armSteps
  dsimp only
  simp +contextual (maxDischargeDepth := 40) only [hc, State.setWord_carries, Carries.record, Nat.le_refl,
      Nat.le_add_right, imp_self, implies_true, Sparse.wf_nil, eq_self]

@[simp] theorem State.armPorts_carries {s0 s : State} (hc : Carries s0 s)  : Carries s0 (State.armPorts s) := by
  unfold State.armPorts
  (repeat' split) <;> simp +contextual (maxDischargeDepth := 40) only [hc, State.onPort_carries, forEach_carries,
      Carries.ite, Carries.record, Nat.le_refl, Nat.le_add_right, imp_self, implies_true, Sparse.wf_nil, eq_self]

@[simp] theorem State.armFabric_carries {s0 s : State} (hc : Carries s0 s) : Carries s0 (State.armFabric s) := by
  unfold State.armFabric
  dsimp only
  simp +contextual (maxDischargeDepth := 40) only [hc, State.onBlock_carries, State.onConv_carries,
      State.sleepIdle_carries, forEach_carries, Carries.record, Nat.le_refl, Nat.le_add_right, imp_self, implies_true,
      Sparse.wf_nil, eq_self]

@[simp] theorem State.armTail_carries {s0 s : State} (hc : Carries s0 s)  : Carries s0 (State.armTail s) := by
  unfold State.armTail
  dsimp only
  simp +contextual (maxDischargeDepth := 40) only [hc, State.setFld_carries, forEach_carries, Carries.record,
      Nat.le_refl, Nat.le_add_right, imp_self, implies_true, Sparse.wf_nil, eq_self]

@[simp] theorem State.armAux_carries {s0 s : State} (hc : Carries s0 s)  : Carries s0 (State.armAux s) := by
  unfold State.armAux
  (repeat' split) <;> simp +contextual (maxDischargeDepth := 40) only [hc, State.auxReset_carries, forEach_carries,
      Carries.ite, implies_true, Sparse.wf_nil, eq_self]

@[simp] theorem State.armNow_carries {s0 s : State} (hc : Carries s0 s)  : Carries s0 (State.armNow s) := by
  unfold State.armNow
  simp +contextual (maxDischargeDepth := 40) only [hc, State.clearRouter_carries, State.armSource_carries,
      State.armSteps_carries, State.armPorts_carries, State.armFabric_carries, State.armTail_carries,
      State.armAux_carries, Carries.record, Nat.le_refl, Nat.le_add_right, imp_self, implies_true, Sparse.wf_nil, eq_self]

@[simp] theorem State.ringArrives_carries {s0 s : State} (hc : Carries s0 s)  : Carries s0 (State.ringArrives s) := by
  unfold State.ringArrives
  dsimp only
  (repeat' split) <;> simp +contextual (maxDischargeDepth := 40) only [hc, State.holdEvent_carries,
      State.takeClose_carries, State.takeStepEnd_carries, forEach_carries, Carries.record, Nat.le_refl, Nat.le_add_right,
      imp_self, implies_true, Sparse.wf_nil, eq_self]

@[simp] theorem State.ringDrains_carries {s0 s : State} (hc : Carries s0 s)  : Carries s0 (State.ringDrains s) := by
  unfold State.ringDrains
  simp +contextual (maxDischargeDepth := 40) only [hc, State.ringArrives_carries, foldl_carries, foldl_carries_snd,
      foldl_carries_fst, implies_true, Sparse.wf_nil, eq_self]

@[simp] theorem State.spillReturns_carries {s0 s : State} (hc : Carries s0 s)  : Carries s0 (State.spillReturns s) := by
  unfold State.spillReturns
  (repeat' split) <;> simp +contextual (maxDischargeDepth := 40) only [hc, State.onNode_carries,
      State.releaseNode_carries, forEach_carries, Carries.record, Nat.le_refl, Nat.le_add_right, imp_self,
      Sparse.filter_wf, implies_true, Sparse.wf_nil, eq_self]

@[simp] theorem State.finishStep_carries {s0 s : State} (hc : Carries s0 s) : Carries s0 (State.finishStep s) := by
  unfold State.finishStep
  dsimp only
  (repeat' split) <;> simp +contextual (maxDischargeDepth := 40) only [hc, State.evalBlock_carries,
      State.stepWork_carries, State.stepDone_carries, State.ringDrains_carries, State.spillReturns_carries,
      forEach_carries, Carries.ite, Carries.record, Nat.le_refl, Nat.le_add_right, imp_self, implies_true, Sparse.wf_nil,
      eq_self]

@[simp] theorem State.dropFabric_carries {s0 s : State} (hc : Carries s0 s)  : Carries s0 (State.dropFabric s) := by
  unfold State.dropFabric
  dsimp only
  simp +contextual (maxDischargeDepth := 40) only [hc, State.setWord_carries, State.onBlock_carries,
      State.sleepIdle_carries, State.clearRouter_carries, State.disengage_carries, forEach_carries, Carries.record,
      Nat.le_refl, Nat.le_add_right, imp_self, implies_true, Sparse.wf_nil, eq_self]

@[simp] theorem State.stopPorts_carries {s0 s : State} (hc : Carries s0 s)  : Carries s0 (State.stopPorts s) := by
  unfold State.stopPorts
  simp +contextual (maxDischargeDepth := 40) only [hc, State.onPort_carries, State.endSync_carries, forEach_carries,
      Carries.record, Nat.le_refl, Nat.le_add_right, imp_self, implies_true, Sparse.wf_nil, eq_self]

@[simp] theorem State.stopNow_carries {s0 s : State} (hc : Carries s0 s)  : Carries s0 (State.stopNow s) := by
  unfold State.stopNow
  dsimp only
  simp +contextual (maxDischargeDepth := 40) only [hc, State.setFld_carries, State.freeTracks_carries,
      State.settleSwitches_carries, State.cancelSwap_carries, State.finishStep_carries, State.dropFabric_carries,
      State.stopPorts_carries, Carries.record, Nat.le_refl, Nat.le_add_right, imp_self, implies_true, Sparse.wf_nil, eq_self]

@[simp] theorem State.sampleCompat_carries {s0 s : State} (hc : Carries s0 s) (compatSel : Bool) : Carries s0
      (State.sampleCompat s compatSel) := by
  unfold State.sampleCompat
  simp +contextual (maxDischargeDepth := 40) only [hc, State.setFld_carries, implies_true, Sparse.wf_nil, eq_self]

@[simp] theorem State.rebooted_carries {s0 s : State} (hc : Carries s0 s) (compatSel hold : Bool) :
    Carries s0 (State.rebooted s compatSel hold) := by
  unfold State.rebooted
  dsimp only
  refine State.sampleCompat_carries ?_ _
  apply Carries.record hc (Nat.le_refl _) <;> first
    | with_reducible exact id
    | exact fun h => Sparse.filter_wf _ h
    | exact fun _ => rfl
    | (refine Sparse.filterMap_wf _ fun e x hx => ?_
       split at hx
       · cases hx
       · cases hx
         exact ⟨rfl, fun he => absurd (congrArg AuxChan.seq he) ‹_›⟩)

@[simp] theorem State.unpowered_carries {s0 s : State} (hc : Carries s0 s) (next : Supply) (trips : Nat) :
    Carries s0 (State.unpowered s next trips) := by
  unfold State.unpowered
  apply Carries.record hc (Nat.le_refl _) <;> first
    | with_reducible exact id
    | exact fun h => Sparse.filter_wf _ h
    | exact fun _ => rfl

@[simp] theorem State.finishErase_carries {s0 s : State} (hc : Carries s0 s)  : Carries s0 (State.finishErase s) := by
  unfold State.finishErase
  (repeat' split) <;> simp +contextual (maxDischargeDepth := 40) only [hc, State.onSec_carries, State.onBoard_carries,
      Carries.ite, Carries.record, Nat.le_refl, Nat.le_add_right, imp_self, implies_true, Sparse.wf_nil, eq_self]

@[simp] theorem State.countSlices_carries {s0 s : State} (hc : Carries s0 s) (rs : List SliceResult) : Carries s0
      (State.countSlices s rs) := by
  unfold State.countSlices
  dsimp only
  (repeat' split) <;> simp +contextual (maxDischargeDepth := 40) only [hc, State.setFld_carries, State.bump_carries,
      Carries.record, Nat.le_refl, Nat.le_add_right, imp_self, implies_true, Sparse.wf_nil, eq_self]

@[simp] theorem State.recordRun_carries {s0 s : State} (hc : Carries s0 s) (rs : List SliceResult) (boot : Bool) :
      Carries s0 (State.recordRun s rs boot) := by
  unfold State.recordRun
  simp +contextual (maxDischargeDepth := 40) only [hc, State.onTest_carries, State.countSlices_carries, Carries.record,
      Nat.le_refl, Nat.le_add_right, imp_self, implies_true, Sparse.wf_nil, eq_self]

@[simp] theorem State.enterSafe_carries {s0 s : State} (hc : Carries s0 s)  : Carries s0 (State.enterSafe s) := by
  unfold State.enterSafe
  simp +contextual (maxDischargeDepth := 40) only [hc, State.onFault_carries, Carries.record, Nat.le_refl,
      Nat.le_add_right, imp_self, implies_true, Sparse.wf_nil, eq_self]

@[simp] theorem State.runCopy_carries {s0 s : State} (hc : Carries s0 s) (n : Nat) (fwResult : Nat) : Carries s0
      (State.runCopy s n fwResult) := by
  unfold State.runCopy
  simp +contextual (maxDischargeDepth := 40) only [hc, State.onSec_carries, State.onTest_carries, Carries.record,
      Nat.le_refl, Nat.le_add_right, imp_self, implies_true, Sparse.wf_nil, eq_self]

@[simp] theorem State.fuseFirmware_carries {s0 s : State} (hc : Carries s0 s)  : Carries s0 (State.fuseFirmware s) := by
  unfold State.fuseFirmware
  (repeat' split) <;> simp +contextual (maxDischargeDepth := 40) only [hc, State.onSec_carries, Carries.record,
      Nat.le_refl, Nat.le_add_right, imp_self, implies_true, Sparse.wf_nil, eq_self]

@[simp] theorem State.storeReload_carries {s0 s : State} (hc : Carries s0 s)  : Carries s0 (State.storeReload s) := by
  unfold State.storeReload
  (repeat' split) <;> simp +contextual (maxDischargeDepth := 40) only [hc, State.storeCommit_carries, Carries.ite,
      Carries.record, Nat.le_refl, Nat.le_add_right, imp_self, implies_true, Sparse.wf_nil, eq_self]

@[simp] theorem State.swapMon_carries {s0 s : State} (hc : Carries s0 s) (n : Nat) : Carries s0 (State.swapMon s n) := by
  unfold State.swapMon
  dsimp only
  simp +contextual (maxDischargeDepth := 40) only [hc, State.onMon_carries, implies_true, Sparse.wf_nil, eq_self]

@[simp] theorem State.appendHistory_carries {s0 s : State} (hc : Carries s0 s) (rs : List (List Byte)) : Carries s0
      (State.appendHistory s rs) := by
  unfold State.appendHistory
  dsimp only
  simp +contextual (maxDischargeDepth := 40) only [hc, State.onLogs_carries, Carries.record, Nat.le_refl,
      Nat.le_add_right, imp_self, implies_true, Sparse.wf_nil, eq_self]

@[simp] theorem State.tickTaken_carries {s0 s : State} (hc : Carries s0 s) (n : Nat) : Carries s0 (State.tickTaken s n) := by
  unfold State.tickTaken
  simp +contextual (maxDischargeDepth := 40) only [hc, State.onMon_carries, Carries.record, Nat.le_refl,
      Nat.le_add_right, imp_self, implies_true, Sparse.wf_nil, eq_self]

@[simp] theorem State.logFatal_carries {s0 s : State} (hc : Carries s0 s) (cause : Nat) (detail : Nat) : Carries s0
      (State.logFatal s cause detail) := by
  unfold State.logFatal
  (repeat' split) <;> simp +contextual (maxDischargeDepth := 40) only [hc, State.logEntry_carries, Carries.record,
      Nat.le_refl, Nat.le_add_right, imp_self, implies_true, Sparse.wf_nil, eq_self]

@[simp] theorem State.haltPipeline_carries {s0 s : State} (hc : Carries s0 s)  : Carries s0 (State.haltPipeline s) := by
  unfold State.haltPipeline
  dsimp only
  simp +contextual (maxDischargeDepth := 40) only [hc, State.setFld_carries, State.setLaunchQ_carries,
      State.stopPorts_carries, Carries.record, Nat.le_refl, Nat.le_add_right, imp_self, implies_true, Sparse.wf_nil, eq_self]

@[simp] theorem State.fatal_carries {s0 s : State} (hc : Carries s0 s) (cause : Nat) (detail : Nat) : Carries s0
      (State.fatal s cause detail) := by
  unfold State.fatal
  dsimp only
  (repeat' split) <;> simp +contextual (maxDischargeDepth := 40) only [hc, State.bump_carries, State.onFault_carries,
      State.logFatal_carries, State.haltPipeline_carries, Carries.ite, Carries.record, Nat.le_refl, Nat.le_add_right,
      imp_self, implies_true, Sparse.wf_nil, eq_self]

@[simp] theorem State.writeDump_carries {s0 s : State} (hc : Carries s0 s)  : Carries s0 (State.writeDump s) := by
  unfold State.writeDump
  dsimp only
  simp +contextual (maxDischargeDepth := 40) only [hc, State.writeBytes_carries, implies_true, Sparse.wf_nil, eq_self]

@[simp] theorem State.editHeader_carries {s0 s : State} (hc : Carries s0 s) (off : Nat) (bs : List Byte) : Carries s0
      (State.editHeader s off bs) := by
  unfold State.editHeader
  dsimp only
  simp +contextual (maxDischargeDepth := 40) only [hc, State.writeBytes_carries, implies_true, Sparse.wf_nil, eq_self]

@[simp] theorem State.regionReport_carries {s0 s : State} (hc : Carries s0 s) (r : Nat) (code : Nat) : Carries s0
      (State.regionReport s r code) := by
  unfold State.regionReport
  simp +contextual (maxDischargeDepth := 40) only [hc, State.reportAt_carries, implies_true, Sparse.wf_nil, eq_self]

@[simp] theorem State.failRegion_carries {s0 s : State} (hc : Carries s0 s) (r : Nat) : Carries s0 (State.failRegion s r) := by
  unfold State.failRegion
  dsimp only
  (repeat' split) <;> simp +contextual (maxDischargeDepth := 40) only [hc, State.onBlock_carries, State.onPower_carries,
      State.markSsn_carries, forEach_carries, Carries.record, Nat.le_refl, Nat.le_add_right, imp_self, Sparse.filter_wf,
      implies_true, Sparse.wf_nil, eq_self]

@[simp] theorem State.callOffPark_carries {s0 s : State} (hc : Carries s0 s) (st : Status) : Carries s0
      (State.callOffPark s st) := by
  unfold State.callOffPark
  (repeat' split) <;> simp +contextual (maxDischargeDepth := 40) only [hc, State.onPower_carries,
      State.finishOpt_carries, Carries.ite, Carries.record, Nat.le_refl, Nat.le_add_right, imp_self, Sparse.filter_wf,
      implies_true, Sparse.wf_nil, eq_self]

@[simp] theorem State.dropParked_carries {s0 s : State} (hc : Carries s0 s) (r : Nat) : Carries s0 (State.dropParked s r) := by
  unfold State.dropParked
  dsimp only
  (repeat' split) <;> simp +contextual (maxDischargeDepth := 40) only [hc, State.onPower_carries,
      State.finishOpt_carries, Carries.ite, Carries.record, Nat.le_refl, Nat.le_add_right, imp_self, Sparse.filter_wf,
      implies_true, Sparse.wf_nil, eq_self]

@[simp] theorem State.retestFails_carries {s0 s : State} (hc : Carries s0 s) (r : Nat) : Carries s0 (State.retestFails s
      r) := by
  unfold State.retestFails
  dsimp only
  simp +contextual (maxDischargeDepth := 40) only [hc, State.flag_carries, State.setRegion_carries,
      State.onFault_carries, State.rebuildSram_carries, forEach_carries, Carries.record, Nat.le_refl, Nat.le_add_right,
      imp_self, implies_true, Sparse.wf_nil, eq_self]

@[simp] theorem State.noteFailed_carries {s0 s : State} (hc : Carries s0 s) (r : Nat) (auto : Bool) : Carries s0
      (State.noteFailed s r auto) := by
  unfold State.noteFailed
  simp +contextual (maxDischargeDepth := 40) only [hc, State.onFault_carries, Carries.record, Nat.le_refl,
      Nat.le_add_right, imp_self, implies_true, Sparse.wf_nil, eq_self]

@[simp] theorem State.derailNext_carries {s0 s : State} (hc : Carries s0 s) (r : Nat) : Carries s0 (State.derailNext s r) := by
  unfold State.derailNext
  dsimp only
  (repeat' split) <;> simp +contextual (maxDischargeDepth := 40) only [hc, State.onPower_carries, State.derail_carries,
      State.finishOpt_carries, State.startResume_carries, State.callOffPark_carries, Carries.ite, Carries.record,
      Nat.le_refl, Nat.le_add_right, imp_self, implies_true, Sparse.wf_nil, eq_self]

@[simp] theorem State.handleFault_carries {s0 s : State} (hc : Carries s0 s) (r : Nat) : Carries s0 (State.handleFault s
      r) := by
  unfold State.handleFault
  dsimp only
  (repeat' split) <;> simp +contextual (maxDischargeDepth := 40) only [hc, State.setRegion_carries,
      State.onPower_carries, State.settleSwitches_carries, State.cancelSwap_carries, State.endIfDone_carries,
      State.fatal_carries, State.failRegion_carries, State.dropParked_carries, State.retestFails_carries,
      State.derailNext_carries, Carries.ite, Carries.record, Nat.le_refl, Nat.le_add_right, imp_self, Sparse.filter_wf,
      implies_true, Sparse.wf_nil, eq_self]

@[simp] theorem State.regionFault_carries {s0 s : State} (hc : Carries s0 s) (r : Nat) (code : Nat) (auto : Bool) :
      Carries s0 (State.regionFault s r code auto) := by
  unfold State.regionFault
  dsimp only
  (repeat' split) <;> simp +contextual (maxDischargeDepth := 40) only [hc, State.flag_carries, State.endIfDone_carries,
      State.regionReport_carries, State.failRegion_carries, State.noteFailed_carries, State.handleFault_carries,
      Carries.ite, implies_true, Sparse.wf_nil, eq_self]

@[simp] theorem State.retestPasses_carries {s0 s : State} (hc : Carries s0 s) (r : Nat) : Carries s0 (State.retestPasses
      s r) := by
  unfold State.retestPasses
  dsimp only
  simp +contextual (maxDischargeDepth := 40) only [hc, State.onPower_carries, State.onFault_carries,
      State.rebuildSram_carries, State.settleSwitches_carries, forEach_carries, Carries.record, Nat.le_refl,
      Nat.le_add_right, imp_self, Sparse.filter_wf, implies_true, Sparse.wf_nil, eq_self]

@[simp] theorem State.restoreFailed_carries {s0 s : State} (hc : Carries s0 s) (d : Nat) : Carries s0
      (State.restoreFailed s d) := by
  unfold State.restoreFailed
  dsimp only
  (repeat' split) <;> simp +contextual (maxDischargeDepth := 40) only [hc, State.restoreLost_carries,
      State.regionFault_carries, Carries.ite, implies_true, Sparse.wf_nil, eq_self]

@[simp] theorem State.neuronError_carries {s0 s : State} (hc : Carries s0 s) (r : ErrorReport) : Carries s0
      (State.neuronError s r) := by
  unfold State.neuronError
  dsimp only
  (repeat' split) <;> simp +contextual (maxDischargeDepth := 40) only [hc, State.flag_carries, State.bump_carries,
      State.onBlock_carries, Carries.ite, Carries.record, Nat.le_refl, Nat.le_add_right, imp_self, Sparse.filter_wf,
      implies_true, Sparse.wf_nil, eq_self]

@[simp] theorem State.heldError_carries {s0 s : State} (hc : Carries s0 s) (n : Nat) (i : Nat) : Carries s0
      (State.heldError s n i) := by
  unfold State.heldError
  (repeat' split) <;> simp +contextual (maxDischargeDepth := 40) only [hc, State.onNode_carries, State.markHeld_carries,
      Carries.record, Nat.le_refl, Nat.le_add_right, imp_self, implies_true, Sparse.wf_nil, eq_self]

@[simp] theorem State.slotError_carries {s0 s : State} (hc : Carries s0 s) (r : Nat) (i : Nat) : Carries s0
      (State.slotError s r i) := by
  unfold State.slotError
  simp +contextual (maxDischargeDepth := 40) only [hc, State.setSlot_carries, State.closeTrack_carries, implies_true,
      Sparse.wf_nil, eq_self]

@[simp] theorem State.queueError_carries {s0 s : State} (hc : Carries s0 s) (q : Nat) (i : Nat) : Carries s0
      (State.queueError s q i) := by
  unfold State.queueError
  simp +contextual (maxDischargeDepth := 40) only [hc, State.onQueue_carries, Carries.record, Nat.le_refl,
      Nat.le_add_right, imp_self, Sparse.filter_wf, implies_true, Sparse.wf_nil, eq_self]

@[simp] theorem State.wordError_carries {s0 s : State} (hc : Carries s0 s) (id : Nat) : Carries s0 (State.wordError s id) := by
  unfold State.wordError
  simp +contextual (maxDischargeDepth := 40) only [hc, State.onFault_carries, Carries.record, Nat.le_refl,
      Nat.le_add_right, imp_self, Sparse.filter_wf, implies_true, Sparse.wf_nil, eq_self]

@[simp] theorem State.edgeError_carries {s0 s : State} (hc : Carries s0 s) (u : Nat) : Carries s0 (State.edgeError s u) := by
  unfold State.edgeError
  dsimp only
  (repeat' split) <;> simp +contextual (maxDischargeDepth := 40) only [hc, State.onDense_carries, State.kickEdge_carries,
      Carries.record, Nat.le_refl, Nat.le_add_right, imp_self, implies_true, Sparse.wf_nil, eq_self]

@[simp] theorem State.ownRule_carries {s0 s : State} (hc : Carries s0 s) (r : ErrorReport) : Carries s0 (State.ownRule s
      r) := by
  unfold State.ownRule
  dsimp only
  (repeat' split) <;> simp +contextual (maxDischargeDepth := 40) only [hc, State.setFld_carries, State.flag_carries,
      State.onPort_carries, State.onConv_carries, State.onCv_carries, State.onDense_carries, State.refract_carries,
      State.linkDown_carries, State.neuronError_carries, State.heldError_carries, State.slotError_carries,
      State.queueError_carries, State.wordError_carries, State.edgeError_carries, State.onMon_carries,
      State.setLaunchQ_carries, Carries.ite, Carries.record,
      Nat.le_refl, Nat.le_add_right, imp_self, Sparse.set_wf, implies_true, Sparse.wf_nil, eq_self]

@[simp] theorem State.blockError_carries {s0 s : State} (hc : Carries s0 s) (r : ErrorReport) : Carries s0
      (State.blockError s r) := by
  unfold State.blockError
  simp +contextual (maxDischargeDepth := 40) only [hc, State.countUe_carries, State.report_carries,
      State.ownRule_carries, implies_true, Sparse.wf_nil, eq_self]

@[simp] theorem State.warmRestart_carries {s0 s : State} (hc : Carries s0 s)  : Carries s0 (State.warmRestart s) := by
  unfold State.warmRestart
  dsimp only
  (repeat' split) <;> simp +contextual (maxDischargeDepth := 40) only [hc, State.onFault_carries, State.fatal_carries,
      Carries.ite, Carries.record, Nat.le_refl, Nat.le_add_right, imp_self, implies_true, Sparse.wf_nil, eq_self]

@[simp] theorem State.wordCorrected_carries {s0 s : State} (hc : Carries s0 s) (r : ErrorReport) : Carries s0
      (State.wordCorrected s r) := by
  unfold State.wordCorrected
  (repeat' split) <;> simp +contextual (maxDischargeDepth := 40) only [hc, State.bump_carries,
      State.dataCorrected_carries, Carries.ite, implies_true, Sparse.wf_nil, eq_self]

@[simp] theorem State.wordBad_carries {s0 s : State} (hc : Carries s0 s) (r : ErrorReport) : Carries s0 (State.wordBad s
      r) := by
  unfold State.wordBad
  (repeat' split) <;> simp +contextual (maxDischargeDepth := 40) only [hc, State.logEntry_carries, State.countUe_carries,
      State.blockError_carries, State.warmRestart_carries, Carries.ite, implies_true, Sparse.wf_nil, eq_self]

@[simp] theorem State.answerInternal_carries {s0 s : State} (hc : Carries s0 s)  : Carries s0 (State.answerInternal s) := by
  unfold State.answerInternal
  dsimp only
  simp +contextual (maxDischargeDepth := 40) only [hc, State.onHost_carries, State.answer_carries, forEach_carries,
      Carries.record, Nat.le_refl, Nat.le_add_right, imp_self, implies_true, Sparse.wf_nil, eq_self]

@[simp] theorem State.dropUnanswered_carries {s0 s : State} (hc : Carries s0 s)  : Carries s0 (State.dropUnanswered s) := by
  unfold State.dropUnanswered
  dsimp only
  (repeat' split) <;> simp +contextual (maxDischargeDepth := 40) only [hc, State.onModel_carries, State.onBoard_carries,
      State.callOffPark_carries, Carries.ite, Carries.record, Nat.le_refl, Nat.le_add_right, imp_self, Sparse.filter_wf,
      implies_true, Sparse.wf_nil, eq_self]

@[simp] theorem State.takeReports_carries {s0 s : State} (hc : Carries s0 s)  : Carries s0 (State.takeReports s) := by
  unfold State.takeReports
  simp +contextual (maxDischargeDepth := 40) only [hc, State.takeReport_carries, forEach_carries, Carries.record,
      Nat.le_refl, Nat.le_add_right, imp_self, implies_true, Sparse.wf_nil, eq_self]

@[simp] theorem State.takeDeferred_carries {s0 s : State} (hc : Carries s0 s)  : Carries s0 (State.takeDeferred s) := by
  unfold State.takeDeferred
  dsimp only
  simp +contextual (maxDischargeDepth := 40) only [hc, State.pumpAll_carries, State.notifyRoot_carries,
      State.takeEnum_carries, forEach_carries, Carries.record, Nat.le_refl, Nat.le_add_right, imp_self, implies_true,
      Sparse.wf_nil, eq_self]

@[simp] theorem State.startPendings_carries {s0 s : State} (hc : Carries s0 s) : Carries s0 (State.startPendings s) := by
  unfold State.startPendings
  (repeat' split) <;> simp +contextual (maxDischargeDepth := 40) only [hc, State.startPending_carries, forEach_carries,
      Carries.ite, implies_true, Sparse.wf_nil, eq_self]

@[simp] theorem State.restartEnds_carries {s0 s : State} (hc : Carries s0 s) : Carries s0 (State.restartEnds s) := by
  unfold State.restartEnds
  dsimp only
  (repeat' split) <;> simp +contextual (maxDischargeDepth := 40) only [hc, State.flag_carries, State.bump_carries,
      State.onFault_carries, State.settleSwitches_carries, State.fatal_carries, State.handleFault_carries,
      State.answerInternal_carries, State.dropUnanswered_carries, State.takeReports_carries, State.takeDeferred_carries,
      State.startPendings_carries, forEach_carries, Carries.ite, Carries.record, Nat.le_refl, Nat.le_add_right, imp_self,
      implies_true, Sparse.wf_nil, eq_self]

end Sys2Proof.Machine
end

