-- ==== Sys2Proof/Laws/CarryTick.lean ====
section
/-!
SUPPORT. What the operations of the security, of the board, of the command completions and of the tick carry over.
-/

namespace Sys2Proof.Machine

@[simp] theorem State.newNonce_carries {s0 s : State} (hc : Carries s0 s)  : Carries s0 (State.newNonce s) := by
  unfold State.newNonce
  simp +contextual (maxDischargeDepth := 40) only [hc, State.onSec_carries, Carries.record, Nat.le_refl,
      Nat.le_add_right, imp_self, implies_true, Sparse.wf_nil, eq_self]

@[simp] theorem State.eraseAreas_carries {s0 s : State} (hc : Carries s0 s)  : Carries s0 (State.eraseAreas s) := by
  unfold State.eraseAreas
  dsimp only
  simp +contextual (maxDischargeDepth := 40) only [hc, State.unloadModel_carries, State.dropImageClaims_carries,
      State.dropStaged_carries, State.closeModelSession_carries, Carries.record, Nat.le_refl, Nat.le_add_right, imp_self,
      Sparse.filter_wf, implies_true, Sparse.wf_nil, eq_self]

@[simp] theorem State.blowFuse_carries {s0 s : State} (hc : Carries s0 s) (target : Nat) (p : List Byte) : Carries s0
      (State.blowFuse s target p) := by
  unfold State.blowFuse
  (repeat' split) <;> simp +contextual (maxDischargeDepth := 40) only [hc, State.onSec_carries, Carries.record,
      Nat.le_refl, Nat.le_add_right, imp_self, implies_true, Sparse.wf_nil, eq_self]

@[simp] theorem State.lifecycleDone_carries {s0 s : State} (hc : Carries s0 s)  : Carries s0 (State.lifecycleDone s) := by
  unfold State.lifecycleDone
  (repeat' split) <;> simp +contextual (maxDischargeDepth := 40) only [hc, State.finishErase_carries,
      State.newNonce_carries, State.eraseAreas_carries, Carries.ite, implies_true, Sparse.wf_nil, eq_self]

@[simp] theorem State.firmwareWriting_carries {s0 s : State} (hc : Carries s0 s) : Carries s0 (State.firmwareWriting s) := by
  unfold State.firmwareWriting
  (repeat' split) <;> simp +contextual (maxDischargeDepth := 40) only [hc, State.onSec_carries, Carries.ite,
      Carries.record, Nat.le_refl, Nat.le_add_right, imp_self, implies_true, Sparse.wf_nil, eq_self]

@[simp] theorem State.firmwareWritten_carries {s0 s : State} (hc : Carries s0 s)  : Carries s0 (State.firmwareWritten s) := by
  unfold State.firmwareWritten
  dsimp only
  (repeat' split) <;> simp +contextual (maxDischargeDepth := 40) only [hc, State.onSec_carries, Carries.ite,
      Carries.record, Nat.le_refl, Nat.le_add_right, imp_self, implies_true, Sparse.wf_nil, eq_self]

@[simp] theorem State.bistDone_carries {s0 s : State} (hc : Carries s0 s) (rs : List SliceResult) : Carries s0
      (State.bistDone s rs) := by
  unfold State.bistDone
  dsimp only
  simp +contextual (maxDischargeDepth := 40) only [hc, State.rebuildSram_carries, State.recordRun_carries,
      forEach_carries, implies_true, Sparse.wf_nil, eq_self]

@[simp] theorem State.camTrip_carries {s0 s : State} (hc : Carries s0 s) (p : Nat) : Carries s0 (State.camTrip s p) := by
  unfold State.camTrip
  dsimp only
  simp +contextual (maxDischargeDepth := 40) only [hc, State.setFld_carries, State.flag_carries, State.bump_carries,
      State.onBoard_carries, State.report_carries, Carries.record, Nat.le_refl, Nat.le_add_right, imp_self, implies_true,
      Sparse.wf_nil, eq_self]

@[simp] theorem State.camSupplyDone_carries {s0 s : State} (hc : Carries s0 s) (r : Running) (mask : Nat) : Carries s0
      (State.camSupplyDone s r mask) := by
  unfold State.camSupplyDone
  dsimp only
  (repeat' split) <;> simp +contextual (maxDischargeDepth := 40) only [hc, State.onBoard_carries, State.finish_carries,
      State.camTrip_carries, forEach_carries, foldl_carries, foldl_carries_snd, foldl_carries_fst, Carries.ite,
      Carries.record, Nat.le_refl, Nat.le_add_right, imp_self, Sparse.filter_wf, implies_true, Sparse.wf_nil, eq_self]

@[simp] theorem State.finishStored_carries {s0 s : State} (hc : Carries s0 s) (r : Running) : Carries s0
      (State.finishStored s r) := by
  unfold State.finishStored
  simp +contextual (maxDischargeDepth := 40) only [hc, State.finish_carries, implies_true, Sparse.wf_nil, eq_self]

@[simp] theorem State.enumerateDone_carries {s0 s : State} (hc : Carries s0 s) (r : Running) : Carries s0
      (State.enumerateDone s r) := by
  unfold State.enumerateDone
  (repeat' split) <;> simp +contextual (maxDischargeDepth := 40) only [hc, State.finish_carries, Carries.ite,
      implies_true, Sparse.wf_nil, eq_self]

@[simp] theorem State.complete_carries {s0 s : State} (hc : Carries s0 s) (r : Running) (c : Completion) : Carries s0
      (State.complete s r c) := by
  unfold State.complete
  dsimp only
  (repeat' split) <;> simp +contextual (maxDischargeDepth := 40) only [hc, State.finish_carries,
      State.queueAccess_carries, State.queueWriteEnds_carries, State.swapPrepared_carries, State.lifecycleDone_carries,
      State.firmwareWritten_carries, State.bistDone_carries, State.camSupplyDone_carries, State.finishStored_carries,
      State.enumerateDone_carries, Carries.ite, Carries.record, Nat.le_refl, Nat.le_add_right, imp_self, implies_true,
      Sparse.wf_nil, eq_self]

@[simp] theorem State.tickSync_carries {s0 s : State} (hc : Carries s0 s) (p : Nat) : Carries s0 (State.tickSync s p) := by
  unfold State.tickSync
  (repeat' split) <;> simp +contextual (maxDischargeDepth := 40) only [hc, State.endSync_carries, Carries.ite,
      implies_true, Sparse.wf_nil, eq_self]

@[simp] theorem State.tick_carries {s0 s : State} (hc : Carries s0 s) : Carries s0 (State.tick s) := by
  unfold State.tick
  dsimp only
  (repeat' split) <;> simp +contextual (maxDischargeDepth := 40) only [hc, State.ptpKick_carries,
      State.trainKick_carries, State.storeCommitEnds_carries, State.storeReload_carries, State.tickSync_carries,
      forEach_carries, Carries.ite, Carries.record, Nat.le_refl, Nat.le_add_right, imp_self, implies_true, Sparse.wf_nil,
      eq_self]

end Sys2Proof.Machine
end

