-- ==== Sys2Proof/Laws/CarryRows.lean ====
section
/-!
SUPPORT. What the shared shapes of a command's meaning carry over: an event of a unit, a command of the set, a received flit, a
PTP message and an operation on a synchronisation object.
-/

namespace Sys2Proof.Machine

/-- Every next state an outcome holds carries `s`. -/
def CarriesTo (s : State) (o : Host.Outcome State Fault Refusal) : Prop := ∀ t, o = .next t → Carries s t

theorem CarriesTo.next {s t : State} (h : Carries s t) : CarriesTo s (.next t) := fun _ e =>
  Host.Outcome.next.inj e ▸ h

theorem CarriesTo.onUnit {s0 s t : State} {c : Bool} (hs : Carries s0 s) (h : Carries s0 t) :
    CarriesTo s0 (onUnit c s t) := by
  unfold Machine.onUnit
  exact CarriesTo.next (Carries.ite h hs)

theorem CarriesTo.onInstance {s0 s t : State} {c : Bool} (hs : Carries s0 s) (h : Carries s0 t) :
    CarriesTo s0 (onInstance c s t) := by
  unfold Machine.onInstance
  refine CarriesTo.next (Carries.ite h ?_)
  apply Carries.record hs (Nat.le_refl _) <;> with_reducible exact id

/-! ### Bodies of the command set -/

theorem withLength_carries {s0 s : State} (hc : Carries s0 s) {n : Nat} {body : Body} {r : Req}
    (hb : ∀ r t, Carries s0 t → Carries s0 (body r t).2) : Carries s0 (withLength n body r s).2 := by
  unfold withLength
  split
  · exact hb r s hc
  · exact hc

theorem listChecks_carries {s0 s : State} (hc : Carries s0 s) {size limit : Nat} {go : Nat → Body} {r : Req}
    (hb : ∀ n r t, Carries s0 t → Carries s0 (go n r t).2) : Carries s0 (listChecks size limit go r s).2 := by
  unfold listChecks
  dsimp only
  repeat' split
  · exact hc
  · exact hc
  · exact hb _ r s hc

/-! ### Rows of one shape -/

/-- The sender of the next flit spends a grant, and the flit leaves nothing else behind. -/
theorem State.nextFlit_to {s0 s t : State} {f : Flit} {node : Nat} {up : Bool} (hc : Carries s0 s)
    (e : s.nextFlit node up = some (f, t)) : Carries s0 t := by
  unfold State.nextFlit at e
  obtain ⟨x, -, e⟩ := Option.map_eq_some_iff.1 e
  exact (Prod.mk.inj e).2 ▸ State.countGrant_carries hc _ _ _ _

theorem soRow_carries {s0 s : State} (hc : Carries s0 s) (object op operand expected : Nat) :
    CarriesTo s0 (soRow object op operand expected s) := by
  unfold soRow
  refine CarriesTo.next (whenDue_carries hc ?_)
  have h := State.soOp_carries hc object op operand expected
  dsimp only
  generalize State.soOp _ _ _ _ _ = x at h ⊢
  obtain ⟨a, b, t⟩ := x
  dsimp only at h ⊢
  split
  · apply Carries.record h (Nat.le_refl _) <;> with_reducible exact id
  · apply Carries.record hc (Nat.le_refl _) <;> with_reducible exact id

theorem flitRow_carries {s0 s : State} (hc : Carries s0 s) (p : Nat) (f : SpokeFlit) (kind : Bool)
    {take : Message → State → State} (ht : ∀ m t, Carries s0 t → Carries s0 (take m t)) :
    CarriesTo s0 (flitRow p f kind take s) := by
  unfold flitRow
  refine CarriesTo.onUnit hc (whenDue_carries hc (State.pumpAll_carries ?_))
  have h := State.rx_carries hc p f
  split
  · exact ht _ _ h
  · exact h

theorem ptpMessage_carries {s0 s : State} (hc : Carries s0 s) (p : Nat) (m : PtpMsg) (lo hi : Int)
    {f : Nat → State → State} (hf : ∀ d t, Carries s0 t → Carries s0 (f d t)) :
    CarriesTo s0 (ptpMessage p m lo hi f s) := by
  unfold ptpMessage
  refine CarriesTo.onUnit hc ?_
  have h := State.framesRx_carries hc p
  split
  · exact hc
  · dsimp only
    split
    · exact State.ptpIgnore_carries h p
    · split
      · exact hf _ _ h
      · exact h

theorem enumRow_carries {s0 s : State} (hc : Carries s0 s) (sub port : Nat) (flit : SpokeFlit) :
    CarriesTo s0 (enumRow sub port flit s) := by
  unfold enumRow
  refine flitRow_carries hc _ _ _ fun m s hc => ?_
  dsimp only
  split
  · apply Carries.record hc (Nat.le_refl _) <;> with_reducible exact id
  · exact State.takeEnum_carries hc m

end Sys2Proof.Machine
end

