-- ==== Sys2Proof/Laws/CarryExecUnits.lean ====
section
/-!
SUPPORT. What each command of the units carries over.
-/

namespace Sys2Proof.Machine

theorem execSyncobjRead_carries {s0 s : State} (hc : Carries s0 s) (object : Nat) : CarriesTo s0 (execSyncobjRead object
      s) := by
  unfold execSyncobjRead
  exact soRow_carries hc _ _ _ _

theorem execSyncobjWrite_carries {s0 s : State} (hc : Carries s0 s) (object : Nat) (operand : Word) : CarriesTo s0
      (execSyncobjWrite object operand s) := by
  unfold execSyncobjWrite
  exact soRow_carries hc _ _ _ _

theorem execSyncobjAdd_carries {s0 s : State} (hc : Carries s0 s) (object : Nat) (operand : Word) : CarriesTo s0
      (execSyncobjAdd object operand s) := by
  unfold execSyncobjAdd
  exact soRow_carries hc _ _ _ _

theorem execSyncobjCas_carries {s0 s : State} (hc : Carries s0 s) (object : Nat) (new : Word) (expected : Word) :
      CarriesTo s0 (execSyncobjCas object new expected s) := by
  unfold execSyncobjCas
  exact soRow_carries hc _ _ _ _

theorem execSyncobjSet_carries {s0 s : State} (hc : Carries s0 s) (object : Nat) : CarriesTo s0 (execSyncobjSet object s) := by
  unfold execSyncobjSet
  exact soRow_carries hc _ _ _ _

theorem execSyncobjClear_carries {s0 s : State} (hc : Carries s0 s) (object : Nat) : CarriesTo s0 (execSyncobjClear
      object s) := by
  unfold execSyncobjClear
  exact soRow_carries hc _ _ _ _

theorem execSyncobjTestAndSet_carries {s0 s : State} (hc : Carries s0 s) (object : Nat) : CarriesTo s0
      (execSyncobjTestAndSet object s) := by
  unfold execSyncobjTestAndSet
  exact soRow_carries hc _ _ _ _

theorem execCheckvalRangeDone_carries {s0 s : State} (hc : Carries s0 s) (context : Nat) (errorAfter : Option Nat) :
      CarriesTo s0 (execCheckvalRangeDone context errorAfter s) := by
  unfold execCheckvalRangeDone
  dsimp only
  refine CarriesTo.onUnit hc ?_
  (repeat' with_reducible first
      | assumption
      | exact Carries.refl _
      | refine whenDue_carries ?_ ?_
      | dsimp only
      | refine State.cvFeed_carries ?_ _ _
      | refine State.onCv_carries ?_ _ _
      | refine State.bumpIf_carries ?_ _ _
      | refine State.flagIf_carries ?_ _ _ _
      | split
      | intro _
      | apply Carries.record)
  all_goals simp +contextual only [Nat.le_refl, Nat.le_add_right, imp_self, implies_true, Sparse.wf_nil, Sparse.set_wf,
      Sparse.modify_wf, Sparse.filter_wf, eq_self, *]

theorem execDomainSwitchDone_carries {s0 s : State} (hc : Carries s0 s) : CarriesTo s0 (execDomainSwitchDone s) := by
  unfold execDomainSwitchDone
  refine CarriesTo.next ?_
  (repeat' with_reducible first
      | assumption
      | exact Carries.refl _
      | refine whenDue_carries ?_ ?_
      | dsimp only
      | refine State.flag_carries ?_ _ _
      | split
      | intro _
      | apply Carries.record)
  all_goals simp +contextual only [Nat.le_refl, Nat.le_add_right, imp_self, implies_true, Sparse.wf_nil, Sparse.set_wf,
      Sparse.modify_wf, Sparse.filter_wf, eq_self, *]

theorem execPtpSyncRx_carries {s0 s : State} (hc : Carries s0 s) (port : Nat) (msg : PtpMsg) : CarriesTo s0
      (execPtpSyncRx port msg s) := by
  unfold execPtpSyncRx
  refine ptpMessage_carries hc _ _ _ _ fun x s hc => ?_
  try dsimp only
  (repeat' with_reducible first
      | assumption
      | exact Carries.refl _
      | dsimp only
      | refine State.syncPair_carries ?_ _ _ _ _
      | refine State.setDomain_carries ?_ _ _
      | split
      | intro _
      | apply Carries.record)
  all_goals simp +contextual only [Nat.le_refl, Nat.le_add_right, imp_self, implies_true, Sparse.wf_nil, Sparse.set_wf,
      Sparse.modify_wf, Sparse.filter_wf, eq_self, *]

theorem execPtpFollowUpRx_carries {s0 s : State} (hc : Carries s0 s) (port : Nat) (msg : PtpMsg) : CarriesTo s0
      (execPtpFollowUpRx port msg s) := by
  unfold execPtpFollowUpRx
  refine ptpMessage_carries hc _ _ _ _ fun x s hc => ?_
  try dsimp only
  (repeat' with_reducible first
      | assumption
      | exact Carries.refl _
      | dsimp only
      | refine State.syncPair_carries ?_ _ _ _ _
      | refine State.setDomain_carries ?_ _ _
      | split
      | intro _
      | apply Carries.record)
  all_goals simp +contextual only [Nat.le_refl, Nat.le_add_right, imp_self, implies_true, Sparse.wf_nil, Sparse.set_wf,
      Sparse.modify_wf, Sparse.filter_wf, eq_self, *]

theorem execPtpAnnounceRx_carries {s0 s : State} (hc : Carries s0 s) (port : Nat) (msg : PtpMsg) (data : PtpDataset) :
      CarriesTo s0 (execPtpAnnounceRx port msg data s) := by
  unfold execPtpAnnounceRx
  refine ptpMessage_carries hc _ _ _ _ fun x s hc => ?_
  try dsimp only
  (repeat' with_reducible first
      | assumption
      | exact Carries.refl _
      | dsimp only
      | refine State.setDomain_carries ?_ _ _
      | split
      | intro _
      | apply Carries.record)
  all_goals simp +contextual only [Nat.le_refl, Nat.le_add_right, imp_self, implies_true, Sparse.wf_nil, Sparse.set_wf,
      Sparse.modify_wf, Sparse.filter_wf, eq_self, *]

theorem execPtpDelayReqSend_carries {s0 s : State} (hc : Carries s0 s) (port : Nat) (domain : Nat) : CarriesTo s0
      (execPtpDelayReqSend port domain s) := by
  unfold execPtpDelayReqSend
  dsimp only
  refine CarriesTo.onUnit hc ?_
  (repeat' with_reducible first
      | assumption
      | exact Carries.refl _
      | refine whenDue_carries ?_ ?_
      | dsimp only
      | refine State.ptpSend_carries ?_ _
      | split
      | intro _
      | apply Carries.record)
  all_goals simp +contextual only [Nat.le_refl, Nat.le_add_right, imp_self, implies_true, Sparse.wf_nil, Sparse.set_wf,
      Sparse.modify_wf, Sparse.filter_wf, eq_self, *]

theorem execPtpDelayRespRx_carries {s0 s : State} (hc : Carries s0 s) (port : Nat) (msg : PtpMsg) : CarriesTo s0
      (execPtpDelayRespRx port msg s) := by
  unfold execPtpDelayRespRx
  refine ptpMessage_carries hc _ _ _ _ fun x s hc => ?_
  try dsimp only
  (repeat' with_reducible first
      | assumption
      | exact Carries.refl _
      | dsimp only
      | refine State.setDomain_carries ?_ _ _
      | split
      | intro _
      | apply Carries.record)
  all_goals simp +contextual only [Nat.le_refl, Nat.le_add_right, imp_self, implies_true, Sparse.wf_nil, Sparse.set_wf,
      Sparse.modify_wf, Sparse.filter_wf, eq_self, *]

theorem execPtpPdelayRespRx_carries {s0 s : State} (hc : Carries s0 s) (port : Nat) (part : PdelayPart) (msg : PtpMsg) :
      CarriesTo s0 (execPtpPdelayRespRx port part msg s) := by
  unfold execPtpPdelayRespRx
  refine ptpMessage_carries hc _ _ _ _ fun x s hc => ?_
  try dsimp only
  (repeat' with_reducible first
      | assumption
      | exact Carries.refl _
      | dsimp only
      | refine State.setLink_carries ?_ _ _
      | refine State.setDomain_carries ?_ _ _
      | split
      | intro _
      | apply Carries.record)
  all_goals simp +contextual only [Nat.le_refl, Nat.le_add_right, imp_self, implies_true, Sparse.wf_nil, Sparse.set_wf,
      Sparse.modify_wf, Sparse.filter_wf, eq_self, *]

theorem execPtpPdelayReqRx_carries {s0 s : State} (hc : Carries s0 s) (port : Nat) (msg : PtpMsg) : CarriesTo s0
      (execPtpPdelayReqRx port msg s) := by
  unfold execPtpPdelayReqRx
  dsimp only
  refine CarriesTo.onUnit hc ?_
  (repeat' with_reducible first
      | assumption
      | exact Carries.refl _
      | refine whenDue_carries ?_ ?_
      | dsimp only
      | refine State.ptpSend_carries ?_ _
      | refine State.framesRx_carries ?_ _
      | refine State.ptpIgnore_carries ?_ _
      | split
      | intro _)

theorem execPtpMessageIgnored_carries {s0 s : State} (hc : Carries s0 s) (port : Nat) : CarriesTo s0
      (execPtpMessageIgnored port s) := by
  unfold execPtpMessageIgnored
  refine CarriesTo.onUnit hc ?_
  (repeat' with_reducible first
      | assumption
      | exact Carries.refl _
      | refine whenDue_carries ?_ ?_
      | dsimp only
      | refine State.framesRx_carries ?_ _
      | refine State.ptpIgnore_carries ?_ _
      | split
      | intro _)

theorem execPtpReceiptTimeout_carries {s0 s : State} (hc : Carries s0 s) (domain : Nat) (announce : Bool) : CarriesTo s0
      (execPtpReceiptTimeout domain announce s) := by
  unfold execPtpReceiptTimeout
  refine CarriesTo.onUnit hc ?_
  (repeat' with_reducible first
      | assumption
      | exact Carries.refl _
      | refine whenDue_carries ?_ ?_
      | dsimp only
      | refine State.loseMaster_carries ?_ _
      | split
      | intro _)

theorem execPpsPulse_carries {s0 s : State} (hc : Carries s0 s) : CarriesTo s0 (execPpsPulse s) := by
  unfold execPpsPulse
  refine CarriesTo.next ?_
  (repeat' with_reducible first
      | assumption
      | exact Carries.refl _
      | refine whenDue_carries ?_ ?_
      | dsimp only
      | split
      | intro _
      | apply Carries.record)
  all_goals simp +contextual only [Nat.le_refl, Nat.le_add_right, imp_self, implies_true, Sparse.wf_nil, Sparse.set_wf,
      Sparse.modify_wf, Sparse.filter_wf, eq_self, *]

theorem execTcuCapture_carries {s0 s : State} (hc : Carries s0 s) (unit : Nat) (edge : PinEdge) : CarriesTo s0
      (execTcuCapture unit edge s) := by
  unfold execTcuCapture
  refine CarriesTo.onUnit hc ?_
  (repeat' with_reducible first
      | assumption
      | exact Carries.refl _
      | refine whenDue_carries ?_ ?_
      | dsimp only
      | refine State.capture_carries ?_ _ _
      | split
      | intro _)

theorem execEncoderCountEdge_carries {s0 s : State} (hc : Carries s0 s) (levels : Bool × Bool) (stable : Nat) : CarriesTo
      s0 (execEncoderCountEdge levels stable s) := by
  unfold execEncoderCountEdge
  refine CarriesTo.next ?_
  (repeat' with_reducible first
      | assumption
      | exact Carries.refl _
      | refine whenDue_carries ?_ ?_
      | dsimp only
      | refine encoderEdge_carries ?_ _ _
      | split
      | intro _)

theorem execEncZEdge_carries {s0 s : State} (hc : Carries s0 s) : CarriesTo s0 (execEncZEdge s) := by
  unfold execEncZEdge
  dsimp only
  refine CarriesTo.next ?_
  (repeat' with_reducible first
      | assumption
      | exact Carries.refl _
      | refine whenDue_carries ?_ ?_
      | dsimp only
      | refine State.captureZ_carries ?_
      | refine State.captureEdge_carries ?_ _ _
      | split
      | intro _
      | apply Carries.record)
  all_goals simp +contextual only [Nat.le_refl, Nat.le_add_right, imp_self, implies_true, Sparse.wf_nil, Sparse.set_wf,
      Sparse.modify_wf, Sparse.filter_wf, eq_self, *]

theorem execLineFault_carries {s0 s : State} (hc : Carries s0 s) : CarriesTo s0 (execLineFault s) := by
  unfold execLineFault
  have h := State.flag_carries hc (posId 0x0F) 8
  have k := State.posNow_carries h
  split
  · exact CarriesTo.next hc
  · dsimp only
    generalize s.flag (posId 0x0F) 8 = u at h k ⊢
    split
    · exact CarriesTo.next h
    · split
      · generalize u.posNow = x at k ⊢
        refine CarriesTo.next (State.setFld_carries ?_ _ _ _ _)
        apply Carries.record k (Nat.le_refl _) <;> with_reducible exact id
      · refine CarriesTo.next ?_
        apply Carries.record h (Nat.le_refl _) <;> with_reducible exact id

theorem execSynthCountEdge_carries {s0 s : State} (hc : Carries s0 s) : CarriesTo s0 (execSynthCountEdge s) := by
  unfold execSynthCountEdge
  refine CarriesTo.next ?_
  (repeat' with_reducible first
      | assumption
      | exact Carries.refl _
      | refine whenDue_carries ?_ ?_
      | dsimp only
      | refine State.countEdge_carries ?_ _
      | split
      | intro _)

theorem execSpeedWindowAge_carries {s0 s : State} (hc : Carries s0 s) : CarriesTo s0 (execSpeedWindowAge s) := by
  unfold execSpeedWindowAge
  refine CarriesTo.next ?_
  (repeat' with_reducible first
      | assumption
      | exact Carries.refl _
      | refine whenDue_carries ?_ ?_
      | dsimp only
      | refine State.updateSpeed_carries ?_
      | split
      | intro _)

theorem execBackstopClose_carries {s0 s : State} (hc : Carries s0 s) : CarriesTo s0 (execBackstopClose s) := by
  unfold execBackstopClose
  refine CarriesTo.next ?_
  (repeat' with_reducible first
      | assumption
      | exact Carries.refl _
      | refine whenDue_carries ?_ ?_
      | dsimp only
      | refine State.closeFabric_carries ?_ _ _
      | refine State.haloShed_carries ?_
      | refine State.bump_carries ?_ _ _
      | refine State.flag_carries ?_ _ _
      | split
      | intro _)

theorem execReplayPaceTimer_carries {s0 s : State} (hc : Carries s0 s) : CarriesTo s0 (execReplayPaceTimer s) := by
  unfold execReplayPaceTimer
  refine CarriesTo.next ?_
  (repeat' with_reducible first
      | assumption
      | exact Carries.refl _
      | refine whenDue_carries ?_ ?_
      | dsimp only
      | refine State.closeStep_carries ?_
      | split
      | intro _)

theorem execFabricStepStart_carries {s0 s : State} (hc : Carries s0 s) : CarriesTo s0 (execFabricStepStart s) := by
  unfold execFabricStepStart
  refine CarriesTo.next ?_
  (repeat' with_reducible first
      | assumption
      | exact Carries.refl _
      | refine whenDue_carries ?_ ?_
      | dsimp only
      | refine startStep_carries ?_
      | split
      | intro _)

theorem execBlockInputComplete_carries {s0 s : State} (hc : Carries s0 s) (region : Nat) (block : Nat) : CarriesTo s0
      (execBlockInputComplete region block s) := by
  unfold execBlockInputComplete
  dsimp only
  refine CarriesTo.onUnit hc ?_
  (repeat' with_reducible first
      | assumption
      | exact Carries.refl _
      | refine whenDue_carries ?_ ?_
      | dsimp only
      | refine State.evalBlock_carries ?_ _ _
      | split
      | intro _)

theorem execAsyncSynapticUpdate_carries {s0 s : State} (hc : Carries s0 s) (region : Nat) (block : Nat) (index : Nat) :
      CarriesTo s0 (execAsyncSynapticUpdate region block index s) := by
  unfold execAsyncSynapticUpdate
  dsimp only
  refine CarriesTo.onUnit hc ?_
  (repeat' with_reducible first
      | assumption
      | exact Carries.refl _
      | refine whenDue_carries ?_ ?_
      | dsimp only
      | refine State.evalNeuron_carries ?_ _ _ _ _ _
      | refine State.sleepIdle_carries ?_ _
      | refine State.onBlock_carries ?_ _ _
      | split
      | intro _
      | apply Carries.record)
  all_goals simp +contextual only [Nat.le_refl, Nat.le_add_right, imp_self, implies_true, Sparse.wf_nil, Sparse.set_wf,
      Sparse.modify_wf, Sparse.filter_wf, eq_self, *]

theorem execStateWordRepair_carries {s0 s : State} (hc : Carries s0 s) (region : Nat) (block : Nat) (synapse : Bool)
      (index : Nat) : CarriesTo s0 (execStateWordRepair region block synapse index s) := by
  unfold execStateWordRepair
  dsimp only
  refine CarriesTo.onUnit hc ?_
  (repeat' with_reducible first
      | assumption
      | exact Carries.refl _
      | refine whenDue_carries ?_ ?_
      | dsimp only
      | refine State.refract_carries ?_ _ _ _ _
      | refine State.refract_to ?_ _ _ _ _ (by assumption)
      | refine State.onBlock_carries ?_ _ _
      | split
      | intro _
      | apply Carries.record)
  all_goals simp +contextual only [Nat.le_refl, Nat.le_add_right, imp_self, implies_true, Sparse.wf_nil, Sparse.set_wf,
      Sparse.modify_wf, Sparse.filter_wf, eq_self, *]

theorem execFlitEventsRx_carries {s0 s : State} (hc : Carries s0 s) (node : Nat) (up : Bool) (header : EccCheck)
    (words : List EccCheck) : CarriesTo s0 (execFlitEventsRx node up header words s) := by
  unfold execFlitEventsRx
  refine CarriesTo.onUnit hc ?_
  split
  · rename_i f t e
    have k := State.flitCorr_carries (State.nextFlit_to hc e) node (header :: words)
    have q := State.takeFlit_carries k f
    split
    · dsimp only
      split
      · exact State.flitLost_carries q _ _ _ _
      · split
        · exact State.passFlit_carries k _ _
        · split
          · exact forEach_carries (fun s h hs => State.holdEvent_carries hs _ h) _ q
          · exact q
    · exact hc
  · exact hc

theorem execFlitCloseRx_carries {s0 s : State} (hc : Carries s0 s) (node : Nat) (up : Bool) (header : EccCheck)
    (words : List EccCheck) : CarriesTo s0 (execFlitCloseRx node up header words s) := by
  unfold execFlitCloseRx
  refine CarriesTo.onUnit hc ?_
  split
  · rename_i f t e
    have k := State.flitUe_carries (State.flitCorr_carries (State.nextFlit_to hc e) node (header :: words)) node (header :: words)
    have q := State.takeFlit_carries k f
    split
    · dsimp only
      split
      · exact State.copiesLost_carries k _ _
      · split
        · exact State.passFlit_carries k _ _
        · split
          · exact State.takeClose_carries q _ _ _ _
          · exact q
    · exact hc
  · exact hc

theorem execFlitStepEndRx_carries {s0 s : State} (hc : Carries s0 s) (node : Nat) (up : Bool)
    (first second behind : List EccCheck) : CarriesTo s0 (execFlitStepEndRx node up first second behind s) := by
  unfold execFlitStepEndRx
  refine CarriesTo.onUnit hc ?_
  split
  · rename_i f t e
    have k := State.flitUe_carries (State.flitCorr_carries (State.nextFlit_to hc e) node (first ++ second ++ behind)) node (first ++ second ++ behind)
    have q := State.takeFlit_carries k f
    split
    · dsimp only
      split
      · exact State.copiesLost_carries k _ _
      · split
        · exact State.passFlit_carries k _ _
        · split
          · exact State.takeStepEnd_carries q _ _ _
          · exact q
    · exact hc
  · exact hc

theorem execFlitControlRx_carries {s0 s : State} (hc : Carries s0 s) (hop : Nat × Bool) (ecc : List EccCheck)
    (own : Option Nat) : CarriesTo s0 (execFlitControlRx hop ecc own s) := by
  unfold execFlitControlRx
  refine CarriesTo.onUnit hc ?_
  split
  · split
    · rename_i f t e
      have k := State.nextFlit_to hc e
      split
      · exact State.takeControl_carries k _ _ _
      · exact hc
    · exact hc
  · dsimp only
    refine whenDue_carries hc ?_
    split
    · refine State.takeControl_carries (State.countGrant_carries ?_ _ _ _ _) _ _ _
      apply Carries.record hc (Nat.le_refl _) <;> with_reducible exact id
    · exact hc

theorem execSpillReadback_carries {s0 s : State} (hc : Carries s0 s) (region : Nat) : CarriesTo s0 (execSpillReadback
      region s) := by
  unfold execSpillReadback
  dsimp only
  refine CarriesTo.onUnit hc ?_
  (repeat' with_reducible first
      | assumption
      | exact Carries.refl _
      | refine whenDue_carries ?_ ?_
      | dsimp only
      | refine State.releaseNode_carries ?_ _
      | refine State.forward_carries ?_ _ _
      | refine State.deliver_carries ?_ _ _
      | refine State.onNode_carries ?_ _ _
      | refine forEach_carries (fun _ _ _ => ?_) _ ?_
      | refine foldl_carries (fun _ _ _ => ?_) _ ?_
      | refine foldl_carries_snd (fun _ _ _ => ?_) _ ?_
      | refine foldl_carries_fst (fun _ _ _ => ?_) _ ?_
      | split
      | intro _
      | apply Carries.record)
  all_goals simp +contextual only [Nat.le_refl, Nat.le_add_right, imp_self, implies_true, Sparse.wf_nil, Sparse.set_wf,
      Sparse.modify_wf, Sparse.filter_wf, eq_self, *]

theorem execFrameBuild_carries {s0 s : State} (hc : Carries s0 s) (group : Nat) : CarriesTo s0 (execFrameBuild group s) := by
  unfold execFrameBuild
  refine CarriesTo.onUnit hc ?_
  (repeat' with_reducible first
      | assumption
      | exact Carries.refl _
      | refine whenDue_carries ?_ ?_
      | dsimp only
      | refine State.buildFrame_carries ?_ _
      | split
      | intro _)

theorem execPairWaitEnd_carries {s0 s : State} (hc : Carries s0 s) (object : Word) : CarriesTo s0 (execPairWaitEnd object
      s) := by
  unfold execPairWaitEnd
  refine CarriesTo.next ?_
  (repeat' with_reducible first
      | assumption
      | exact Carries.refl _
      | refine whenDue_carries ?_ ?_
      | dsimp only
      | refine State.endWait_carries ?_ _
      | split
      | intro _
      | apply Carries.record)
  all_goals simp +contextual only [Nat.le_refl, Nat.le_add_right, imp_self, implies_true, Sparse.wf_nil, Sparse.set_wf,
      Sparse.modify_wf, Sparse.filter_wf, eq_self, *]

theorem execVerdictDeadline_carries {s0 s : State} (hc : Carries s0 s) (object : Word) : CarriesTo s0
      (execVerdictDeadline object s) := by
  unfold execVerdictDeadline
  refine CarriesTo.next ?_
  (repeat' with_reducible first
      | assumption
      | exact Carries.refl _
      | refine whenDue_carries ?_ ?_
      | dsimp only
      | refine State.lateDefault_carries ?_ _
      | refine State.formVote_carries ?_ _ _
      | split
      | intro _
      | apply Carries.record)
  all_goals simp +contextual only [Nat.le_refl, Nat.le_add_right, imp_self, implies_true, Sparse.wf_nil, Sparse.set_wf,
      Sparse.modify_wf, Sparse.filter_wf, eq_self, *]

theorem execFrameLaunch_carries {s0 s : State} (hc : Carries s0 s) (port : Nat) : CarriesTo s0 (execFrameLaunch port s) := by
  unfold execFrameLaunch
  dsimp only
  refine CarriesTo.onUnit hc ?_
  (repeat' with_reducible first
      | assumption
      | exact Carries.refl _
      | refine whenDue_carries ?_ ?_
      | dsimp only
      | refine State.startFrame_carries ?_ _ _ _
      | refine State.refillQueue_carries ?_ _
      | refine State.setLaunchQ_carries ?_ _ _
      | refine State.bump_carries ?_ _ _
      | split
      | intro _
      | apply Carries.record)
  all_goals simp +contextual only [Nat.le_refl, Nat.le_add_right, imp_self, implies_true, Sparse.wf_nil, Sparse.set_wf,
      Sparse.modify_wf, Sparse.filter_wf, eq_self, *]

theorem execTrackerStepProcess_carries {s0 s : State} (hc : Carries s0 s) (region : Nat) : CarriesTo s0
      (execTrackerStepProcess region s) := by
  unfold execTrackerStepProcess
  dsimp only
  refine CarriesTo.onUnit hc ?_
  (repeat' with_reducible first
      | assumption
      | exact Carries.refl _
      | refine whenDue_carries ?_ ?_
      | dsimp only
      | refine State.trackerFeeds_carries ?_ _
      | refine State.trackStep_carries ?_ _ _ _
      | refine State.onTracker_carries ?_ _ _
      | split
      | intro _
      | apply Carries.record)
  all_goals simp +contextual only [Nat.le_refl, Nat.le_add_right, imp_self, implies_true, Sparse.wf_nil, Sparse.set_wf,
      Sparse.modify_wf, Sparse.filter_wf, eq_self, *]

theorem execMirrorCopy_carries {s0 s : State} (hc : Carries s0 s) (region : Nat) (late : Bool) :
    CarriesTo s0 (execMirrorCopy region late s) := by
  unfold execMirrorCopy
  refine CarriesTo.onUnit hc (whenDue_carries hc (State.flagIf_carries ?_ _ _ _))
  apply Carries.record hc (Nat.le_refl _) <;> first
    | with_reducible exact id
    | (intro c; dsimp only; refine Sparse.foldl_wf _ (fun _ _ h => ?_) _ c; exact Sparse.set_wf _ _ h)

theorem execRefineApply_carries {s0 s : State} (hc : Carries s0 s) (unfinished : BitVec 4) : CarriesTo s0
      (execRefineApply unfinished s) := by
  unfold execRefineApply
  dsimp only
  refine CarriesTo.next ?_
  (repeat' with_reducible first
      | assumption
      | exact Carries.refl _
      | refine whenDue_carries ?_ ?_
      | dsimp only
      | refine State.refinePort_carries ?_ _ _
      | refine forEach_carries (fun _ _ _ => ?_) _ ?_
      | split
      | intro _
      | apply Carries.record)
  all_goals simp +contextual only [Nat.le_refl, Nat.le_add_right, imp_self, implies_true, Sparse.wf_nil, Sparse.set_wf,
      Sparse.modify_wf, Sparse.filter_wf, eq_self, *]

theorem execFusionVote_carries {s0 s : State} (hc : Carries s0 s) (region : Nat) (object : Word) : CarriesTo s0
      (execFusionVote region object s) := by
  unfold execFusionVote
  dsimp only
  refine CarriesTo.onUnit hc ?_
  (repeat' with_reducible first
      | assumption
      | exact Carries.refl _
      | refine whenDue_carries ?_ ?_
      | dsimp only
      | refine State.dropScored_carries ?_ _ _
      | refine State.judgeSensors_carries ?_ _ _ _ _ _
      | refine State.takeVote_carries ?_ _ _ _ _ _ _ _
      | refine State.takeFree_carries ?_
      | refine State.takeFree_to ?_ (by assumption)
      | refine State.bumpIf_carries ?_ _ _
      | refine State.bump_carries ?_ _ _
      | split
      | intro _
      | apply Carries.record)
  all_goals simp +contextual only [Nat.le_refl, Nat.le_add_right, imp_self, implies_true, Sparse.wf_nil, Sparse.set_wf,
      Sparse.modify_wf, Sparse.filter_wf, eq_self, *]

theorem execTileBuildStart_carries {s0 s : State} (hc : Carries s0 s) (region : Nat) : CarriesTo s0 (execTileBuildStart
      region s) := by
  unfold execTileBuildStart
  dsimp only
  refine CarriesTo.onUnit hc ?_
  (repeat' with_reducible first
      | assumption
      | exact Carries.refl _
      | refine whenDue_carries ?_ ?_
      | dsimp only
      | refine State.startTile_carries ?_ _ _ _ _
      | refine State.onDense_carries ?_ _ _
      | refine State.takeFree_carries ?_
      | refine State.takeFree_to ?_ (by assumption)
      | split
      | intro _
      | apply Carries.record)
  all_goals simp +contextual only [Nat.le_refl, Nat.le_add_right, imp_self, implies_true, Sparse.wf_nil, Sparse.set_wf,
      Sparse.modify_wf, Sparse.filter_wf, eq_self, *]

theorem execTileReady_carries {s0 s : State} (hc : Carries s0 s) (region : Nat) (tile : Nat) : CarriesTo s0
      (execTileReady region tile s) := by
  unfold execTileReady
  dsimp only
  refine CarriesTo.onUnit hc ?_
  (repeat' with_reducible first
      | assumption
      | exact Carries.refl _
      | refine whenDue_carries ?_ ?_
      | dsimp only
      | refine State.kickEdge_carries ?_ _
      | refine State.onDense_carries ?_ _ _
      | refine State.sample_carries ?_ _ _ _
      | refine State.bump_carries ?_ _ _
      | split
      | intro _
      | apply Carries.record)
  all_goals simp +contextual only [Nat.le_refl, Nat.le_add_right, imp_self, implies_true, Sparse.wf_nil, Sparse.set_wf,
      Sparse.modify_wf, Sparse.filter_wf, eq_self, *]

theorem execTileUe_carries {s0 s : State} (hc : Carries s0 s) (region : Nat) (tile : Nat) : CarriesTo s0 (execTileUe
      region tile s) := by
  unfold execTileUe
  dsimp only
  refine CarriesTo.onUnit hc ?_
  (repeat' with_reducible first
      | assumption
      | exact Carries.refl _
      | refine whenDue_carries ?_ ?_
      | dsimp only
      | refine State.kickEdge_carries ?_ _
      | refine State.onSlot_carries ?_ _ _ _
      | refine State.onDense_carries ?_ _ _
      | refine State.report_carries ?_ _ _ _ _
      | refine State.countUe_carries ?_ _
      | refine State.bump_carries ?_ _ _
      | refine State.flag_carries ?_ _ _
      | split
      | intro _
      | apply Carries.record)
  all_goals simp +contextual only [Nat.le_refl, Nat.le_add_right, imp_self, implies_true, Sparse.wf_nil, Sparse.set_wf,
      Sparse.modify_wf, Sparse.filter_wf, eq_self, *]

theorem execQuernModeSwitch_carries {s0 s : State} (hc : Carries s0 s) (region : Nat) (mode : Nat) : CarriesTo s0
      (execQuernModeSwitch region mode s) := by
  unfold execQuernModeSwitch
  refine CarriesTo.onUnit hc ?_
  (repeat' with_reducible first
      | assumption
      | exact Carries.refl _
      | refine whenDue_carries ?_ ?_
      | dsimp only
      | refine State.onDense_carries ?_ _ _
      | refine State.bump_carries ?_ _ _
      | split
      | intro _
      | apply Carries.record)
  all_goals simp +contextual only [Nat.le_refl, Nat.le_add_right, imp_self, implies_true, Sparse.wf_nil, Sparse.set_wf,
      Sparse.modify_wf, Sparse.filter_wf, eq_self, *]

theorem execStripeStart_carries {s0 s : State} (hc : Carries s0 s) (region : Nat) (sub : Nat) : CarriesTo s0
      (execStripeStart region sub s) := by
  unfold execStripeStart
  dsimp only
  refine CarriesTo.onUnit hc ?_
  (repeat' with_reducible first
      | assumption
      | exact Carries.refl _
      | refine whenDue_carries ?_ ?_
      | dsimp only
      | refine State.onDense_carries ?_ _ _
      | split
      | intro _
      | apply Carries.record)
  all_goals simp +contextual only [Nat.le_refl, Nat.le_add_right, imp_self, implies_true, Sparse.wf_nil, Sparse.set_wf,
      Sparse.modify_wf, Sparse.filter_wf, eq_self, *]

theorem execStripeDone_carries {s0 s : State} (hc : Carries s0 s) (region : Nat) (sub : Nat) : CarriesTo s0
      (execStripeDone region sub s) := by
  unfold execStripeDone
  dsimp only
  refine CarriesTo.onUnit hc ?_
  (repeat' with_reducible first
      | assumption
      | exact Carries.refl _
      | refine whenDue_carries ?_ ?_
      | dsimp only
      | refine State.jobDone_carries ?_ _ _ _
      | refine State.countConv_carries ?_ _ _ _
      | refine State.onDense_carries ?_ _ _
      | refine State.takeFree_carries ?_
      | refine State.takeFree_to ?_ (by assumption)
      | refine State.bump_carries ?_ _ _
      | split
      | intro _
      | apply Carries.record)
  all_goals simp +contextual only [Nat.le_refl, Nat.le_add_right, imp_self, implies_true, Sparse.wf_nil, Sparse.set_wf,
      Sparse.modify_wf, Sparse.filter_wf, eq_self, *]

theorem execStripeAbort_carries {s0 s : State} (hc : Carries s0 s) (region : Nat) (sub : Nat) (planeBad : Bool) :
      CarriesTo s0 (execStripeAbort region sub planeBad s) := by
  unfold execStripeAbort
  dsimp only
  refine CarriesTo.onUnit hc ?_
  (repeat' with_reducible first
      | assumption
      | exact Carries.refl _
      | refine whenDue_carries ?_ ?_
      | dsimp only
      | refine State.kickEdge_carries ?_ _
      | refine State.onDense_carries ?_ _ _
      | refine State.report_carries ?_ _ _ _ _
      | refine State.countUe_carries ?_ _
      | refine State.bump_carries ?_ _ _
      | split
      | intro _
      | apply Carries.record)
  all_goals simp +contextual only [Nat.le_refl, Nat.le_add_right, imp_self, implies_true, Sparse.wf_nil, Sparse.set_wf,
      Sparse.modify_wf, Sparse.filter_wf, eq_self, *]

theorem execEdgeLayerGroupDone_carries {s0 s : State} (hc : Carries s0 s) (region : Nat) : CarriesTo s0
      (execEdgeLayerGroupDone region s) := by
  unfold execEdgeLayerGroupDone
  refine CarriesTo.onUnit hc ?_
  (repeat' with_reducible first
      | assumption
      | exact Carries.refl _
      | refine whenDue_carries ?_ ?_
      | dsimp only
      | refine State.edgeDone_carries ?_ _ _
      | refine State.kickEdge_carries ?_ _
      | refine State.onDense_carries ?_ _ _
      | split
      | intro _
      | apply Carries.record)
  all_goals simp +contextual only [Nat.le_refl, Nat.le_add_right, imp_self, implies_true, Sparse.wf_nil, Sparse.set_wf,
      Sparse.modify_wf, Sparse.filter_wf, eq_self, *]

theorem execFcBatchStream_carries {s0 s : State} (hc : Carries s0 s) (region : Nat) : CarriesTo s0 (execFcBatchStream
      region s) := by
  unfold execFcBatchStream
  dsimp only
  refine CarriesTo.onUnit hc ?_
  (repeat' with_reducible first
      | assumption
      | exact Carries.refl _
      | refine whenDue_carries ?_ ?_
      | dsimp only
      | refine State.edgeDone_carries ?_ _ _
      | refine State.kickEdge_carries ?_ _
      | refine State.onDense_carries ?_ _ _
      | refine State.bump_carries ?_ _ _
      | refine forEach_carries (fun _ _ _ => ?_) _ ?_
      | refine foldl_carries (fun _ _ _ => ?_) _ ?_
      | refine foldl_carries_snd (fun _ _ _ => ?_) _ ?_
      | refine foldl_carries_fst (fun _ _ _ => ?_) _ ?_
      | split
      | intro _
      | apply Carries.record)
  all_goals simp +contextual only [Nat.le_refl, Nat.le_add_right, imp_self, implies_true, Sparse.wf_nil, Sparse.set_wf,
      Sparse.modify_wf, Sparse.filter_wf, eq_self, *]

theorem execQueueHwWrite_carries {s0 s : State} (hc : Carries s0 s) (queue : Nat) (producer : Producer) (words : List
      (BitVec 64)) (eop : Bool) (pointers : PtrCheck) : CarriesTo s0 (execQueueHwWrite queue producer words eop pointers
      s) := by
  unfold execQueueHwWrite
  dsimp only
  refine CarriesTo.onUnit hc ?_
  (repeat' with_reducible first
      | assumption
      | exact Carries.refl _
      | refine whenDue_carries ?_ ?_
      | dsimp only
      | refine State.countDiscard_carries ?_ _ _
      | refine State.queueAccess_carries ?_ _ _
      | refine State.pushWords_carries ?_ _ _ _
      | split
      | intro _)

theorem execPostClassify_carries {s0 s : State} (hc : Carries s0 s) (region : Nat) (object : Word) : CarriesTo s0
      (execPostClassify region object s) := by
  unfold execPostClassify
  dsimp only
  refine CarriesTo.onUnit hc ?_
  (repeat' with_reducible first
      | assumption
      | exact Carries.refl _
      | refine whenDue_carries ?_ ?_
      | dsimp only
      | refine State.onDense_carries ?_ _ _
      | refine State.bumpIf_carries ?_ _ _
      | split
      | intro _
      | apply Carries.record)
  all_goals simp +contextual only [Nat.le_refl, Nat.le_add_right, imp_self, implies_true, Sparse.wf_nil, Sparse.set_wf,
      Sparse.modify_wf, Sparse.filter_wf, eq_self, *]

theorem execBoxRequest_carries {s0 s : State} (hc : Carries s0 s) (region : Nat) (object : Word) : CarriesTo s0
      (execBoxRequest region object s) := by
  unfold execBoxRequest
  dsimp only
  refine CarriesTo.onUnit hc ?_
  (repeat' with_reducible first
      | assumption
      | exact Carries.refl _
      | refine whenDue_carries ?_ ?_
      | dsimp only
      | refine State.onDense_carries ?_ _ _
      | split
      | intro _
      | apply Carries.record)
  all_goals simp +contextual only [Nat.le_refl, Nat.le_add_right, imp_self, implies_true, Sparse.wf_nil, Sparse.set_wf,
      Sparse.modify_wf, Sparse.filter_wf, eq_self, *]

theorem execBoxDecodeDone_carries {s0 s : State} (hc : Carries s0 s) (box : BoxDone) : CarriesTo s0
      (execBoxDecodeDone box s) := by
  unfold execBoxDecodeDone
  dsimp only
  refine CarriesTo.onUnit hc ?_
  (repeat' with_reducible first
      | assumption
      | exact Carries.refl _
      | refine whenDue_carries ?_ ?_
      | dsimp only
      | refine State.writeBoxes_carries ?_ _ _ _
      | refine State.onDense_carries ?_ _ _
      | refine State.takeFree_carries ?_
      | refine State.takeFree_to ?_ (by assumption)
      | refine State.bump_carries ?_ _ _
      | split
      | intro _
      | apply Carries.record)
  all_goals simp +contextual only [Nat.le_refl, Nat.le_add_right, imp_self, implies_true, Sparse.wf_nil, Sparse.set_wf,
      Sparse.modify_wf, Sparse.filter_wf, eq_self, *]

theorem execDecoderRecordRelease_carries {s0 s : State} (hc : Carries s0 s) (region : Nat) : CarriesTo s0
      (execDecoderRecordRelease region s) := by
  unfold execDecoderRecordRelease
  refine CarriesTo.onUnit hc ?_
  (repeat' with_reducible first
      | assumption
      | exact Carries.refl _
      | refine whenDue_carries ?_ ?_
      | dsimp only
      | refine State.consumeRec_carries ?_ _ _
      | refine State.onConv_carries ?_ _ _
      | split
      | intro _
      | apply Carries.record)
  all_goals simp +contextual only [Nat.le_refl, Nat.le_add_right, imp_self, implies_true, Sparse.wf_nil, Sparse.set_wf,
      Sparse.modify_wf, Sparse.filter_wf, eq_self, *]

theorem execAuxSampleOutput_carries {s0 s : State} (hc : Carries s0 s) (channel : Nat) (bits : List Bool) (rom : Option
      Nat) : CarriesTo s0 (execAuxSampleOutput channel bits rom s) := by
  unfold execAuxSampleOutput
  refine CarriesTo.onUnit hc ?_
  (repeat' with_reducible first
      | assumption
      | exact Carries.refl _
      | refine whenDue_carries ?_ ?_
      | dsimp only
      | refine State.romError_carries ?_ _ _
      | refine State.auxBits_carries ?_ _ _
      | split
      | intro _
      | apply Carries.record)
  all_goals simp +contextual only [Nat.le_refl, Nat.le_add_right, imp_self, implies_true, Sparse.wf_nil, Sparse.set_wf,
      Sparse.modify_wf, Sparse.filter_wf, eq_self, *]

theorem execAuxStuck_carries {s0 s : State} (hc : Carries s0 s) (channel : Nat) (bits : List Bool) : CarriesTo s0
      (execAuxStuck channel bits s) := by
  unfold execAuxStuck
  dsimp only
  refine CarriesTo.onUnit hc ?_
  (repeat' with_reducible first
      | assumption
      | exact Carries.refl _
      | refine whenDue_carries ?_ ?_
      | dsimp only
      | refine State.auxBits_carries ?_ _ _
      | split
      | intro _)

theorem execAuxStuckRecover_carries {s0 s : State} (hc : Carries s0 s) (channel : Nat) (bit : Bool) : CarriesTo s0
      (execAuxStuckRecover channel bit s) := by
  unfold execAuxStuckRecover
  refine CarriesTo.onUnit hc ?_
  (repeat' with_reducible first
      | assumption
      | exact Carries.refl _
      | refine whenDue_carries ?_ ?_
      | dsimp only
      | refine State.auxBits_carries ?_ _ _
      | split
      | intro _)

theorem execCsi2PacketRx_carries {s0 s : State} (hc : Carries s0 s) (port : Nat) (packet : CsiPacket) :
      CarriesTo s0 (execCsi2PacketRx port packet s) := by
  unfold execCsi2PacketRx
  dsimp only
  refine CarriesTo.onUnit hc ?_
  (repeat' with_reducible first
      | assumption
      | exact Carries.refl _
      | refine whenDue_carries ?_ ?_
      | dsimp only
      | refine State.csiPacket_carries ?_ _ _
      | refine State.relocked_carries ?_ _
      | refine State.onPort_carries ?_ _ _
      | split
      | intro _
      | apply Carries.record)
  all_goals simp +contextual only [Nat.le_refl, Nat.le_add_right, imp_self, implies_true, Sparse.wf_nil, Sparse.set_wf,
      Sparse.modify_wf, Sparse.filter_wf, eq_self, *]

theorem execRefractSweep_carries {s0 s : State} (hc : Carries s0 s) (port : Nat) (cell : Nat) : CarriesTo s0
      (execRefractSweep port cell s) := by
  unfold execRefractSweep
  dsimp only
  refine CarriesTo.onUnit hc ?_
  (repeat' with_reducible first
      | assumption
      | exact Carries.refl _
      | refine whenDue_carries ?_ ?_
      | dsimp only
      | refine State.refract_carries ?_ _ _ _ _
      | refine State.refract_to ?_ _ _ _ _ (by assumption)
      | refine State.onPort_carries ?_ _ _
      | split
      | intro _
      | apply Carries.record)
  all_goals simp +contextual only [Nat.le_refl, Nat.le_add_right, imp_self, implies_true, Sparse.wf_nil, Sparse.set_wf,
      Sparse.modify_wf, Sparse.filter_wf, eq_self, *]

theorem execCamSyncPulse_carries {s0 s : State} (hc : Carries s0 s) (port : Nat) : CarriesTo s0 (execCamSyncPulse port s) := by
  unfold execCamSyncPulse
  refine CarriesTo.onUnit hc ?_
  (repeat' with_reducible first
      | assumption
      | exact Carries.refl _
      | refine whenDue_carries ?_ ?_
      | dsimp only
      | refine State.captureEdge_carries ?_ _ _
      | refine State.onPort_carries ?_ _ _
      | split
      | intro _
      | apply Carries.record)
  all_goals simp +contextual only [Nat.le_refl, Nat.le_add_right, imp_self, implies_true, Sparse.wf_nil, Sparse.set_wf,
      Sparse.modify_wf, Sparse.filter_wf, eq_self, *]

theorem replayTaken_carries {s0 s : State} (k : Carries s0 s) (w : Nat) : Carries s0 (s.replayTaken w) := by
  unfold State.replayTaken
  split
  · split
    · exact State.replayMarker_carries k _
    · split
      · exact State.bump_carries k _ _
      · exact k
  · exact State.sluiceInput_carries k _

theorem replayMoved_carries {s0 s : State} (hc : Carries s0 s) : Carries s0 s.replayMoved := by
  unfold State.replayMoved
  apply Carries.record hc (Nat.le_refl _) <;> with_reducible exact id

theorem execReplayWord_carries {s0 s : State} (hc : Carries s0 s) : CarriesTo s0 (execReplayWord s) :=
  CarriesTo.next (whenDue_carries hc (replayTaken_carries (replayMoved_carries hc) _))

theorem execSpokeSignalDetect_carries {s0 s : State} (hc : Carries s0 s) (port : Nat) : CarriesTo s0
      (execSpokeSignalDetect port s) := by
  unfold execSpokeSignalDetect
  refine CarriesTo.onUnit hc ?_
  (repeat' with_reducible first
      | assumption
      | exact Carries.refl _
      | refine whenDue_carries ?_ ?_
      | dsimp only
      | refine State.startAttempt_carries ?_ _
      | refine State.setLink_carries ?_ _ _
      | split
      | intro _)

theorem execSpokeLockDone_carries {s0 s : State} (hc : Carries s0 s) (port : Nat) (inverted : BitVec 4) : CarriesTo s0
      (execSpokeLockDone port inverted s) := by
  unfold execSpokeLockDone
  refine CarriesTo.onUnit hc ?_
  (repeat' with_reducible first
      | assumption
      | exact Carries.refl _
      | refine whenDue_carries ?_ ?_
      | dsimp only
      | refine State.setLink_carries ?_ _ _
      | refine State.relocked_carries ?_ _
      | refine State.setFld_carries ?_ _ _ _ _
      | split
      | intro _)

theorem execSpokeAlignDone_carries {s0 s : State} (hc : Carries s0 s) (port : Nat) (lanes : List Nat) (skew : Nat) :
      CarriesTo s0 (execSpokeAlignDone port lanes skew s) := by
  unfold execSpokeAlignDone
  dsimp only
  refine CarriesTo.onUnit hc ?_
  (repeat' with_reducible first
      | assumption
      | exact Carries.refl _
      | refine whenDue_carries ?_ ?_
      | dsimp only
      | refine State.enterHold_carries ?_ _
      | refine State.trainNext_carries ?_
      | refine State.onSpk_carries ?_ _ _
      | refine State.bump_carries ?_ _ _
      | refine State.flagIf_carries ?_ _ _ _
      | refine State.setFld_carries ?_ _ _ _ _
      | split
      | intro _
      | apply Carries.record)
  all_goals simp +contextual only [Nat.le_refl, Nat.le_add_right, imp_self, implies_true, Sparse.wf_nil, Sparse.set_wf,
      Sparse.modify_wf, Sparse.filter_wf, eq_self, *]

theorem execSpokeTs2ExchangeDone_carries {s0 s : State} (hc : Carries s0 s) (port : Nat) (ts2 : Ts2) : CarriesTo s0
      (execSpokeTs2ExchangeDone port ts2 s) := by
  unfold execSpokeTs2ExchangeDone
  refine CarriesTo.onUnit hc ?_
  (repeat' with_reducible first
      | assumption
      | exact Carries.refl _
      | refine whenDue_carries ?_ ?_
      | dsimp only
      | refine State.linkUp_carries ?_ _ _
      | split
      | intro _)

theorem execSpokeTrainingTimeout_carries {s0 s : State} (hc : Carries s0 s) (port : Nat) : CarriesTo s0
      (execSpokeTrainingTimeout port s) := by
  unfold execSpokeTrainingTimeout
  refine CarriesTo.onUnit hc ?_
  (repeat' with_reducible first
      | assumption
      | exact Carries.refl _
      | refine whenDue_carries ?_ ?_
      | dsimp only
      | refine State.enterHold_carries ?_ _
      | refine State.trainNext_carries ?_
      | split
      | intro _)

theorem execSpokeHoldExpiry_carries {s0 s : State} (hc : Carries s0 s) (port : Nat) : CarriesTo s0 (execSpokeHoldExpiry
      port s) := by
  unfold execSpokeHoldExpiry
  refine CarriesTo.onUnit hc ?_
  (repeat' with_reducible first
      | assumption
      | exact Carries.refl _
      | refine whenDue_carries ?_ ?_
      | dsimp only
      | refine State.startAttempt_carries ?_ _
      | split
      | intro _)

theorem execSpokeLockLoss_carries {s0 s : State} (hc : Carries s0 s) (port : Nat) : CarriesTo s0 (execSpokeLockLoss port
      s) := by
  unfold execSpokeLockLoss
  refine CarriesTo.onUnit hc ?_
  (repeat' with_reducible first
      | assumption
      | exact Carries.refl _
      | refine whenDue_carries ?_ ?_
      | dsimp only
      | refine State.linkDown_carries ?_ _ _
      | split
      | intro _)

theorem execSpokeAckTimeout_carries {s0 s : State} (hc : Carries s0 s) (port : Nat) : CarriesTo s0 (execSpokeAckTimeout
      port s) := by
  unfold execSpokeAckTimeout
  refine CarriesTo.onUnit hc ?_
  (repeat' with_reducible first
      | assumption
      | exact Carries.refl _
      | refine whenDue_carries ?_ ?_
      | dsimp only
      | refine State.resend_carries ?_ _
      | split
      | intro _)

theorem execRetrainDrainDone_carries {s0 s : State} (hc : Carries s0 s) (port : Nat) : CarriesTo s0 (execRetrainDrainDone
      port s) := by
  unfold execRetrainDrainDone
  refine CarriesTo.onUnit hc ?_
  (repeat' with_reducible first
      | assumption
      | exact Carries.refl _
      | refine whenDue_carries ?_ ?_
      | dsimp only
      | refine State.linkDown_carries ?_ _ _
      | refine State.queueAttempt_carries ?_ _
      | refine State.onSpk_carries ?_ _ _
      | refine State.flag_carries ?_ _ _
      | split
      | intro _
      | apply Carries.record)
  all_goals simp +contextual only [Nat.le_refl, Nat.le_add_right, imp_self, implies_true, Sparse.wf_nil, Sparse.set_wf,
      Sparse.modify_wf, Sparse.filter_wf, eq_self, *]

theorem execLinkRx_carries {s0 s : State} (hc : Carries s0 s) (port : Nat) (flit : SpokeFlit) : CarriesTo s0 (execLinkRx
      port flit s) := by
  unfold execLinkRx
  refine flitRow_carries hc _ _ _ fun x s hc => ?_
  try dsimp only
  (repeat' with_reducible first
      | assumption
      | exact Carries.refl _
      | dsimp only
      | split
      | intro _)

theorem execSpokeFlitDiscard_carries {s0 s : State} (hc : Carries s0 s) (port : Nat) (flit : SpokeFlit) : CarriesTo s0
      (execSpokeFlitDiscard port flit s) := by
  unfold execSpokeFlitDiscard
  refine flitRow_carries hc _ _ _ fun x s hc => ?_
  try dsimp only
  (repeat' with_reducible first
      | assumption
      | exact Carries.refl _
      | dsimp only
      | split
      | intro _)

theorem execHeartbeatSend_carries {s0 s : State} (hc : Carries s0 s) (port : Nat) : CarriesTo s0 (execHeartbeatSend port
      s) := by
  unfold execHeartbeatSend
  dsimp only
  refine CarriesTo.onUnit hc ?_
  (repeat' with_reducible first
      | assumption
      | exact Carries.refl _
      | refine whenDue_carries ?_ ?_
      | dsimp only
      | refine State.sendPlain_carries ?_ _ _
      | refine State.onSpk_carries ?_ _ _
      | split
      | intro _
      | apply Carries.record)
  all_goals simp +contextual only [Nat.le_refl, Nat.le_add_right, imp_self, implies_true, Sparse.wf_nil, Sparse.set_wf,
      Sparse.modify_wf, Sparse.filter_wf, eq_self, *]

theorem execHeartbeatRx_carries {s0 s : State} (hc : Carries s0 s) (port : Nat) (flit : SpokeFlit) : CarriesTo s0
      (execHeartbeatRx port flit s) := by
  unfold execHeartbeatRx
  dsimp only
  refine CarriesTo.onUnit hc ?_
  (repeat' with_reducible first
      | assumption
      | exact Carries.refl _
      | refine whenDue_carries ?_ ?_
      | dsimp only
      | refine State.takeHeartbeat_carries ?_ _ _
      | refine State.rx_carries ?_ _ _
      | refine State.rx_to ?_ _ _ (by assumption)
      | refine State.pumpAll_carries ?_
      | split
      | intro _)

theorem execHeartbeatTimeout_carries {s0 s : State} (hc : Carries s0 s) (port : Nat) : CarriesTo s0 (execHeartbeatTimeout
      port s) := by
  unfold execHeartbeatTimeout
  refine CarriesTo.onUnit hc ?_
  (repeat' with_reducible first
      | assumption
      | exact Carries.refl _
      | refine whenDue_carries ?_ ?_
      | dsimp only
      | refine State.linkDown_carries ?_ _ _
      | refine State.bump_carries ?_ _ _
      | split
      | intro _)

theorem execHaloEvents_carries {s0 s : State} (hc : Carries s0 s) (port : Nat) (flit : SpokeFlit) : CarriesTo s0
      (execHaloEvents port flit s) := by
  unfold execHaloEvents
  refine flitRow_carries hc _ _ _ fun x s hc => ?_
  try dsimp only
  (repeat' with_reducible first
      | assumption
      | exact Carries.refl _
      | dsimp only
      | refine State.remoteEvent_carries ?_ _ _
      | refine State.linkDown_carries ?_ _ _
      | refine State.flag_carries ?_ _ _
      | refine forEach_carries (fun _ _ _ => ?_) _ ?_
      | split
      | intro _)

theorem execVerdictRelay_carries {s0 s : State} (hc : Carries s0 s) (port : Nat) (flit : SpokeFlit) : CarriesTo s0
      (execVerdictRelay port flit s) := by
  unfold execVerdictRelay
  refine flitRow_carries hc _ _ _ fun x s hc => ?_
  try dsimp only
  (repeat' with_reducible first
      | assumption
      | exact Carries.refl _
      | dsimp only
      | refine State.relayIn_carries ?_ _
      | refine forEach_carries (fun _ _ _ => ?_) _ ?_
      | split
      | intro _)

theorem execExplore_carries {s0 s : State} (hc : Carries s0 s) (port : Nat) (flit : SpokeFlit) : CarriesTo s0
      (execExplore port flit s) := by
  unfold execExplore
  exact enumRow_carries hc _ _ _

theorem execDiscover_carries {s0 s : State} (hc : Carries s0 s) (port : Nat) (flit : SpokeFlit) : CarriesTo s0
      (execDiscover port flit s) := by
  unfold execDiscover
  exact enumRow_carries hc _ _ _

theorem execIdentify_carries {s0 s : State} (hc : Carries s0 s) (port : Nat) (flit : SpokeFlit) : CarriesTo s0
      (execIdentify port flit s) := by
  unfold execIdentify
  exact enumRow_carries hc _ _ _

theorem execReport_carries {s0 s : State} (hc : Carries s0 s) (port : Nat) (flit : SpokeFlit) : CarriesTo s0 (execReport
      port flit s) := by
  unfold execReport
  exact enumRow_carries hc _ _ _

theorem execAssign_carries {s0 s : State} (hc : Carries s0 s) (port : Nat) (flit : SpokeFlit) : CarriesTo s0 (execAssign
      port flit s) := by
  unfold execAssign
  exact enumRow_carries hc _ _ _

theorem execRoutes_carries {s0 s : State} (hc : Carries s0 s) (port : Nat) (flit : SpokeFlit) : CarriesTo s0 (execRoutes
      port flit s) := by
  unfold execRoutes
  exact enumRow_carries hc _ _ _

theorem execNotify_carries {s0 s : State} (hc : Carries s0 s) (port : Nat) (flit : SpokeFlit) : CarriesTo s0 (execNotify
      port flit s) := by
  unfold execNotify
  exact enumRow_carries hc _ _ _

end Sys2Proof.Machine
end

