-- ==== Sys2Proof/Laws/CarryExecCommands.lean ====
section
/-!
SUPPORT. What each command of the host, of the management and of the board carries over.
-/

namespace Sys2Proof.Machine

theorem powerSetBody_carries {s0 s : State} (hc : Carries s0 s) (r : Req) : Carries s0 (powerSetBody r s).2 := by
  unfold powerSetBody
  refine withLength_carries hc fun r s hc => ?_
  try dsimp only
  (repeat' with_reducible first
      | assumption
      | exact Carries.refl _
      | refine reply_carries ?_ _
      | refine replyWith_carries ?_ _ _
      | refine State.startMove_carries ?_ _ _
      | refine State.startRunning_carries ?_ _ _ _ _
      | refine reply_carries ?_ _
      | refine reply_to ?_ _ (by assumption)
      | refine State.onPdom_carries ?_ _ _
      | refine State.bumpIf_carries ?_ _ _
      | split
      | intro _
      | apply Carries.record
      | dsimp only)
  all_goals simp +contextual only [Nat.le_refl, Nat.le_add_right, imp_self, implies_true, Sparse.wf_nil, Sparse.set_wf,
      Sparse.modify_wf, Sparse.filter_wf, eq_self, *]

theorem execPowerSet_carries {s0 s : State} (hc : Carries s0 s) (req : Req) : CarriesTo s0 (execPowerSet req s) := by
  unfold execPowerSet
  exact CarriesTo.next (State.commandRow_carries hc _ _ _ fun r _ h => powerSetBody_carries h r)

theorem powerStatusBody_carries {s0 s : State} (hc : Carries s0 s) (r : Req) : Carries s0 (powerStatusBody r s).2 := by
  unfold powerStatusBody
  refine withLength_carries hc fun r s hc => ?_
  try dsimp only
  (repeat' with_reducible first
      | assumption
      | exact Carries.refl _
      | refine reply_carries ?_ _
      | refine replyWith_carries ?_ _ _
      | refine reply_carries ?_ _
      | refine reply_to ?_ _ (by assumption)
      | split
      | intro _
      | apply Carries.record
      | dsimp only)
  all_goals simp +contextual only [Nat.le_refl, Nat.le_add_right, imp_self, implies_true, Sparse.wf_nil, Sparse.set_wf,
      Sparse.modify_wf, Sparse.filter_wf, eq_self, *]

theorem execPowerStatus_carries {s0 s : State} (hc : Carries s0 s) (req : Req) : CarriesTo s0 (execPowerStatus req s) := by
  unfold execPowerStatus
  exact CarriesTo.next (State.commandRow_carries hc _ _ _ fun r _ h => powerStatusBody_carries h r)

theorem regionParkBody_carries {s0 s : State} (hc : Carries s0 s) (r : Req) : Carries s0 (regionParkBody r s).2 := by
  unfold regionParkBody
  refine withLength_carries hc fun r s hc => ?_
  try dsimp only
  (repeat' with_reducible first
      | assumption
      | exact Carries.refl _
      | refine reply_carries ?_ _
      | refine replyWith_carries ?_ _ _
      | refine State.settleSwitches_carries ?_
      | refine State.startRunning_carries ?_ _ _ _ _
      | refine reply_carries ?_ _
      | refine reply_to ?_ _ (by assumption)
      | apply State.onPower_carries
      | split
      | intro _
      | apply Carries.record
      | dsimp only)
  all_goals simp +contextual only [Nat.le_refl, Nat.le_add_right, imp_self, implies_true, Sparse.wf_nil, Sparse.set_wf,
      Sparse.modify_wf, Sparse.filter_wf, eq_self, *]

theorem execRegionPark_carries {s0 s : State} (hc : Carries s0 s) (req : Req) : CarriesTo s0 (execRegionPark req s) := by
  unfold execRegionPark
  exact CarriesTo.next (State.commandRow_carries hc _ _ _ fun r _ h => regionParkBody_carries h r)

theorem regionResumeBody_carries {s0 s : State} (hc : Carries s0 s) (r : Req) : Carries s0 (regionResumeBody r s).2 := by
  unfold regionResumeBody
  refine withLength_carries hc fun r s hc => ?_
  try dsimp only
  (repeat' with_reducible first
      | assumption
      | exact Carries.refl _
      | refine reply_carries ?_ _
      | refine replyWith_carries ?_ _ _
      | refine State.startResume_carries ?_ _
      | refine State.settleSwitches_carries ?_
      | refine State.startRunning_carries ?_ _ _ _ _
      | refine reply_carries ?_ _
      | refine reply_to ?_ _ (by assumption)
      | split
      | intro _
      | apply Carries.record
      | dsimp only)
  all_goals simp +contextual only [Nat.le_refl, Nat.le_add_right, imp_self, implies_true, Sparse.wf_nil, Sparse.set_wf,
      Sparse.modify_wf, Sparse.filter_wf, eq_self, *]

theorem execRegionResume_carries {s0 s : State} (hc : Carries s0 s) (req : Req) : CarriesTo s0 (execRegionResume req s) := by
  unfold execRegionResume
  exact CarriesTo.next (State.commandRow_carries hc _ _ _ fun r _ h => regionResumeBody_carries h r)

theorem execPowerEntryCommit_carries {s0 s : State} (hc : Carries s0 s) (domain : Nat) : CarriesTo s0
      (execPowerEntryCommit domain s) := by
  unfold execPowerEntryCommit
  dsimp only
  refine CarriesTo.onUnit hc ?_
  (repeat' with_reducible first
      | assumption
      | exact Carries.refl _
      | refine whenDue_carries ?_ ?_
      | dsimp only
      | refine State.refuseHeld_carries ?_ _
      | refine State.loseDomain_carries ?_ _
      | refine State.onPdom_carries ?_ _ _
      | refine State.bump_carries ?_ _ _
      | split
      | intro _
      | apply Carries.record)
  all_goals simp +contextual only [Nat.le_refl, Nat.le_add_right, imp_self, implies_true, Sparse.wf_nil, Sparse.set_wf,
      Sparse.modify_wf, Sparse.filter_wf, eq_self, *]

theorem execPowerBlockStopTimeout_carries {s0 s : State} (hc : Carries s0 s) (domain : Nat) (blockCode : Nat) (unit :
      Nat) : CarriesTo s0 (execPowerBlockStopTimeout domain blockCode unit s) := by
  unfold execPowerBlockStopTimeout
  refine CarriesTo.onUnit hc ?_
  (repeat' with_reducible first
      | assumption
      | exact Carries.refl _
      | refine whenDue_carries ?_ ?_
      | dsimp only
      | refine State.refuseEntry_carries ?_ _ _ _
      | split
      | intro _
      | apply Carries.record)
  all_goals simp +contextual only [Nat.le_refl, Nat.le_add_right, imp_self, implies_true, Sparse.wf_nil, Sparse.set_wf,
      Sparse.modify_wf, Sparse.filter_wf, eq_self, *]

theorem execPowerAccessWake_carries {s0 s : State} (hc : Carries s0 s) (domain : Nat) : CarriesTo s0 (execPowerAccessWake
      domain s) := by
  unfold execPowerAccessWake
  refine CarriesTo.onUnit hc ?_
  (repeat' with_reducible first
      | assumption
      | exact Carries.refl _
      | refine whenDue_carries ?_ ?_
      | dsimp only
      | refine State.accessWake_carries ?_ _
      | split
      | intro _)

theorem execPowerRetHoldExpiry_carries {s0 s : State} (hc : Carries s0 s) (domain : Nat) : CarriesTo s0
      (execPowerRetHoldExpiry domain s) := by
  unfold execPowerRetHoldExpiry
  dsimp only
  refine CarriesTo.onUnit hc ?_
  (repeat' with_reducible first
      | assumption
      | exact Carries.refl _
      | refine whenDue_carries ?_ ?_
      | dsimp only
      | refine State.startMove_carries ?_ _ _
      | split
      | intro _
      | apply Carries.record)
  all_goals simp +contextual only [Nat.le_refl, Nat.le_add_right, imp_self, implies_true, Sparse.wf_nil, Sparse.set_wf,
      Sparse.modify_wf, Sparse.filter_wf, eq_self, *]

theorem execSdioCmd0_carries {s0 s : State} (hc : Carries s0 s) : CarriesTo s0 (execSdioCmd0 s) := by
  unfold execSdioCmd0
  refine CarriesTo.next ?_
  (repeat' with_reducible first
      | assumption
      | exact Carries.refl _
      | refine whenDue_carries ?_ ?_
      | dsimp only
      | apply State.onSdio_carries
      | split
      | intro _
      | apply Carries.record)
  all_goals simp +contextual only [Nat.le_refl, Nat.le_add_right, imp_self, implies_true, Sparse.wf_nil, Sparse.set_wf,
      Sparse.modify_wf, Sparse.filter_wf, eq_self, *]

theorem execSdioCmd3_carries {s0 s : State} (hc : Carries s0 s) : CarriesTo s0 (execSdioCmd3 s) := by
  unfold execSdioCmd3
  dsimp only
  refine CarriesTo.next ?_
  (repeat' with_reducible first
      | assumption
      | exact Carries.refl _
      | refine whenDue_carries ?_ ?_
      | dsimp only
      | apply State.onSdio_carries
      | refine State.takeFree_carries ?_
      | refine State.takeFree_to ?_ (by assumption)
      | split
      | intro _
      | apply Carries.record)
  all_goals simp +contextual only [Nat.le_refl, Nat.le_add_right, imp_self, implies_true, Sparse.wf_nil, Sparse.set_wf,
      Sparse.modify_wf, Sparse.filter_wf, eq_self, *]

theorem execSdioCmd5_carries {s0 s : State} (hc : Carries s0 s) (arg : Word) : CarriesTo s0 (execSdioCmd5 arg s) := by
  unfold execSdioCmd5
  refine CarriesTo.next ?_
  (repeat' with_reducible first
      | assumption
      | exact Carries.refl _
      | refine whenDue_carries ?_ ?_
      | dsimp only
      | apply State.onSdio_carries
      | split
      | intro _
      | apply Carries.record)
  all_goals simp +contextual only [Nat.le_refl, Nat.le_add_right, imp_self, implies_true, Sparse.wf_nil, Sparse.set_wf,
      Sparse.modify_wf, Sparse.filter_wf, eq_self, *]

theorem execSdioCmd7_carries {s0 s : State} (hc : Carries s0 s) (rca : BitVec 16) : CarriesTo s0 (execSdioCmd7 rca s) := by
  unfold execSdioCmd7
  refine CarriesTo.next ?_
  (repeat' with_reducible first
      | assumption
      | exact Carries.refl _
      | refine whenDue_carries ?_ ?_
      | dsimp only
      | apply State.onSdio_carries
      | split
      | intro _
      | apply Carries.record)
  all_goals simp +contextual only [Nat.le_refl, Nat.le_add_right, imp_self, implies_true, Sparse.wf_nil, Sparse.set_wf,
      Sparse.modify_wf, Sparse.filter_wf, eq_self, *]

theorem execSdioCmd11_carries {s0 s : State} (hc : Carries s0 s) : CarriesTo s0 (execSdioCmd11 s) := by
  unfold execSdioCmd11
  refine CarriesTo.next ?_
  (repeat' with_reducible first
      | assumption
      | exact Carries.refl _
      | refine whenDue_carries ?_ ?_
      | dsimp only
      | apply State.onSdio_carries
      | split
      | intro _
      | apply Carries.record)
  all_goals simp +contextual only [Nat.le_refl, Nat.le_add_right, imp_self, implies_true, Sparse.wf_nil, Sparse.set_wf,
      Sparse.modify_wf, Sparse.filter_wf, eq_self, *]

theorem execSdioCmd19_carries {s0 s : State} (hc : Carries s0 s) : CarriesTo s0 (execSdioCmd19 s) := by
  unfold execSdioCmd19
  refine CarriesTo.next ?_
  (repeat' with_reducible first
      | assumption
      | exact Carries.refl _
      | refine whenDue_carries ?_ ?_
      | dsimp only
      | apply State.onSdio_carries
      | split
      | intro _
      | apply Carries.record)
  all_goals simp +contextual only [Nat.le_refl, Nat.le_add_right, imp_self, implies_true, Sparse.wf_nil, Sparse.set_wf,
      Sparse.modify_wf, Sparse.filter_wf, eq_self, *]

theorem execSdioIllegalCommand_carries {s0 s : State} (hc : Carries s0 s) (index : Nat) : CarriesTo s0
      (execSdioIllegalCommand index s) := by
  unfold execSdioIllegalCommand
  refine CarriesTo.next ?_
  (repeat' with_reducible first
      | assumption
      | exact Carries.refl _
      | refine whenDue_carries ?_ ?_
      | dsimp only
      | apply State.onSdio_carries
      | split
      | intro _
      | apply Carries.record)
  all_goals simp +contextual only [Nat.le_refl, Nat.le_add_right, imp_self, implies_true, Sparse.wf_nil, Sparse.set_wf,
      Sparse.modify_wf, Sparse.filter_wf, eq_self, *]

theorem execSdioCmd52_carries {s0 s : State} (hc : Carries s0 s) (write : Bool) (raw : Bool) (function : Nat) (address :
      Nat) (data : Byte) : CarriesTo s0 (execSdioCmd52 write raw function address data s) := by
  unfold execSdioCmd52
  dsimp only
  refine CarriesTo.onUnit hc ?_
  (repeat' with_reducible first
      | assumption
      | exact Carries.refl _
      | refine whenDue_carries ?_ ?_
      | dsimp only
      | refine State.writeFn_carries ?_ _ _
      | refine State.accessError_carries ?_
      | apply State.onSdio_carries
      | split
      | intro _
      | apply Carries.record)
  all_goals simp +contextual only [Nat.le_refl, Nat.le_add_right, imp_self, implies_true, Sparse.wf_nil, Sparse.set_wf,
      Sparse.modify_wf, Sparse.filter_wf, eq_self, *]

theorem execSdioCmd53_carries {s0 s : State} (hc : Carries s0 s) (write : Bool) (blockMode : Bool) (increment : Bool)
      (function : Nat) (address : Nat) (count : Nat) (data : List Byte) : CarriesTo s0 (execSdioCmd53 write blockMode
      increment function address count data s) := by
  unfold execSdioCmd53
  dsimp only
  refine CarriesTo.onUnit hc ?_
  (repeat' with_reducible first
      | assumption
      | exact Carries.refl _
      | refine whenDue_carries ?_ ?_
      | dsimp only
      | refine State.writeFn_carries ?_ _ _
      | refine State.accessError_carries ?_
      | refine State.bulkRead_carries ?_
      | refine State.bulkWrite_carries ?_ _
      | refine State.bulkError_carries ?_
      | apply State.onSdio_carries
      | refine forEach_carries (fun _ _ _ => ?_) _ ?_
      | refine foldl_carries (fun _ _ _ => ?_) _ ?_
      | refine foldl_carries_snd (fun _ _ _ => ?_) _ ?_
      | refine foldl_carries_fst (fun _ _ _ => ?_) _ ?_
      | split
      | intro _
      | apply Carries.record)
  all_goals simp +contextual only [Nat.le_refl, Nat.le_add_right, imp_self, implies_true, Sparse.wf_nil, Sparse.set_wf,
      Sparse.modify_wf, Sparse.filter_wf, eq_self, *]

theorem execInDoorbellWrite_carries {s0 s : State} (hc : Carries s0 s) (length : BitVec 16) : CarriesTo s0
      (execInDoorbellWrite length s) := by
  unfold execInDoorbellWrite
  refine CarriesTo.next ?_
  (repeat' with_reducible first
      | assumption
      | exact Carries.refl _
      | refine whenDue_carries ?_ ?_
      | dsimp only
      | refine State.ringBell_carries ?_ _
      | split
      | intro _)

theorem execCommandPacketAccept_carries {s0 s : State} (hc : Carries s0 s) : CarriesTo s0 (execCommandPacketAccept s) := by
  unfold execCommandPacketAccept
  dsimp only
  refine CarriesTo.next ?_
  (repeat' with_reducible first
      | assumption
      | exact Carries.refl _
      | refine whenDue_carries ?_ ?_
      | dsimp only
      | refine State.takePacket_carries ?_ _ _ _ _
      | apply State.onSdio_carries
      | split
      | intro _
      | apply Carries.record)
  all_goals simp +contextual only [Nat.le_refl, Nat.le_add_right, imp_self, implies_true, Sparse.wf_nil, Sparse.set_wf,
      Sparse.modify_wf, Sparse.filter_wf, eq_self, *]

theorem execOutAckWrite_carries {s0 s : State} (hc : Carries s0 s) (value : Byte) : CarriesTo s0 (execOutAckWrite value s) := by
  unfold execOutAckWrite
  refine CarriesTo.next ?_
  (repeat' with_reducible first
      | assumption
      | exact Carries.refl _
      | refine whenDue_carries ?_ ?_
      | dsimp only
      | refine State.outAck_carries ?_
      | split
      | intro _)

theorem execBulkBlockWrite_carries {s0 s : State} (hc : Carries s0 s) (data : List Byte) : CarriesTo s0
      (execBulkBlockWrite data s) := by
  unfold execBulkBlockWrite
  refine CarriesTo.next ?_
  (repeat' with_reducible first
      | assumption
      | exact Carries.refl _
      | refine whenDue_carries ?_ ?_
      | dsimp only
      | refine State.bulkWrite_carries ?_ _
      | split
      | intro _)

theorem execBulkBlockRead_carries {s0 s : State} (hc : Carries s0 s) : CarriesTo s0 (execBulkBlockRead s) := by
  unfold execBulkBlockRead
  refine CarriesTo.next ?_
  (repeat' with_reducible first
      | assumption
      | exact Carries.refl _
      | refine whenDue_carries ?_ ?_
      | dsimp only
      | refine State.bulkRead_carries ?_
      | split
      | intro _)

theorem execBulkInComplete_carries {s0 s : State} (hc : Carries s0 s) : CarriesTo s0 (execBulkInComplete s) := by
  unfold execBulkInComplete
  refine CarriesTo.next ?_
  (repeat' with_reducible first
      | assumption
      | exact Carries.refl _
      | refine whenDue_carries ?_ ?_
      | dsimp only
      | refine State.complete_carries ?_ _ _
      | refine State.onModel_carries ?_ _
      | split
      | intro _
      | apply Carries.record)
  all_goals simp +contextual only [Nat.le_refl, Nat.le_add_right, imp_self, implies_true, Sparse.wf_nil, Sparse.set_wf,
      Sparse.modify_wf, Sparse.filter_wf, eq_self, *]

theorem execFwdTimeout_carries {s0 s : State} (hc : Carries s0 s) (dest : Byte) (tag : BitVec 12) : CarriesTo s0
      (execFwdTimeout dest tag s) := by
  unfold execFwdTimeout
  dsimp only
  refine CarriesTo.next ?_
  (repeat' with_reducible first
      | assumption
      | exact Carries.refl _
      | refine whenDue_carries ?_ ?_
      | dsimp only
      | refine State.pushReply_carries ?_ _ _
      | apply State.onHost_carries
      | refine State.bump_carries ?_ _ _
      | split
      | intro _
      | apply Carries.record)
  all_goals simp +contextual only [Nat.le_refl, Nat.le_add_right, imp_self, implies_true, Sparse.wf_nil, Sparse.set_wf,
      Sparse.modify_wf, Sparse.filter_wf, eq_self, *]

theorem execCommandFwd_carries {s0 s : State} (hc : Carries s0 s) (port : Nat) (flit : SpokeFlit) :
    CarriesTo s0 (execCommandFwd port flit s) := by
  have h := flitRow_carries hc port flit (flit.mtype == 3) (take := fun m s => s.takeFwd m) fun m _ h => State.takeFwd_carries h m
  unfold execCommandFwd
  generalize flitRow port flit (flit.mtype == 3) (fun m s => s.takeFwd m) s = o at h ⊢
  cases o with
  | next u =>
    have k := h u rfl
    exact CarriesTo.next (Carries.ite (State.refusePacket_carries k _ _ _ _) k)
  | fault f => exact h
  | refused r => exact h

theorem execGetInfo_carries {s0 s : State} (hc : Carries s0 s) (req : Req) : CarriesTo s0 (execGetInfo req s) := by
  unfold execGetInfo
  refine CarriesTo.next (State.commandRow_carries hc _ _ _ fun r s hc => ?_)
  refine withLength_carries hc fun r s hc => ?_
  try dsimp only
  (repeat' with_reducible first
      | assumption
      | exact Carries.refl _
      | refine reply_carries ?_ _
      | refine replyWith_carries ?_ _ _
      | refine replyWith_carries ?_ _ _
      | refine replyWith_to ?_ _ _ (by assumption)
      | refine State.commandRow_carries ?_ _ _ _
      | split
      | intro _
      | dsimp only)

theorem execGetCaps_carries {s0 s : State} (hc : Carries s0 s) (req : Req) : CarriesTo s0 (execGetCaps req s) := by
  unfold execGetCaps
  refine CarriesTo.next (State.commandRow_carries hc _ _ _ fun r s hc => ?_)
  refine withLength_carries hc fun r s hc => ?_
  try dsimp only
  (repeat' with_reducible first
      | assumption
      | exact Carries.refl _
      | refine reply_carries ?_ _
      | refine replyWith_carries ?_ _ _
      | refine replyWith_carries ?_ _ _
      | refine replyWith_to ?_ _ _ (by assumption)
      | refine State.commandRow_carries ?_ _ _ _
      | split
      | intro _
      | dsimp only)

theorem execEcho_carries {s0 s : State} (hc : Carries s0 s) (req : Req) : CarriesTo s0 (execEcho req s) := by
  unfold execEcho
  refine CarriesTo.next (State.commandRow_carries hc _ _ _ fun r s hc => ?_)
  try dsimp only
  (repeat' with_reducible first
      | assumption
      | exact Carries.refl _
      | refine reply_carries ?_ _
      | refine replyWith_carries ?_ _ _
      | refine replyWith_carries ?_ _ _
      | refine replyWith_to ?_ _ _ (by assumption)
      | refine State.commandRow_carries ?_ _ _ _
      | split
      | intro _
      | dsimp only)

theorem execGetState_carries {s0 s : State} (hc : Carries s0 s) (req : Req) : CarriesTo s0 (execGetState req s) := by
  unfold execGetState
  refine CarriesTo.next (State.commandRow_carries hc _ _ _ fun r s hc => ?_)
  refine withLength_carries hc fun r s hc => ?_
  try dsimp only
  (repeat' with_reducible first
      | assumption
      | exact Carries.refl _
      | refine reply_carries ?_ _
      | refine replyWith_carries ?_ _ _
      | refine replyWith_carries ?_ _ _
      | refine replyWith_to ?_ _ _ (by assumption)
      | refine State.commandRow_carries ?_ _ _ _
      | split
      | intro _
      | dsimp only)

theorem execParamRead_carries {s0 s : State} (hc : Carries s0 s) (req : Req) : CarriesTo s0 (execParamRead req s) := by
  unfold execParamRead
  refine CarriesTo.next (State.commandRow_carries hc _ _ _ fun r s hc => ?_)
  refine withLength_carries hc fun r s hc => ?_
  try dsimp only
  (repeat' with_reducible first
      | assumption
      | exact Carries.refl _
      | refine reply_carries ?_ _
      | refine replyWith_carries ?_ _ _
      | refine State.readList_carries ?_ _
      | refine State.readList_to ?_ _ (by assumption)
      | refine State.commandRow_carries ?_ _ _ _
      | refine reply_carries ?_ _
      | refine reply_to ?_ _ (by assumption)
      | split
      | intro _
      | dsimp only)

theorem paramWriteBody_carries {s0 s : State} (hc : Carries s0 s) (r : Req) : Carries s0 (paramWriteBody r s).2 := by
  unfold paramWriteBody
  try dsimp only
  (repeat' with_reducible first
      | assumption
      | exact Carries.refl _
      | refine reply_carries ?_ _
      | refine replyWith_carries ?_ _ _
      | refine State.writeList_carries ?_ _
      | refine State.writeList_to ?_ _ (by assumption)
      | refine reply_carries ?_ _
      | refine reply_to ?_ _ (by assumption)
      | split
      | intro _
      | dsimp only)

theorem execParamWrite_carries {s0 s : State} (hc : Carries s0 s) (req : Req) : CarriesTo s0 (execParamWrite req s) := by
  unfold execParamWrite
  exact CarriesTo.next (State.commandRow_carries hc _ _ _ fun r _ h => paramWriteBody_carries h r)

theorem execParamReadList_carries {s0 s : State} (hc : Carries s0 s) (req : Req) : CarriesTo s0 (execParamReadList req s) := by
  unfold execParamReadList
  refine CarriesTo.next (State.commandRow_carries hc _ _ _ fun r s hc => ?_)
  refine listChecks_carries hc fun n r s hc => ?_
  try dsimp only
  (repeat' with_reducible first
      | assumption
      | exact Carries.refl _
      | refine reply_carries ?_ _
      | refine replyWith_carries ?_ _ _
      | refine State.readList_carries ?_ _
      | refine State.readList_to ?_ _ (by assumption)
      | refine State.commandRow_carries ?_ _ _ _
      | split
      | intro _
      | dsimp only)

theorem execParamWriteList_carries {s0 s : State} (hc : Carries s0 s) (req : Req) : CarriesTo s0 (execParamWriteList req
      s) := by
  unfold execParamWriteList
  refine CarriesTo.next (State.commandRow_carries hc _ _ _ fun r s hc => ?_)
  refine listChecks_carries hc fun n r s hc => ?_
  try dsimp only
  (repeat' with_reducible first
      | assumption
      | exact Carries.refl _
      | refine reply_carries ?_ _
      | refine replyWith_carries ?_ _ _
      | refine State.writeList_carries ?_ _
      | refine State.writeList_to ?_ _ (by assumption)
      | refine State.commandRow_carries ?_ _ _ _
      | split
      | intro _
      | dsimp only)

theorem imageBeginBody_carries {s0 s : State} (hc : Carries s0 s) (r : Req) : Carries s0 (imageBeginBody r s).2 := by
  unfold imageBeginBody
  refine withLength_carries hc fun r s hc => ?_
  try dsimp only
  (repeat' with_reducible first
      | assumption
      | exact Carries.refl _
      | refine reply_carries ?_ _
      | refine replyWith_carries ?_ _ _
      | refine reply_carries ?_ _
      | refine reply_to ?_ _ (by assumption)
      | apply State.onHost_carries
      | refine State.onModel_carries ?_ _
      | split
      | intro _
      | apply Carries.record
      | dsimp only)
  all_goals simp +contextual only [Nat.le_refl, Nat.le_add_right, imp_self, implies_true, Sparse.wf_nil, Sparse.set_wf,
      Sparse.modify_wf, Sparse.filter_wf, eq_self, *]

theorem execImageBegin_carries {s0 s : State} (hc : Carries s0 s) (req : Req) : CarriesTo s0 (execImageBegin req s) := by
  unfold execImageBegin
  exact CarriesTo.next (State.commandRow_carries hc _ _ _ fun r _ h => imageBeginBody_carries h r)

theorem execBulkAbort_carries {s0 s : State} (hc : Carries s0 s) (req : Req) : CarriesTo s0 (execBulkAbort req s) := by
  unfold execBulkAbort
  refine CarriesTo.next (State.commandRow_carries hc _ _ _ fun r s hc => ?_)
  refine withLength_carries hc fun r s hc => ?_
  try dsimp only
  (repeat' with_reducible first
      | assumption
      | exact Carries.refl _
      | refine reply_carries ?_ _
      | refine replyWith_carries ?_ _ _
      | refine State.bulkAbort_carries ?_
      | refine State.commandRow_carries ?_ _ _ _
      | refine reply_carries ?_ _
      | refine reply_to ?_ _ (by assumption)
      | split
      | intro _
      | dsimp only)

theorem dumpReadBody_carries {s0 s : State} (hc : Carries s0 s) (r : Req) : Carries s0 (dumpReadBody r s).2 := by
  unfold dumpReadBody
  refine withLength_carries hc fun r s hc => ?_
  try dsimp only
  (repeat' with_reducible first
      | assumption
      | exact Carries.refl _
      | refine reply_carries ?_ _
      | refine replyWith_carries ?_ _ _
      | refine State.sendDump_carries ?_ _ _ _ _
      | refine reply_carries ?_ _
      | refine reply_to ?_ _ (by assumption)
      | apply State.onHost_carries
      | split
      | intro _
      | apply Carries.record
      | dsimp only)
  all_goals simp +contextual only [Nat.le_refl, Nat.le_add_right, imp_self, implies_true, Sparse.wf_nil, Sparse.set_wf,
      Sparse.modify_wf, Sparse.filter_wf, eq_self, *]

theorem execDumpRead_carries {s0 s : State} (hc : Carries s0 s) (req : Req) : CarriesTo s0 (execDumpRead req s) := by
  unfold execDumpRead
  exact CarriesTo.next (State.commandRow_carries hc _ _ _ fun r _ h => dumpReadBody_carries h r)

theorem claimBody_carries {s0 s : State} (hc : Carries s0 s) (r : Req) : Carries s0 (claimBody r s).2 := by
  unfold claimBody
  refine withLength_carries hc fun r s hc => ?_
  try dsimp only
  (repeat' with_reducible first
      | assumption
      | exact Carries.refl _
      | refine reply_carries ?_ _
      | refine replyWith_carries ?_ _ _
      | refine State.creditsChanged_carries ?_ _ _
      | refine replyWith_carries ?_ _ _
      | refine replyWith_to ?_ _ _ (by assumption)
      | refine reply_carries ?_ _
      | refine reply_to ?_ _ (by assumption)
      | refine State.setClaim_carries ?_ _ _
      | split
      | intro _
      | apply Carries.record
      | dsimp only)
  all_goals simp +contextual only [Nat.le_refl, Nat.le_add_right, imp_self, implies_true, Sparse.wf_nil, Sparse.set_wf,
      Sparse.modify_wf, Sparse.filter_wf, eq_self, *]

theorem execClaim_carries {s0 s : State} (hc : Carries s0 s) (req : Req) : CarriesTo s0 (execClaim req s) := by
  unfold execClaim
  exact CarriesTo.next (State.commandRow_carries hc _ _ _ fun r _ h => claimBody_carries h r)

theorem releaseBody_carries {s0 s : State} (hc : Carries s0 s) (r : Req) : Carries s0 (releaseBody r s).2 := by
  unfold releaseBody
  refine withLength_carries hc fun r s hc => ?_
  try dsimp only
  (repeat' with_reducible first
      | assumption
      | exact Carries.refl _
      | refine reply_carries ?_ _
      | refine replyWith_carries ?_ _ _
      | refine State.creditsChanged_carries ?_ _ _
      | refine reply_carries ?_ _
      | refine reply_to ?_ _ (by assumption)
      | refine State.setClaim_carries ?_ _ _
      | split
      | intro _
      | apply Carries.record
      | dsimp only)
  all_goals simp +contextual only [Nat.le_refl, Nat.le_add_right, imp_self, implies_true, Sparse.wf_nil, Sparse.set_wf,
      Sparse.modify_wf, Sparse.filter_wf, eq_self, *]

theorem execRelease_carries {s0 s : State} (hc : Carries s0 s) (req : Req) : CarriesTo s0 (execRelease req s) := by
  unfold execRelease
  exact CarriesTo.next (State.commandRow_carries hc _ _ _ fun r _ h => releaseBody_carries h r)

theorem queueWriteBody_carries {s0 s : State} (hc : Carries s0 s) (pointers : PtrCheck) (r : Req) : Carries s0
      (queueWriteBody pointers r s).2 := by
  unfold queueWriteBody
  try dsimp only
  (repeat' with_reducible first
      | assumption
      | exact Carries.refl _
      | refine reply_carries ?_ _
      | refine replyWith_carries ?_ _ _
      | refine State.queueAccess_carries ?_ _ _
      | refine State.startRunning_carries ?_ _ _ _ _
      | refine reply_carries ?_ _
      | refine reply_to ?_ _ (by assumption)
      | refine State.pushWords_carries ?_ _ _ _
      | split
      | intro _
      | dsimp only)

theorem execQueueWrite_carries {s0 s : State} (hc : Carries s0 s) (req : QueueReq) : CarriesTo s0
      (execQueueWrite req s) := by
  unfold execQueueWrite
  exact CarriesTo.next (State.commandRow_carries hc _ _ _ fun r _ h => queueWriteBody_carries h req.pointers r)

theorem execQueueWriteTimeout_carries {s0 s : State} (hc : Carries s0 s) (tag : BitVec 12) : CarriesTo s0
      (execQueueWriteTimeout tag s) := by
  unfold execQueueWriteTimeout
  refine CarriesTo.next ?_
  (repeat' with_reducible first
      | assumption
      | exact Carries.refl _
      | refine whenDue_carries ?_ ?_
      | dsimp only
      | refine State.finish_carries ?_ _ _ _
      | refine State.bump_carries ?_ _ _
      | split
      | intro _
      | apply Carries.record)
  all_goals simp +contextual only [Nat.le_refl, Nat.le_add_right, imp_self, implies_true, Sparse.wf_nil, Sparse.set_wf,
      Sparse.modify_wf, Sparse.filter_wf, eq_self, *]

theorem State.popWords_carries {s0 : State} (q n : Nat) : ∀ (ecc : List EccCheck) {s : State}, Carries s0 s →
    Carries s0 (State.popWords s q ecc n).2.2 := by
  induction n with
  | zero => exact fun _ _ hc => hc
  | succ n ih => exact fun _ _ hc => ih _ (State.popWord_carries hc q _)

theorem queueReadBody_carries {s0 s : State} (hc : Carries s0 s) (ecc : List EccCheck) (pointers : PtrCheck) (r : Req) :
    Carries s0 (queueReadBody ecc pointers r s).2 := by
  unfold queueReadBody
  refine withLength_carries hc fun r s hc => ?_
  dsimp only
  split
  · exact hc
  · split
    · exact hc
    · exact replyWith_carries (State.popWords_carries _ _ _ (State.queueAccess_carries hc _ _)) _ _

theorem execQueueRead_carries {s0 s : State} (hc : Carries s0 s) (req : QueueReq)
      : CarriesTo s0 (execQueueRead req s) := by
  unfold execQueueRead
  exact CarriesTo.next (State.commandRow_carries hc _ _ _ fun r _ h => queueReadBody_carries h req.ecc req.pointers r)

theorem syncobjOpBody_carries {s0 s : State} (hc : Carries s0 s) (r : Req) : Carries s0 (syncobjOpBody r s).2 := by
  unfold syncobjOpBody
  refine withLength_carries hc fun r s hc => ?_
  try dsimp only
  (repeat' with_reducible first
      | assumption
      | exact Carries.refl _
      | refine reply_carries ?_ _
      | refine replyWith_carries ?_ _ _
      | refine replyWith_carries ?_ _ _
      | refine replyWith_to ?_ _ _ (by assumption)
      | refine reply_carries ?_ _
      | refine reply_to ?_ _ (by assumption)
      | refine State.soOp_carries ?_ _ _ _ _
      | refine State.soOp_to ?_ _ _ _ _ (by assumption)
      | split
      | intro _
      | apply Carries.record
      | dsimp only)
  all_goals simp +contextual only [Nat.le_refl, Nat.le_add_right, imp_self, implies_true, Sparse.wf_nil, Sparse.set_wf,
      Sparse.modify_wf, Sparse.filter_wf, eq_self, *]

theorem execSyncobjOp_carries {s0 s : State} (hc : Carries s0 s) (req : Req) : CarriesTo s0 (execSyncobjOp req s) := by
  unfold execSyncobjOp
  exact CarriesTo.next (State.commandRow_carries hc _ _ _ fun r _ h => syncobjOpBody_carries h r)

theorem execTimeSnapshot_carries {s0 s : State} (hc : Carries s0 s) (req : Req) : CarriesTo s0 (execTimeSnapshot req s) := by
  unfold execTimeSnapshot
  refine CarriesTo.next (State.commandRow_carries hc _ _ _ fun r s hc => ?_)
  refine withLength_carries hc fun r s hc => ?_
  try dsimp only
  (repeat' with_reducible first
      | assumption
      | exact Carries.refl _
      | refine reply_carries ?_ _
      | refine replyWith_carries ?_ _ _
      | refine replyWith_carries ?_ _ _
      | refine replyWith_to ?_ _ _ (by assumption)
      | refine State.commandRow_carries ?_ _ _ _
      | refine State.posNow_carries ?_
      | refine State.posNow_to ?_ (by assumption)
      | split
      | intro _
      | dsimp only)

theorem camI2cBody_carries {s0 s : State} (hc : Carries s0 s) (r : Req) : Carries s0 (camI2cBody r s).2 := by
  unfold camI2cBody
  try dsimp only
  (repeat' with_reducible first
      | assumption
      | exact Carries.refl _
      | refine reply_carries ?_ _
      | refine replyWith_carries ?_ _ _
      | refine State.startRunning_carries ?_ _ _ _ _
      | refine reply_carries ?_ _
      | refine reply_to ?_ _ (by assumption)
      | split
      | intro _
      | dsimp only)

theorem execCamI2c_carries {s0 s : State} (hc : Carries s0 s) (req : Req) : CarriesTo s0 (execCamI2c req s) := by
  unfold execCamI2c
  exact CarriesTo.next (State.commandRow_carries hc _ _ _ fun r _ h => camI2cBody_carries h r)

theorem enumerateBody_carries {s0 s : State} (hc : Carries s0 s) (r : Req) : Carries s0 (enumerateBody r s).2 := by
  unfold enumerateBody
  refine withLength_carries hc fun r s hc => ?_
  try dsimp only
  (repeat' with_reducible first
      | assumption
      | exact Carries.refl _
      | refine reply_carries ?_ _
      | refine replyWith_carries ?_ _ _
      | refine reply_carries ?_ _
      | refine reply_to ?_ _ (by assumption)
      | refine State.startEnumeration_carries ?_
      | refine State.startRunning_carries ?_ _ _ _ _
      | refine State.pumpAll_carries ?_
      | refine State.takeFree_carries ?_
      | refine State.takeFree_to ?_ (by assumption)
      | split
      | intro _
      | apply Carries.record
      | dsimp only)
  all_goals simp +contextual only [Nat.le_refl, Nat.le_add_right, imp_self, implies_true, Sparse.wf_nil, Sparse.set_wf,
      Sparse.modify_wf, Sparse.filter_wf, eq_self, *]

theorem execEnumerate_carries {s0 s : State} (hc : Carries s0 s) (req : Req) : CarriesTo s0 (execEnumerate req s) := by
  unfold execEnumerate
  exact CarriesTo.next (State.commandRow_carries hc _ _ _ fun r _ h => enumerateBody_carries h r)

theorem retrainBody_carries {s0 s : State} (hc : Carries s0 s) (r : Req) : Carries s0 (retrainBody r s).2 := by
  unfold retrainBody
  refine withLength_carries hc fun r s hc => ?_
  try dsimp only
  (repeat' with_reducible first
      | assumption
      | exact Carries.refl _
      | refine reply_carries ?_ _
      | refine replyWith_carries ?_ _ _
      | refine reply_carries ?_ _
      | refine reply_to ?_ _ (by assumption)
      | refine State.startRetrain_carries ?_ _
      | split
      | intro _
      | apply Carries.record
      | dsimp only)
  all_goals simp +contextual only [Nat.le_refl, Nat.le_add_right, imp_self, implies_true, Sparse.wf_nil, Sparse.set_wf,
      Sparse.modify_wf, Sparse.filter_wf, eq_self, *]

theorem execRetrain_carries {s0 s : State} (hc : Carries s0 s) (req : Req) : CarriesTo s0 (execRetrain req s) := by
  unfold execRetrain
  exact CarriesTo.next (State.commandRow_carries hc _ _ _ fun r _ h => retrainBody_carries h r)

theorem testReadBody_carries {s0 s : State} (hc : Carries s0 s) (r : Req) : Carries s0 (testReadBody r s).2 := by
  unfold testReadBody
  refine withLength_carries hc fun r s hc => ?_
  try dsimp only
  (repeat' with_reducible first
      | assumption
      | exact Carries.refl _
      | refine reply_carries ?_ _
      | refine replyWith_carries ?_ _ _
      | refine replyWith_carries ?_ _ _
      | refine replyWith_to ?_ _ _ (by assumption)
      | refine State.accessWake_carries ?_ _
      | refine reply_carries ?_ _
      | refine reply_to ?_ _ (by assumption)
      | refine State.takeFree_carries ?_
      | refine State.takeFree_to ?_ (by assumption)
      | split
      | intro _
      | apply Carries.record
      | dsimp only)
  all_goals simp +contextual only [Nat.le_refl, Nat.le_add_right, imp_self, implies_true, Sparse.wf_nil, Sparse.set_wf,
      Sparse.modify_wf, Sparse.filter_wf, eq_self, *]

theorem execTestRead_carries {s0 s : State} (hc : Carries s0 s) (req : Req) : CarriesTo s0 (execTestRead req s) := by
  unfold execTestRead
  exact CarriesTo.next (State.commandRow_carries hc _ _ _ fun r _ h => testReadBody_carries h r)

theorem moduleResetBody_carries {s0 s : State} (hc : Carries s0 s) (r : Req) : Carries s0 (moduleResetBody r s).2 := by
  unfold moduleResetBody
  refine withLength_carries hc fun r s hc => ?_
  try dsimp only
  (repeat' with_reducible first
      | assumption
      | exact Carries.refl _
      | refine reply_carries ?_ _
      | refine replyWith_carries ?_ _ _
      | refine reply_carries ?_ _
      | refine reply_to ?_ _ (by assumption)
      | apply State.onHost_carries
      | split
      | intro _
      | apply Carries.record
      | dsimp only)
  all_goals simp +contextual only [Nat.le_refl, Nat.le_add_right, imp_self, implies_true, Sparse.wf_nil, Sparse.set_wf,
      Sparse.modify_wf, Sparse.filter_wf, eq_self, *]

theorem execModuleReset_carries {s0 s : State} (hc : Carries s0 s) (req : Req) : CarriesTo s0 (execModuleReset req s) := by
  unfold execModuleReset
  exact CarriesTo.next (State.commandRow_carries hc _ _ _ fun r _ h => moduleResetBody_carries h r)

theorem imageCommitBody_carries {s0 s : State} (hc : Carries s0 s) (r : Req) : Carries s0 (imageCommitBody r s).2 := by
  unfold imageCommitBody
  dsimp only
  split
  · exact hc
  · split
    · exact replyWith_carries (State.countAuth_carries hc _) _ _
    · split
      · exact hc
      · have hk := State.takeFree_carries (State.claimModel_carries hc _ _ ‹_›)
        split
        · exact later_carries (State.installFailed_carries hk) _ _ _ _
        · exact later_carries (State.dropStaged_carries (State.storeImage_carries (State.installModel_carries hk _) _ _)) _ _ _ _

theorem execImageCommit_carries {s0 s : State} (hc : Carries s0 s) (req : Req) : CarriesTo s0 (execImageCommit req s) := by
  unfold execImageCommit
  exact CarriesTo.next (State.commandRow_carries hc _ _ _ fun r _ h => imageCommitBody_carries h r)

theorem imageUnloadBody_carries {s0 s : State} (hc : Carries s0 s) (r : Req) : Carries s0 (imageUnloadBody r s).2 := by
  unfold imageUnloadBody
  refine withLength_carries hc fun r s hc => ?_
  try dsimp only
  (repeat' with_reducible first
      | assumption
      | exact Carries.refl _
      | refine reply_carries ?_ _
      | refine replyWith_carries ?_ _ _
      | refine State.closeModelSession_carries ?_
      | refine later_carries ?_ _ _ _ _
      | refine later_to ?_ _ _ _ _ (by assumption)
      | refine State.dropStaged_carries ?_
      | refine State.dropImageClaims_carries ?_
      | refine reply_carries ?_ _
      | refine reply_to ?_ _ (by assumption)
      | refine State.unloadModel_carries ?_
      | split
      | intro _
      | apply Carries.record
      | dsimp only)
  all_goals simp +contextual only [Nat.le_refl, Nat.le_add_right, imp_self, implies_true, Sparse.wf_nil, Sparse.set_wf,
      Sparse.modify_wf, Sparse.filter_wf, eq_self, *]

theorem execImageUnload_carries {s0 s : State} (hc : Carries s0 s) (req : Req) : CarriesTo s0 (execImageUnload req s) := by
  unfold execImageUnload
  exact CarriesTo.next (State.commandRow_carries hc _ _ _ fun r _ h => imageUnloadBody_carries h r)

theorem imageInfoBody_carries {s0 s : State} (hc : Carries s0 s) (r : Req) : Carries s0 (imageInfoBody r s).2 := by
  unfold imageInfoBody
  refine withLength_carries hc fun r s hc => ?_
  try dsimp only
  (repeat' with_reducible first
      | assumption
      | exact Carries.refl _
      | refine reply_carries ?_ _
      | refine replyWith_carries ?_ _ _
      | refine replyWith_carries ?_ _ _
      | refine replyWith_to ?_ _ _ (by assumption)
      | refine reply_carries ?_ _
      | refine reply_to ?_ _ (by assumption)
      | split
      | intro _
      | apply Carries.record
      | dsimp only)
  all_goals simp +contextual only [Nat.le_refl, Nat.le_add_right, imp_self, implies_true, Sparse.wf_nil, Sparse.set_wf,
      Sparse.modify_wf, Sparse.filter_wf, eq_self, *]

theorem execImageInfo_carries {s0 s : State} (hc : Carries s0 s) (req : Req) : CarriesTo s0 (execImageInfo req s) := by
  unfold execImageInfo
  exact CarriesTo.next (State.commandRow_carries hc _ _ _ fun r _ h => imageInfoBody_carries h r)

theorem imageSwapBody_carries {s0 s : State} (hc : Carries s0 s) (r : Req) : Carries s0 (imageSwapBody r s).2 := by
  unfold imageSwapBody
  refine withLength_carries hc fun r s hc => ?_
  try dsimp only
  (repeat' with_reducible first
      | assumption
      | exact Carries.refl _
      | refine reply_carries ?_ _
      | refine replyWith_carries ?_ _ _
      | refine State.countAuth_carries ?_ _
      | refine replyWith_carries ?_ _ _
      | refine replyWith_to ?_ _ _ (by assumption)
      | refine State.startRunning_carries ?_ _ _ _ _
      | refine reply_carries ?_ _
      | refine reply_to ?_ _ (by assumption)
      | refine State.onModel_carries ?_ _
      | split
      | intro _
      | apply Carries.record
      | dsimp only)
  all_goals simp +contextual only [Nat.le_refl, Nat.le_add_right, imp_self, implies_true, Sparse.wf_nil, Sparse.set_wf,
      Sparse.modify_wf, Sparse.filter_wf, eq_self, *]

theorem execImageSwap_carries {s0 s : State} (hc : Carries s0 s) (req : Req) : CarriesTo s0 (execImageSwap req s) := by
  unfold execImageSwap
  exact CarriesTo.next (State.commandRow_carries hc _ _ _ fun r _ h => imageSwapBody_carries h r)

theorem execSwapCut_carries {s0 s : State} (hc : Carries s0 s) : CarriesTo s0 (execSwapCut s) := by
  unfold execSwapCut
  dsimp only
  refine CarriesTo.next ?_
  (repeat' with_reducible first
      | assumption
      | exact Carries.refl _
      | refine whenDue_carries ?_ ?_
      | dsimp only
      | refine State.degradeTracks_carries ?_
      | refine State.dropNeuronEvents_carries ?_
      | refine State.endSwap_carries ?_ _ _
      | refine State.dropStaged_carries ?_
      | refine State.installModel_carries ?_ _
      | refine State.bump_carries ?_ _ _
      | split
      | intro _
      | apply Carries.record)
  all_goals simp +contextual only [Nat.le_refl, Nat.le_add_right, imp_self, implies_true, Sparse.wf_nil, Sparse.set_wf,
      Sparse.modify_wf, Sparse.filter_wf, eq_self, *]

theorem execActivation_carries {s0 s : State} (hc : Carries s0 s) (port : Nat) (flit : SpokeFlit) :
    CarriesTo s0 (execActivation port flit s) := by
  have h := flitRow_carries hc port flit (flit.mtype == 6) (take := fun m s => s.takeActivation m) fun m _ h =>
    State.takeActivation_carries h m
  intro t e
  unfold execActivation at e
  dsimp only at e
  split at e
  · rename_i u hu
    have k := h u hu
    rw [← Host.Outcome.next.inj e]
    have k := State.bumpIf_carries k ((u.spk port).seqRx != (s.spk port).seqRx && s.chain.isSome && flit.dest.toNat == s.addr &&
      !flit.bcast && decide ((s.mgmt.model.active.map (·.maxHops)).getD 16 < flit.hops)) (pid 1 0 0x124)
    split
    · split
      · apply Carries.record (State.bump_carries k _ _) (Nat.le_refl _) <;> with_reducible exact id
      · exact k
    · exact k
  · exact h t e

theorem execBlockStepFinished_carries {s0 s : State} (hc : Carries s0 s) (region : Nat) (block : Nat) : CarriesTo s0
      (execBlockStepFinished region block s) := by
  unfold execBlockStepFinished
  dsimp only
  refine CarriesTo.onUnit hc ?_
  (repeat' with_reducible first
      | assumption
      | exact Carries.refl _
      | refine whenDue_carries ?_ ?_
      | dsimp only
      | refine State.endIfDone_carries ?_
      | refine State.onBlock_carries ?_ _ _
      | refine State.setFld_carries ?_ _ _ _ _
      | split
      | intro _
      | apply Carries.record)
  all_goals simp +contextual only [Nat.le_refl, Nat.le_add_right, imp_self, implies_true, Sparse.wf_nil, Sparse.set_wf,
      Sparse.modify_wf, Sparse.filter_wf, eq_self, *]

theorem armBody_carries {s0 s : State} (hc : Carries s0 s) (r : Req) : Carries s0 (armBody r s).2 := by
  unfold armBody
  refine withLength_carries hc fun r s hc => ?_
  try dsimp only
  (repeat' with_reducible first
      | assumption
      | exact Carries.refl _
      | refine reply_carries ?_ _
      | refine replyWith_carries ?_ _ _
      | refine State.armNow_carries ?_
      | refine later_carries ?_ _ _ _ _
      | refine later_to ?_ _ _ _ _ (by assumption)
      | refine reply_carries ?_ _
      | refine reply_to ?_ _ (by assumption)
      | split
      | intro _
      | apply Carries.record
      | dsimp only)
  all_goals simp +contextual only [Nat.le_refl, Nat.le_add_right, imp_self, implies_true, Sparse.wf_nil, Sparse.set_wf,
      Sparse.modify_wf, Sparse.filter_wf, eq_self, *]

theorem execArm_carries {s0 s : State} (hc : Carries s0 s) (req : Req) : CarriesTo s0 (execArm req s) := by
  unfold execArm
  exact CarriesTo.next (State.commandRow_carries hc _ _ _ fun r _ h => armBody_carries h r)

theorem execStop_carries {s0 s : State} (hc : Carries s0 s) (req : Req) : CarriesTo s0 (execStop req s) := by
  unfold execStop
  refine CarriesTo.next (State.commandRow_carries hc _ _ _ fun r s hc => ?_)
  refine withLength_carries hc fun r s hc => ?_
  try dsimp only
  (repeat' with_reducible first
      | assumption
      | exact Carries.refl _
      | refine reply_carries ?_ _
      | refine replyWith_carries ?_ _ _
      | refine State.stopNow_carries ?_
      | refine State.commandRow_carries ?_ _ _ _
      | refine reply_carries ?_ _
      | refine reply_to ?_ _ (by assumption)
      | split
      | intro _
      | dsimp only)

theorem execPresentNMate_carries {s0 s : State} (hc : Carries s0 s) : CarriesTo s0 (execPresentNMate s) := by
  unfold execPresentNMate
  refine CarriesTo.next ?_
  (repeat' with_reducible first
      | assumption
      | exact Carries.refl _
      | refine whenDue_carries ?_ ?_
      | dsimp only
      | refine State.onBoard_carries ?_ _
      | split
      | intro _
      | apply Carries.record)
  all_goals simp +contextual only [Nat.le_refl, Nat.le_add_right, imp_self, implies_true, Sparse.wf_nil, Sparse.set_wf,
      Sparse.modify_wf, Sparse.filter_wf, eq_self, *]

theorem execVinQualified_carries {s0 s : State} (hc : Carries s0 s) : CarriesTo s0 (execVinQualified s) := by
  unfold execVinQualified
  refine CarriesTo.next ?_
  (repeat' with_reducible first
      | assumption
      | exact Carries.refl _
      | refine whenDue_carries ?_ ?_
      | dsimp only
      | refine State.onBoard_carries ?_ _
      | split
      | intro _
      | apply Carries.record)
  all_goals simp +contextual only [Nat.le_refl, Nat.le_add_right, imp_self, implies_true, Sparse.wf_nil, Sparse.set_wf,
      Sparse.modify_wf, Sparse.filter_wf, eq_self, *]

theorem execVinOutOfRange_carries {s0 s : State} (hc : Carries s0 s) : CarriesTo s0 (execVinOutOfRange s) := by
  unfold execVinOutOfRange
  dsimp only
  refine CarriesTo.next ?_
  (repeat' with_reducible first
      | assumption
      | exact Carries.refl _
      | refine whenDue_carries ?_ ?_
      | dsimp only
      | refine State.unpowered_carries ?_ _ _
      | refine State.takeFree_carries ?_
      | refine State.takeFree_to ?_ (by assumption)
      | split
      | intro _
      | apply Carries.record)
  all_goals simp +contextual only [Nat.le_refl, Nat.le_add_right, imp_self, implies_true, Sparse.wf_nil, Sparse.set_wf,
      Sparse.modify_wf, Sparse.filter_wf, eq_self, *]

theorem execPresentNOpen_carries {s0 s : State} (hc : Carries s0 s) : CarriesTo s0 (execPresentNOpen s) := by
  unfold execPresentNOpen
  refine CarriesTo.next ?_
  (repeat' with_reducible first
      | assumption
      | exact Carries.refl _
      | refine whenDue_carries ?_ ?_
      | dsimp only
      | refine State.unpowered_carries ?_ _ _
      | split
      | intro _)

theorem execOvercurrentTrip_carries {s0 s : State} (hc : Carries s0 s) : CarriesTo s0 (execOvercurrentTrip s) := by
  unfold execOvercurrentTrip
  dsimp only
  refine CarriesTo.next ?_
  (repeat' with_reducible first
      | assumption
      | exact Carries.refl _
      | refine whenDue_carries ?_ ?_
      | dsimp only
      | refine State.unpowered_carries ?_ _ _
      | split
      | intro _)

theorem execOvercurrentRetry_carries {s0 s : State} (hc : Carries s0 s) : CarriesTo s0 (execOvercurrentRetry s) := by
  unfold execOvercurrentRetry
  refine CarriesTo.next ?_
  (repeat' with_reducible first
      | assumption
      | exact Carries.refl _
      | refine whenDue_carries ?_ ?_
      | dsimp only
      | refine State.onBoard_carries ?_ _
      | split
      | intro _
      | apply Carries.record)
  all_goals simp +contextual only [Nat.le_refl, Nat.le_add_right, imp_self, implies_true, Sparse.wf_nil, Sparse.set_wf,
      Sparse.modify_wf, Sparse.filter_wf, eq_self, *]

theorem execPowerGood_carries {s0 s : State} (hc : Carries s0 s) (compatSel : Bool) : CarriesTo s0 (execPowerGood
      compatSel s) := by
  unfold execPowerGood
  dsimp only
  refine CarriesTo.next ?_
  (repeat' with_reducible first
      | assumption
      | exact Carries.refl _
      | refine whenDue_carries ?_ ?_
      | dsimp only
      | refine State.finishErase_carries ?_
      | refine State.unpowered_carries ?_ _ _
      | refine State.sampleCompat_carries ?_ _
      | refine State.onSec_carries ?_ _
      | split
      | intro _
      | apply Carries.record)
  all_goals simp +contextual only [Nat.le_refl, Nat.le_add_right, imp_self, implies_true, Sparse.wf_nil, Sparse.set_wf,
      Sparse.modify_wf, Sparse.filter_wf, eq_self, *]

theorem execBootSliceSetDone_carries {s0 s : State} (hc : Carries s0 s) (results : List SliceResult) : CarriesTo s0
      (execBootSliceSetDone results s) := by
  unfold execBootSliceSetDone
  dsimp only
  refine CarriesTo.next ?_
  (repeat' with_reducible first
      | assumption
      | exact Carries.refl _
      | refine whenDue_carries ?_ ?_
      | dsimp only
      | refine State.enterSafe_carries ?_
      | refine State.recordRun_carries ?_ _ _
      | refine State.onTest_carries ?_ _
      | refine State.onFault_carries ?_ _
      | refine State.setFld_carries ?_ _ _ _ _
      | split
      | intro _
      | apply Carries.record)
  all_goals simp +contextual only [Nat.le_refl, Nat.le_add_right, imp_self, implies_true, Sparse.wf_nil, Sparse.set_wf,
      Sparse.modify_wf, Sparse.filter_wf, eq_self, *]

theorem execFirmwareVerified_carries {s0 s : State} (hc : Carries s0 s) (preferredOk : Bool) (otherOk : Bool) : CarriesTo
      s0 (execFirmwareVerified preferredOk otherOk s) := by
  unfold execFirmwareVerified
  dsimp only
  refine CarriesTo.next ?_
  (repeat' with_reducible first
      | assumption
      | exact Carries.refl _
      | refine whenDue_carries ?_ ?_
      | dsimp only
      | refine State.runCopy_carries ?_ _ _
      | refine State.enterSafe_carries ?_
      | refine State.onTest_carries ?_ _
      | split
      | intro _
      | apply Carries.record)
  all_goals simp +contextual only [Nat.le_refl, Nat.le_add_right, imp_self, implies_true, Sparse.wf_nil, Sparse.set_wf,
      Sparse.modify_wf, Sparse.filter_wf, eq_self, *]

theorem execStartupReady_carries {s0 s : State} (hc : Carries s0 s) : CarriesTo s0 (execStartupReady s) := by
  unfold execStartupReady
  refine CarriesTo.next ?_
  (repeat' with_reducible first
      | assumption
      | exact Carries.refl _
      | refine whenDue_carries ?_ ?_
      | dsimp only
      | refine State.fuseFirmware_carries ?_
      | split
      | intro _
      | apply Carries.record)
  all_goals simp +contextual only [Nat.le_refl, Nat.le_add_right, imp_self, implies_true, Sparse.wf_nil, Sparse.set_wf,
      Sparse.modify_wf, Sparse.filter_wf, eq_self, *]

theorem execModuleResetExecute_carries {s0 s : State} (hc : Carries s0 s) (compatSel : Bool) : CarriesTo s0
      (execModuleResetExecute compatSel s) := by
  unfold execModuleResetExecute
  refine CarriesTo.next ?_
  (repeat' with_reducible first
      | assumption
      | exact Carries.refl _
      | refine whenDue_carries ?_ ?_
      | dsimp only
      | refine State.rebooted_carries ?_ _ _
      | split
      | intro _)

theorem execModelStoreCopyDone_carries {s0 s : State} (hc : Carries s0 s) : CarriesTo s0 (execModelStoreCopyDone s) := by
  unfold execModelStoreCopyDone
  refine CarriesTo.next ?_
  (repeat' with_reducible first
      | assumption
      | exact Carries.refl _
      | refine whenDue_carries ?_ ?_
      | dsimp only
      | refine State.onBoard_carries ?_ _
      | split
      | intro _
      | apply Carries.record)
  all_goals simp +contextual only [Nat.le_refl, Nat.le_add_right, imp_self, implies_true, Sparse.wf_nil, Sparse.set_wf,
      Sparse.modify_wf, Sparse.filter_wf, eq_self, *]

theorem execMonitorSnapSwap_carries {s0 s : State} (hc : Carries s0 s) : CarriesTo s0 (execMonitorSnapSwap s) := by
  unfold execMonitorSnapSwap
  dsimp only
  refine CarriesTo.next ?_
  (repeat' with_reducible first
      | assumption
      | exact Carries.refl _
      | refine whenDue_carries ?_ ?_
      | dsimp only
      | refine State.appendHistory_carries ?_ _
      | refine State.swapMon_carries ?_ _
      | refine forEach_carries (fun _ _ _ => ?_) _ ?_
      | split
      | intro _
      | apply Carries.record)
  all_goals simp +contextual only [Nat.le_refl, Nat.le_add_right, imp_self, implies_true, Sparse.wf_nil, Sparse.set_wf,
      Sparse.modify_wf, Sparse.filter_wf, eq_self, *]

theorem execMonitorSampleTick_carries {s0 s : State} (hc : Carries s0 s) (channel : Nat) (value : Word) :
    CarriesTo s0 (execMonitorSampleTick channel value s) := by
  unfold execMonitorSampleTick
  refine CarriesTo.onUnit hc (whenDue_carries hc ?_)
  dsimp only
  split
  · exact State.onMon_carries (State.sampleOn_carries hc _ _) _ _
  · apply Carries.record (State.onMon_carries (State.sampleOn_carries hc _ _) _ _) (Nat.le_refl _) <;> first
      | with_reducible exact id
      | (intro c; dsimp only; exact Sparse.set_wf (m := s.head.passed) _ _ c)
      | exact id
  · exact State.onMon_carries (State.sampleOn_carries hc _ _) _ _
  · exact hc

theorem monReadBody_carries {s0 s : State} (hc : Carries s0 s) (r : Req) : Carries s0 (monReadBody r s).2 := by
  unfold monReadBody
  refine withLength_carries hc fun r s hc => ?_
  try dsimp only
  (repeat' with_reducible first
      | assumption
      | exact Carries.refl _
      | refine reply_carries ?_ _
      | refine replyWith_carries ?_ _ _
      | refine replyWith_carries ?_ _ _
      | refine replyWith_to ?_ _ _ (by assumption)
      | refine reply_carries ?_ _
      | refine reply_to ?_ _ (by assumption)
      | split
      | intro _
      | apply Carries.record
      | dsimp only)
  all_goals simp +contextual only [Nat.le_refl, Nat.le_add_right, imp_self, implies_true, Sparse.wf_nil, Sparse.set_wf,
      Sparse.modify_wf, Sparse.filter_wf, eq_self, *]

theorem execMonRead_carries {s0 s : State} (hc : Carries s0 s) (req : Req) : CarriesTo s0 (execMonRead req s) := by
  unfold execMonRead
  exact CarriesTo.next (State.commandRow_carries hc _ _ _ fun r _ h => monReadBody_carries h r)

theorem execMonClear_carries {s0 s : State} (hc : Carries s0 s) (req : Req) : CarriesTo s0 (execMonClear req s) := by
  unfold execMonClear
  refine CarriesTo.next (State.commandRow_carries hc _ _ _ fun r s hc => ?_)
  refine withLength_carries hc fun r s hc => ?_
  try dsimp only
  (repeat' with_reducible first
      | assumption
      | exact Carries.refl _
      | refine reply_carries ?_ _
      | refine replyWith_carries ?_ _ _
      | refine State.commandRow_carries ?_ _ _ _
      | refine reply_carries ?_ _
      | refine reply_to ?_ _ (by assumption)
      | refine State.onMon_carries ?_ _ _
      | refine forEach_carries (fun _ _ _ => ?_) _ ?_
      | split
      | intro _
      | apply Carries.record
      | dsimp only)
  all_goals simp +contextual only [Nat.le_refl, Nat.le_add_right, imp_self, implies_true, Sparse.wf_nil, Sparse.set_wf,
      Sparse.modify_wf, Sparse.filter_wf, eq_self, *]

theorem logReadBody_carries {s0 s : State} (hc : Carries s0 s) (r : Req) : Carries s0 (logReadBody r s).2 := by
  unfold logReadBody
  refine withLength_carries hc fun r s hc => ?_
  extract_lets p log n
  rw [apply_ite Prod.snd]
  refine Carries.ite hc ?_
  split
  exact hc

theorem execLogRead_carries {s0 s : State} (hc : Carries s0 s) (req : Req) : CarriesTo s0 (execLogRead req s) := by
  unfold execLogRead
  exact CarriesTo.next (State.commandRow_carries hc _ _ _ fun r _ h => logReadBody_carries h r)

theorem execFatalError_carries {s0 s : State} (hc : Carries s0 s) (cause : Nat) : CarriesTo s0 (execFatalError cause s) := by
  unfold execFatalError
  refine CarriesTo.next ?_
  (repeat' with_reducible first
      | assumption
      | exact Carries.refl _
      | refine whenDue_carries ?_ ?_
      | dsimp only
      | refine State.fatal_carries ?_ _ _
      | split
      | intro _)

theorem execFatalDumpDone_carries {s0 s : State} (hc : Carries s0 s) (compatSel : Bool) : CarriesTo s0 (execFatalDumpDone
      compatSel s) := by
  unfold execFatalDumpDone
  dsimp only
  refine CarriesTo.next ?_
  (repeat' with_reducible first
      | assumption
      | exact Carries.refl _
      | refine whenDue_carries ?_ ?_
      | dsimp only
      | refine State.editHeader_carries ?_ _ _
      | refine State.writeDump_carries ?_
      | refine State.fatal_carries ?_ _ _
      | refine State.rebooted_carries ?_ _ _
      | split
      | intro _
      | apply Carries.record)
  all_goals simp +contextual only [Nat.le_refl, Nat.le_add_right, imp_self, implies_true, Sparse.wf_nil, Sparse.set_wf,
      Sparse.modify_wf, Sparse.filter_wf, eq_self, *]

theorem execDumpInfo_carries {s0 s : State} (hc : Carries s0 s) (req : Req) : CarriesTo s0 (execDumpInfo req s) := by
  unfold execDumpInfo
  refine CarriesTo.next (State.commandRow_carries hc _ _ _ fun r s hc => ?_)
  refine withLength_carries hc fun r s hc => ?_
  try dsimp only
  (repeat' with_reducible first
      | assumption
      | exact Carries.refl _
      | refine reply_carries ?_ _
      | refine replyWith_carries ?_ _ _
      | refine replyWith_carries ?_ _ _
      | refine replyWith_to ?_ _ _ (by assumption)
      | refine State.commandRow_carries ?_ _ _ _
      | split
      | intro _
      | dsimp only)

theorem execDumpClear_carries {s0 s : State} (hc : Carries s0 s) (req : Req) : CarriesTo s0 (execDumpClear req s) := by
  unfold execDumpClear
  refine CarriesTo.next (State.commandRow_carries hc _ _ _ fun r s hc => ?_)
  refine withLength_carries hc fun r s hc => ?_
  try dsimp only
  (repeat' with_reducible first
      | assumption
      | exact Carries.refl _
      | refine reply_carries ?_ _
      | refine replyWith_carries ?_ _ _
      | refine State.editHeader_carries ?_ _ _
      | refine State.commandRow_carries ?_ _ _ _
      | refine reply_carries ?_ _
      | refine reply_to ?_ _ (by assumption)
      | refine State.writeByte_carries ?_ _ _
      | split
      | intro _
      | dsimp only)

theorem execRegionFailureReport_carries {s0 s : State} (hc : Carries s0 s) (region : Nat) : CarriesTo s0
      (execRegionFailureReport region s) := by
  unfold execRegionFailureReport
  dsimp only
  refine CarriesTo.onUnit hc ?_
  (repeat' with_reducible first
      | assumption
      | exact Carries.refl _
      | refine whenDue_carries ?_ ?_
      | dsimp only
      | refine State.regionFault_carries ?_ _ _ _
      | split
      | intro _
      | apply Carries.record)
  all_goals simp +contextual only [Nat.le_refl, Nat.le_add_right, imp_self, implies_true, Sparse.wf_nil, Sparse.set_wf,
      Sparse.modify_wf, Sparse.filter_wf, eq_self, *]

theorem execStepDeadlineMiss_carries {s0 s : State} (hc : Carries s0 s) (region : Nat) : CarriesTo s0
      (execStepDeadlineMiss region s) := by
  unfold execStepDeadlineMiss
  refine CarriesTo.onUnit hc ?_
  (repeat' with_reducible first
      | assumption
      | exact Carries.refl _
      | refine whenDue_carries ?_ ?_
      | dsimp only
      | refine State.regionFault_carries ?_ _ _ _
      | split
      | intro _)

theorem execHubHeartbeatMiss_carries {s0 s : State} (hc : Carries s0 s) (region : Nat) : CarriesTo s0
      (execHubHeartbeatMiss region s) := by
  unfold execHubHeartbeatMiss
  refine CarriesTo.onUnit hc ?_
  (repeat' with_reducible first
      | assumption
      | exact Carries.refl _
      | refine whenDue_carries ?_ ?_
      | dsimp only
      | refine State.regionFault_carries ?_ _ _ _
      | split
      | intro _)

theorem execClockLockLoss_carries {s0 s : State} (hc : Carries s0 s) (domain : Nat) : CarriesTo s0 (execClockLockLoss
      domain s) := by
  unfold execClockLockLoss
  dsimp only
  refine CarriesTo.onUnit hc ?_
  (repeat' with_reducible first
      | assumption
      | exact Carries.refl _
      | refine whenDue_carries ?_ ?_
      | dsimp only
      | refine State.regionFault_carries ?_ _ _ _
      | refine State.fatal_carries ?_ _ _
      | refine State.report_carries ?_ _ _ _ _
      | refine State.onFault_carries ?_ _
      | split
      | intro _
      | apply Carries.record)
  all_goals simp +contextual only [Nat.le_refl, Nat.le_add_right, imp_self, implies_true, Sparse.wf_nil, Sparse.set_wf,
      Sparse.modify_wf, Sparse.filter_wf, eq_self, *]

theorem execAutoRetestTimer_carries {s0 s : State} (hc : Carries s0 s) : CarriesTo s0 (execAutoRetestTimer s) := by
  unfold execAutoRetestTimer
  refine CarriesTo.next ?_
  (repeat' with_reducible first
      | assumption
      | exact Carries.refl _
      | refine whenDue_carries ?_ ?_
      | dsimp only
      | refine State.noteFailed_carries ?_ _ _
      | refine State.startRetest_carries ?_ _
      | split
      | intro _
      | apply Carries.record)
  all_goals simp +contextual only [Nat.le_refl, Nat.le_add_right, imp_self, implies_true, Sparse.wf_nil, Sparse.set_wf,
      Sparse.modify_wf, Sparse.filter_wf, eq_self, *]

theorem execRetestDone_carries {s0 s : State} (hc : Carries s0 s) (results : List SliceResult) : CarriesTo s0
      (execRetestDone results s) := by
  unfold execRetestDone
  dsimp only
  refine CarriesTo.next ?_
  (repeat' with_reducible first
      | assumption
      | exact Carries.refl _
      | refine whenDue_carries ?_ ?_
      | dsimp only
      | refine State.retestPasses_carries ?_ _
      | refine State.retestFails_carries ?_ _
      | refine State.countSlices_carries ?_ _
      | split
      | intro _
      | apply Carries.record)
  all_goals simp +contextual only [Nat.le_refl, Nat.le_add_right, imp_self, implies_true, Sparse.wf_nil, Sparse.set_wf,
      Sparse.modify_wf, Sparse.filter_wf, eq_self, *]

theorem execPowerTransitionDone_carries {s0 s : State} (hc : Carries s0 s) (domain : Nat) (ok : Bool) : CarriesTo s0
      (execPowerTransitionDone domain ok s) := by
  unfold execPowerTransitionDone
  refine CarriesTo.onUnit hc ?_
  (repeat' with_reducible first
      | assumption
      | exact Carries.refl _
      | refine whenDue_carries ?_ ?_
      | dsimp only
      | refine State.restoreFailed_carries ?_ _
      | refine State.entered_carries ?_ _ _
      | refine State.wokeUp_carries ?_ _
      | refine State.rebuild_carries ?_ _
      | refine State.onPdom_carries ?_ _ _
      | split
      | intro _
      | apply Carries.record)
  all_goals simp +contextual only [Nat.le_refl, Nat.le_add_right, imp_self, implies_true, Sparse.wf_nil, Sparse.set_wf,
      Sparse.modify_wf, Sparse.filter_wf, eq_self, *]

theorem execBlockErrorReport_carries {s0 s : State} (hc : Carries s0 s) (report : ErrorReport) : CarriesTo s0
      (execBlockErrorReport report s) := by
  unfold execBlockErrorReport
  refine CarriesTo.onUnit hc ?_
  (repeat' with_reducible first
      | assumption
      | exact Carries.refl _
      | refine whenDue_carries ?_ ?_
      | dsimp only
      | refine State.blockError_carries ?_ _
      | refine State.queueReset_carries ?_ _
      | split
      | intro _)

theorem execScrubAccess_carries {s0 s : State} (hc : Carries s0 s) (bank : Nat) (ecc : EccCheck) (lastOfPass : Bool) :
      CarriesTo s0 (execScrubAccess bank ecc lastOfPass s) := by
  unfold execScrubAccess
  dsimp only
  refine CarriesTo.onUnit hc ?_
  (repeat' with_reducible first
      | assumption
      | exact Carries.refl _
      | refine whenDue_carries ?_ ?_
      | dsimp only
      | refine State.wordBad_carries ?_ _
      | refine State.wordCorrected_carries ?_ _
      | refine State.onFault_carries ?_ _
      | refine State.bumpIf_carries ?_ _ _
      | split
      | intro _
      | apply Carries.record)
  all_goals simp +contextual only [Nat.le_refl, Nat.le_add_right, imp_self, implies_true, Sparse.wf_nil, Sparse.set_wf,
      Sparse.modify_wf, Sparse.filter_wf, eq_self, *]

theorem execPatrolScrub_carries {s0 s : State} (hc : Carries s0 s) (area : Nat) (ecc : EccCheck) : CarriesTo s0
      (execPatrolScrub area ecc s) := by
  unfold execPatrolScrub
  refine CarriesTo.onUnit hc ?_
  (repeat' with_reducible first
      | assumption
      | exact Carries.refl _
      | refine whenDue_carries ?_ ?_
      | dsimp only
      | refine State.report_carries ?_ _ _ _ _
      | refine State.countUe_carries ?_ _
      | refine State.bump_carries ?_ _ _
      | split
      | intro _
      | apply Carries.record)
  all_goals simp +contextual only [Nat.le_refl, Nat.le_add_right, imp_self, implies_true, Sparse.wf_nil, Sparse.set_wf,
      Sparse.modify_wf, Sparse.filter_wf, eq_self, *]

theorem execWatchdogTimeout_carries {s0 s : State} (hc : Carries s0 s) : CarriesTo s0 (execWatchdogTimeout s) := by
  unfold execWatchdogTimeout
  refine CarriesTo.next ?_
  (repeat' with_reducible first
      | assumption
      | exact Carries.refl _
      | refine whenDue_carries ?_ ?_
      | dsimp only
      | refine State.warmRestart_carries ?_
      | refine State.logEntry_carries ?_ _ _ _
      | split
      | intro _)

theorem execMillerWarmRestart_carries {s0 s : State} (hc : Carries s0 s) (cause : RestartCause) : CarriesTo s0
      (execMillerWarmRestart cause s) := by
  unfold execMillerWarmRestart
  refine CarriesTo.next ?_
  (repeat' with_reducible first
      | assumption
      | exact Carries.refl _
      | refine whenDue_carries ?_ ?_
      | dsimp only
      | refine State.warmRestart_carries ?_
      | refine State.countUe_carries ?_ _
      | refine State.logEntry_carries ?_ _ _ _
      | split
      | intro _
      | apply Carries.record)
  all_goals simp +contextual only [Nat.le_refl, Nat.le_add_right, imp_self, implies_true, Sparse.wf_nil, Sparse.set_wf,
      Sparse.modify_wf, Sparse.filter_wf, eq_self, *]

theorem execRestartDone_carries {s0 s : State} (hc : Carries s0 s) (tablesOk : Bool) : CarriesTo s0 (execRestartDone
      tablesOk s) := by
  unfold execRestartDone
  refine CarriesTo.next ?_
  (repeat' with_reducible first
      | assumption
      | exact Carries.refl _
      | refine whenDue_carries ?_ ?_
      | dsimp only
      | refine State.restartEnds_carries ?_
      | refine State.fatal_carries ?_ _ _
      | split
      | intro _)

theorem execRestartTimeout_carries {s0 s : State} (hc : Carries s0 s) : CarriesTo s0 (execRestartTimeout s) := by
  unfold execRestartTimeout
  refine CarriesTo.next ?_
  (repeat' with_reducible first
      | assumption
      | exact Carries.refl _
      | refine whenDue_carries ?_ ?_
      | dsimp only
      | refine State.fatal_carries ?_ _ _
      | split
      | intro _
      | apply Carries.record)
  all_goals simp +contextual only [Nat.le_refl, Nat.le_add_right, imp_self, implies_true, Sparse.wf_nil, Sparse.set_wf,
      Sparse.modify_wf, Sparse.filter_wf, eq_self, *]

theorem execGetIdentity_carries {s0 s : State} (hc : Carries s0 s) (req : Req) : CarriesTo s0 (execGetIdentity req s) := by
  unfold execGetIdentity
  refine CarriesTo.next (State.commandRow_carries hc _ _ _ fun r s hc => ?_)
  refine withLength_carries hc fun r s hc => ?_
  try dsimp only
  (repeat' with_reducible first
      | assumption
      | exact Carries.refl _
      | refine reply_carries ?_ _
      | refine replyWith_carries ?_ _ _
      | refine replyWith_carries ?_ _ _
      | refine replyWith_to ?_ _ _ (by assumption)
      | refine State.commandRow_carries ?_ _ _ _
      | split
      | intro _
      | dsimp only)

theorem attestBody_carries {s0 s : State} (hc : Carries s0 s) (r : Req) : Carries s0 (attestBody r s).2 := by
  unfold attestBody
  refine withLength_carries hc fun r s hc => ?_
  try dsimp only
  (repeat' with_reducible first
      | assumption
      | exact Carries.refl _
      | refine reply_carries ?_ _
      | refine replyWith_carries ?_ _ _
      | refine later_carries ?_ _ _ _ _
      | refine later_to ?_ _ _ _ _ (by assumption)
      | refine reply_carries ?_ _
      | refine reply_to ?_ _ (by assumption)
      | refine State.takeFree_carries ?_
      | refine State.takeFree_to ?_ (by assumption)
      | refine State.bump_carries ?_ _ _
      | split
      | intro _
      | apply Carries.record
      | dsimp only)
  all_goals simp +contextual only [Nat.le_refl, Nat.le_add_right, imp_self, implies_true, Sparse.wf_nil, Sparse.set_wf,
      Sparse.modify_wf, Sparse.filter_wf, eq_self, *]

theorem execAttest_carries {s0 s : State} (hc : Carries s0 s) (req : Req) : CarriesTo s0 (execAttest req s) := by
  unfold execAttest
  exact CarriesTo.next (State.commandRow_carries hc _ _ _ fun r _ h => attestBody_carries h r)

theorem execLifecycleGet_carries {s0 s : State} (hc : Carries s0 s) (req : Req) : CarriesTo s0 (execLifecycleGet req s) := by
  unfold execLifecycleGet
  refine CarriesTo.next (State.commandRow_carries hc _ _ _ fun r s hc => ?_)
  refine withLength_carries hc fun r s hc => ?_
  try dsimp only
  (repeat' with_reducible first
      | assumption
      | exact Carries.refl _
      | refine reply_carries ?_ _
      | refine replyWith_carries ?_ _ _
      | refine State.newNonce_carries ?_
      | refine replyWith_carries ?_ _ _
      | refine replyWith_to ?_ _ _ (by assumption)
      | refine State.commandRow_carries ?_ _ _ _
      | split
      | intro _
      | dsimp only)

theorem lifecycleSetBody_carries {s0 s : State} (hc : Carries s0 s) (r : Req) : Carries s0 (lifecycleSetBody r s).2 := by
  unfold lifecycleSetBody
  try dsimp only
  (repeat' with_reducible first
      | assumption
      | exact Carries.refl _
      | refine reply_carries ?_ _
      | refine replyWith_carries ?_ _ _
      | refine State.blowFuse_carries ?_ _ _
      | refine State.newNonce_carries ?_
      | refine later_carries ?_ _ _ _ _
      | refine later_to ?_ _ _ _ _ (by assumption)
      | refine State.countAuth_carries ?_ _
      | refine reply_carries ?_ _
      | refine reply_to ?_ _ (by assumption)
      | refine State.bump_carries ?_ _ _
      | split
      | intro _
      | apply Carries.record
      | dsimp only)
  all_goals simp +contextual only [Nat.le_refl, Nat.le_add_right, imp_self, implies_true, Sparse.wf_nil, Sparse.set_wf,
      Sparse.modify_wf, Sparse.filter_wf, eq_self, *]

theorem execLifecycleSet_carries {s0 s : State} (hc : Carries s0 s) (req : Req) : CarriesTo s0 (execLifecycleSet req s) := by
  unfold execLifecycleSet
  exact CarriesTo.next (State.commandRow_carries hc _ _ _ fun r _ h => lifecycleSetBody_carries h r)

theorem firmwareActivateBody_carries {s0 s : State} (hc : Carries s0 s) (r : Req) : Carries s0 (firmwareActivateBody r
      s).2 := by
  unfold firmwareActivateBody
  refine withLength_carries hc fun r s hc => ?_
  try dsimp only
  (repeat' with_reducible first
      | assumption
      | exact Carries.refl _
      | refine reply_carries ?_ _
      | refine replyWith_carries ?_ _ _
      | refine State.firmwareWriting_carries ?_
      | refine later_carries ?_ _ _ _ _
      | refine later_to ?_ _ _ _ _ (by assumption)
      | refine State.countAuth_carries ?_ _
      | refine reply_carries ?_ _
      | refine reply_to ?_ _ (by assumption)
      | split
      | intro _
      | apply Carries.record
      | dsimp only)
  all_goals simp +contextual only [Nat.le_refl, Nat.le_add_right, imp_self, implies_true, Sparse.wf_nil, Sparse.set_wf,
      Sparse.modify_wf, Sparse.filter_wf, eq_self, *]

theorem execFirmwareActivate_carries {s0 s : State} (hc : Carries s0 s) (req : Req) : CarriesTo s0 (execFirmwareActivate
      req s) := by
  unfold execFirmwareActivate
  exact CarriesTo.next (State.commandRow_carries hc _ _ _ fun r _ h => firmwareActivateBody_carries h r)

theorem execTestReport_carries {s0 s : State} (hc : Carries s0 s) (req : Req) : CarriesTo s0 (execTestReport req s) := by
  unfold execTestReport
  refine CarriesTo.next (State.commandRow_carries hc _ _ _ fun r s hc => ?_)
  refine withLength_carries hc fun r s hc => ?_
  try dsimp only
  (repeat' with_reducible first
      | assumption
      | exact Carries.refl _
      | refine reply_carries ?_ _
      | refine replyWith_carries ?_ _ _
      | refine replyWith_carries ?_ _ _
      | refine replyWith_to ?_ _ _ (by assumption)
      | refine State.commandRow_carries ?_ _ _ _
      | split
      | intro _
      | dsimp only)

theorem bistRunBody_carries {s0 s : State} (hc : Carries s0 s) (r : Req) : Carries s0 (bistRunBody r s).2 := by
  unfold bistRunBody
  try dsimp only
  (repeat' with_reducible first
      | assumption
      | exact Carries.refl _
      | refine reply_carries ?_ _
      | refine replyWith_carries ?_ _ _
      | refine later_carries ?_ _ _ _ _
      | refine later_to ?_ _ _ _ _ (by assumption)
      | refine reply_carries ?_ _
      | refine reply_to ?_ _ (by assumption)
      | split
      | intro _
      | apply Carries.record
      | dsimp only)
  all_goals simp +contextual only [Nat.le_refl, Nat.le_add_right, imp_self, implies_true, Sparse.wf_nil, Sparse.set_wf,
      Sparse.modify_wf, Sparse.filter_wf, eq_self, *]

theorem execBistRun_carries {s0 s : State} (hc : Carries s0 s) (req : Req) : CarriesTo s0 (execBistRun req s) := by
  unfold execBistRun
  exact CarriesTo.next (State.commandRow_carries hc _ _ _ fun r _ h => bistRunBody_carries h r)

theorem camSupplyBody_carries {s0 s : State} (hc : Carries s0 s) (r : Req) : Carries s0 (camSupplyBody r s).2 := by
  unfold camSupplyBody
  refine withLength_carries hc fun r s hc => ?_
  try dsimp only
  (repeat' with_reducible first
      | assumption
      | exact Carries.refl _
      | refine reply_carries ?_ _
      | refine replyWith_carries ?_ _ _
      | refine State.startRunning_carries ?_ _ _ _ _
      | refine reply_carries ?_ _
      | refine reply_to ?_ _ (by assumption)
      | refine State.onBoard_carries ?_ _
      | refine State.setFld_carries ?_ _ _ _ _
      | split
      | intro _
      | apply Carries.record
      | dsimp only)
  all_goals simp +contextual only [Nat.le_refl, Nat.le_add_right, imp_self, implies_true, Sparse.wf_nil, Sparse.set_wf,
      Sparse.modify_wf, Sparse.filter_wf, eq_self, *]

theorem execCamSupply_carries {s0 s : State} (hc : Carries s0 s) (req : Req) : CarriesTo s0 (execCamSupply req s) := by
  unfold execCamSupply
  exact CarriesTo.next (State.commandRow_carries hc _ _ _ fun r _ h => camSupplyBody_carries h r)

theorem execCamSupplyTrip_carries {s0 s : State} (hc : Carries s0 s) (port : Nat) : CarriesTo s0 (execCamSupplyTrip port
      s) := by
  unfold execCamSupplyTrip
  dsimp only
  refine CarriesTo.onUnit hc ?_
  (repeat' with_reducible first
      | assumption
      | exact Carries.refl _
      | refine whenDue_carries ?_ ?_
      | dsimp only
      | refine State.camTrip_carries ?_ _
      | apply State.onHost_carries
      | refine State.onBoard_carries ?_ _
      | split
      | intro _
      | apply Carries.record)
  all_goals simp +contextual only [Nat.le_refl, Nat.le_add_right, imp_self, implies_true, Sparse.wf_nil, Sparse.set_wf,
      Sparse.modify_wf, Sparse.filter_wf, eq_self, *]

theorem execTempSample_carries {s0 s : State} (hc : Carries s0 s) (sensor : Nat) (reading : BitVec 16) : CarriesTo s0
      (execTempSample sensor reading s) := by
  unfold execTempSample
  dsimp only
  refine CarriesTo.onUnit hc ?_
  (repeat' with_reducible first
      | assumption
      | exact Carries.refl _
      | refine whenDue_carries ?_ ?_
      | dsimp only
      | refine State.fatal_carries ?_ _ _
      | refine State.sample_carries ?_ _ _ _
      | refine State.report_carries ?_ _ _ _ _
      | refine State.onFault_carries ?_ _
      | refine State.flagIf_carries ?_ _ _ _
      | refine State.setFld_carries ?_ _ _ _ _
      | refine State.setWord_carries ?_ _ _
      | split
      | intro _
      | apply Carries.record)
  all_goals simp +contextual only [Nat.le_refl, Nat.le_add_right, imp_self, implies_true, Sparse.wf_nil, Sparse.set_wf,
      Sparse.modify_wf, Sparse.filter_wf, eq_self, *]

theorem execRailSample_carries {s0 s : State} (hc : Carries s0 s) (rail : Nat) (reading : BitVec 16) (sustained : Bool) :
      CarriesTo s0 (execRailSample rail reading sustained s) := by
  unfold execRailSample
  dsimp only
  refine CarriesTo.onUnit hc ?_
  (repeat' with_reducible first
      | assumption
      | exact Carries.refl _
      | refine whenDue_carries ?_ ?_
      | dsimp only
      | refine State.fatal_carries ?_ _ _
      | refine State.sample_carries ?_ _ _ _
      | refine State.setWord_carries ?_ _ _
      | split
      | intro _)

theorem execEthBlockLockLost_carries {s0 s : State} (hc : Carries s0 s) (port : Nat) : CarriesTo s0 (execEthBlockLockLost
      port s) := by
  unfold execEthBlockLockLost
  dsimp only
  refine CarriesTo.onUnit hc ?_
  (repeat' with_reducible first
      | assumption
      | exact Carries.refl _
      | refine whenDue_carries ?_ ?_
      | dsimp only
      | refine State.report_carries ?_ _ _ _ _
      | refine State.bump_carries ?_ _ _
      | refine State.flag_carries ?_ _ _
      | refine State.setFld_carries ?_ _ _ _ _
      | split
      | intro _)

theorem execEthBlockLockGained_carries {s0 s : State} (hc : Carries s0 s) (port : Nat) : CarriesTo s0
      (execEthBlockLockGained port s) := by
  unfold execEthBlockLockGained
  refine CarriesTo.onUnit hc ?_
  (repeat' with_reducible first
      | assumption
      | exact Carries.refl _
      | refine whenDue_carries ?_ ?_
      | dsimp only
      | refine State.relocked_carries ?_ _
      | refine State.setFld_carries ?_ _ _ _ _
      | split
      | intro _)

theorem execEthFrameRx_carries {s0 s : State} (hc : Carries s0 s) (port : Nat) (fcsOk : Bool) : CarriesTo s0
      (execEthFrameRx port fcsOk s) := by
  unfold execEthFrameRx
  refine CarriesTo.onUnit hc ?_
  (repeat' with_reducible first
      | assumption
      | exact Carries.refl _
      | refine whenDue_carries ?_ ?_
      | dsimp only
      | refine State.framesRx_carries ?_ _
      | refine State.bump_carries ?_ _ _
      | split
      | intro _)

theorem execCommandCompletion_carries {s0 s : State} (hc : Carries s0 s) (tag : BitVec 12) (later : Completion) :
      CarriesTo s0 (execCommandCompletion tag later s) := by
  unfold execCommandCompletion
  refine CarriesTo.next ?_
  (repeat' with_reducible first
      | assumption
      | exact Carries.refl _
      | refine whenDue_carries ?_ ?_
      | dsimp only
      | refine State.complete_carries ?_ _ _
      | refine later_carries ?_ _ _ _ _
      | refine later_to ?_ _ _ _ _ (by assumption)
      | split
      | intro _
      | apply Carries.record)
  all_goals simp +contextual only [Nat.le_refl, Nat.le_add_right, imp_self, implies_true, Sparse.wf_nil, Sparse.set_wf,
      Sparse.modify_wf, Sparse.filter_wf, eq_self, *]

theorem execParamWordWrite_carries {s0 s : State} (hc : Carries s0 s) (id : Word) (value : Word) : CarriesTo s0
      (execParamWordWrite id value s) := by
  unfold execParamWordWrite
  refine CarriesTo.next ?_
  (repeat' with_reducible first
      | assumption
      | exact Carries.refl _
      | refine whenDue_carries ?_ ?_
      | dsimp only
      | refine State.wordWrite_carries ?_ _ _
      | split
      | intro _)

theorem execCountSetWrite_carries {s0 s : State} (hc : Carries s0 s) (value : Word) : CarriesTo s0 (execCountSetWrite
      value s) := by
  unfold execCountSetWrite
  refine CarriesTo.next ?_
  (repeat' with_reducible first
      | assumption
      | exact Carries.refl _
      | refine whenDue_carries ?_ ?_
      | dsimp only
      | refine State.wordWrite_carries ?_ _ _
      | split
      | intro _)

theorem execPositionCountRead_carries {s0 s : State} (hc : Carries s0 s) : CarriesTo s0 (execPositionCountRead s) := by
  unfold execPositionCountRead
  refine CarriesTo.next ?_
  (repeat' with_reducible first
      | assumption
      | exact Carries.refl _
      | refine whenDue_carries ?_ ?_
      | dsimp only
      | refine State.wordRead_carries ?_ _
      | split
      | intro _)

theorem execFmtDescriptorWrite_carries {s0 s : State} (hc : Carries s0 s) (port : Nat) (descriptor : Nat) (word : Nat)
      (value : Word) : CarriesTo s0 (execFmtDescriptorWrite port descriptor word value s) := by
  unfold execFmtDescriptorWrite
  refine CarriesTo.onInstance hc ?_
  (repeat' with_reducible first
      | assumption
      | exact Carries.refl _
      | refine whenDue_carries ?_ ?_
      | dsimp only
      | refine State.wordWrite_carries ?_ _ _
      | split
      | intro _)

theorem execTimeSwitchWrite_carries {s0 s : State} (hc : Carries s0 s) (value : Word) : CarriesTo s0 (execTimeSwitchWrite
      value s) := by
  unfold execTimeSwitchWrite
  refine CarriesTo.next ?_
  (repeat' with_reducible first
      | assumption
      | exact Carries.refl _
      | refine whenDue_carries ?_ ?_
      | dsimp only
      | refine State.wordWrite_carries ?_ _ _
      | split
      | intro _)

theorem execDomainRelockWrite_carries {s0 s : State} (hc : Carries s0 s) (domain : Nat) (value : Word) : CarriesTo s0
      (execDomainRelockWrite domain value s) := by
  unfold execDomainRelockWrite
  refine CarriesTo.onInstance hc ?_
  (repeat' with_reducible first
      | assumption
      | exact Carries.refl _
      | refine whenDue_carries ?_ ?_
      | dsimp only
      | refine State.wordWrite_carries ?_ _ _
      | split
      | intro _)

theorem execServoEnableWrite_carries {s0 s : State} (hc : Carries s0 s) (domainWord : Option Nat) (value : Word) :
      CarriesTo s0 (execServoEnableWrite domainWord value s) := by
  unfold execServoEnableWrite
  refine CarriesTo.onInstance hc ?_
  (repeat' with_reducible first
      | assumption
      | exact Carries.refl _
      | refine whenDue_carries ?_ ?_
      | dsimp only
      | refine State.wordWrite_carries ?_ _ _
      | split
      | intro _
      | apply Carries.record)
  all_goals simp +contextual only [Nat.le_refl, Nat.le_add_right, imp_self, implies_true, Sparse.wf_nil, Sparse.set_wf,
      Sparse.modify_wf, Sparse.filter_wf, eq_self, *]

theorem execTimeNowRead_carries {s0 s : State} (hc : Carries s0 s) (localCount : Bool) : CarriesTo s0 (execTimeNowRead
      localCount s) := by
  unfold execTimeNowRead
  refine CarriesTo.next ?_
  (repeat' with_reducible first
      | assumption
      | exact Carries.refl _
      | refine whenDue_carries ?_ ?_
      | dsimp only
      | refine State.wordRead_carries ?_ _
      | split
      | intro _)

theorem execTcuCapRead_carries {s0 s : State} (hc : Carries s0 s) (unit : Nat) : CarriesTo s0 (execTcuCapRead unit s) := by
  unfold execTcuCapRead
  refine CarriesTo.onInstance hc ?_
  (repeat' with_reducible first
      | assumption
      | exact Carries.refl _
      | refine whenDue_carries ?_ ?_
      | dsimp only
      | refine State.wordRead_carries ?_ _
      | split
      | intro _)

theorem execFusionForceWrite_carries {s0 s : State} (hc : Carries s0 s) (region : Nat) (sensor : Nat) (value : Word) :
      CarriesTo s0 (execFusionForceWrite region sensor value s) := by
  unfold execFusionForceWrite
  refine CarriesTo.onInstance hc ?_
  (repeat' with_reducible first
      | assumption
      | exact Carries.refl _
      | refine whenDue_carries ?_ ?_
      | dsimp only
      | refine State.wordWrite_carries ?_ _ _
      | split
      | intro _)

theorem execAuxfiltSyncWrite_carries {s0 s : State} (hc : Carries s0 s) (value : Word) : CarriesTo s0
      (execAuxfiltSyncWrite value s) := by
  unfold execAuxfiltSyncWrite
  refine CarriesTo.next ?_
  (repeat' with_reducible first
      | assumption
      | exact Carries.refl _
      | refine whenDue_carries ?_ ?_
      | dsimp only
      | refine State.wordWrite_carries ?_ _ _
      | split
      | intro _)

theorem execAuxfiltCfgWrite_carries {s0 s : State} (hc : Carries s0 s) (unit : Nat) (value : Word) : CarriesTo s0
      (execAuxfiltCfgWrite unit value s) := by
  unfold execAuxfiltCfgWrite
  refine CarriesTo.onInstance hc ?_
  (repeat' with_reducible first
      | assumption
      | exact Carries.refl _
      | refine whenDue_carries ?_ ?_
      | dsimp only
      | refine State.wordWrite_carries ?_ _ _
      | split
      | intro _)

theorem execAuxfiltLastRead_carries {s0 s : State} (hc : Carries s0 s) (channel : Nat) : CarriesTo s0
      (execAuxfiltLastRead channel s) := by
  unfold execAuxfiltLastRead
  refine CarriesTo.onInstance hc ?_
  (repeat' with_reducible first
      | assumption
      | exact Carries.refl _
      | refine whenDue_carries ?_ ?_
      | dsimp only
      | refine State.wordRead_carries ?_ _
      | split
      | intro _)

theorem execQueueEnableWrite_carries {s0 s : State} (hc : Carries s0 s) (queue : Nat) (value : Word) : CarriesTo s0
      (execQueueEnableWrite queue value s) := by
  unfold execQueueEnableWrite
  refine CarriesTo.onInstance hc ?_
  (repeat' with_reducible first
      | assumption
      | exact Carries.refl _
      | refine whenDue_carries ?_ ?_
      | dsimp only
      | refine State.wordWrite_carries ?_ _ _
      | split
      | intro _)

theorem execQflushWrite_carries {s0 s : State} (hc : Carries s0 s) (queue : Nat) (value : Word) : CarriesTo s0
      (execQflushWrite queue value s) := by
  unfold execQflushWrite
  refine CarriesTo.onInstance hc ?_
  (repeat' with_reducible first
      | assumption
      | exact Carries.refl _
      | refine whenDue_carries ?_ ?_
      | dsimp only
      | refine State.wordWrite_carries ?_ _ _
      | split
      | intro _)

theorem execCheckvalStart_carries {s0 s : State} (hc : Carries s0 s) (context : Nat) (value : Word) : CarriesTo s0
      (execCheckvalStart context value s) := by
  unfold execCheckvalStart
  refine CarriesTo.onInstance hc ?_
  (repeat' with_reducible first
      | assumption
      | exact Carries.refl _
      | refine whenDue_carries ?_ ?_
      | dsimp only
      | refine State.wordWrite_carries ?_ _ _
      | split
      | intro _)

theorem execCheckvalFeed_carries {s0 s : State} (hc : Carries s0 s) (context : Nat) (value : Word) : CarriesTo s0
      (execCheckvalFeed context value s) := by
  unfold execCheckvalFeed
  refine CarriesTo.onInstance hc ?_
  (repeat' with_reducible first
      | assumption
      | exact Carries.refl _
      | refine whenDue_carries ?_ ?_
      | dsimp only
      | refine State.wordWrite_carries ?_ _ _
      | split
      | intro _)

theorem execCheckvalFeedPart_carries {s0 s : State} (hc : Carries s0 s) (context : Nat) (value : Word) : CarriesTo s0
      (execCheckvalFeedPart context value s) := by
  unfold execCheckvalFeedPart
  refine CarriesTo.onInstance hc ?_
  (repeat' with_reducible first
      | assumption
      | exact Carries.refl _
      | refine whenDue_carries ?_ ?_
      | dsimp only
      | refine State.wordWrite_carries ?_ _ _
      | split
      | intro _)

theorem execCheckvalRangeGo_carries {s0 s : State} (hc : Carries s0 s) (context : Nat) (value : Word) : CarriesTo s0
      (execCheckvalRangeGo context value s) := by
  unfold execCheckvalRangeGo
  refine CarriesTo.onInstance hc ?_
  (repeat' with_reducible first
      | assumption
      | exact Carries.refl _
      | refine whenDue_carries ?_ ?_
      | dsimp only
      | refine State.wordWrite_carries ?_ _ _
      | split
      | intro _)

theorem execCheckvalStateWrite_carries {s0 s : State} (hc : Carries s0 s) (context : Nat) (value : Word) : CarriesTo s0
      (execCheckvalStateWrite context value s) := by
  unfold execCheckvalStateWrite
  refine CarriesTo.onInstance hc ?_
  (repeat' with_reducible first
      | assumption
      | exact Carries.refl _
      | refine whenDue_carries ?_ ?_
      | dsimp only
      | refine State.wordWrite_carries ?_ _ _
      | split
      | intro _)

theorem execCheckvalStateRead_carries {s0 s : State} (hc : Carries s0 s) (context : Nat) (result : Bool) : CarriesTo s0
      (execCheckvalStateRead context result s) := by
  unfold execCheckvalStateRead
  refine CarriesTo.onInstance hc ?_
  (repeat' with_reducible first
      | assumption
      | exact Carries.refl _
      | refine whenDue_carries ?_ ?_
      | dsimp only
      | refine State.wordRead_carries ?_ _
      | split
      | intro _)

theorem execSpokePortEnWrite_carries {s0 s : State} (hc : Carries s0 s) (port : Nat) (value : Word) : CarriesTo s0
      (execSpokePortEnWrite port value s) := by
  unfold execSpokePortEnWrite
  refine CarriesTo.onInstance hc ?_
  (repeat' with_reducible first
      | assumption
      | exact Carries.refl _
      | refine whenDue_carries ?_ ?_
      | dsimp only
      | refine State.wordWrite_carries ?_ _ _
      | split
      | intro _)

theorem execSpokeAcceptWrite_carries {s0 s : State} (hc : Carries s0 s) (value : Word) : CarriesTo s0
      (execSpokeAcceptWrite value s) := by
  unfold execSpokeAcceptWrite
  refine CarriesTo.next ?_
  (repeat' with_reducible first
      | assumption
      | exact Carries.refl _
      | refine whenDue_carries ?_ ?_
      | dsimp only
      | refine State.wordWrite_carries ?_ _ _
      | split
      | intro _)

theorem execMonitorCfgWrite_carries {s0 s : State} (hc : Carries s0 s) (channel : Nat) (word : Nat) (value : Word) :
      CarriesTo s0 (execMonitorCfgWrite channel word value s) := by
  unfold execMonitorCfgWrite
  refine CarriesTo.onInstance hc ?_
  (repeat' with_reducible first
      | assumption
      | exact Carries.refl _
      | refine whenDue_carries ?_ ?_
      | dsimp only
      | refine State.wordWrite_carries ?_ _ _
      | split
      | intro _)

theorem execRegionRetestWrite_carries {s0 s : State} (hc : Carries s0 s) (value : Word) : CarriesTo s0
      (execRegionRetestWrite value s) := by
  unfold execRegionRetestWrite
  refine CarriesTo.next ?_
  (repeat' with_reducible first
      | assumption
      | exact Carries.refl _
      | refine whenDue_carries ?_ ?_
      | dsimp only
      | refine State.wordWrite_carries ?_ _ _
      | split
      | intro _)

end Sys2Proof.Machine
end

