-- ==== Sys2Proof/Laws/Read.lean ====
section
/-!
SUPPORT. Reading back what was written: parameter words and their fields, bytes of memory, and the records of the units.
-/

namespace Sys2Proof.Machine

/-! ### Parameter words -/

section

variable {s : State} (hw : Sparse.wf resetWord s.regs = true)

include hw

theorem State.word_setWord (id q : Nat) (w : Word) : (s.setWord id w).word q = if q = id then w else s.word q :=
  Sparse.get_set resetWord id q w hw

@[simp] theorem State.word_setWord_same (id : Nat) (w : Word) : (s.setWord id w).word id = w := by
  rw [State.word_setWord hw, if_pos rfl]

theorem State.word_setWord_other {id q : Nat} (w : Word) (h : q ≠ id) : (s.setWord id w).word q = s.word q := by
  rw [State.word_setWord hw, if_neg h]

/-- The stored word after a field is set. -/
theorem State.word_setFld (id q lsb width v : Nat) :
    (s.setFld id lsb width v).word q =
      if q = id then BitVec.ofNat 32 (withBits (s.word id).toNat lsb width v) else s.word q :=
  State.word_setWord hw _ _ _

/-- A field reads back as written. -/
theorem State.fld_setFld_same {id lsb width : Nat} (v : Nat) (h : lsb + width ≤ 32) :
    (s.setFld id lsb width v).fld id lsb width = v % 2 ^ width := by
  unfold State.fld
  rw [State.word_setFld hw, if_pos rfl, BitVec.toNat_ofNat, Nat.mod_eq_of_lt (withBits_lt (s.word id).isLt h), bitsOf_withBits]

/-- A field below the one set, or of another word, stands. -/
theorem State.fld_setFld_below {id q lsb width v l w : Nat} (h : lsb + width ≤ 32) (hd : q ≠ id ∨ l + w ≤ lsb) :
    (s.setFld id lsb width v).fld q l w = s.fld q l w := by
  unfold State.fld
  rw [State.word_setFld hw]
  split
  · rename_i e
    subst e
    rw [BitVec.toNat_ofNat, Nat.mod_eq_of_lt (withBits_lt (s.word q).isLt h), bitsOf_withBits_below (hd.resolve_left (by simp))]
  · rfl

/-- A field above the one set, or of another word, stands. -/
theorem State.fld_setFld_above {id q lsb width v l w : Nat} (h : lsb + width ≤ 32) (hd : q ≠ id ∨ lsb + width ≤ l) :
    (s.setFld id lsb width v).fld q l w = s.fld q l w := by
  unfold State.fld
  rw [State.word_setFld hw]
  split
  · rename_i e
    subst e
    rw [BitVec.toNat_ofNat, Nat.mod_eq_of_lt (withBits_lt (s.word q).isLt h), bitsOf_withBits_above (hd.resolve_left (by simp))]
  · rfl

/-- A status bit set reads 1. -/
theorem State.bitAt_flag_same {id n : Nat} (h : n < 32) : (s.flag id n).bitAt id n = true := by
  unfold State.bitAt
  rw [bitOf_eq_bitsOf]
  have k := State.fld_setFld_same hw (id := id) (lsb := n) (width := 1) 1 (by omega)
  unfold State.fld at k
  unfold State.flag
  rw [k]
  rfl

/-- Every other bit stands. -/
theorem State.bitAt_flag_other {id n q m : Nat} (h : n < 32) (hd : q ≠ id ∨ m ≠ n) : (s.flag id n).bitAt q m = s.bitAt q m := by
  unfold State.bitAt State.flag
  rw [bitOf_eq_bitsOf, bitOf_eq_bitsOf]
  rcases hd with hd | hd
  · have k := State.fld_setFld_below hw (id := id) (q := q) (lsb := n) (width := 1) (v := 1) (l := m) (w := 1) (by omega) (.inl hd)
    unfold State.fld at k
    rw [k]
  · rcases Nat.lt_or_gt_of_ne hd with hd | hd
    · have k := State.fld_setFld_below hw (id := id) (q := q) (lsb := n) (width := 1) (v := 1) (l := m) (w := 1) (by omega)
        (.inr hd)
      unfold State.fld at k
      rw [k]
    · have k := State.fld_setFld_above hw (id := id) (q := q) (lsb := n) (width := 1) (v := 1) (l := m) (w := 1) (by omega)
        (.inr hd)
      unfold State.fld at k
      rw [k]

/-- A counter after it has counted. -/
theorem State.word_bump (id q n : Nat) :
    (s.bump id n).word q =
      if q = id then (if n = 0 then s.word id else BitVec.ofNat 32 (satAdd32 (s.word id).toNat n)) else s.word q := by
  unfold State.bump
  split
  · split
    · rename_i e
      rw [e]
    · rfl
  · exact State.word_setWord hw _ _ _

end

/-! ### Memory -/

/-- Every memory operation keeps the canonical form, and the memory after reset has it. -/
theorem Memory.wf_writeByte {s : State} (h : Memory.wf s.mem = true) (a : Nat) (b : Byte) :
    Memory.wf (s.writeByte a b).mem = true := Sparse.set_wf a b h

theorem Memory.wf_reset : Memory.wf State.reset.mem = true := rfl

/-- A byte written reads back, and every other byte reads as before. -/
theorem State.readByte_writeByte {s : State} (h : Memory.wf s.mem = true) (a q : Nat) (b : Byte) :
    (s.writeByte a b).readByte q = if q = a then b else s.readByte q := Sparse.get_set memDefault a q b h

/-- The state after bytes are written, one at a time. -/
theorem State.writeBytes_cons (s : State) (a : Nat) (b : Byte) (bs : List Byte) :
    s.writeBytes a (b :: bs) = (s.writeByte a b).writeBytes (a + 1) bs := rfl

@[simp] theorem State.writeBytes_nil (s : State) (a : Nat) : s.writeBytes a [] = s := rfl

theorem Memory.wf_writeBytes (bs : List Byte) : ∀ {s : State} (a : Nat), Memory.wf s.mem = true →
    Memory.wf (s.writeBytes a bs).mem = true := by
  induction bs with
  | nil => exact fun _ h => h
  | cons b bs ih => exact fun a h => ih (a + 1) (Memory.wf_writeByte h a b)

theorem Memory.wf_filter {m : Sparse Byte} (h : Memory.wf m = true) (p : Nat × Byte → Bool) : Memory.wf (m.filter p) = true :=
  Sparse.filter_wf p h

/-- Bytes written read back; every byte outside them reads as before. -/
theorem State.readByte_writeBytes (bs : List Byte) : ∀ {s : State} (a q : Nat), Memory.wf s.mem = true →
    (s.writeBytes a bs).readByte q = if a ≤ q ∧ q < a + bs.length then bs.getD (q - a) 0 else s.readByte q := by
  induction bs with
  | nil => intro s a q h; simp
  | cons b bs ih =>
    intro s a q h
    rw [State.writeBytes_cons, ih (a + 1) q (Memory.wf_writeByte h a b), State.readByte_writeByte h]
    rcases Nat.lt_trichotomy q a with hq | hq | hq
    · rw [if_neg (by omega), if_neg (by omega), if_neg (by omega)]
    · subst hq
      rw [if_neg (by omega), if_pos rfl, if_pos (by simp)]
      simp
    · by_cases hb : q < a + 1 + bs.length
      · rw [if_pos ⟨by omega, hb⟩, if_pos ⟨by omega, by simp; omega⟩, show q - a = (q - (a + 1)) + 1 by omega, List.getD_cons_succ]
      · rw [if_neg (by omega), if_neg (by omega), if_neg (by simp; omega)]

/-- Bytes written read back. -/
theorem State.readBytes_writeBytes {s : State} (h : Memory.wf s.mem = true) (a : Nat) (bs : List Byte) :
    (s.writeBytes a bs).readBytes a bs.length = bs := by
  apply List.ext_getElem
  · simp [State.readBytes, upTo]
  · intro i h1 h2
    simp only [State.readBytes, List.getElem_map, State.readByte_writeBytes bs a _ h]
    have : (upTo bs.length)[i]'(by simpa [upTo] using h2) = i := by simp [upTo]
    rw [this, if_pos ⟨by omega, by omega⟩, Nat.add_sub_cancel_left, List.getD_eq_getElem _ _ h2]

/-! ### Records of the units -/

theorem State.port_onPort {s : State} (h : Sparse.wf (fun _ => HeadPort.reset) s.head.ports = true) (k q : Nat) (f) :
    (s.onPort k f).port q = if q = k then f (s.port k) else s.port q := Sparse.get_modify (fun _ => HeadPort.reset) k q f h

theorem State.node_onNode {s : State} (h : Sparse.wf (fun _ => Node.empty) s.rtr.nodes = true) (k q : Nat) (f) :
    (s.onNode k f).node q = if q = k then f (s.node k) else s.node q := Sparse.get_modify (fun _ => Node.empty) k q f h

theorem State.block_onBlock {s : State} (h : Sparse.wf (fun _ => Block.empty) s.fab.blocks = true) (k q : Nat) (f) :
    (s.onBlock k f).block q = if q = k then f (s.block k) else s.block q := Sparse.get_modify (fun _ => Block.empty) k q f h

theorem State.conv_onConv {s : State} (h : Sparse.wf (fun _ => Conv.empty) s.fab.convs = true) (k q : Nat) (f) :
    (s.onConv k f).conv q = if q = k then f (s.conv k) else s.conv q := Sparse.get_modify (fun _ => Conv.empty) k q f h

theorem State.hist_onHist {s : State} (h : Sparse.wf (fun _ => HistState.empty) s.obj.hist = true) (k q : Nat) (f) :
    (s.onHist k f).hist q = if q = k then f (s.hist k) else s.hist q := Sparse.get_modify (fun _ => HistState.empty) k q f h

theorem State.tracker_onTracker {s : State} (h : Sparse.wf (fun _ => Tracker.empty) s.trk.trackers = true) (k q : Nat) (f) :
    (s.onTracker k f).tracker q = if q = k then f (s.tracker k) else s.tracker q := Sparse.get_modify (fun _ => Tracker.empty) k q f h

theorem State.dense_onDense {s : State} (h : Sparse.wf (fun _ => DenseUnit.empty) s.obj.units = true) (k q : Nat) (f) :
    (s.onDense k f).dense q = if q = k then f (s.dense k) else s.dense q := Sparse.get_modify (fun _ => DenseUnit.empty) k q f h

theorem State.queue_onQueue {s : State} (h : Sparse.wf (fun _ => Queue.empty) s.que.queues = true) (k q : Nat) (f) :
    (s.onQueue k f).queue q = if q = k then f (s.queue k) else s.queue q := Sparse.get_modify (fun _ => Queue.empty) k q f h

theorem State.spk_onSpk {s : State} (h : Sparse.wf (fun _ => SpokePort.reset) s.spoke.ports = true) (k q : Nat) (f) :
    (s.onSpk k f).spk q = if q = k then f (s.spk k) else s.spk q := Sparse.get_modify (fun _ => SpokePort.reset) k q f h

theorem State.cvOf_onCv {s : State} (h : Sparse.wf (fun _ => CvContext.reset) s.cv = true) (k q : Nat) (f) :
    (s.onCv k f).cvOf q = if q = k then f (s.cvOf k) else s.cvOf q := Sparse.get_modify (fun _ => CvContext.reset) k q f h

theorem State.pdom_onPdom {s : State} (h : Sparse.wf (fun _ => PowerDom.reset) s.mgmt.power.doms = true) (k q : Nat) (f) :
    (s.onPdom k f).pdom q = if q = k then f (s.pdom k) else s.pdom q := Sparse.get_modify (fun _ => PowerDom.reset) k q f h

theorem State.mon_onMon {s : State} (h : Sparse.wf (fun _ => MonChan.reset) s.mgmt.mon = true) (k q : Nat) (f) :
    (s.onMon k f).mon q = if q = k then f (s.mon k) else s.mon q := Sparse.get_modify (fun _ => MonChan.reset) k q f h

/-! ### Stores of a canonical state -/

section

variable {s : State} (c : s.canonical)

include c

theorem State.canonical.trk_trackers : Sparse.wf (fun _ => Tracker.empty) s.trk.trackers = true := by
  have k := c.objects
  simp only [State.objectsWf, Bool.and_eq_true] at k
  simp only [k]

theorem State.canonical.trk_slots : Sparse.wf (fun _ => none) s.trk.slots = true := by
  have k := c.objects
  simp only [State.objectsWf, Bool.and_eq_true] at k
  simp only [k]

theorem State.canonical.trk_mirror : Sparse.wf (fun _ => none) s.trk.mirror = true := by
  have k := c.objects
  simp only [State.objectsWf, Bool.and_eq_true] at k
  simp only [k]

theorem State.canonical.trk_mirrorWords : Sparse.wf (resetWord) s.trk.mirrorWords = true := by
  have k := c.objects
  simp only [State.objectsWf, Bool.and_eq_true] at k
  simp only [k]

theorem State.canonical.trk_refine : Sparse.wf (fun _ => []) s.trk.refine = true := by
  have k := c.objects
  simp only [State.objectsWf, Bool.and_eq_true] at k
  simp only [k]

theorem State.canonical.obj_units : Sparse.wf (fun _ => DenseUnit.empty) s.obj.units = true := by
  have k := c.objects
  simp only [State.objectsWf, Bool.and_eq_true] at k
  simp only [k]

theorem State.canonical.obj_hist : Sparse.wf (fun _ => HistState.empty) s.obj.hist = true := by
  have k := c.objects
  simp only [State.objectsWf, Bool.and_eq_true] at k
  simp only [k]

theorem State.canonical.time_snapTcu : Sparse.wf (fun _ => 0) s.time.snapTcu = true := by
  have k := c.objects
  simp only [State.objectsWf, Bool.and_eq_true] at k
  simp only [k]

theorem State.canonical.time_tcu : Sparse.wf (fun _ => []) s.time.tcu = true := by
  have k := c.objects
  simp only [State.objectsWf, Bool.and_eq_true] at k
  simp only [k]

theorem State.canonical.aux : Sparse.wf (fun _ => AuxChan.empty) s.aux = true := by
  have k := c.objects
  simp only [State.objectsWf, Bool.and_eq_true] at k
  simp only [k]

theorem State.canonical.head_ports : Sparse.wf (fun _ => HeadPort.reset) s.head.ports = true := by
  have k := c.fabric
  simp only [State.fabricWf, Bool.and_eq_true] at k
  simp only [k]

theorem State.canonical.head_sub : Sparse.wf (fun _ => 0) s.head.sub = true := by
  have k := c.fabric
  simp only [State.fabricWf, Bool.and_eq_true] at k
  simp only [k]

theorem State.canonical.head_passed : Sparse.wf (fun _ => 0) s.head.passed = true := by
  have k := c.fabric
  simp only [State.fabricWf, Bool.and_eq_true] at k
  simp only [k]

theorem State.canonical.rtr_grants : Sparse.wf (fun _ => 0) s.rtr.grants = true := by
  have k := c.fabric
  simp only [State.fabricWf, Bool.and_eq_true] at k
  simp only [k]

theorem State.canonical.rtr_nodes : Sparse.wf (fun _ => Node.empty) s.rtr.nodes = true := by
  have k := c.fabric
  simp only [State.fabricWf, Bool.and_eq_true] at k
  simp only [k]

theorem State.canonical.rtr_subs : Sparse.wf (fun _ => 0) s.rtr.subs = true := by
  have k := c.fabric
  simp only [State.fabricWf, Bool.and_eq_true] at k
  simp only [k]

theorem State.canonical.rtr_trans : Sparse.wf (transDefault) s.rtr.trans = true := by
  have k := c.fabric
  simp only [State.fabricWf, Bool.and_eq_true] at k
  simp only [k]

theorem State.canonical.fab_blocks : Sparse.wf (fun _ => Block.empty) s.fab.blocks = true := by
  have k := c.fabric
  simp only [State.fabricWf, Bool.and_eq_true] at k
  simp only [k]

theorem State.canonical.fab_convs : Sparse.wf (fun _ => Conv.empty) s.fab.convs = true := by
  have k := c.fabric
  simp only [State.fabricWf, Bool.and_eq_true] at k
  simp only [k]

theorem State.canonical.host_sdio_f0 : Sparse.wf (fun _ => (0 : Byte)) s.host.sdio.f0 = true := by
  have k := c.system
  simp only [State.systemWf, Bool.and_eq_true] at k
  simp only [k]

theorem State.canonical.host_sdio_inbox : Sparse.wf (fun _ => (0 : Byte)) s.host.sdio.inbox = true := by
  have k := c.system
  simp only [State.systemWf, Bool.and_eq_true] at k
  simp only [k]

theorem State.canonical.spoke_ports : Sparse.wf (fun _ => SpokePort.reset) s.spoke.ports = true := by
  have k := c.system
  simp only [State.systemWf, Bool.and_eq_true] at k
  simp only [k]

theorem State.canonical.spoke_routes : Sparse.wf (fun _ => 7) s.spoke.routes = true := by
  have k := c.system
  simp only [State.systemWf, Bool.and_eq_true] at k
  simp only [k]

theorem State.canonical.spoke_nodes : Sparse.wf (fun _ => none) s.spoke.nodes = true := by
  have k := c.system
  simp only [State.systemWf, Bool.and_eq_true] at k
  simp only [k]

theorem State.canonical.regions : Sparse.wf (fun _ => 0) s.regions = true := by
  have k := c.system
  simp only [State.systemWf, Bool.and_eq_true] at k
  simp only [k]

theorem State.canonical.cv : Sparse.wf (fun _ => CvContext.reset) s.cv = true := by
  have k := c.system
  simp only [State.systemWf, Bool.and_eq_true] at k
  simp only [k]

theorem State.canonical.mgmt_power_doms : Sparse.wf (fun _ => PowerDom.reset) s.mgmt.power.doms = true := by
  have k := c.system
  simp only [State.systemWf, Bool.and_eq_true] at k
  simp only [k]

theorem State.canonical.mgmt_mon : Sparse.wf (fun _ => MonChan.reset) s.mgmt.mon = true := by
  have k := c.system
  simp only [State.systemWf, Bool.and_eq_true] at k
  simp only [k]

theorem State.canonical.que_queues : Sparse.wf (fun _ => Queue.empty) s.que.queues = true := by
  have k := c.system
  simp only [State.systemWf, Bool.and_eq_true] at k
  simp only [k]

theorem State.canonical.que_claims : Sparse.wf (fun _ => none) s.que.claims = true := by
  have k := c.system
  simp only [State.systemWf, Bool.and_eq_true] at k
  simp only [k]

end

end Sys2Proof.Machine
end

