-- ==== Sys2Proof/Laws/Rows.lean ====
section
/-!
SUPPORT. What a command packet's row does: everything the command service can answer, and the run of an accepted command.
-/

namespace Sys2Proof.Machine

@[simp] theorem State.startRefuses_taken (s : State) (op : Nat) (r : Req) (code : Nat) :
    (s.taken op r).startRefuses code = s.startRefuses code := rfl

theorem State.startRefuses_none {s : State} {op tag : Nat} {bcast : Bool} (h : s.serviceRefuses op tag bcast = none) :
    s.startRefuses op = none := by
  unfold State.serviceRefuses at h
  dsimp only at h
  cases hs : s.startRefuses op with
  | none => rfl
  | some e =>
    rw [hs] at h
    dsimp only at h
    split at h
    · exact absurd h (by simp)
    split at h
    · exact absurd h (by simp)
    split at h
    · exact absurd h (by simp)
    split at h
    · exact absurd h (by simp)
    exact absurd h (by simp)

theorem State.accepts_iff {s : State} {op : Nat} {r : Req} :
    s.accepts op r = true ↔
      s.powered = true ∧ s.host.accepted = [] ∧ s.serviceRefuses op r.tag.toNat r.bcast = none := by
  simp [State.accepts, and_assoc, List.isEmpty_iff]

/-- Taking a packet and letting it go is no change. -/
theorem State.released_taken {s : State} {op : Nat} {r : Req} (h : s.host.accepted = []) : (s.taken op r).released op r = s := by
  unfold State.released State.taken State.onHost
  have e : ([⟨op, r, s.loc⟩] : List Accepted).eraseP (fun a => a.opcode == op && a.req == r) = s.host.accepted := by
    rw [h]; simp
  dsimp only
  rw [e]

@[simp] theorem State.released_accepted {s : State} {op : Nat} {r : Req} (h : s.accepts op r = true) :
    (s.taken op r).released op r = s := State.released_taken (State.accepts_iff.1 h).2.1

/-- An accepted packet runs at once: its own work on the state that holds its tag, then its reply, if it has one already. -/
theorem State.commandRow_accepts {s : State} {op : Nat} {r : Req} (h : s.accepts op r = true) (body : Body) :
    s.commandRow op r body =
      match body r (s.taken op r) with
      | (some (st, p), t) => (t.released op r).answer op r st p
      | (none, t) => t.released op r := by
  obtain ⟨hp, ha, hr⟩ := State.accepts_iff.1 h
  have hn := State.startRefuses_none hr
  have hs : ({ s with host := { s.host with accepted := [⟨op, r, s.loc⟩] } } : State).startRefuses op = none := hn
  unfold State.commandRow State.runCommand
  simp only [hp, ha, hr, State.acceptedOf, List.find?_nil, Bool.not_true, Bool.false_eq_true, if_false, List.nil_append,
    State.onHost, List.head?_cons, beq_self_eq_true, if_true, hs]
  rfl

/-- A packet that the service refuses is answered with the status, and changes nothing else (R355). -/
theorem State.commandRow_refused {s : State} {op : Nat} {r : Req} {e : Status} (hp : s.powered = true)
    (ha : s.acceptedOf op r = none) (hr : s.serviceRefuses op r.tag.toNat r.bcast = some e) (body : Body) :
    s.commandRow op r body = (s.countRefused op).refusePacket op r.tag.toNat r.src.toNat e := by
  unfold State.commandRow
  simp [hp, ha, hr]

/-- Without input power nothing happens. -/
theorem State.commandRow_unpowered {s : State} {op : Nat} {r : Req} (hp : s.powered = false) (body : Body) :
    s.commandRow op r body = s := by
  unfold State.commandRow
  simp [hp]

theorem withLength_eq {n : Nat} {body : Body} {r : Req} (s : State) (h : r.payload.length = n) :
    withLength n body r s = body r s := by
  unfold withLength
  rw [if_pos h]

theorem withLength_bad {n : Nat} {body : Body} {r : Req} (s : State) (h : r.payload.length ≠ n) :
    withLength n body r s = (some (.badLength, []), s) := by
  unfold withLength
  rw [if_neg h]
  rfl

/-! ### What holding a tag does not change -/

section

variable (s : State) (op : Nat) (r : Req)

@[simp] theorem State.taken_pending : (s.taken op r).pending = s.pending := rfl
@[simp] theorem State.taken_loc : (s.taken op r).loc = s.loc := rfl
@[simp] theorem State.taken_free : (s.taken op r).free = s.free := rfl
@[simp] theorem State.taken_regs : (s.taken op r).regs = s.regs := rfl
@[simp] theorem State.taken_mem : (s.taken op r).mem = s.mem := rfl
@[simp] theorem State.taken_pos : (s.taken op r).pos = s.pos := rfl
@[simp] theorem State.taken_time : (s.taken op r).time = s.time := rfl
@[simp] theorem State.taken_head : (s.taken op r).head = s.head := rfl
@[simp] theorem State.taken_rtr : (s.taken op r).rtr = s.rtr := rfl
@[simp] theorem State.taken_fab : (s.taken op r).fab = s.fab := rfl
@[simp] theorem State.taken_trk : (s.taken op r).trk = s.trk := rfl
@[simp] theorem State.taken_obj : (s.taken op r).obj = s.obj := rfl
@[simp] theorem State.taken_tail : (s.taken op r).tail = s.tail := rfl
@[simp] theorem State.taken_aux : (s.taken op r).aux = s.aux := rfl
@[simp] theorem State.taken_spoke : (s.taken op r).spoke = s.spoke := rfl
@[simp] theorem State.taken_planes : (s.taken op r).planes = s.planes := rfl
@[simp] theorem State.taken_que : (s.taken op r).que = s.que := rfl
@[simp] theorem State.taken_cv : (s.taken op r).cv = s.cv := rfl
@[simp] theorem State.taken_cmd : (s.taken op r).cmd = s.cmd := rfl
@[simp] theorem State.taken_armed : (s.taken op r).armed = s.armed := rfl
@[simp] theorem State.taken_reports : (s.taken op r).reports = s.reports := rfl
@[simp] theorem State.taken_regions : (s.taken op r).regions = s.regions := rfl
@[simp] theorem State.taken_hubFails : (s.taken op r).hubFails = s.hubFails := rfl
@[simp] theorem State.taken_mgmt : (s.taken op r).mgmt = s.mgmt := rfl
@[simp] theorem State.taken_chain : (s.taken op r).chain = s.chain := rfl
@[simp] theorem State.taken_lastWord : (s.taken op r).lastWord = s.lastWord := rfl
@[simp] theorem State.taken_lastStatus : (s.taken op r).lastStatus = s.lastStatus := rfl
@[simp] theorem State.taken_accepted : (s.taken op r).host.accepted = [⟨op, r, s.loc⟩] := rfl
@[simp] theorem State.taken_hostBulkOut : (s.taken op r).host.bulkOut = s.host.bulkOut := rfl
@[simp] theorem State.taken_hostBulkIn : (s.taken op r).host.bulkIn = s.host.bulkIn := rfl
@[simp] theorem State.taken_hostRemoteIn : (s.taken op r).host.remoteIn = s.host.remoteIn := rfl
@[simp] theorem State.taken_hostRunning : (s.taken op r).host.running = s.host.running := rfl
@[simp] theorem State.taken_hostSdio : (s.taken op r).host.sdio = s.host.sdio := rfl
@[simp] theorem State.taken_tags :
    (s.taken op r).tags.length = s.tags.length + 1 - s.host.accepted.length := by
  simp [State.tags, State.taken, State.onHost]
  omega
@[simp] theorem State.taken_word (id : Nat) : (s.taken op r).word id = s.word id := rfl
@[simp] theorem State.taken_fld (id : Nat) (lsb : Nat) (width : Nat) :
    (s.taken op r).fld id lsb width = s.fld id lsb width := rfl
@[simp] theorem State.taken_bitAt (id : Nat) (n : Nat) : (s.taken op r).bitAt id n = s.bitAt id n := rfl
@[simp] theorem State.taken_readByte (a : Nat) : (s.taken op r).readByte a = s.readByte a := rfl
@[simp] theorem State.taken_readBytes (a : Nat) (n : Nat) : (s.taken op r).readBytes a n = s.readBytes a n := rfl
@[simp] theorem State.taken_dev : (s.taken op r).dev = s.dev := rfl
@[simp] theorem State.taken_region (r' : Nat) : (s.taken op r).region r' = s.region r' := rfl
@[simp] theorem State.taken_pdom (d : Nat) : (s.taken op r).pdom d = s.pdom d := rfl
@[simp] theorem State.taken_domOff (d : Nat) : (s.taken op r).domOff d = s.domOff d := rfl
@[simp] theorem State.taken_running : (s.taken op r).running = s.running := rfl
@[simp] theorem State.taken_claim (e : Nat) : (s.taken op r).claim e = s.claim e := rfl
@[simp] theorem State.taken_freeEntry : (s.taken op r).freeEntry = s.freeEntry := rfl
@[simp] theorem State.taken_queue (q : Nat) : (s.taken op r).queue q = s.queue q := rfl
@[simp] theorem State.taken_qProducer (q : Nat) : (s.taken op r).qProducer q = s.qProducer q := rfl
@[simp] theorem State.taken_qConsumer (q : Nat) : (s.taken op r).qConsumer q = s.qConsumer q := rfl
@[simp] theorem State.taken_packetFits (q : Nat) (n : Nat) : (s.taken op r).packetFits q n = s.packetFits q n := rfl
@[simp] theorem State.taken_addr : (s.taken op r).addr = s.addr := rfl
@[simp] theorem State.taken_spk (p : Nat) : (s.taken op r).spk p = s.spk p := rfl
@[simp] theorem State.taken_spkUp (p : Nat) : (s.taken op r).spkUp p = s.spkUp p := rfl
@[simp] theorem State.taken_compat : (s.taken op r).compat = s.compat := rfl
@[simp] theorem State.taken_keyTemporary : (s.taken op r).keyTemporary = s.keyTemporary := rfl
@[simp] theorem State.taken_identityKey : (s.taken op r).identityKey = s.identityKey := rfl
@[simp] theorem State.taken_hostAttached : (s.taken op r).hostAttached = s.hostAttached := rfl
@[simp] theorem State.taken_replyBytes (opcode : Nat) (tag : Nat) (dest : Nat) (st : Status) (payload : List Byte) :
    (s.taken op r).replyBytes opcode tag dest st payload = s.replyBytes opcode tag dest st payload := rfl
@[simp] theorem State.taken_queueIn (r' : Nat) : (s.taken op r).queueIn r' = s.queueIn r' := rfl
@[simp] theorem State.taken_powerRefuses (d : Nat) (t : Nat) : (s.taken op r).powerRefuses d t = s.powerRefuses d t := rfl
@[simp] theorem State.taken_domainStatus (d : Nat) : (s.taken op r).domainStatus d = s.domainStatus d := rfl
@[simp] theorem State.taken_swapping : (s.taken op r).swapping = s.swapping := rfl
@[simp] theorem State.taken_otherOut (e : Nat) : (s.taken op r).otherOut e = s.otherOut e := rfl
@[simp] theorem State.taken_fwVersion : (s.taken op r).fwVersion = s.fwVersion := rfl
@[simp] theorem State.taken_infoRecord : (s.taken op r).infoRecord = s.infoRecord := rfl
@[simp] theorem State.taken_capsRecord : (s.taken op r).capsRecord = s.capsRecord := rfl
@[simp] theorem State.taken_claimHeld (kind : Nat) (unit : Nat) (amount : Nat) (base : Nat) :
    (s.taken op r).claimHeld kind unit amount base = s.claimHeld kind unit amount base := rfl
@[simp] theorem State.taken_poolLacks (kind : Nat) (unit : Nat) (amount : Nat) :
    (s.taken op r).poolLacks kind unit amount = s.poolLacks kind unit amount := rfl
@[simp] theorem State.taken_claimUsed (c : Claim) : (s.taken op r).claimUsed c = s.claimUsed c := rfl
@[simp] theorem State.taken_stagedBytes (x : Staged) : (s.taken op r).stagedBytes x = s.stagedBytes x := rfl
@[simp] theorem State.taken_ownerPresent : (s.taken op r).ownerPresent = s.ownerPresent := rfl
@[simp] theorem State.taken_stagedModel : (s.taken op r).stagedModel = s.stagedModel := rfl
@[simp] theorem State.taken_checkModel (table : Option (List Byte)) :
    (s.taken op r).checkModel table = s.checkModel table := rfl
@[simp] theorem State.taken_imageDigest (which : Nat) : (s.taken op r).imageDigest which = s.imageDigest which := rfl
@[simp] theorem State.taken_swapRefuses (m : Model) (o : Outcome) : (s.taken op r).swapRefuses m o = s.swapRefuses m o := rfl
@[simp] theorem State.taken_armRefuses : (s.taken op r).armRefuses = s.armRefuses := rfl
@[simp] theorem State.taken_copyOf (n : Nat) : (s.taken op r).copyOf n = s.copyOf n := rfl
@[simp] theorem State.taken_snapRecord (n : Nat) : (s.taken op r).snapRecord n = s.snapRecord n := rfl
@[simp] theorem State.taken_logOf (n : Nat) : (s.taken op r).logOf n = s.logOf n := rfl
@[simp] theorem State.taken_certificate : (s.taken op r).certificate = s.certificate := rfl
@[simp] theorem State.taken_attestBody (challenge : List Byte) :
    (s.taken op r).attestBody challenge = s.attestBody challenge := rfl
@[simp] theorem State.taken_nonce : (s.taken op r).nonce = s.nonce := rfl
@[simp] theorem State.taken_lifeRefuses (p : List Byte) : (s.taken op r).lifeRefuses p = s.lifeRefuses p := rfl
@[simp] theorem State.taken_stagedFirmware : (s.taken op r).stagedFirmware = s.stagedFirmware := rfl
@[simp] theorem State.taken_firmwareRefuses (img : List Byte) :
    (s.taken op r).firmwareRefuses img = s.firmwareRefuses img := rfl
@[simp] theorem State.taken_testReport : (s.taken op r).testReport = s.testReport := rfl
@[simp] theorem State.taken_bistRefuses (cs : List Nat) : (s.taken op r).bistRefuses cs = s.bistRefuses cs := rfl
@[simp] theorem State.taken_sfld (id : Nat) (lsb : Nat) (width : Nat) :
    (s.taken op r).sfld id lsb width = s.sfld id lsb width := rfl
@[simp] theorem State.taken_wide (id : Nat) : (s.taken op r).wide id = s.wide id := rfl
@[simp] theorem State.taken_chan (c : Nat) : (s.taken op r).chan c = s.chan c := rfl
@[simp] theorem State.taken_block (b : Nat) : (s.taken op r).block b = s.block b := rfl
@[simp] theorem State.taken_node (r' : Nat) : (s.taken op r).node r' = s.node r' := rfl
@[simp] theorem State.taken_mon (n : Nat) : (s.taken op r).mon n = s.mon n := rfl
@[simp] theorem State.taken_awake : (s.taken op r).awake = s.awake := rfl
@[simp] theorem State.taken_powered : (s.taken op r).powered = s.powered := rfl

end

/-! ### Letting the packet go commutes with what does not touch the mailbox -/

section

variable (t : State) (op : Nat) (r : Req)

@[simp] theorem State.released_setFld (id : Nat) (lsb : Nat) (width : Nat) (v : Nat) :
    (t.setFld id lsb width v).released op r = (t.released op r).setFld id lsb width v := rfl
@[simp] theorem State.released_takeFree : (t.takeFree).2.released op r = ((t.released op r).takeFree).2 := rfl
@[simp] theorem State.released_onModel (f : ModelState → ModelState) :
    (t.onModel f).released op r = (t.released op r).onModel f := rfl
@[simp] theorem State.released_onPower (f : PowerState → PowerState) :
    (t.onPower f).released op r = (t.released op r).onPower f := rfl
@[simp] theorem State.released_onLogs (f : LogState → LogState) : (t.onLogs f).released op r = (t.released op r).onLogs f := rfl
@[simp] theorem State.released_onFault (f : FaultState → FaultState) :
    (t.onFault f).released op r = (t.released op r).onFault f := rfl
@[simp] theorem State.released_onSec (f : SecState → SecState) : (t.onSec f).released op r = (t.released op r).onSec f := rfl
@[simp] theorem State.released_onTest (f : TestState → TestState) :
    (t.onTest f).released op r = (t.released op r).onTest f := rfl
@[simp] theorem State.released_onBoard (f : BoardState → BoardState) :
    (t.onBoard f).released op r = (t.released op r).onBoard f := rfl
@[simp] theorem State.released_onPdom (d : Nat) (f : PowerDom → PowerDom) :
    (t.onPdom d f).released op r = (t.released op r).onPdom d f := rfl
@[simp] theorem State.released_onMon (n : Nat) (f : MonChan → MonChan) :
    (t.onMon n f).released op r = (t.released op r).onMon n f := rfl
@[simp] theorem State.released_setClaim (e : Nat) (c : Option Claim) :
    (t.setClaim e c).released op r = (t.released op r).setClaim e c := rfl
@[simp] theorem State.released_onQueue (q : Nat) (f : Queue → Queue) :
    (t.onQueue q f).released op r = (t.released op r).onQueue q f := rfl
@[simp] theorem State.released_pushWords (q : Nat) (ws : List (BitVec 64)) (eop : Bool) :
    (t.pushWords q ws eop).released op r = (t.released op r).pushWords q ws eop := rfl
@[simp] theorem State.released_onSpk (p : Nat) (f : SpokePort → SpokePort) :
    (t.onSpk p f).released op r = (t.released op r).onSpk p f := rfl
@[simp] theorem State.released_startRetrain (p : Nat) :
    (t.startRetrain p).released op r = (t.released op r).startRetrain p := rfl
/-- A command that starts at the instant of its acceptance counts from there whether its packet is still in the line or not. -/
theorem State.released_startRunning (h : t.host.accepted = [⟨op, r, t.loc⟩]) (status : Status) (note : List Byte) :
    (t.startRunning op r status note).released op r = (t.released op r).startRunning op r status note := by
  simp [State.startRunning, State.released, State.acceptedOf, State.onHost, h]
@[simp] theorem State.released_startMove (d : Nat) (t' : PwrState) :
    (t.startMove d t').released op r = (t.released op r).startMove d t' := rfl
@[simp] theorem State.released_bulkAbort : (t.bulkAbort).released op r = (t.released op r).bulkAbort := rfl
@[simp] theorem State.released_dropImageClaims : (t.dropImageClaims).released op r = (t.released op r).dropImageClaims := rfl
@[simp] theorem State.released_dropStaged : (t.dropStaged).released op r = (t.released op r).dropStaged := rfl
@[simp] theorem State.released_closeModelSession :
    (t.closeModelSession).released op r = (t.released op r).closeModelSession := rfl
@[simp] theorem State.released_newNonce : (t.newNonce).released op r = (t.released op r).newNonce := rfl
@[simp] theorem State.released_setWord (id : Nat) (w : Word) :
    (t.setWord id w).released op r = (t.released op r).setWord id w := rfl
@[simp] theorem State.released_writeByte (a : Nat) (b : Byte) :
    (t.writeByte a b).released op r = (t.released op r).writeByte a b := rfl
@[simp] theorem State.released_bump (id : Nat) (n : Nat) : (t.bump id n).released op r = (t.released op r).bump id n := by
  unfold State.bump
  (repeat' split) <;> rfl
@[simp] theorem State.released_bumpIf (c : Bool) (id : Nat) :
    (t.bumpIf c id).released op r = (t.released op r).bumpIf c id := by
  unfold State.bumpIf
  (repeat' split) <;> rfl
@[simp] theorem State.released_blowFuse (target : Nat) (p : List Byte) :
    (t.blowFuse target p).released op r = (t.released op r).blowFuse target p := by
  unfold State.blowFuse
  (repeat' split) <;> rfl
@[simp] theorem State.released_countAuth (e : Status) : (t.countAuth e).released op r = (t.released op r).countAuth e := by
  unfold State.countAuth
  rw [State.released_bumpIf]

end

end Sys2Proof.Machine
end

