-- ==== Sys2Proof/Machine/Contacts.lean ====
section
/-!
DEFINITION. The connectors' contacts (19_module.md R456, R457, R470, R473). Positions are numbered from 1; a position that the
tables do not give has no contact.
-/

namespace Sys2Proof.Machine

/-- How soon a backplane contact mates: a long one before a medium one, a medium one before a short one (R458). -/
inductive Stage
  | long
  | medium
  | short
  deriving DecidableEq, Repr

/-- A differential region of the pairs listed, from position `s` on: pair k stands as GND at s + 3k, P at s + 3k + 1 and N at
s + 3k + 2, and GND closes the region (R456). -/
def regionAt (s : Nat) (pairs : List String) (p : Nat) : Option String :=
  if p < s || s + 3 * pairs.length < p then none
  else
    match (p - s) % 3, pairs[(p - s) / 3]? with
    | 1, some n => some (n ++ "_P")
    | 2, some n => some (n ++ "_N")
    | _, _ => some "GND"

/-- Names `stem0` to `stem(n−1)`. -/
def numbered (stem : String) (n : Nat) : List String := (List.range n).map fun i => stem ++ toString i

/-- The pairs of the two Ethernet ports, and those of the four spoke ports. -/
def ethPairs : List String := ["ETH0_TX", "ETH0_RX", "ETH1_TX", "ETH1_RX"]
def spokePairs : List String :=
  (numbered "SPK" 4).flatMap fun k => numbered (k ++ "_TX") 4 ++ numbered (k ++ "_RX") 4

/-- Single contacts, from a first position on. -/
def rowAt (first : Nat) (names : List String) (p : Nat) : Option String := if p < first then none else names[p - first]?

/-- The backplane connector's positions 131 to 168. -/
def backplaneSingles : List String :=
  ["SDIO_CLK", "SDIO_CMD"] ++ numbered "SDIO_DAT" 4 ++
    ["ENC_A_P", "ENC_A_N", "ENC_B_P", "ENC_B_N", "ENC_Z_P", "ENC_Z_N", "SYNC_P", "SYNC_N", "PPS", "FAULT_N", "COMPAT_SEL",
     "TCK", "TMS", "TDI", "TDO", "TRST_N"] ++ numbered "AUX_IO" 16

/-- Contact at a position of the backplane connector, with its stage; every GND is a long contact (R457). -/
def backplaneAt (p : Nat) : Option (String × Stage) :=
  let staged := fun (n : String) => (n, if n = "GND" then Stage.long else Stage.medium)
  if p = 0 || 180 < p then none
  else if p ≤ 8 then some ("VRTN", .long)
  else if p ≤ 16 then some ("VIN", .medium)
  else if p = 17 then some ("PRESENT_N", .short)
  else if p ≤ 20 || 169 ≤ p then some ("GND", .long)
  else if p ≤ 33 then (regionAt 21 ethPairs p).map staged
  else if p ≤ 130 then (regionAt 34 spokePairs p).map staged
  else (rowAt 131 backplaneSingles p).map staged

/-- Contact at a position of a camera connector; positions 29 and 30 have no connection (R470). -/
def cameraAt (p : Nat) : Option String :=
  if p ≤ 16 then regionAt 1 ["CLK", "D0", "D1", "D2", "D3"] p
  else rowAt 17 (["SCL", "SDA", "CAM_SYNC", "GND"] ++ List.replicate 4 "CAM12V" ++ List.replicate 4 "GND") p

/-- Contact at a position of the auxiliary connector (R473). -/
def auxiliaryAt (p : Nat) : Option String := regionAt 1 (numbered "AUX" 16 ++ numbered "MCLK" 2) p

end Sys2Proof.Machine
end

