-- ==== Sys2Proof/Tests/Slice0.lean ====
section
/-!
SUPPORT. Tests: ill-formed terms that `wellFormed` refuses, worked examples of the spec, and for each obligation states and
operands that meet its hypotheses.
-/

namespace Sys2Proof.Tests
open Sys2Proof Sys2Proof.Machine

set_option Elab.async false
set_option maxRecDepth 4000

/-- The canonical form as one Bool. -/
def canonB (s : State) : Bool := Memory.wf s.mem && Words.wf s.regs && s.objectsWf && s.fabricWf && s.systemWf

theorem canonical_iff (s : State) : s.canonical ↔ canonB s = true :=
  ⟨fun h => by simp [canonB, h.mem, h.regs, h.objects, h.fabric, h.system],
   fun h => by
    simp only [canonB, Bool.and_eq_true] at h
    constructor <;> simp only [h]⟩

/-! ### States and operands -/

/-- The module in READY, as reset leaves it. -/
def up : State := State.reset
/-- The module armed and idle, with the encoder as source. -/
def arm : State := { State.reset with armed := true, cmd := .armed, loc := 5000000000 }
/-- A state of the hot-swap controller. -/
def supplied (x : Supply) : State := State.reset.onBoard fun b => { b with supply := x }
def tripped2 : State := State.reset.onBoard fun b => { b with trips := 2 }
/-- The module in BOOT with its boot slice set outstanding, and past it. -/
def boot : State := { State.reset with cmd := .boot }.onTest fun t => { t with bootDone := false }
def boot2 : State := { State.reset with cmd := .boot }
def early : State := (upTo 4).foldl (fun s p => s.onSpk p fun x => { x with state := .hold }) { State.reset with cmd := .early }
def passed : List SliceResult := bootCodes.map fun c => ⟨c, 0, 10, 0⟩
def oneFails : List SliceResult := bootCodes.map fun c => ⟨c, if c = 1 then 1 else 0, 10, 0⟩
def resetting : State := { State.reset.onHost (fun h => { h with resetReply := some [] }) with loc := 10000000, mem := [(dumpBase + 3, 7)] }
def storing : State := State.reset.onBoard fun b => { b with storing := some [1] }
def popped : State := { State.reset with pending := [.lineFault, .speedWindowAge] }
def at100 : State := { up with pos := { up.pos with encA := true, decoded := some 0 }, loc := 100 }
def armFall : State := arm.setFld (posId 0) 6 1 1
def armSyn : State := { arm with pos := { arm.pos with src := .synthetic, curve := ⟨0, 0, 10, 1⟩ } }
def topCount : State := { up with pos := { up.pos with count := 2 ^ 48 - 1 } }
def backDue : State := arm.setFld (posId 4) 0 20 1000
def pacing : State := { arm.setFld (posId 7) 0 1 1 with pos := { arm.pos with src := .replay, hw := 20000000 } }
def step1 : FabStep := ⟨1, 0, false, 0, 0, 0⟩
def step2 : FabStep := ⟨2, 0, false, 1, 0, 0⟩
def closed2 : State := { arm with pos := { arm.pos with closed := [step1, step2] } }
/-- The module armed, with fabric step 1 in evaluation. -/
def eval1 : State := { arm with pos := { arm.pos with cur := some step1, stepAt := 4000000000 } }
def held1 : Held := ⟨3, 5, 0, 1, false, false, 1, none, 0⟩
def held2 : Held := ⟨3, 5, 0, 2, false, false, 1, none, 0⟩
def ringHolds (s : State) (f : Flit) : State := { s with rtr := { s.rtr with ring := [f] } }
/-- Flits for region 7, one hop before it and at the Headrace node; and one of region 7 for region 0. -/
def evsFlit (p : Nat) : Flit := ⟨9, 0, .events [held2], p, p != 0⟩
def clsFlit (p : Nat) : Flit := ⟨9, 0, .close 0 false 1, p, p != 0⟩
def endFlit (p : Nat) : Flit := ⟨1, 9, .stepEnd 1, p, p != 9⟩
def ctlFlit (p : Nat) : Flit := ⟨9, 0, .control, p, p != 0⟩
def ringOf (f : Nat → Flit) (p : Nat) : State := ringHolds eval1 (f p)
def sentOf (s : State) (n : Nat) (up : Bool) : State := match s.nextFlit n up with | some (_, t) => t | none => s
def spills : State := eval1.onNode 7 fun n => { n with spill := [held1, held2], closeSeen := 1 }
def complete : State := eval1.onNode 7 fun n => { n with stepEnds := [0, 1, 2, 3, 4, 5, 6, 7], released := true }
def evaluated : State := eval1.onBlock 125 fun b => { b with evaluated := true }
def updating : State := up.onBlock 127 fun b => { b with updates := [⟨0, 3⟩, ⟨32767, -1⟩] }
def badSyn : State := up.onBlock 127 fun b => { b with badSyn := [16383], badState := [32767] }
def holding : State := arm.onConv 7 fun c => { c with held := [⟨0, false, 1, 4, 0, 0, 0⟩, ⟨63, true, 1, 4, 0, 0, 1⟩] }
/-- Block 0x33 with the corner class of the worked example of 05_spiking_fabric.md, its neuron 7,720 after step n. -/
def corner : State :=
  let s := { eval1 with regs := [] }
  let s := ((s.setWord 0x05330018 0x00980060).setWord 0x05330019 0).setWord 0x0533001A 0x3C10
  let s := (((s.setWord 0x05330120 0x3000C081).setWord 0x05330121 0x50021000).setWord 0x05330122 0x90007000).setWord 0x05330123 0xD000
  s.onBlock 0x33 fun b => b.setNeuron 7720 ⟨40, 0, 0, 2⟩
def cam : State := arm.setFld (hpId 3 0) 0 7 0x7F
def packet : CsiPacket := ⟨0, 0x30, true, .good, true, [1, 2, 3, 4], false, false, .good⟩
def diag : CsiPacket := { packet with dt := 0x12, pointers := .corrected }
def badHeader : CsiPacket := { packet with header := .bad }
def badCrc : CsiPacket := { packet with crcOk := false }
def refract : State := { arm.onPort 3 fun q => { q with t0 := some 0, refract := [(131071, 32768)] } with loc := 16384000 }
def sync : State := (arm.setFld (hpId 3 0) 0 1 1).onPort 3 fun q => { q with t0 := some 4999000000, edge := 1 }
def replay (w : Nat) : State :=
  { (arm.setWord (pid 2 0x21 0x13) 8).writeBytes 0 (leBytes 8 w) with pos := { arm.pos with src := .replay } }
def cornerEnv : EvalEnv := ⟨corner.classPar 0x33 2, false, false, corner.stepIdx (corner.classPar 0x33 2)⟩
def cornerOut (a : Int) : Neuron × List (Int × Nat × Nat) × Nat × Bool := evaluate cornerEnv ⟨40, 0, 0, 2⟩ a 0
def ptp : PtpMsg := ⟨0, 7, 5, 1, false, 0, 0, 1000, true, 0, 65536, true, -3⟩
def ptp1 : PtpMsg := { ptp with twoStep := false }
def gm : PtpDataset := ⟨128, 6, 0x21, 0x4E5D, 128, 9, 0, 37, true, 0⟩
def master1 : Master := ⟨1, 5, 1, gm, some 0, 0, 0, -3⟩
/-- The servo on, domain A locked to a master on port 1. -/
def servo : State :=
  let s := (State.reset.setFld (timeId 0) 0 1 1).setFld (domId 0 0) 10 1 0
  { s with loc := 4000000000, time := { s.time with domA := { s.time.domA with
      state := .locked, master := some master1, heard := [master1], sync := some (7, 100, 0), lastPair := some (1, 2),
      exchange := some ⟨1, 7, 50, 10, 20, none, 0⟩, delay := some 30, freq := 3 } } }
def servoReq : State := servo.setFld (domId 0 0) 8 2 0
def acquire : State := servo.setDomain 0 { servo.domain 0 with state := .acquire }
def ethUp : State := (State.reset.setFld (pid 0x13 1 0) 0 1 1).setFld (pid 0x13 1 1) 0 2 3
def switching : State :=
  { servo with time := { servo.time with switch := some ⟨1, 0, servo.dev, servo.dev - 5, -5⟩ } }
def twoLocked : State := { servo with time := { servo.time with domB := { servo.time.domA with base := 1000 } } }
def farLocked : State := { servo with time := { servo.time with domB := { servo.time.domA with base := 10 ^ 9 } } }
def tcu15 : State := State.reset.setFld (tcuId 15 0) 6 2 3
def tcuFull : State := tcu15.setCaptures 15 (List.replicate 8 ⟨4, true⟩)
def pps : State := { State.reset.setFld (timeId 0) 10 1 1 with loc := 4000000008, time := { TimeState.reset with everLocked := true } }
def slot1 : Slot :=
  { id := 0xE00005, anchor := 100, st := .mature, owned := true, degraded := false, boundary := false, covFault := false, hits := 3,
    misses := 2, age := 5, lastRef := 0, x := List.replicate 6 0, p := List.replicate 21 0, feats := List.replicate 8 0,
    matureSsn := 1, closedSsn := 0, d2 := [[], [], [], []], flow := [], seen := [], matFeats := [],
    tileFails := 0 }
def tracked : State := arm.setSlot 7 2047 (some slot1)
def todo : State := tracked.onTracker 7 fun x =>
  { x with todo := [⟨1, 100, false, 0⟩, ⟨2, 108, false, 0⟩], inbox := [⟨0, false, 1, 4, 0, 0, 0⟩, ⟨0, false, 2, 4, 0, 0, 0⟩] }
def todoOn : State := todo.setFld (tkId 7 0) 0 1 1
def pend1 : PendVerdict :=
  { lr := 7, slot := 2047, id := 0xE00005, home := 12, own := 0, across := 0, along := 0, degraded := false, target := 500,
    arr := 5010000000, launch := 5001000000, wait := none, vote := none, gen := 0 }
def vote1 : Vote := ⟨2, 230, false, false, false, 12, 500, none⟩
def pendWith (w : Option Nat) (v : Option Vote) (late : Bool) : State :=
  { tracked with tail := { tracked.tail with pend := [{ pend1 with wait := w, vote := v, launch := if late then 5000000000 else 5001000000 }] } }
def scored1 : Scored := { lr := 7, slot := 2047, id := 0xE00005, unit := 7, scores := [0, 0x3F800000], maps := none, tileW := 64,
                          tileH := 64, boxAsked := false, boxes := none, posted := none }
def posted1 : Scored := { scored1 with posted := some (2, 230) }
def postedOn (s : State) : State := s.onDense 7 fun x => { x with done := [posted1] }
def votes : State := postedOn (pendWith none none false)
def votesLate : State := postedOn (pendWith none none true)
def req1 : TileReq := ⟨7, 2047, 0xE00005, 1, 0, List.replicate 8 0, none, 4999999000⟩
def claims256 : State := tracked.setClaim 0 (some ⟨false, 3, 7, 256, 0⟩)
def asks : State := claims256.onDense 7 fun x => { x with reqs := [req1, { req1 with slot := 5 }] }
def asksGone : State := claims256.onDense 7 fun x => { x with reqs := [{ req1 with slot := 5 }] }
def layerOf (k : LayerKind) : Layer :=
  { kind := k, src := none, kh := 1, kw := 1, sh := 1, sw := 1, pt := 0, pb := 0, pl := 0, pr := 0, dil := 1, cin := 1, cout := 1,
    hin := 8, win := 8, groups := 1, wfmt := .int8, afmt := .int8, ofmt := .int8, weights := [1], wscales := [], bias := [0],
    mul := [1], shift := [0], scale := [0], lo := -128, hi := 127, clampOn := false, flo := 0, fhi := 0, pool := none,
    stripes := [⟨0, 8⟩], edgeMode := none }
def origin1 : TileOrigin := ⟨0, 0, 0, List.replicate 8 0, List.replicate 6 0⟩
def tile1 : Tile :=
  { lr := 7, slot := 2047, id := 0xE00005, matureSsn := 1, gen := 0, origin := origin1, pages := [0],
    ready := true, refs := 1, builderRef := true, cancelled := false, data := [], feats := List.replicate 8 0, w := 8, h := 8,
    cpad := 1, side := List.replicate 16 0, layers := [⟨[.waiting], [], false, none, []⟩], segment := none, input := none, asked := 4999999000 }
def planned (k : LayerKind) (t : Tile) : State :=
  { claims256 with obj := { claims256.obj with plan := ⟨[layerOf k], none, []⟩ } }.onDense 7 fun x => x.setTile 255 (some t)
def tiled : State := planned (.array 1) tile1
def tiledNew : State := planned (.array 1) { tile1 with ready := false }
def tiledRe : State := (planned (.array 1) tile1).setSlot 7 2047 (some { slot1 with tileFails := 1 })
def job1 : RunJob := ⟨255, 0, 0⟩
def mode1 : State := tiled.onDense 7 fun x => { x with mode := 1 }
def runsJob (t : Tile) : State := (planned (.array 1) t).onDense 7 fun x => { x.setSub 3 (some job1) with mode := 2 }
def runningTile : Tile := { tile1 with refs := 2, layers := [⟨[.running], [], false, none, []⟩] }
def running1 : State := runsJob runningTile
def runningAgain : State := runsJob { runningTile with layers := [⟨[.running], [0], false, none, []⟩] }
def edge1 : State := (planned .edgeConv { runningTile with layers := [⟨[.running], [], false, none, []⟩] }).onDense 7 fun x => { x with edge := some job1 }
def batch1 : State := planned (.fc true) tile1
def scores : State := tracked.onDense 7 fun x => { x with done := [scored1] }
def plane1 : Plane := ⟨1, 1, 1, .int8, [], []⟩
def bmap1 : BoxMaps := ⟨0, 0, 1, 0, 1, 8⟩
def mapped : State := tracked.onDense 7 fun x => { x with done := [{ scored1 with maps := some (plane1, plane1, bmap1) }] }
def boxes : State := mapped.onDense 4 fun x => { x with boxReqs := [(7, 0xE00005)] }
def queued : List Instr := [.speedWindowAge]
def tick1 : State := match step up with | .next t => t | _ => up
def obj7 : Word := 0xE00005
def pend2 : PendVerdict := { pend1 with launch := 5000000000 }
def tileNew : Tile := { tile1 with ready := false }
def tileAgain : Tile := { runningTile with layers := [⟨[.running], [0], false, none, []⟩] }
def req2 : TileReq := { req1 with slot := 5 }
def array1 : Layer := layerOf (.array 1)
def stripe1 : Plane × ConvCount := array1.runStripe 0 (runningTile.srcPlane array1) array1.emptyPlane ⟨0, 8⟩
def sourceA : Source := ⟨0, 2, 230, 10, true, 0⟩
def sourceB : Source := ⟨2, 4, 255, 6, false, 8⟩
def sourceC : Source := ⟨2, 4, 255, 6, true, 8⟩
def maps1 : Scored := { scored1 with maps := some (plane1, plane1, bmap1) }
def logged : State := { arm with pos := { arm.pos with log := [⟨4999999999, 1, 1⟩, ⟨4999990000, 0, 1⟩] } }
def counted : State := { up with pos := { up.pos with count := 2 ^ 47 + 5, log := [⟨-7, 2 ^ 47 + 5, 1⟩] } }
def switch1 : Switch := ⟨1, 0, servo.dev, servo.dev - 5, -5⟩
def cap1 : Capture := ⟨4, true⟩
def caps7 : List Capture := List.replicate 7 ⟨4, true⟩
def exch1 : DelayExchange := ⟨1, 7, 50, 10, 20, none, 0⟩
def rec0 : DecRec := ⟨0, false, 1, 4, 0, 0, 0⟩
def rec63 : DecRec := ⟨63, true, 1, 4, 0, 0, 1⟩
def extreme : EvalRegs := ⟨2147483647, 5, 0, 0, 0, 0, false, false, 1, []⟩
def plainEnv : EvalEnv := ⟨ClassPar.ofWords 0 0 0 [], false, false, 0⟩
def update0 : State := up.onBlock 127 fun b => { b with updates := [⟨0, 3⟩] }
def tailOff : List FabStep := [step2]
def syn0 : Update := ⟨0, 3⟩
def synTop : Update := ⟨32767, -1⟩
def held2s : List Held := [held2]
def tripped : State := supplied .tripped
def cornerPar : ClassPar := corner.classPar 0x33 2
def pairB : List Source := [sourceA, sourceB]
def pairC : List Source := [sourceA, sourceC]
def votesGone : State := votes.dropScored 7 posted1.id
def lateGone : State := votesLate.dropScored 7 posted1.id
def freed : State := running1.onDense 7 fun x => x.setSub 3 none
def freedAgain : State := ((runningAgain.onDense 7 fun x => x.setSub 3 none).bump (pid 9 7 0x106)).countUe 1 |>.report 0x09 7 1 0
def boxesGone : State := boxes.onDense 4 fun x => { x with boxReqs := [] }
def boxesOut : List Box := boxesGone.takeFree.2.suppress 4 (boxesGone.takeFree.2.candidates 4 boxesGone.free plane1 plane1 bmap1)
def step1T : StepInfo := ⟨1, 100, false, 0⟩
def stepsT : List StepInfo := [⟨2, 108, false, 0⟩]
def sources1 : List Source := votesGone.takeFree.2.sources 7 votesGone.free slot1 2 230
def vote1T : VoteResult := votesGone.takeFree.2.voteOf 7 votesGone.free 12 sources1
def pendE : PendVerdict := { pend1 with wait := some 0 }
def pendV : PendVerdict := { pend2 with vote := some vote1 }
def pendWait : State := pendWith (some 0) none false
def pendVoted : State := pendWith none (some vote1) true
def pendLate : State := pendWith none none true
def record1 : VerdictRec := ⟨63, 2, 230, 0, 0xE00005, 500, 5010000000, 5000000000, 0, 0, 7, 0, false⟩
def record2 : VerdictRec := { record1 with lane := 12, launch := 5000031000 }
def frames : State := { arm.setFld (tailId 0) 17 5 31 with tail := { arm.tail with recs := [record1, record2] } }
def framesPair : State := frames.setFld (tailId 0) 12 5 31
def launch0 : Launch := ⟨0, List.replicate 60 0, true⟩
def launchDown : State := up.setLaunchQ 1 [launch0]
def launchUp : State := ethUp.setLaunchQ 1 [launch0]
def launchM : Launch := ⟨-2000, List.replicate 60 0, true⟩
def launchLate : State := (ethUp.setFld (tportId 1 0) 16 1 1).setLaunchQ 1 [launchM]
def launchDrop : State := (ethUp.setFld (tportId 1 0) 16 1 0).setLaunchQ 1 [launchM]
def aux : State := ((State.reset.setFld (auxModId 0) 8 1 1).setFld (auxId 15 0) 0 1 1).onChan 15 fun a => { a with cfg := 1 }
def auxNear : State := aux.onChan 15 fun a => { a with last := some true, run := 4095 }
def auxStuck : State := aux.onChan 15 fun a => { a with last := some true, run := 5000, stuck := true }
def queueClaims : State := (State.reset.setClaim 0 (some ⟨false, 5, 4095, 1, 0⟩)).setClaim 1023 (some ⟨false, 4, 7, 64, 0⟩)
/-- Queue 4,095: one page of region 7, the host its producer and its consumer. -/
def queue1 : State := queueClaims.setWord (queId 4095 0) 0x1D
def qword1 : QWord := ⟨0x0102030405060708, false⟩
def qword2 : QWord := ⟨0xFF, true⟩
def queueTwo : State := queue1.onQueue 4095 fun x => { x with words := [qword1, qword2] }
def queueDiag : State := queueClaims.setWord (queId 4095 0) 0x81D
def words504 : List (BitVec 64) := List.replicate 504 1
def words505 : List (BitVec 64) := List.replicate 505 1
def wordsTwo : List (BitVec 64) := [0x0102030405060708, 0xFF]
def reqOf (p : List Byte) : Req := ⟨0xFFF, 0, false, p⟩
def waitWrite : Running := ⟨0x0305, reqOf (leBytes 2 4095 ++ leBytes 2 1 ++ leBytes 8 7), 0, 0, 0, []⟩
def queueFull : State :=
  { queue1.onQueue 4095 fun x => { x with words := List.replicate 504 qword1 } with
    loc := 100000000, host := { State.reset.host with running := [waitWrite] } }
def counter (n v : Nat) : State := (State.reset.setWord (soCfgId n) 1).setWord (soValId n) (BitVec.ofNat 32 v)
def limited1 : State := ((State.reset.setWord (soCfgId 12287) 5).setWord (soValId 12287) 0xFFFFFFFF)
def flag1 : State := (State.reset.setWord (soCfgId 12287) 2).setWord (soValId 12287) 1
def check1 : State :=
  (((State.reset.setClaim 0 (some ⟨false, 7, 15, 1, 0⟩)).setClaim 1 (some ⟨false, 0x0A, 0, 2, 0x480000000⟩)).setWord (cvId 15 8)
    8192).setWord (cvId 15 7) 4 |>.setWord (cvId 15 6) 0x80000000
/-- A port in a given state, its turn to train, 20 ms after reset. -/
def port3 (x : LinkState) : State :=
  let s := (State.reset.setFld (spkId 3 0) 0 1 1).onSpk 3 fun q => { q with state := x }
  { s with loc := 20000000, spoke := { s.spoke with order := [3] } }
def upDown : List Nat := [3, 2, 1, 0]
def crossed : List Nat := [1, 0, 2, 3]
/-- Port 3 UP at sequence 1,023. -/
def linked : State := (port3 .up).onSpk 3 fun q =>
  { q with seqRx := 1023, rxEpoch := 63, credits := [4, 4, 4, 4], dedicated := [4, 4, 4, 4], shared := 8, hbTx := 20000000 - 4000000 }
def sentFlit : SpokeFlit := { freshFlit 1 4 5 0 [] with seq := 1022 }
def sentNext : SpokeFlit := { freshFlit 1 4 5 0 [] with seq := 1023 }
def waitsAck : State := linked.onSpk 3 fun q => { q with retry := [sentFlit, sentNext], sentAt := [0, 0] }
def draining (r : List SpokeFlit) : State := linked.onSpk 3 fun q => { q with retry := r, drain := some 0 }
def drained : State := draining []
def drainLate : State := draining [sentFlit]
/-- The flit with the check value the receiver of `linked` expects. -/
def checked (f : SpokeFlit) : SpokeFlit := { f with check := flitCheck 63 f }
def haloFlit : SpokeFlit := checked { freshFlit 1 4 5 9 [8, 0, 1, 0, 1, 2, 3, 4, 5, 6, 7, 8] with seq := 1023 }
def relayFlit : SpokeFlit := checked { freshFlit 2 5 5 9 [48, 0, 1, 0] with seq := 1023 }
def activFlit : SpokeFlit := checked { freshFlit 2 6 5 9 [4, 0, 0, 0, 1, 2, 3, 4] with seq := 1023 }
def fwdFlit : SpokeFlit := checked { freshFlit 0 3 5 9 [20, 0, 0, 0, 0xC7] with seq := 1023 }
def wrongSeq : SpokeFlit := checked { freshFlit 1 4 5 9 [] with seq := 0 }
def badCheck : SpokeFlit := { haloFlit with check := haloFlit.check + 1 }
def badLink : SpokeFlit := { freshFlit 0 0 0 9 [] with check := 1 }
def ackFlit : SpokeFlit := checked { freshFlit 0 0 0 9 [0] with ackValid := true, ack := 1022 }
def beatFlit : SpokeFlit := checked (freshFlit 0 1 0 9 [9, 7])
def lastPart : SpokeFlit := checked { freshFlit 1 4 5 9 [200, 0, 1, 0] with seq := 1023, last := false }
def lastRelay : SpokeFlit := checked { freshFlit 2 5 5 9 [200, 0, 1, 0] with seq := 1023, last := false }
def lastFwd : SpokeFlit := checked { freshFlit 0 3 5 9 [200, 0, 1, 0] with seq := 1023, last := false }
/-- The module at address 5 of a chain, its port 3 UP. -/
def inChain : State := { linked with chain := some 5 }
def lostFlit : SpokeFlit :=
  checked { freshFlit 0 3 99 9 ([20, 0, 0, 0] ++ packetBytes 1 false false 0 2 7 99 9 []) with seq := 1023 }
def gotOf (s : State) (f : SpokeFlit) : Message :=
  match (s.rx 3 f).1 with | some m => m | none => ⟨0, 0, 0, 0, 0, 0, false, 0, []⟩
def afterRx (s : State) (f : SpokeFlit) : State := (s.rx 3 f).2
/-- An ENUM message of a kind, whole in one flit. -/
def enumFlit (k : Nat) : SpokeFlit :=
  checked { freshFlit 0 2 5 9 ([57, 0, BitVec.ofNat 8 k, 0] ++ List.replicate 57 1) with seq := 1023 }
/-- A NOTIFY message for the root. -/
def notifyFlit : SpokeFlit :=
  checked { freshFlit 0 2 0 9 ([57, 0, 7, 0] ++ List.replicate 57 1) with seq := 1023 }
def rootChain : State := { inChain with chain := some 0, spoke := { inChain.spoke with root := true } }
def restarting1 : State := { inChain with cmd := .restart }
def deviceChanged : ChainNode := ⟨3, 1, 2, some (0, 3), 1, 3⟩
def acceptable : State :=
  let s := rootChain
  s.setNode 9 (some deviceChanged)
def card : State := State.reset.onSdio fun d => { d with selected := true, rca := 7 }
def cardLater : State := { card with loc := 5000000 }
def belled : State := cardLater.onSdio fun d => { d with busy := true, doorbell := 20 }
def replied : State := cardLater.onHost fun h => { h with replies := [[1], [2]], stalled := [(3, [4])] }
def bulkIn1 : BulkIn := ⟨0xFFF, 0, 0, 1025, 0⟩
def bulkOut1 : BulkOut := ⟨0xFFF, 0, 256, 1025, 0, []⟩
def block512 : List Byte := List.replicate 512 0xA5
def bulkFar : State := { (cardLater.onHost fun h => { h with bulkIn := some ⟨0, 5, 0, 2048, 0⟩ }) with
  spoke := { cardLater.spoke with routes := [(5, 0)] } }
def bulkOpen : State := cardLater.onHost fun h => { h with bulkIn := some bulkIn1, bulkOut := some bulkOut1 }
def staged1 : Staged := ⟨0, 1025, true, false⟩
def arrived : State := State.reset.onModel fun m => { m with staged := some staged1 }
def forwarded1 : Forwarded := ⟨9, 0xFFF, 2, [], 0, []⟩
def waitsReply : State := { State.reset.onHost fun h => { h with forwarded := [forwarded1] } with loc := 5000000000 }
def none1 : Req := reqOf []
def askOf (n : Nat) : Req := reqOf (leBytes 4 n)
def model1 : Model :=
  { member := 0, members := 1, footprint := 4096, box := false,
    needs := { lregions := 0, formats := 0, modes := 0, dense := 0, edge := 0, slot := 0, minLead := 0, localBuf := 0, jobs := 0,
               regions := [] },
    blocks := [], subs := [], plan := ⟨[], none, []⟩, conts := [], params := [], transfers := [], maxHops := 16, addrs := [0],
    digest := 1, slotHold := 0, degraded := false }
def loaded : State := State.reset.onModel fun m => { m with active := some model1 }
def armable : State := loaded.setFld (timeId 0) 1 1 1
/-- The module armed with a model image. -/
def service : State := { arm.onModel (fun m => { m with active := some model1 }) with pos := { arm.pos with cur := none } }
def monReq : Req := reqOf (leBytes 2 39 ++ leBytes 2 25)
def logReq : Req := reqOf (leBytes 1 2 ++ leBytes 3 0 ++ leBytes 4 0xFFFFFFFF ++ leBytes 2 25)
def testReq : Req := reqOf (leBytes 1 0 ++ leBytes 1 7 ++ leBytes 1 15 ++ leBytes 1 0 ++ leBytes 4 32767 ++ leBytes 2 1)
def testTarget1 : TestTarget := ⟨28, 32768, 509, fun s i => leBytes 8 (Sparse.get (s.block 127).base (s.block 127).states i)⟩
def powerReq : Req := reqOf [43]
def readReq : Req := reqOf (leBytes 4 (posId 0) ++ leBytes 2 1 ++ leBytes 2 0)
def readBadReq : Req := reqOf (leBytes 4 0xFF000000 ++ leBytes 2 1 ++ leBytes 2 0)
def listIds : List Nat := [posId 0, posId 0x0C]
def listReq : Req := reqOf (leBytes 2 2 ++ leBytes 2 0 ++ listIds.flatMap (leBytes 4))
def badIds : List Nat := [posId 0, 0xFF000000]
def badListReq : Req := reqOf (leBytes 2 2 ++ leBytes 2 0 ++ badIds.flatMap (leBytes 4))
def writeReq : Req := reqOf (leBytes 4 (posId 4) ++ leBytes 2 1 ++ leBytes 2 0 ++ leBytes 4 1000)
def writeWs : List (Nat × Word) := [(posId 4, 1000)]
def writeBadReq : Req := reqOf (leBytes 4 0xFF000000 ++ leBytes 2 1 ++ leBytes 2 0 ++ leBytes 4 100)
def writeBadWs : List (Nat × Word) := [(0xFF000000, 100)]
def writeListReq : Req := reqOf (leBytes 2 1 ++ leBytes 2 0 ++ (writeWs.flatMap fun w => leBytes 4 w.1 ++ leBytes 4 w.2.toNat))
def writeBadListReq : Req := reqOf (leBytes 2 1 ++ leBytes 2 0 ++ (writeBadWs.flatMap fun w => leBytes 4 w.1 ++ leBytes 4 w.2.toNat))
def written (op : Nat) (r : Req) (ws : List (Nat × Word)) : State :=
  match (forEach ws (fun t w => t.setWord w.1 w.2) (up.taken op r)).writeWords (up.taken op r) 0 ws with
  | .ok t => t
  | .error _ => up
def dumpReq (off n : Nat) : Req := reqOf (leBytes 8 off ++ leBytes 4 n)
def dumpFar : Req := { dumpReq 0 4096 with src := 9 }
def beginReq : Req := reqOf (leBytes 1 1 ++ leBytes 3 0 ++ leBytes 8 (2 ^ 32))
def swapReq : Req := reqOf (leBytes 4 0 ++ leBytes 6 0)
def oneOf (n : Nat) (b : Byte) : Req := reqOf (List.replicate n b)
def swap1 : Swap := ⟨model1, 0, true, false, some 0, none, []⟩
def swapping1 : State := service.onModel fun m => { m with swap := some swap1 }
def stagedFw : Staged := ⟨1, 16, true, true⟩
def firmware1 : State := State.reset.onModel fun m => { m with staged := some stagedFw }
def image1 : List Byte := firmware1.stagedBytes stagedFw
def claimReq : Req := reqOf (leBytes 1 7 ++ leBytes 1 0 ++ leBytes 2 15 ++ leBytes 4 1 ++ leBytes 8 0)
def claim7 : Claim := ⟨false, 7, 15, 1, 0⟩
def hasClaim : State := State.reset.setClaim 1023 (some claim7)
def releaseReq : Req := reqOf (leBytes 2 1023)
def queueReq (n : Nat) (o : Bool) : Req := reqOf (leBytes 2 4095 ++ leBytes 2 (n + bit o * 2 ^ 15) ++ (upTo n).flatMap fun _ => leBytes 8 7)
def queueReadReq : Req := reqOf (leBytes 2 4095 ++ leBytes 2 452)
def syncReq : Req := reqOf (leBytes 2 12287 ++ leBytes 1 2 ++ leBytes 1 0 ++ leBytes 4 5 ++ leBytes 4 0)
def syncAfter : State := ((counter 12287 7).taken 0x0307 syncReq |>.soOp 12287 2 5 0).2.2
def i2cReq : Req := reqOf (leBytes 1 3 ++ leBytes 1 0x7F ++ leBytes 2 256 ++ leBytes 2 256 ++ leBytes 2 0 ++ List.replicate 256 0)
def camsOn : State := State.reset.setFld camId 0 4 15
def powerOff : Req := reqOf (leBytes 1 42 ++ leBytes 1 2 ++ leBytes 2 0)
def powerOn : Req := reqOf (leBytes 1 42 ++ leBytes 1 0 ++ leBytes 2 0)
def parkReq : Req := reqOf (leBytes 1 7 ++ leBytes 1 1)
def parkable : State := { service with regions := Sparse.set (fun _ => 0) service.regions 7 1 }
def parkedState : State := { service with regions := Sparse.set (fun _ => 0) service.regions 7 3 }
def bistReq : Req := reqOf (leBytes 1 1 ++ leBytes 3 0 ++ leBytes 1 1)
def running (op : Nat) (p : List Byte) : Running := ⟨op, reqOf p, 0, 0, 0, []⟩
def runs (op : Nat) (p : List Byte) : State := State.reset.onHost fun h => { h with running := [running op p] }
def i2cPay : List Byte := i2cReq.payload
def i2cRead : List Byte := List.replicate 256 0
def fwRuns : State := firmware1.onHost fun h => { h with running := [running 0x0804 (leBytes 4 0)] }
def moving (m : PwrMove) (d : Nat) : State := State.reset.onPdom d fun x => { x with st := .on, move := some m, target := m.goal }
def toOff : PwrMove := ⟨.off, false, false⟩
def toRet : PwrMove := ⟨.ret, true, false⟩
def toOn : PwrMove := ⟨.on, false, false⟩
def entering : State := moving toOff 43
def enteredRet : State := moving toRet 28
def waking : State := moving toOn 28
def inRet : State := State.reset.onPdom 28 fun x => { x with st := .ret, target := .ret }
def held20 : State := { State.reset.onPdom 28 fun x => { x with target := .ret, retry := some 0 } with loc := 65536000000 }
def trackerFields : List Field := match lookup (tkId 7 0) with | .word fs => fs | _ => []
def trackerOff : State := (State.reset.setFld (tkId 7 0) 0 1 1).onPdom 31 fun x => { x with st := .off }
def counterFields : List Field := match lookup (tkId 7 0x405) with | .word fs => fs | _ => []
def counted7 : State := (State.reset.bump (tkId 7 0x405)).onPdom 31 fun x => { x with st := .off }
def rep1 : ErrorReport := ⟨24, 0, 1, 0⟩
def rep5 : ErrorReport := ⟨5, 127, 1, 0xFFFFFFFF⟩
def stepLate : State := { eval1 with loc := 70000000000 }
def failed7 : State :=
  { (arm.setFld (pid 1 0 0x130) 16 1 1).onFault (fun f => { f with failed := some (7, 0, true) }) with
    regions := Sparse.set (fun _ => 0) arm.regions 7 2 }
def testing7 : State := { arm.onFault (fun f => { f with retest := some 7 }) with regions := Sparse.set (fun _ => 0) arm.regions 7 4 }
def passed7 : List SliceResult := (regionCodes 7).map fun c => ⟨c, 0, 10, 0⟩
def fails7 : List SliceResult := (regionCodes 7).map fun c => ⟨c, 2, 10, 0⟩
def dying : State := up.onFault fun f => { f with fatal := some 9, detect := [1, 2, 3, 4, 5, 6, 7, 8] }
def dumped : State := { up.onFault (fun f => { f with fatal := some 8 }) with mem := [(dumpBase + 7, 1)] }
def again : State := { up.onFault (fun f => { f with lastRestart := some 0 }) with loc := 59999999999 }
def restarted : State := { up.onFault (fun f => { f with restartAt := some 0 }) with loc := 10000000000, cmd := .restart }
def mon (q : Nat) : State := State.reset.setFld (pid 0x15 63 0) 0 8 q
def trip1 : State := State.reset.setFld camId 0 4 8
def noLock : State := State.reset.setFld (pid 0x13 1 0) 0 1 1
def rwlFields : List Field := match lookup (posId 0) with | .word fs => fs | _ => []
def boot3 : State := boot2.onSec fun x => { x with copyB := x.copyA }
def boot4 : State := boot2.onSec fun x => { x with copyA := none, copyB := none }
def rwlField : Field := rwlFields.headD ⟨0, 1, .rw, 0, []⟩
def forceFields : List Field := match lookup (fuId 7 0x11F) with | .word fs => fs | _ => []

def heldPos : State := { up with pos := { up.pos with hold := true } }
def filt : State := up.setFld (posId 0) 8 8 10
def zLater : State := { filt with loc := 300, pos := { filt.pos with zAt := some 100 } }
def zSoon : State := { filt with loc := 299, pos := { filt.pos with zAt := some 100 } }
def ecc2 : List EccCheck := [.clean, .clean]
def ecc4 : List EccCheck := [.clean, .corrected, .clean, .clean]
def ecc7 : List EccCheck := List.replicate 7 .clean
def bad2 : List EccCheck := [.uncorrectable, .clean]
def bad7 : List EccCheck := List.replicate 7 .uncorrectable
def lag64 : State := arm.setWord (posId 0x0D) 64
def ringCtl : State := { up with loc := 7 }
def ownCtl : Flit := ⟨9, 10, .control, 10, false⟩
def claimedRange : State := check1.onCv 15 fun x => { x with busy := true, range := (0x480000000, 4) }
def servoReqRx : State := servoReq.framesRx 1
def peerWith (e : DelayExchange) : State :=
  (servo.setFld (domId 0 0) 8 2 1).setDomain 0 { servo.domain 0 with link1 := { PeerLink.reset with exchange := some e } }
def exchP : DelayExchange := { exch1 with t2p := some 40 }
def servoPeer : State := peerWith exch1
def servoPeer2 : State := peerWith exchP
def ptpFar : PtpMsg := { ptp with logInterval := 4 }
def domA0 : Domain := servoReq.domain 0
def peerRx : State := servoPeer.framesRx 1
def peerRx2 : State := servoPeer2.framesRx 1
def domP : Domain := servoPeer.domain 0
def domP2 : Domain := servoPeer2.domain 0
def waitReq : PtpWait := ⟨1, 3, 9, 0, false, 77⟩
def waitOwn : PtpWait := ⟨1, 1, 9, 0, false, 0⟩
def armLock : State := { servo with armed := true, cmd := .armed }
def freedOnce : State := ((running1.onDense 7 fun x => x.setSub 3 none).bump (pid 9 7 0x106)).countUe 1 |>.report 0x09 7 1 0
def layerRun1 : LayerRun := ⟨[.running], [], false, none, []⟩
def boxW : State := (boxesGone.takeFree.2.bump (postId 4 0x101)).bump (postId 4 0x102)
    ((boxesGone.takeFree.2.candidates 4 boxesGone.free plane1 plane1 bmap1).length - 256)
def boxT : State := boxW.writeBoxes 4 (boxesOut.zipIdx.map fun b => boxRecord 0xE00005 maps1.tileW maps1.tileH b.2 b.1) .good
def hbLate : State := { linked with loc := 40000000 }
def badBeat : SpokeFlit := { beatFlit with check := beatFlit.check + 1 }
def oddFlit : SpokeFlit := checked { freshFlit 0 7 0 9 [] with seq := 1023 }
def writeOwnWs : List (Nat × Word) := [(queId 4095 0, 0x1D)]
def writeOwnReq : Req := reqOf (leBytes 4 (queId 4095 0) ++ leBytes 2 1 ++ leBytes 2 0 ++ leBytes 4 0x1D)
def writeOwnListReq : Req := reqOf (leBytes 2 1 ++ leBytes 2 0 ++ (writeOwnWs.flatMap fun w => leBytes 4 w.1 ++ leBytes 4 w.2.toNat))
def toRetGo : PwrMove := ⟨.ret, false, false⟩
def enteringRet : State := moving toRetGo 43
def enteringHeld : State := (queue1.onPdom 31 fun x => { x with st := .on, move := some toOff, target := .off })
def repQ : ErrorReport := ⟨0x10, 0, 3, 0xFFF⟩
def accessed (s : State) (op : Nat) (r : Req) (q : Nat) : State := (s.taken op r).queueAccess q .good
def supplySet (s : State) (w new : Nat) : State :=
  (s.setFld camId 0 4 w).onBoard fun b => { b with softStart := (b.softStart ||| new) &&& w, tripped := b.tripped - (b.tripped &&& new) }

def snapPast : State := (up.setFld (pid 0x15 0x40 0) 0 16 1).onMon 0 fun c => { c with tickAt := some 0 }
def snapAfter : State := { snapPast with loc := 1000000, mgmt := { snapPast.mgmt with snapAt := some 0 } }

def camDown : State := cam.onBoard fun b => { b with tripped := 8 }
def tcuZ : State := tcu15.setFld (tcuId 15 0) 0 6 2
def edgeF : PinEdge := ⟨true, 0⟩
def edgeZ : PinEdge := ⟨true, 2550⟩
def tileGone : State := (planned (.array 1) tileNew).setSlot 7 2047 none
def sideNew : List Nat := tileNew.side.take 8 ++ ((tiledNew.sideVector 7 tileNew.feats tileNew.origin.x slot1).drop 8).take 4 ++ tileNew.side.drop 12
def farDump : State := up.onHost fun h => { h with bulkOut := some { bulkOut1 with dest := 9 } }
def resetAsked : State := up.onHost fun h => { h with resetReply := some [] }
def farReq : Req := { none1 with src := 9 }
def enteringOn : State := moving toRetGo 28
def pendRet : State := enteringOn.onPdom 28 fun x => { x with st := .ret }
def committedRet : State := moving toRet 28
def rep6 : ErrorReport := ⟨6, 7, 1, 2047⟩
def repC : ErrorReport := ⟨0x10, 0, 1, 0x30FFF⟩
def rep0A : ErrorReport := ⟨1, 0, 0x0A, 0⟩
def logReq127 : Req := reqOf (leBytes 1 1 ++ leBytes 3 0 ++ leBytes 4 0 ++ leBytes 2 127)
def testReq2 : Req := reqOf (leBytes 1 2 ++ leBytes 1 0xFF ++ leBytes 1 0xFF ++ leBytes 1 0 ++ leBytes 4 327 ++ leBytes 2 1)
def testTarget2 : TestTarget := ⟨43, 328, 254, fun s i => leBytes 16 (Sparse.get (fun _ => 0) s.rtr.subs i)⟩
def scrub0 : State := up.onFault fun f => { f with scrub := [(1535, 8191)] }

def chainReq : Req := { none1 with src := 5 }

/-! ### Witnesses -/

/-- States and operands that meet the hypotheses of `Obligations.StepRunsFrontCommand`, one part for each of its clauses. -/
theorem witness_StepRunsFrontCommand :
    (popped.pending = Instr.lineFault :: queued) :=
  by decide +kernel

/-- States and operands that meet the hypotheses of `Obligations.EmptyQueueTicks`, one part for each of its clauses. -/
theorem witness_EmptyQueueTicks :
    ((supplied Supply.absent).pending = [] ∧ (supplied Supply.absent).powered = false) ∧
    (up.pending = [] ∧ up.powered = true ∧ up.mgmt.board.store = none ∧ up.mgmt.board.reload = none) :=
  by
  refine ⟨?_, ?_⟩ <;> decide +kernel

/-- States and operands that meet the hypotheses of `Obligations.EveryCommandCompletes`, one part for each of its clauses. -/
theorem witness_EveryCommandCompletes :
    ((Instr.tempSample 8 (0 : BitVec 16)).unitsOk = false) ∧
    ((Instr.syncobjSet 12288).unitsOk = false) ∧
    ((Instr.checkvalStart 16 (0 : Word)).unitsOk = false) :=
  by
  refine ⟨?_, ?_, ?_⟩ <;> decide +kernel

/-- States and operands that meet the hypotheses of `Obligations.EveryStepKeepsCanonicalStores`, one part for each of its clauses. -/
theorem witness_EveryStepKeepsCanonicalStores :
    (up.canonical ∧ step up = Host.Outcome.next tick1) :=
  ⟨by rw [canonical_iff]; decide +kernel, by rfl⟩

/-- States and operands that meet the hypotheses of `Obligations.InputPowerSequence`, one part for each of its clauses. -/
theorem witness_InputPowerSequence :
    ((supplied Supply.absent).mgmt.board.supply = Supply.absent) ∧
    ((supplied Supply.qualifying).mgmt.board.supply = Supply.qualifying) ∧
    (tripped.mgmt.board.supply = Supply.tripped) ∧
    ((supplied Supply.charging).mgmt.board.supply = Supply.charging) ∧
    (((supplied Supply.on).mgmt.board.supply = Supply.qualifying ∨ (supplied Supply.on).mgmt.board.supply =
      Supply.charging ∨ (supplied Supply.on).mgmt.board.supply = Supply.on ∨ (supplied Supply.on).mgmt.board.supply =
      Supply.lockedOut)) ∧
    (((supplied Supply.charging).mgmt.board.supply = Supply.qualifying ∨ (supplied Supply.charging).mgmt.board.supply =
      Supply.charging ∨ (supplied Supply.charging).mgmt.board.supply = Supply.on ∨ (supplied
      Supply.charging).mgmt.board.supply = Supply.lockedOut)) ∧
    (((supplied Supply.lockedOut).mgmt.board.supply = Supply.qualifying ∨ (supplied Supply.lockedOut).mgmt.board.supply =
      Supply.charging ∨ (supplied Supply.lockedOut).mgmt.board.supply = Supply.on ∨ (supplied
      Supply.lockedOut).mgmt.board.supply = Supply.lockedOut) ∧ (supplied Supply.lockedOut).mgmt.board.supply =
      Supply.lockedOut) ∧
    (((supplied Supply.tripped).mgmt.board.supply = Supply.absent ∨ (supplied Supply.tripped).mgmt.board.supply =
      Supply.tripped)) ∧
    ((supplied Supply.lockedOut).mgmt.board.supply ≠ Supply.absent) ∧
    (tripped2.powered = true) :=
  by
  refine ⟨?_, ?_, ?_, ?_, ?_, ?_, ?_, ?_, ?_, ?_⟩ <;> decide +kernel

/-- States and operands that meet the hypotheses of `Obligations.StartUpSequence`, one part for each of its clauses. -/
theorem witness_StartUpSequence :
    (boot.booting = true ∧ boot.mgmt.test.bootDone = false ∧ (List.map (fun x => x.code) passed = bootCodes) ∧ failedOf
      passed = []) ∧
    (boot.booting = true ∧ boot.mgmt.test.bootDone = false ∧ (List.map (fun x => x.code) oneFails = bootCodes) ∧ failedOf
      oneFails ≠ []) ∧
    (boot2.booting = true ∧ boot2.mgmt.test.bootDone = true ∧ boot2.copyAccepted boot2.mgmt.sec.preferred true = true) ∧
    (boot3.booting = true ∧ boot3.mgmt.test.bootDone = true ∧ boot3.copyAccepted boot3.mgmt.sec.preferred false = false ∧
      boot3.copyAccepted boot3.mgmt.sec.preferred false = false) ∧
    (boot4.booting = true ∧ boot4.mgmt.test.bootDone = true ∧ boot4.copyAccepted boot4.mgmt.sec.preferred true = false ∧
      boot4.copyAccepted boot4.mgmt.sec.preferred true = false) ∧
    (early.powered = true ∧ early.cmd = CmdState.early ∧ early.portsTried = true ∧ early.copyOf early.mgmt.sec.running =
      some (FwCopy.mk 0 0 0 0)) ∧
    (resetting.resetDue = true ∧ resetting.canonical) ∧
    (storing.mgmt.board.storing = some [(1 : Byte)] ∧ storing.awake = true) :=
  by
  refine ⟨?_, ?_, ?_, ?_, ?_, ?_, ?_, ?_⟩ <;> (try simp only [canonical_iff]) <;> decide +kernel

/-- States and operands that meet the hypotheses of `Obligations.CountEdgeMovesCounter`, one part for each of its clauses. -/
theorem witness_CountEdgeMovesCounter :
    (topCount.canonical ∧ topCount.stepMode = false ∧ topCount.armed = false) ∧
    (up.canonical ∧ up.stepMode = false ∧ up.armed = false) :=
  by
  refine ⟨?_, ?_⟩ <;> (simp only [canonical_iff]; decide +kernel)

/-- States and operands that meet the hypotheses of `Obligations.EventsAreHeldInOrder`, one part for each of its clauses. -/
theorem witness_EventsAreHeldInOrder :
    (eval1.regionAsync 7 = false ∧ (held2.pending = true ∨ Option.map (fun x => x % 65536) eval1.curSsn ≠ some held2.tag)
      ∧ (eval1.node 7).sram.length < 32768) :=
  by decide +kernel

/-- States and operands that meet the hypotheses of `Obligations.NeuronArithmeticStaysInRange`, one part for each of its clauses. -/
theorem witness_NeuronArithmeticStaysInRange :
    ((-524288 : Int) ≤ plainEnv.par.reset ∧ plainEnv.par.reset ≤ (524287 : Int) ∧ (-2147483648 : Int) ≤ extreme.v ∧
      extreme.v ≤ (2147483647 : Int)) :=
  by decide +kernel

set_option maxRecDepth 100000 in
/-- States and operands that meet the hypotheses of `Obligations.FiredNeuronsAreRechecked`, one part for each of its clauses. -/
theorem witness_FiredNeuronsAreRechecked :
    (corner.canonical ∧ 51 < 128 ∧ (corner.block 51).badState.contains 7720 = false ∧ cornerPar = corner.classPar 51
      ((corner.block 51).neuron 7720).cls ∧ (cornerEnv = EvalEnv.mk cornerPar false ((Option.map (fun x => x.backstop)
      corner.pos.cur).getD false) (corner.stepIdx cornerPar)) ∧ evaluate cornerEnv ((corner.block 51).neuron 7720) (448 :
      Int) (corner.block 51).lfsr = ((cornerOut (448 : Int)).1, (cornerOut (448 : Int)).2.1, (cornerOut (448 :
      Int)).2.2.1, (cornerOut (448 : Int)).2.2.2) ∧ ((cornerOut (448 : Int)).2.2.2 = true ∧ (↑cornerPar.theta ≤
      (cornerOut (448 : Int)).1.membrane ∨ cornerPar.twoSided = true ∧ (cornerOut (448 : Int)).1.membrane ≤
      -↑cornerPar.theta))) ∧
    (corner.canonical ∧ 51 < 128 ∧ (corner.block 51).badState.contains 7720 = false ∧ cornerPar = corner.classPar 51
      ((corner.block 51).neuron 7720).cls ∧ (cornerEnv = EvalEnv.mk cornerPar false ((Option.map (fun x => x.backstop)
      corner.pos.cur).getD false) (corner.stepIdx cornerPar)) ∧ evaluate cornerEnv ((corner.block 51).neuron 7720) (0 :
      Int) (corner.block 51).lfsr = ((cornerOut (0 : Int)).1, (cornerOut (0 : Int)).2.1, (cornerOut (0 : Int)).2.2.1,
      (cornerOut (0 : Int)).2.2.2) ∧ (¬((cornerOut (0 : Int)).2.2.2 = true ∧ (↑cornerPar.theta ≤ (cornerOut (0 :
      Int)).1.membrane ∨ cornerPar.twoSided = true ∧ (cornerOut (0 : Int)).1.membrane ≤ -↑cornerPar.theta)))) :=
  ⟨⟨by rw [canonical_iff]; decide +kernel, by decide, by decide +kernel, by rfl, by rfl, by rfl, by decide +kernel⟩,
    ⟨by rw [canonical_iff]; decide +kernel, by decide, by decide +kernel, by rfl, by rfl, by rfl, by decide +kernel⟩⟩

/-- States and operands that meet the hypotheses of `Obligations.HomographyResetsToIdentity`, one part for each of its clauses. -/
theorem witness_HomographyResetsToIdentity :
    (3 < 4 ∧ 8 < 9) :=
  by decide +kernel

/-- States and operands that meet the hypotheses of `Obligations.TimeWordWrites`, one part for each of its clauses. -/
theorem witness_TimeWordWrites :
    (twoLocked.canonical ∧ twoLocked.wordService = true ∧ twoLocked.refusesWrite (timeId 1) (1 : Word) = none ∧ bitsOf
      (BitVec.toNat (1 : Word)) 0 1 ≠ twoLocked.timeTarget) ∧
    (servo.canonical ∧ servo.wordService = true ∧ BitVec.toNat (1 : Word) < 2 ∧ bitsOf (BitVec.toNat (1 : Word)) 0 1 ≠
      servo.timeTarget ∧ (servo.domain (bitsOf (BitVec.toNat (1 : Word)) 0 1)).state ≠ DomState.locked) ∧
    (farLocked.canonical ∧ farLocked.wordService = true ∧ BitVec.toNat (1 : Word) < 2 ∧ bitsOf (BitVec.toNat (1 : Word))
      0 1 ≠ farLocked.timeTarget ∧ (farLocked.domain (bitsOf (BitVec.toNat (1 : Word)) 0 1)).state = DomState.locked ∧
      farLocked.switchAllowed (bitsOf (BitVec.toNat (1 : Word)) 0 1) = false) ∧
    (servo.canonical ∧ servo.wordService = true ∧ 0 < 2 ∧ servo.armed = false ∧ (1 : Word) = (1 : Word)) ∧
    (servo.canonical ∧ servo.wordService = true ∧ 1 < 2 ∧ servo.armed = false ∧ (1 : Word) = (1 : Word)) ∧
    (arm.canonical ∧ arm.wordService = true ∧ 1 < 2 ∧ arm.armed = true ∧ (1 : Word) = (1 : Word)) ∧
    (up.canonical ∧ up.wordService = true ∧ up.refusesWrite (timeId 0) (2048805 : Word) = none ∧ bitOf (BitVec.toNat
      (2048805 : Word)) 0 = true) ∧
    (servo.canonical ∧ servo.wordService = true ∧ 1 < 2 ∧ servo.refusesWrite (domId 1 0) (227841 : Word) = none ∧
      servo.servoOn = true ∧ bitsOf (BitVec.toNat (227841 : Word)) 11 2 ≠ 0 ∧ (servo.domain 1).state = DomState.disabled) :=
  by
  refine ⟨?_, ?_, ?_, ?_, ?_, ?_, ?_, ?_⟩ <;> (simp only [canonical_iff]; decide +kernel)

/-- States and operands that meet the hypotheses of `Obligations.VotesAreWellFormed`, one part for each of its clauses. -/
theorem witness_VotesAreWellFormed :
    ((∀ x ∈ pairB, x.conf ≤ 255) ∧ (∀ x ∈ pairB, x.cls ≤ 255) ∧ (∀ x ∈ pairB, ∀ y ∈ pairB, x.decisive = true → y.decisive
      = true → x.cls = y.cls) ∧ (0 < (List.map (fun x => x.weight * x.conf) pairB).sum)) ∧
    ((∀ x ∈ pairC, x.conf ≤ 255) ∧ (∀ x ∈ pairC, x.cls ≤ 255)) :=
  by
  refine ⟨?_, ?_⟩ <;> decide +kernel

/-- States and operands that meet the hypotheses of `Obligations.RefinementIsLimited`, one part for each of its clauses. -/
theorem witness_RefinementIsLimited :
    (Int.natAbs (100 : Int) ≤ 120 ∧ Int.natAbs (20 : Int) ≤ 50) ∧
    (Int.natAbs (100 : Int) ≤ 120) :=
  by
  refine ⟨?_, ?_⟩ <;> decide +kernel

/-- States and operands that meet the hypotheses of `Obligations.FramesAndColumnsAreBounded`, one part for each of its clauses. -/
theorem witness_FramesAndColumnsAreBounded :
    (frames.batchOf 7 = [record1]) ∧
    (framesPair.batchOf 7 = [record1, record2]) ∧
    ((up.column (12480 : Int)).2 = false) :=
  by
  refine ⟨?_, ?_, ?_⟩ <;> decide +kernel

/-- States and operands that meet the hypotheses of `Obligations.CounterAndFlagOperations`, one part for each of its clauses. -/
theorem witness_CounterAndFlagOperations :
    (12287 < 12288 ∧ (counter 12287 7).running = true ∧ 1 = (counter 12287 7).fld (soCfgId 12287) 0 2 ∧ (7 : Word) =
      (counter 12287 7).word (soValId 12287) ∧ (1 = 1 ∨ 1 = 2)) ∧
    (12287 < 12288 ∧ flag1.running = true ∧ 2 = flag1.fld (soCfgId 12287) 0 2 ∧ (1 : Word) = flag1.word (soValId 12287) ∧
      (2 = 1 ∨ 2 = 2 ∧ BitVec.toNat (1 : Word) < 2)) ∧
    (12287 < 12288 ∧ (counter 12287 7).running = true ∧ 1 = (counter 12287 7).fld (soCfgId 12287) 0 2 ∧ (7 : Word) =
      (counter 12287 7).word (soValId 12287) ∧ (1 = 1 ∨ 1 = 2 ∧ BitVec.toNat (4294967295 : Word) < 2)) ∧
    (12287 < 12288 ∧ (counter 12287 7).running = true ∧ 1 = (counter 12287 7).fld (soCfgId 12287) 0 2 ∧ (7 : Word) =
      (counter 12287 7).word (soValId 12287) ∧ 1 = 1 ∧ (counter 12287 7).bitAt (soCfgId 12287) 2 = false) ∧
    (12287 < 12288 ∧ limited1.running = true ∧ 1 = limited1.fld (soCfgId 12287) 0 2 ∧ (4294967295 : Word) = limited1.word
      (soValId 12287) ∧ 1 = 1 ∧ limited1.bitAt (soCfgId 12287) 2 = true) ∧
    (12287 < 12288 ∧ flag1.running = true ∧ 2 = flag1.fld (soCfgId 12287) 0 2 ∧ (1 : Word) = flag1.word (soValId 12287) ∧
      2 = 2) ∧
    (12287 < 12288 ∧ flag1.running = true ∧ 2 = flag1.fld (soCfgId 12287) 0 2 ∧ (1 : Word) = flag1.word (soValId 12287) ∧
      2 ≠ 1) ∧
    (12287 < 12288 ∧ (counter 12287 7).running = true ∧ 1 = (counter 12287 7).fld (soCfgId 12287) 0 2 ∧ (7 : Word) =
      (counter 12287 7).word (soValId 12287) ∧ 1 ≠ 2) ∧
    (12287 < 12288 ∧ up.running = true ∧ 0 = up.fld (soCfgId 12287) 0 2 ∧ (0 : Word) = up.word (soValId 12287) ∧ 0 ≠ 1 ∧
      0 ≠ 2) ∧
    (12287 < 12288 ∧ up.running = true ∧ 0 = up.fld (soCfgId 12287) 0 2 ∧ (0 : Word) = up.word (soValId 12287) ∧ 7 ≤ 7) :=
  by
  refine ⟨?_, ?_, ?_, ?_, ?_, ?_, ?_, ?_, ?_, ?_⟩ <;> decide +kernel

/-- States and operands that meet the hypotheses of `Obligations.CheckValueFeedsCompose`, one part for each of its clauses. -/
theorem witness_CheckValueFeedsCompose :
    (5 < 2 ^ (crcAlg 3).width) ∧
    (check1.canonical) :=
  by
  refine ⟨?_, ?_⟩ <;> (try simp only [canonical_iff]) <;> decide +kernel

/-- States and operands that meet the hypotheses of `Obligations.CardCommands`, one part for each of its clauses. -/
theorem witness_CardCommands :
    (card.cardReady 2000000 = true) ∧
    (card.cardReady 2000000 = true ∧ card.hostAttached = true) ∧
    (card.cardReady 2000000 = true ∧ 63 ∉ [0, 3, 5, 7, 11, 19, 52, 53]) ∧
    (cardLater.fnReady 1 = true ∧ 1 < 8 ∧ 1 ≤ 1) ∧
    (cardLater.fnReady 0 = true ∧ 0 < 8 ∧ 0 ≤ 1) ∧
    (cardLater.fnReady 1 = true ∧ 1 < 8 ∧ 1 ≤ 1 ∧ 1 ≤ 512 ∧ 512 ≤ 512) ∧
    (cardLater.fnReady 2 = true ∧ 2 < 8 ∧ 2 = 2 ∧ 1 ≤ 511 ∧ 511 ≤ 511 ∧ cardLater.bulkHeld = false) ∧
    (bulkFar.fnReady 2 = true ∧ 2 < 8 ∧ 2 = 2 ∧ 1 ≤ 511 ∧ 511 ≤ 511 ∧ bulkFar.bulkHeld = true) ∧
    (cardLater.fnReady 7 = true ∧ 7 < 8 ∧ 2 < 7) :=
  by
  refine ⟨?_, ?_, ?_, ?_, ?_, ?_, ?_, ?_, ?_⟩ <;> decide +kernel

/-- States and operands that meet the hypotheses of `Obligations.MailboxAndBulkData`, one part for each of its clauses. -/
theorem witness_MailboxAndBulkData :
    (cardLater.canonical ∧ cardLater.fnReady 1 = true ∧ cardLater.host.sdio.busy = false) ∧
    (belled.canonical ∧ belled.fnReady 1 = true ∧ belled.host.sdio.busy = true) ∧
    (belled.canonical ∧ belled.powered = true ∧ belled.host.sdio.busy = true) ∧
    (replied.canonical ∧ replied.fnReady 1 = true ∧ bitOf (BitVec.toNat (1 : Byte)) 0 = true ∧ replied.host.replies =
      [[(1 : Byte)], [(2 : Byte)]] ∧ replied.host.resetReply = none) ∧
    (bulkOpen.canonical ∧ bulkOpen.fnReady 2 = true ∧ bulkOpen.host.bulkIn = some bulkIn1 ∧ bulkIn1.dest = bulkOpen.addr
      ∧ block512.length = 512 ∧ bulkIn1.got + 512 < bulkIn1.length) ∧
    (cardLater.canonical ∧ cardLater.fnReady 2 = true ∧ cardLater.host.bulkIn = none) ∧
    (bulkOpen.canonical ∧ bulkOpen.fnReady 2 = true ∧ bulkOpen.host.bulkOut = some bulkOut1 ∧ bulkOut1.dest =
      bulkOpen.addr ∧ bulkOut1.pos + 512 < bulkOut1.length) ∧
    (arrived.canonical ∧ arrived.powered = true ∧ arrived.mgmt.model.staged = some staged1 ∧ staged1.arrived = true ∧
      staged1.complete = false) ∧
    (waitsReply.canonical ∧ waitsReply.powered = true ∧ (List.find? (fun f => f.dest == BitVec.toNat (9 : Byte) && f.tag
      == BitVec.toNat (4095 : BitVec 12)) waitsReply.host.forwarded = some forwarded1) ∧ ((waitsReply.fld (sdioId 0) 0 16
      * 1000000 + if isLong forwarded1.opcode = true then 30000000000 else 0) ≤ locDiff waitsReply.loc forwarded1.start)
      ∧ waitsReply.host.replies.length < 256) :=
  by
  refine ⟨?_, ?_, ?_, ?_, ?_, ?_, ?_, ?_, ?_⟩ <;> (simp only [canonical_iff]; decide +kernel)

/-- States and operands that meet the hypotheses of `Obligations.RefusedCommandsAreAnswered`, one part for each of its clauses. -/
theorem witness_RefusedCommandsAreAnswered :
    (cmdOf (Instr.getInfo none1) = some (0, none1) ∧ (supplied Supply.absent).powered = false) ∧
    (cmdOf (Instr.arm none1) = some (768, none1) ∧ early.powered = true ∧ early.acceptedOf 768 none1 = none ∧
      early.serviceRefuses 768 none1.tag.toNat none1.bcast = some Status.busyBooting) ∧
    (cmdOf (Instr.paramRead readReq) = some (256, readReq) ∧ boot2.powered = true ∧ boot2.acceptedOf 256 readReq = none ∧
      boot2.serviceRefuses 256 readReq.tag.toNat readReq.bcast = some Status.busyBooting) :=
  by
  refine ⟨?_, ?_, ?_⟩ <;> decide +kernel

/-- States and operands that meet the hypotheses of `Obligations.InformationCommands`, one part for each of its clauses. -/
theorem witness_InformationCommands :
    (up.accepts 0 none1 = true ∧ none1.payload = []) ∧
    (up.accepts 1 none1 = true ∧ none1.payload = []) ∧
    (up.accepts 2 (askOf 7) = true) ∧
    (up.accepts 3 none1 = true ∧ none1.payload = []) ∧
    (up.accepts 1025 powerReq = true ∧ powerReq.payload.length = 1 ∧ leAt powerReq.payload 0 1 < 44) ∧
    (up.accepts 1280 none1 = true ∧ none1.payload = []) ∧
    (up.accepts 1792 monReq = true ∧ monReq.payload = leBytes 2 39 ++ leBytes 2 25 ∧ 1 ≤ 25 ∧ 25 ≤ 25 ∧ 39 + 25 ≤ 64) ∧
    (up.accepts 1797 logReq = true ∧ 2 < 3 ∧ 4294967295 < 2 ^ 32 ∧ 1 ≤ 25 ∧ (25 ≤ 25 ∨ 2 < 2 ∧ 25 ≤ 127) ∧ logReq.payload
      = leBytes 1 2 ++ leBytes 3 0 ++ leBytes 4 4294967295 ++ leBytes 2 25) ∧
    (loaded.accepts 515 (askOf 1) = true ∧ (askOf 1).payload.length = 4 ∧ selectorOf (askOf 1).payload = some 1 ∧
      loaded.imageDigest 1 = some 1) ∧
    (up.accepts 2048 none1 = true ∧ none1.payload = []) ∧
    (up.accepts 2050 none1 = true ∧ none1.payload = []) ∧
    (up.accepts 2560 none1 = true ∧ none1.payload = []) ∧
    (up.accepts 1797 logReq127 = true ∧ 1 < 3 ∧ 0 < 2 ^ 32 ∧ 1 ≤ 127 ∧ (127 ≤ 25 ∨ 1 < 2 ∧ 127 ≤ 127) ∧ logReq127.payload
      = leBytes 1 1 ++ leBytes 3 0 ++ leBytes 4 0 ++ leBytes 2 127) ∧
    (up.accepts 2561 testReq = true ∧ testReq.payload.length = 10 ∧ (leAt testReq.payload 0 1 < 2 → leAt testReq.payload
      1 1 < 8 ∧ leAt testReq.payload 2 1 < 16) ∧ (leAt testReq.payload 0 1 = 4 → leAt testReq.payload 1 1 < 8) ∧ leAt
      testReq.payload 3 1 = 0 ∧ leAt testReq.payload 4 4 = 32767 ∧ leAt testReq.payload 8 2 = 1 ∧ testTarget (leAt
      testReq.payload 0 1) (leAt testReq.payload 1 1 % 8) (leAt testReq.payload 2 1 % 16) = some testTarget1 ∧ 1 ≤ 1 ∧ 1
      ≤ testTarget1.most ∧ 32767 + 1 ≤ testTarget1.units ∧ up.domOff testTarget1.dom = false) ∧
    (up.accepts 2561 testReq2 = true ∧ testReq2.payload.length = 10 ∧ (leAt testReq2.payload 0 1 < 2 → leAt
      testReq2.payload 1 1 < 8 ∧ leAt testReq2.payload 2 1 < 16) ∧ (leAt testReq2.payload 0 1 = 4 → leAt testReq2.payload
      1 1 < 8) ∧ leAt testReq2.payload 3 1 = 0 ∧ leAt testReq2.payload 4 4 = 327 ∧ leAt testReq2.payload 8 2 = 1 ∧
      testTarget (leAt testReq2.payload 0 1) (leAt testReq2.payload 1 1 % 8) (leAt testReq2.payload 2 1 % 16) = some
      testTarget2 ∧ 1 ≤ 1 ∧ 1 ≤ testTarget2.most ∧ 327 + 1 ≤ testTarget2.units ∧ up.domOff testTarget2.dom = false) :=
  by
  refine ⟨?_, ?_, ?_, ?_, ?_, ?_, ?_, ?_, ?_, ?_, ?_, ?_, ?_, ⟨by decide +kernel, by decide +kernel, by decide +kernel, by decide +kernel, by decide +kernel, by decide +kernel, by decide +kernel,
      by rfl, by decide +kernel, by decide +kernel, by decide +kernel, by decide +kernel⟩, ⟨by decide +kernel, by decide +kernel, by decide +kernel, by decide +kernel, by decide +kernel, by decide +kernel, by decide +kernel,
      by rfl, by decide +kernel, by decide +kernel, by decide +kernel, by decide +kernel⟩⟩ <;> decide +kernel

/-- States and operands that meet the hypotheses of `Obligations.DumpCommands`, one part for each of its clauses. -/
theorem witness_DumpCommands :
    (up.canonical ∧ up.accepts 1794 none1 = true ∧ none1.payload = []) ∧
    (up.canonical ∧ up.accepts 1795 (dumpReq 0 0) = true ∧ (dumpReq 0 0).payload.length = 12 ∧ leAt (dumpReq 0 0).payload
      0 8 = 0 ∧ leAt (dumpReq 0 0).payload 8 4 = 0 ∧ (0 = 0 ∨ 256 * 1048576 < 0 + 0)) ∧
    (up.canonical ∧ up.accepts 1795 (dumpReq 256 (256 * 1048576)) = true ∧ (dumpReq 256 (256 * 1048576)).payload.length =
      12 ∧ leAt (dumpReq 256 (256 * 1048576)).payload 0 8 = 256 ∧ leAt (dumpReq 256 (256 * 1048576)).payload 8 4 = 256 *
      1048576 ∧ (256 * 1048576 = 0 ∨ 256 * 1048576 < 256 + 256 * 1048576)) ∧
    (up.canonical ∧ up.accepts 1795 (dumpReq 256 (256 * 1048576 - 256)) = true ∧ (dumpReq 256 (256 * 1048576 -
      256)).payload.length = 12 ∧ leAt (dumpReq 256 (256 * 1048576 - 256)).payload 0 8 = 256 ∧ leAt (dumpReq 256 (256 *
      1048576 - 256)).payload 8 4 = 256 * 1048576 - 256 ∧ 256 * 1048576 - 256 ≠ 0 ∧ 256 + (256 * 1048576 - 256) ≤ 256 *
      1048576 ∧ BitVec.toNat (dumpReq 256 (256 * 1048576 - 256)).src = up.addr ∧ up.dumping = false ∧ up.host.bulkOut =
      none) ∧
    (bulkOpen.canonical ∧ bulkOpen.accepts 1795 (dumpReq 0 1) = true ∧ (dumpReq 0 1).payload.length = 12 ∧ leAt (dumpReq
      0 1).payload 0 8 = 0 ∧ leAt (dumpReq 0 1).payload 8 4 = 1 ∧ 1 ≠ 0 ∧ 0 + 1 ≤ 256 * 1048576 ∧ (bulkOpen.dumping =
      true ∨ ∃ b, bulkOpen.host.bulkOut = some b ∧ (BitVec.toNat (dumpReq 0 1).src = bulkOpen.addr ∨ b.dest =
      bulkOpen.addr))) ∧
    (farDump.canonical ∧ farDump.accepts 1795 dumpFar = true ∧ dumpFar.payload.length = 12 ∧ leAt dumpFar.payload 0 8 = 0
      ∧ leAt dumpFar.payload 8 4 = 4096 ∧ 4096 ≠ 0 ∧ 0 + 4096 ≤ 256 * 1048576 ∧ BitVec.toNat dumpFar.src ≠ farDump.addr ∧
      farDump.dumping = false ∧ (∀ (b : BulkOut), farDump.host.bulkOut = some b → b.dest ≠ farDump.addr)) ∧
    (bulkOpen.canonical ∧ bulkOpen.fnReady 2 = true ∧ bulkOpen.host.bulkOut = some bulkOut1 ∧ bulkOut1.dest =
      bulkOpen.addr) ∧
    (bulkOpen.canonical ∧ bulkOpen.accepts 1796 none1 = true ∧ none1.payload = [] ∧ (∃ b, bulkOpen.host.bulkOut = some b
      ∧ b.dest = bulkOpen.addr)) ∧
    (up.canonical ∧ up.accepts 1796 none1 = true ∧ none1.payload = [] ∧ (∀ (b : BulkOut), up.host.bulkOut = some b →
      b.dest ≠ up.addr)) :=
  by
  refine ⟨?_, ?_, ?_, ?_, ?_, ?_, ?_, ?_, ?_⟩ <;> (simp only [canonical_iff]; decide +kernel)

/-- States and operands that meet the hypotheses of `Obligations.RestoredWordsKeepParameters`, one part for each of its clauses. -/
theorem witness_RestoredWordsKeepParameters :
    (trackerOff.canonical ∧ lookup (tkId 7 0) = Lookup.word trackerFields ∧ fieldsWf trackerFields = true) ∧
    (counted7.canonical ∧ lookup (tkId 7 1029) = Lookup.word counterFields ∧ fieldsWf counterFields = true) :=
  by
  refine ⟨?_, ?_⟩ <;> (simp only [canonical_iff]; decide +kernel)

/-- States and operands that meet the hypotheses of `Obligations.FatalErrorsAndRestarts`, one part for each of its clauses. -/
theorem witness_FatalErrorsAndRestarts :
    (up.powered = true ∧ 1 ≤ 9 ∧ 9 ≤ 9 ∧ up.mgmt.fault.fatal = none) ∧
    (dying.powered = true ∧ 1 ≤ 1 ∧ 1 ≤ 9 ∧ dying.mgmt.fault.fatal.isSome = true) ∧
    (dying.mgmt.fault.fatal = some 9) ∧
    (dumped.mgmt.fault.fatal = some 8 ∧ dumped.dumpHeld = true) ∧
    (dying.canonical ∧ 7 ≤ dying.mgmt.fault.detect.length) ∧
    (up.running = true ∧ (∀ (t : Nat), up.mgmt.fault.lastRestart = some t → 60000000000 ≤ locDiff up.loc t)) ∧
    (again.running = true ∧ (∃ t, again.mgmt.fault.lastRestart = some t ∧ locDiff again.loc t < 60000000000) ∧
      again.mgmt.fault.fatal = none) ∧
    (restarted.powered = true ∧ restarted.cmd = CmdState.restart) ∧
    (scrub0.running = true ∧ 1535 < 1536 ∧ (8191 = Sparse.get (fun _ => 0) scrub0.mgmt.fault.scrub 1535) ∧ (true = true →
      8191 = 8191)) ∧
    (up.running = true ∧ 6 < 7) :=
  by
  refine ⟨?_, ?_, ?_, ?_, ?_, ?_, ?_, ?_, ?_, ?_⟩ <;> (try simp only [canonical_iff]) <;> decide +kernel

/-- States and operands that meet the hypotheses of `Obligations.FieldsFollowTheirAccess`, one part for each of its clauses. -/
theorem witness_FieldsFollowTheirAccess :
    (fieldsWf rwlFields = true ∧ rwlField ∈ rwlFields) ∧
    (arm.wordService = true ∧ arm.armed = true ∧ lookup (posId 0) = Lookup.word rwlFields ∧ arm.absent (posId 0) = none ∧
      arm.rootRefuses (posId 0) = false ∧ (∃ f ∈ rwlFields, f.acc = Access.rwl) ∧ ((∀ f ∈ rwlFields, f.acc ≠ Access.rw) ∨
      ∃ f ∈ rwlFields, f.acc = Access.rwl ∧ f.get (arm.word (posId 0)) ≠ f.get (65 : Word))) ∧
    (arm.wordService = true ∧ arm.armed = true ∧ lookup (fuId 7 287) = Lookup.word forceFields ∧ arm.absent (fuId 7 287)
      = none ∧ arm.rootRefuses (fuId 7 287) = false ∧ (∃ f ∈ forceFields, f.acc = Access.rwl) ∧ fieldsWf forceFields =
      true ∧ (∃ f ∈ forceFields, f.acc = Access.rw) ∧ (∀ f ∈ forceFields, f.acc = Access.rwl → f.get (arm.word (fuId 7
      287)) = f.get (73736 : Word))) :=
  by
  refine ⟨?_, ?_, ?_⟩ <;> decide +kernel

/-- States and operands that meet the hypotheses of `Obligations.ParameterMapsAreWellFormed`, one part for each of its clauses. -/
theorem witness_ParameterMapsAreWellFormed :
    (lookup (posId 0) = Lookup.word rwlFields) :=
  by decide +kernel

/-- States and operands that meet the hypotheses of `Obligations.EncoderCounting`, one part for each of its clauses. -/
theorem witness_EncoderCounting :
    (up.canonical ∧ up.powered = true ∧ up.fld (posId 0) 8 8 * 10 ≤ 2550 ∧ (true != up.pos.encA) ≠ (false != up.pos.encB)
      ∧ (∀ (l : Nat), up.pos.decoded = some l → 100 ≤ locDiff up.loc l) ∧ (1 : Int) ≠ (0 : Int) ∧ ((1 : Int) = if (true
      != up.pos.encA) = true then decodeEdge (up.fld (posId 0) 3 2) true true false else decodeEdge (up.fld (posId 0) 3
      2) false false true) ∧ up.pos.src = PosSource.encoder ∧ up.pos.hold = false) ∧
    (heldPos.canonical ∧ heldPos.powered = true ∧ heldPos.fld (posId 0) 8 8 * 10 ≤ 2550 ∧ (true != heldPos.pos.encA) ≠
      (false != heldPos.pos.encB) ∧ (∀ (l : Nat), heldPos.pos.decoded = some l → 100 ≤ locDiff heldPos.loc l) ∧ (1 : Int)
      ≠ (0 : Int) ∧ ((1 : Int) = if (true != heldPos.pos.encA) = true then decodeEdge (heldPos.fld (posId 0) 3 2) true
      true false else decodeEdge (heldPos.fld (posId 0) 3 2) false false true) ∧ (heldPos.pos.src ≠ PosSource.encoder ∨
      heldPos.pos.hold = true)) ∧
    (at100.canonical ∧ at100.powered = true ∧ at100.fld (posId 0) 8 8 * 10 ≤ 2550 ∧ (false != at100.pos.encA) ≠ (false !=
      at100.pos.encB) ∧ (∀ (l : Nat), at100.pos.decoded = some l → 100 ≤ locDiff at100.loc l) ∧ (-1 : Int) ≠ (0 : Int) ∧
      ((-1 : Int) = if (false != at100.pos.encA) = true then decodeEdge (at100.fld (posId 0) 3 2) true false false else
      decodeEdge (at100.fld (posId 0) 3 2) false false false) ∧ at100.pos.src = PosSource.encoder ∧ at100.pos.hold =
      false) ∧
    (up.canonical ∧ up.powered = true ∧ up.fld (posId 0) 8 8 * 10 ≤ 2550 ∧ true ≠ up.pos.encA ∧ true ≠ up.pos.encB) ∧
    (filt.canonical ∧ 99 < filt.fld (posId 0) 8 8 * 10) ∧
    (up.canonical ∧ up.powered = true ∧ (up.armed = false ∨ up.pos.src ≠ PosSource.encoder)) ∧
    (arm.canonical ∧ arm.powered = true ∧ arm.armed = true ∧ arm.pos.src = PosSource.encoder ∧ arm.bitAt (posId 0) 6 =
      false) ∧
    (armFall.canonical ∧ armFall.powered = true ∧ armFall.armed = true ∧ armFall.pos.src = PosSource.encoder ∧
      armFall.bitAt (posId 0) 6 = true ∧ armFall.pos.hold = false) ∧
    (armSyn.canonical ∧ armSyn.armed = true ∧ (armSyn.pos.src = PosSource.synthetic ∨ armSyn.pos.src =
      PosSource.fallback) ∧ armSyn.curveLead ≠ (0 : Int)) ∧
    (logged.canonical) ∧
    (arm.canonical ∧ arm.wordService = true ∧ BitVec.toNat (65535 : Word) < 65536 ∧ arm.armed = true) ∧
    (up.canonical ∧ up.wordService = true ∧ BitVec.toNat (65535 : Word) < 65536 ∧ up.armed = false) ∧
    (counted.canonical ∧ counted.wordService = true) :=
  by
  refine ⟨?_, ?_, ?_, ?_, ?_, ?_, ?_, ?_, ?_, ?_, ?_, ?_, ?_⟩ <;> (simp only [canonical_iff]; decide +kernel)

/-- States and operands that meet the hypotheses of `Obligations.ZEdgeCopiesPosition`, one part for each of its clauses. -/
theorem witness_ZEdgeCopiesPosition :
    (topCount.canonical ∧ topCount.powered = true ∧ topCount.pos.count < 2 ^ 48 ∧ topCount.zStable = true) ∧
    (zLater.canonical ∧ zLater.powered = true ∧ zLater.pos.count < 2 ^ 48 ∧ zLater.zStable = true) ∧
    (zSoon.canonical ∧ zSoon.powered = true ∧ zSoon.pos.count < 2 ^ 48 ∧ zSoon.zStable = false) :=
  by
  refine ⟨?_, ?_, ?_⟩ <;> (simp only [canonical_iff]; decide +kernel)

/-- States and operands that meet the hypotheses of `Obligations.FabricStepClosures`, one part for each of its clauses. -/
theorem witness_FabricStepClosures :
    (backDue.canonical ∧ backDue.backstopDue = true) ∧
    (pacing.canonical ∧ pacing.replayDue = true ∧ pacing.bitAt (posId 7) 0 = true ∧ pacing.fld (posId 7) 1 24 * 1000 ≤
      locDiff pacing.loc pacing.pos.lastClose) ∧
    (arm.canonical) ∧
    (lag64.canonical) ∧
    (lag64.canonical ∧ lag64.lag = 64) ∧
    (closed2.canonical ∧ closed2.pos.cur = none ∧ closed2.cutDue = false ∧ closed2.pos.closed = step1 :: tailOff) :=
  by
  refine ⟨?_, ?_, ?_, ?_, ?_, ?_⟩ <;> (simp only [canonical_iff]; decide +kernel)

/-- States and operands that meet the hypotheses of `Obligations.RingFlitsAreTaken`, one part for each of its clauses. -/
theorem witness_RingFlitsAreTaken :
    (10 < 11 ∧ (ringOf evsFlit 0).nextFlit 10 false = some (evsFlit 0, sentOf (ringOf evsFlit 0) 10 false) ∧ (evsFlit
      0).body = FlitBody.events held2s ∧ EccCheck.clean :: ecc7 = EccCheck.clean :: ecc7 ∧ (∀ e ∈ EccCheck.clean :: ecc7,
      e ≠ EccCheck.uncorrectable) ∧ (evsFlit 0).dest ≠ 10) ∧
    (9 < 11 ∧ (ringOf evsFlit 10).nextFlit 9 false = some (evsFlit 10, sentOf (ringOf evsFlit 10) 9 false) ∧ (evsFlit
      10).body = FlitBody.events held2s ∧ EccCheck.corrected :: ecc7 = EccCheck.corrected :: ecc7 ∧ (∀ e ∈
      EccCheck.corrected :: ecc7, e ≠ EccCheck.uncorrectable) ∧ (evsFlit 10).dest = 9 ∧ ringRegion 9 = some 7) ∧
    (9 < 11 ∧ (ringOf evsFlit 10).nextFlit 9 false = some (evsFlit 10, sentOf (ringOf evsFlit 10) 9 false) ∧ (evsFlit
      10).body = FlitBody.events held2s ∧ EccCheck.uncorrectable :: ecc7 = EccCheck.uncorrectable :: ecc7 ∧
      EccCheck.uncorrectable ∈ EccCheck.uncorrectable :: ecc7) ∧
    (9 < 11 ∧ (ringOf clsFlit 10).nextFlit 9 false = some (clsFlit 10, sentOf (ringOf clsFlit 10) 9 false) ∧ (clsFlit
      10).body = FlitBody.close (0 : Int) false 1 ∧ EccCheck.uncorrectable :: bad7 = EccCheck.uncorrectable :: bad7 ∧
      copiesBad (EccCheck.uncorrectable :: bad7) = true) ∧
    (10 < 11 ∧ (ringOf clsFlit 0).nextFlit 10 false = some (clsFlit 0, sentOf (ringOf clsFlit 0) 10 false) ∧ (clsFlit
      0).body = FlitBody.close (0 : Int) false 1 ∧ EccCheck.clean :: ecc7 = EccCheck.clean :: ecc7 ∧ copiesBad
      (EccCheck.clean :: ecc7) = false ∧ (clsFlit 0).dest ≠ 10) ∧
    (9 < 11 ∧ (ringOf clsFlit 10).nextFlit 9 false = some (clsFlit 10, sentOf (ringOf clsFlit 10) 9 false) ∧ (clsFlit
      10).body = FlitBody.close (0 : Int) false 1 ∧ EccCheck.corrected :: ecc7 = EccCheck.corrected :: ecc7 ∧ copiesBad
      (EccCheck.corrected :: ecc7) = false ∧ (clsFlit 10).dest = 9 ∧ ringRegion 9 = some 7) ∧
    (1 < 11 ∧ (ringOf endFlit 0).nextFlit 1 true = some (endFlit 0, sentOf (ringOf endFlit 0) 1 true) ∧ (endFlit 0).body
      = FlitBody.stepEnd 1 ∧ bad2 ++ bad2 ++ ecc4 = bad2 ++ bad2 ++ ecc4 ∧ copiesBad (bad2 ++ bad2 ++ ecc4) = true) ∧
    (10 < 11 ∧ (ringOf endFlit 9).nextFlit 10 true = some (endFlit 9, sentOf (ringOf endFlit 9) 10 true) ∧ (endFlit
      9).body = FlitBody.stepEnd 1 ∧ ecc2 ++ bad2 ++ ecc4 = ecc2 ++ bad2 ++ ecc4 ∧ copiesBad (ecc2 ++ bad2 ++ ecc4) =
      false ∧ (endFlit 9).dest ≠ 10) ∧
    (1 < 11 ∧ (ringOf endFlit 0).nextFlit 1 true = some (endFlit 0, sentOf (ringOf endFlit 0) 1 true) ∧ (endFlit 0).body
      = FlitBody.stepEnd 1 ∧ ecc2 ++ ecc2 ++ ecc4 = ecc2 ++ ecc2 ++ ecc4 ∧ copiesBad (ecc2 ++ ecc2 ++ ecc4) = false ∧
      (endFlit 0).dest = 1 ∧ (ringOf endFlit 0).curSsn = some 1 ∧ (sentOf (ringOf endFlit 0) 1 true).curSsn = some 1 ∧
      ringRegion 1 = some 0 ∧ ringRegion (endFlit 0).src = some 7) ∧
    (10 < 11 ∧ (ringOf ctlFlit 0).nextFlit 10 false = some (ctlFlit 0, sentOf (ringOf ctlFlit 0) 10 false) ∧ (ctlFlit
      0).body = FlitBody.control ∧ (ctlFlit 0).dest ≠ 10) ∧
    (9 < 11 ∧ (ringOf ctlFlit 10).nextFlit 9 false = some (ctlFlit 10, sentOf (ringOf ctlFlit 10) 9 false) ∧ (ctlFlit
      10).body = FlitBody.control ∧ (ctlFlit 10).dest = 9) ∧
    (9 < 11 ∧ 10 = nextPos 9 !false ∧ ownCtl = Flit.mk 9 10 FlitBody.control 10 false ∧ ringCtl.running = true ∧ 9 < 11 ∧
      9 ≠ 10 ∧ ownCtl.up = false ∧ ringCtl.pickFlit 10 false (some ownCtl) = some (ownCtl, true, false)) ∧
    (10 < 11 ∧ (ringOf evsFlit 10).pickFlit 10 false none = some (evsFlit 10, false, false) ∧ false = false) ∧
    (10 < 11 ∧ ringCtl.pickFlit 10 false (some ownCtl) = some (ownCtl, true, false) ∧ true = true) ∧
    (0 < 11 ∧ 7 < 8 ∧ spills.curSsn = some 1 ∧ ssnReached (spills.node 7).closeSeen 1 = true) :=
  by
  refine ⟨?_, ?_, ?_, ?_, ?_, ?_, ?_, ?_, ?_, ?_, ?_, ?_, ?_, ?_, ?_⟩ <;> decide +kernel

/-- States and operands that meet the hypotheses of `Obligations.NeuronBlockCommands`, one part for each of its clauses. -/
theorem witness_NeuronBlockCommands :
    (complete.canonical ∧ 7 < 8 ∧ 13 < 16 ∧ complete.inputComplete (7 * 16 + 13) = true) ∧
    (evaluated.canonical ∧ 7 < 8 ∧ 13 < 16 ∧ evaluated.pos.cur.isSome = true ∧ evaluated.takesPart (7 * 16 + 13) = true ∧
      (evaluated.block (7 * 16 + 13)).evaluated = true ∧ (evaluated.block (7 * 16 + 13)).finished = false) ∧
    (updating.canonical ∧ 7 < 8 ∧ 15 < 16 ∧ (updating.block (7 * 16 + 15)).updates[1]? = some synTop) ∧
    (update0.canonical ∧ 7 < 8 ∧ 15 < 16 ∧ (update0.block (7 * 16 + 15)).updates[0]? = some syn0) ∧
    (badSyn.canonical ∧ 7 < 8 ∧ 15 < 16) ∧
    (badSyn.canonical ∧ 7 < 8 ∧ 15 < 16 ∧ (badSyn.block (7 * 16 + 15)).badState.contains 32767 = true) ∧
    (holding.canonical ∧ 7 < 8 ∧ 15 < 16 ∧ holding.stepMode = true ∧ (holding.conv 7).held = [rec0, rec63]) :=
  by
  refine ⟨?_, ?_, ?_, ?_, ?_, ?_, ?_⟩ <;> (simp only [canonical_iff]; decide +kernel)

/-- States and operands that meet the hypotheses of `Obligations.CameraPackets`, one part for each of its clauses. -/
theorem witness_CameraPackets :
    (3 < 4 ∧ camDown.running = true ∧ camDown.domOn (32 + 3) = true ∧ bitOf camDown.mgmt.board.tripped 3 = true) ∧
    (3 < 4 ∧ arm.running = true ∧ arm.domOn (32 + 3) = true ∧ bitOf arm.mgmt.board.tripped 3 = false ∧ (arm.bitAt (hpId 3
      0) 0 = false ∨ packet.begunBefore = true ∨ arm.armed = true ∧ arm.pos.src = PosSource.replay)) ∧
    (3 < 4 ∧ cam.running = true ∧ cam.domOn (32 + 3) = true ∧ bitOf cam.mgmt.board.tripped 3 = false ∧ cam.bitAt (hpId 3
      0) 0 = true ∧ badHeader.begunBefore = false ∧ (cam.armed = false ∨ cam.pos.src ≠ PosSource.replay) ∧
      badHeader.header = HeaderCheck.bad) ∧
    (3 < 4 ∧ cam.running = true ∧ cam.domOn (32 + 3) = true ∧ bitOf cam.mgmt.board.tripped 3 = false ∧ cam.bitAt (hpId 3
      0) 0 = true ∧ badCrc.begunBefore = false ∧ (cam.armed = false ∨ cam.pos.src ≠ PosSource.replay) ∧ badCrc.header =
      HeaderCheck.good ∧ cam.csiSupported 3 badCrc = true ∧ badCrc.isLong = true ∧ badCrc.buffersFull = false ∧
      badCrc.crcOk = false) ∧
    (3 < 4 ∧ cam.running = true ∧ cam.domOn (32 + 3) = true ∧ bitOf cam.mgmt.board.tripped 3 = false ∧ cam.bitAt (hpId 3
      0) 0 = true ∧ diag.begunBefore = false ∧ (cam.armed = false ∨ cam.pos.src ≠ PosSource.replay) ∧ diag.header =
      HeaderCheck.good ∧ cam.csiSupported 3 diag = true ∧ diag.isLong = true ∧ diag.buffersFull = false ∧ diag.crcOk =
      true ∧ diag.dt = 18) ∧
    (3 < 4 ∧ cam.running = true ∧ cam.domOn (32 + 3) = true ∧ bitOf cam.mgmt.board.tripped 3 = false ∧ cam.bitAt (hpId 3
      0) 0 = true ∧ packet.begunBefore = false ∧ (cam.armed = false ∨ cam.pos.src ≠ PosSource.replay) ∧ packet.header =
      HeaderCheck.good ∧ cam.csiSupported 3 packet = true ∧ packet.isLong = true ∧ packet.buffersFull = false ∧
      packet.crcOk = true ∧ packet.dt ≠ 18 ∧ cam.armed = true) ∧
    (3 < 4 ∧ 131071 < 131072 ∧ (refract.port 3).t0 = some (0 : Int) ∧ (32768 ≤ Sparse.get (fun _ => 0) (refract.port
      3).refract 131071) ∧ (16384 ≤ (((refract.dev - (0 : Int)).fdiv (1000 : Int)).toNat / 2 ^ refract.fld (hpId 3 2) 12
      2 + 32768 - Sparse.get (fun _ => 0) (refract.port 3).refract 131071 % 32768) % 32768)) ∧
    (3 < 4 ∧ (sync.port 3).t0 = some (4999000000 : Int) ∧ sync.armed = true ∧ sync.bitAt (hpId 3 0) 0 = true ∧
      (4999000000 : Int) + ↑(sync.port 3).edge * (1000000 : Int) ≤ sync.dev) :=
  by
  refine ⟨?_, ?_, ?_, ?_, ?_, ?_, ?_, ?_⟩ <;> decide +kernel

/-- States and operands that meet the hypotheses of `Obligations.ReplayStream`, one part for each of its clauses. -/
theorem witness_ReplayStream :
    ((replay (2 ^ 63 + 5)).armed = true ∧ (replay (2 ^ 63 + 5)).pos.src = PosSource.replay ∧ (replay (2 ^ 63 +
      5)).replayDue = false ∧ ((replay (2 ^ 63 + 5)).head.repOff + 8 ≤ (replay (2 ^ 63 + 5)).replayEnd ∨ (replay (2 ^ 63
      + 5)).replayEnd < (replay (2 ^ 63 + 5)).replayStart ∧ (replay (2 ^ 63 + 5)).replayStart ≤ (replay (2 ^ 63 +
      5)).head.repOff ∧ (replay (2 ^ 63 + 5)).head.repOff + 8 ≤ (replay (2 ^ 63 + 5)).recBase + (replay (2 ^ 63 +
      5)).recBytes) ∧ 2 ^ 63 + 5 = ofLe ((replay (2 ^ 63 + 5)).readBytes (replay (2 ^ 63 + 5)).head.repOff 8) ∧ bitOf (2
      ^ 63 + 5) 63 = true ∧ bitsOf (2 ^ 63 + 5) 60 3 = 0) ∧
    ((replay (2 ^ 63 + 2 ^ 60)).armed = true ∧ (replay (2 ^ 63 + 2 ^ 60)).pos.src = PosSource.replay ∧ (replay (2 ^ 63 +
      2 ^ 60)).replayDue = false ∧ ((replay (2 ^ 63 + 2 ^ 60)).head.repOff + 8 ≤ (replay (2 ^ 63 + 2 ^ 60)).replayEnd ∨
      (replay (2 ^ 63 + 2 ^ 60)).replayEnd < (replay (2 ^ 63 + 2 ^ 60)).replayStart ∧ (replay (2 ^ 63 + 2 ^
      60)).replayStart ≤ (replay (2 ^ 63 + 2 ^ 60)).head.repOff ∧ (replay (2 ^ 63 + 2 ^ 60)).head.repOff + 8 ≤ (replay (2
      ^ 63 + 2 ^ 60)).recBase + (replay (2 ^ 63 + 2 ^ 60)).recBytes) ∧ 2 ^ 63 + 2 ^ 60 = ofLe ((replay (2 ^ 63 + 2 ^
      60)).readBytes (replay (2 ^ 63 + 2 ^ 60)).head.repOff 8) ∧ bitOf (2 ^ 63 + 2 ^ 60) 63 = true ∧ bitsOf (2 ^ 63 + 2 ^
      60) 60 3 = 1) ∧
    ((replay 5).armed = true ∧ (replay 5).pos.src = PosSource.replay ∧ (replay 5).replayDue = false ∧ ((replay
      5).head.repOff + 8 ≤ (replay 5).replayEnd ∨ (replay 5).replayEnd < (replay 5).replayStart ∧ (replay 5).replayStart
      ≤ (replay 5).head.repOff ∧ (replay 5).head.repOff + 8 ≤ (replay 5).recBase + (replay 5).recBytes) ∧ 5 = ofLe
      ((replay 5).readBytes (replay 5).head.repOff 8) ∧ bitOf 5 63 = false) :=
  by
  refine ⟨?_, ?_, ?_⟩ <;> decide +kernel

/-- States and operands that meet the hypotheses of `Obligations.PtpMessagesAreTracked`, one part for each of its clauses. -/
theorem witness_PtpMessagesAreTracked :
    (1 < 2 ∧ 0 < 2 ∧ servoReq.running = true ∧ servoReq.domOff (40 + 1) = false ∧ servoReq.servoOn = true ∧ servoReqRx =
      servoReq.framesRx 1 ∧ domA0 = servoReq.domain 0 ∧ servoReqRx.trackedBy 1 ptp = some 0 ∧ (-7 : Int) ≤
      ptp.logInterval ∧ ptp.logInterval ≤ (1 : Int) ∧ domA0.master = some master1 ∧ domA0.fromMaster 1 ptp = true ∧
      ptp.twoStep = true) ∧
    (1 < 2 ∧ 0 < 2 ∧ servoReq.running = true ∧ servoReq.domOff (40 + 1) = false ∧ servoReq.servoOn = true ∧ servoReqRx =
      servoReq.framesRx 1 ∧ domA0 = servoReq.domain 0 ∧ servoReqRx.trackedBy 1 ptp1 = some 0 ∧ (-7 : Int) ≤
      ptp1.logInterval ∧ ptp1.logInterval ≤ (1 : Int) ∧ domA0.master = some master1 ∧ domA0.fromMaster 1 ptp1 = true ∧
      ptp1.twoStep = false) ∧
    (1 < 2 ∧ 0 < 2 ∧ servoReq.running = true ∧ servoReq.domOff (40 + 1) = false ∧ servoReq.servoOn = true ∧ servoReqRx =
      servoReq.framesRx 1 ∧ domA0 = servoReq.domain 0 ∧ servoReqRx.trackedBy 1 ptp = some 0 ∧ (-7 : Int) ≤
      ptp.logInterval ∧ ptp.logInterval ≤ (1 : Int) ∧ domA0.master = some master1 ∧ domA0.fromMaster 1 ptp = true ∧
      domA0.sync = some (ptp.seq, (100 : Int), (0 : Int))) ∧
    (1 < 2 ∧ 0 < 2 ∧ servoReq.running = true ∧ servoReq.domOff (40 + 1) = false ∧ servoReq.servoOn = true ∧ servoReqRx =
      servoReq.framesRx 1 ∧ domA0 = servoReq.domain 0 ∧ servoReqRx.trackedBy 1 (PtpMsg.mk ptp.domain ptp.seq ptp.clockId
      ptp.portNo ptp.udp ptp.sdoId ptp.sec ptp.ns ptp.toUs ptp.rateOffset ptp.correction ptp.twoStep gm.logInterval) =
      some 0 ∧ (-3 : Int) ≤ gm.logInterval ∧ gm.logInterval ≤ (3 : Int)) ∧
    (1 < 2 ∧ 0 < 2 ∧ servoReq.running = true ∧ servoReq.domOff (40 + 1) = false ∧ servoReq.servoOn = true ∧ servoReqRx =
      servoReq.framesRx 1 ∧ domA0 = servoReq.domain 0 ∧ servoReqRx.trackedBy 1 ptp = some 0 ∧ (-3 : Int) ≤
      ptp.logInterval ∧ ptp.logInterval ≤ (3 : Int) ∧ ptp.toUs = true ∧ domA0.exchange = some exch1 ∧ domA0.fromMaster 1
      ptp = true ∧ exch1.seq = ptp.seq ∧ servoReqRx.profile 0 = 0) ∧
    (1 < 2 ∧ 0 < 2 ∧ servoPeer.running = true ∧ servoPeer.domOff (40 + 1) = false ∧ servoPeer.servoOn = true ∧ peerRx =
      servoPeer.framesRx 1 ∧ domP = servoPeer.domain 0 ∧ peerRx.trackedBy 1 (PtpMsg.mk ptp1.domain ptp1.seq ptp1.clockId
      ptp1.portNo ptp1.udp ptp1.sdoId ptp1.sec ptp1.ns ptp1.toUs ptp1.rateOffset ptp1.correction ptp1.twoStep (0 : Int))
      = some 0 ∧ ptp1.toUs = true ∧ (domP.link 1).exchange = some exch1 ∧ exch1.seq = ptp1.seq ∧ peerRx.profile 0 ≠ 0 ∧
      ptp1.twoStep = false ∧ peerRx.profile 0 = 1 ∧ (domP.link 1).num = (1 : Int) ∧ (domP.link 1).den = (1 : Int)) ∧
    (1 < 2 ∧ 0 < 2 ∧ servoPeer.running = true ∧ servoPeer.domOff (40 + 1) = false ∧ servoPeer.servoOn = true ∧ peerRx =
      servoPeer.framesRx 1 ∧ domP = servoPeer.domain 0 ∧ peerRx.trackedBy 1 (PtpMsg.mk ptp.domain ptp.seq ptp.clockId
      ptp.portNo ptp.udp ptp.sdoId ptp.sec ptp.ns ptp.toUs ptp.rateOffset ptp.correction ptp.twoStep (0 : Int)) = some 0
      ∧ ptp.toUs = true ∧ (domP.link 1).exchange = some exch1 ∧ exch1.seq = ptp.seq ∧ peerRx.profile 0 ≠ 0 ∧ ptp.twoStep
      = true) ∧
    (1 < 2 ∧ 0 < 2 ∧ servoPeer2.running = true ∧ servoPeer2.domOff (40 + 1) = false ∧ servoPeer2.servoOn = true ∧ peerRx2
      = servoPeer2.framesRx 1 ∧ domP2 = servoPeer2.domain 0 ∧ peerRx2.trackedBy 1 (PtpMsg.mk ptp.domain ptp.seq
      ptp.clockId ptp.portNo ptp.udp ptp.sdoId ptp.sec ptp.ns ptp.toUs ptp.rateOffset ptp.correction ptp.twoStep (0 :
      Int)) = some 0 ∧ ptp.toUs = true ∧ (domP2.link 1).exchange = some exchP ∧ exchP.seq = ptp.seq ∧ peerRx2.profile 0 ≠
      0 ∧ exchP.t2p = some (40 : Int)) :=
  by
  refine ⟨?_, ?_, ?_, ?_, ?_, ?_, ?_, ?_⟩ <;> decide +kernel

/-- States and operands that meet the hypotheses of `Obligations.PtpAnswersAndTimeouts`, one part for each of its clauses. -/
theorem witness_PtpAnswersAndTimeouts :
    (1 < 2 ∧ up.running = true ∧ up.domOff (40 + 1) = false) ∧
    (1 < 2 ∧ up.running = true ∧ up.domOff (40 + 1) = false ∧ up.servoOn = false) ∧
    (1 < 2 ∧ ethUp.running = true ∧ ethUp.domOff (40 + 1) = false ∧ ethUp.bitAt (pid 19 1 0) 0 = true ∧ (-3 : Int) ≤
      ptp.logInterval ∧ ptp.logInterval ≤ (3 : Int)) ∧
    (1 < 2 ∧ ethUp.running = true ∧ ethUp.domOff (40 + 1) = false ∧ ethUp.bitAt (pid 19 1 0) 0 = true ∧
      (ptpFar.logInterval < (-3 : Int) ∨ (3 : Int) < ptpFar.logInterval)) ∧
    (1 < 2 ∧ 0 < 2 ∧ servoReq.running = true ∧ servoReq.servoOn = true ∧ (servoReq.domain 0).state ≠ DomState.disabled ∧
      servoReq.profile 0 = 0 ∧ (servoReq.domain 0).master = some master1 ∧ master1.port = 1 ∧ (servoReq.domain
      0).lastPair = some ((1 : Int), (2 : Int))) ∧
    (1 < 2 ∧ 0 < 2 ∧ servoPeer.running = true ∧ servoPeer.servoOn = true ∧ (servoPeer.domain 0).state ≠ DomState.disabled
      ∧ servoPeer.profile 0 ≠ 0 ∧ bitOf (servoPeer.domPorts 0) 1 = true) ∧
    (waitReq.port < 2 ∧ (∀ x ∈ ethUp.time.waiting, x.port ≠ waitReq.port) ∧ ethUp.ptpMayStart waitReq = true ∧
      waitReq.kind = 3) ∧
    (waitOwn.port < 2 ∧ (∀ x ∈ ethUp.time.waiting, x.port ≠ waitOwn.port) ∧ ethUp.ptpMayStart waitOwn = true ∧
      (waitOwn.kind = 1 ∨ waitOwn.kind = 2)) ∧
    (waitReq.port < 2 ∧ (∀ x ∈ up.time.waiting, x.port ≠ waitReq.port) ∧ up.ptpMayStart waitReq = false) ∧
    (ethUp.ptpMayStart waitReq = true) ∧
    (0 < 2 ∧ servo.restarting = false ∧ servo.receiptDue 0 false = true ∧ ((servo.domain 0).state = DomState.settle ∨
      (servo.domain 0).state = DomState.locked)) ∧
    (0 < 2 ∧ acquire.restarting = false ∧ acquire.receiptDue 0 true = true ∧ (acquire.domain 0).state = DomState.acquire) :=
  by
  refine ⟨?_, ?_, ?_, ?_, ?_, ?_, ?_, ?_, ?_, ?_, ?_, ?_⟩ <;> decide +kernel

/-- States and operands that meet the hypotheses of `Obligations.DeviceTimeKeptAcrossChanges`, one part for each of its clauses. -/
theorem witness_DeviceTimeKeptAcrossChanges :
    (1 = switching.timeTarget) ∧
    (armLock.canonical ∧ 0 = armLock.timeTarget ∧ armLock.armed = true) ∧
    (switching.canonical ∧ switching.time.switch = some switch1 ∧ switch1.delta = switch1.ty1 - switch1.dev1 ∧
      switch1.target < 2 ∧ switching.restarting = false ∧ switching.localOnly = false ∧ switch1.delta.natAbs ≤
      switch1.removed switching.slewPpm (locDiff switching.loc switch1.start)) :=
  by
  refine ⟨?_, ?_, ?_⟩ <;> (try simp only [canonical_iff]) <;> decide +kernel

/-- States and operands that meet the hypotheses of `Obligations.CaptureUnitsAndPulses`, one part for each of its clauses. -/
theorem witness_CaptureUnitsAndPulses :
    (tcu15.canonical ∧ 15 < 16 ∧ (tcu15.bitAt (tcuId 15 0) (if edgeF.falling = true then 7 else 6) = true) ∧
      (tcu15.tcuSource 15 = 2 → edgeF.falling = true ∧ tcu15.fld (posId 0) 8 8 * 10 ≤ edgeF.stable) ∧ (tcu15.tcuSource 15
      < 4 ∨ 7 < tcu15.tcuSource 15) ∧ (¬(tcu15.tcuSource 15 = 1 ∧ tcu15.bitAt (timeId 0) 10 = true)) ∧ (tcu15.captures
      15).length < 8) ∧
    (tcuZ.canonical ∧ 15 < 16 ∧ (tcuZ.bitAt (tcuId 15 0) (if edgeZ.falling = true then 7 else 6) = true) ∧
      (tcuZ.tcuSource 15 = 2 → edgeZ.falling = true ∧ tcuZ.fld (posId 0) 8 8 * 10 ≤ edgeZ.stable) ∧ (tcuZ.tcuSource 15 <
      4 ∨ 7 < tcuZ.tcuSource 15) ∧ (¬(tcuZ.tcuSource 15 = 1 ∧ tcuZ.bitAt (timeId 0) 10 = true)) ∧ (tcuZ.captures
      15).length < 8) ∧
    (tcuZ.canonical ∧ 15 < 16 ∧ tcuZ.tcuSource 15 = 2 ∧ edgeF.stable < tcuZ.fld (posId 0) 8 8 * 10) ∧
    (tcuFull.canonical ∧ 15 < 16 ∧ (tcuFull.bitAt (tcuId 15 0) (if edgeF.falling = true then 7 else 6) = true) ∧
      (tcuFull.tcuSource 15 = 2 → edgeF.falling = true ∧ tcuFull.fld (posId 0) 8 8 * 10 ≤ edgeF.stable) ∧
      (tcuFull.tcuSource 15 < 4 ∨ 7 < tcuFull.tcuSource 15) ∧ (¬(tcuFull.tcuSource 15 = 1 ∧ tcuFull.bitAt (timeId 0) 10 =
      true)) ∧ 8 ≤ (tcuFull.captures 15).length) ∧
    (up.canonical ∧ 15 < 16 ∧ up.wordService = true ∧ up.captures 15 = []) ∧
    (tcuFull.canonical ∧ 15 < 16 ∧ tcuFull.wordService = true ∧ tcuFull.captures 15 = cap1 :: caps7) ∧
    (pps.canonical ∧ pps.powered = true ∧ pps.ppsDriven = true ∧ (pps.time.everLocked = true ∨ pps.localOnly = true) ∧
      (nsOf pps.dev ≤ 8 ∨ 1000000000 - 8 ≤ nsOf pps.dev)) ∧
    (servo.canonical ∧ servo.wordService = true) :=
  by
  refine ⟨?_, ?_, ?_, ?_, ?_, ?_, ?_, ?_⟩ <;> (simp only [canonical_iff]; decide +kernel)

/-- States and operands that meet the hypotheses of `Obligations.TrackerAndVoterCommands`, one part for each of its clauses. -/
theorem witness_TrackerAndVoterCommands :
    (todoOn.canonical ∧ 7 < 8 ∧ (todoOn.tracker 7).todo = step1T :: stepsT ∧ todoOn.stepMode = true ∧ todoOn.recordsHeld
      7 step1T.ssn = false ∧ todoOn.bitAt (tkId 7 0) 0 = true) ∧
    (todo.canonical ∧ 7 < 8 ∧ (todo.tracker 7).todo = step1T :: stepsT ∧ todo.stepMode = true ∧ todo.recordsHeld 7
      step1T.ssn = false ∧ todo.bitAt (tkId 7 0) 0 = false) ∧
    (tracked.canonical ∧ 7 < 8 ∧ tracked.running = true ∧ true = true) ∧
    (tracked.canonical ∧ 7 < 8 ∧ tracked.running = true ∧ false = false) ∧
    (votesLate.canonical ∧ 7 < 8 ∧ votesLate.postedOf 7 (BitVec.toNat obj7) = some posted1 ∧ lateGone =
      votesLate.dropScored 7 posted1.id ∧ lateGone.pendOf posted1.id = some pend2 ∧ lateGone.slot 7 posted1.slot = some
      slot1 ∧ posted1.posted = some (2, 230) ∧ lateGone.deadline pend2 ≤ lateGone.dev) ∧
    (votes.canonical ∧ 7 < 8 ∧ votes.postedOf 7 (BitVec.toNat obj7) = some posted1 ∧ votesGone = votes.dropScored 7
      posted1.id ∧ votesGone.pendOf posted1.id = some pend1 ∧ votesGone.slot 7 posted1.slot = some slot1 ∧ posted1.posted
      = some (2, 230) ∧ votesGone.dev < votesGone.deadline pend1 ∧ slot1.id = posted1.id ∧ sources1 =
      votesGone.takeFree.2.sources 7 votesGone.free slot1 2 230 ∧ vote1T = votesGone.takeFree.2.voteOf 7 votesGone.free
      pend1.home sources1) ∧
    (up.canonical ∧ 7 < 8 ∧ 31 < 32 ∧ up.wordService = true ∧ up.refusesWrite (fuId 7 (256 + 31)) (73736 : Word) = none ∧
      bitsOf (BitVec.toNat (73736 : Word)) 16 2 ≠ up.fld (fuId 7 (256 + 31)) 16 2 ∧ bitsOf (BitVec.toNat (73736 : Word))
      16 2 = 1) ∧
    (up.canonical ∧ 7 < 8 ∧ 31 < 32 ∧ up.wordService = true ∧ up.refusesWrite (fuId 7 (256 + 31)) (139272 : Word) = none
      ∧ bitsOf (BitVec.toNat (139272 : Word)) 16 2 ≠ up.fld (fuId 7 (256 + 31)) 16 2 ∧ bitsOf (BitVec.toNat (139272 :
      Word)) 16 2 = 2) ∧
    (arm.canonical ∧ 7 < 8 ∧ arm.running = true ∧ arm.restarting = false ∧ arm.trk.refineSec ≠ some (arm.dev.fdiv
      (1000000000 : Int))) :=
  by
  refine ⟨?_, ?_, ?_, ?_, ?_, ?_, ?_, ?_, ?_⟩ <;> (simp only [canonical_iff]; decide +kernel)

/-- States and operands that meet the hypotheses of `Obligations.TileCommands`, one part for each of its clauses. -/
theorem witness_TileCommands :
    (7 < 8 ∧ (asks.dense 7).reqs = [req1, req2] ∧ asks.tileRoom 7 req1.lr = true ∧ (req1.gen ≠ asks.obj.gen ∨
      asks.oldWork = false) ∧ asks.slot req1.lr req1.slot = some slot1 ∧ slot1.id = req1.id) ∧
    (7 < 8 ∧ (asksGone.dense 7).reqs = [req2] ∧ asksGone.tileRoom 7 req2.lr = true ∧ (req2.gen ≠ asksGone.obj.gen ∨
      asksGone.oldWork = false) ∧ (∀ (t : Slot), asksGone.slot req2.lr req2.slot = some t → t.id ≠ req2.id)) ∧
    (7 < 8 ∧ 255 < 256 ∧ (tiledNew.dense 7).tile 255 = some tileNew ∧ tileNew.ready = false ∧ (∀ (k : Slot),
      tiledNew.slot tileNew.lr tileNew.slot = some k → sideNew = List.take 8 tileNew.side ++ List.take 4 (List.drop 8
      (tiledNew.sideVector tileNew.lr tileNew.feats tileNew.origin.x k)) ++ List.drop 12 tileNew.side) ∧ (tiledNew.slot
      tileNew.lr tileNew.slot = none → sideNew = tileNew.side)) ∧
    (7 < 8 ∧ 255 < 256 ∧ (tileGone.dense 7).tile 255 = some tileNew ∧ tileNew.ready = false ∧ (∀ (k : Slot),
      tileGone.slot tileNew.lr tileNew.slot = some k → tileNew.side = List.take 8 tileNew.side ++ List.take 4 (List.drop
      8 (tileGone.sideVector tileNew.lr tileNew.feats tileNew.origin.x k)) ++ List.drop 12 tileNew.side) ∧ (tileGone.slot
      tileNew.lr tileNew.slot = none → tileNew.side = tileNew.side)) ∧
    (7 < 8 ∧ 255 < 256 ∧ (tiledRe.dense 7).tile 255 = some tile1 ∧ (tiledRe.tileFailures tile1.lr tile1.slot tile1.id ≠ 0
      ∨ tile1.cancelled = true)) ∧
    (7 < 8 ∧ 255 < 256 ∧ (tiled.dense 7).tile 255 = some tile1 ∧ tiled.tileFailures tile1.lr tile1.slot tile1.id = 0 ∧
      tile1.cancelled = false) :=
  by
  refine ⟨?_, ?_, ?_, ?_, ?_, ?_⟩ <;> decide +kernel

/-- States and operands that meet the hypotheses of `Obligations.ArrayAndEdgeCommands`, one part for each of its clauses. -/
theorem witness_ArrayAndEdgeCommands :
    (7 < 8 ∧ 1 < 3 ∧ (tiled.dense 7).subs = [] ∧ (tiled.dense 7).mode ≠ 1 ∧ tiled.nextMode 7 = some 1) ∧
    (7 < 8 ∧ 1 < 4 ∧ mode1.nextJob 7 arrayKind = some job1 ∧ 1 < 2 ^ (mode1.dense 7).mode ∧ (mode1.dense 7).sub 1 = none
      ∧ mode1.jobMode 7 job1 = some (mode1.dense 7).mode) ∧
    (7 < 8 ∧ 3 < 4 ∧ (running1.dense 7).sub 3 = some job1 ∧ (freed = running1.onDense 7 fun x => x.setSub 3 none) ∧
      (freed.dense 7).tile job1.tile = some runningTile ∧ (freed.tilePlan runningTile).layers[job1.layer]? = some array1
      ∧ (array1.runStripe freed.free (runningTile.srcPlane array1) ((runningTile.layers[job1.layer]?.bind fun x =>
      x.plane).getD array1.emptyPlane) (array1.stripes.getD job1.stripe (Stripe.mk 0 0)) = (stripe1.1, stripe1.2))) ∧
    (7 < 8 ∧ 3 < 4 ∧ (runningAgain.dense 7).sub 3 = some job1 ∧ (freedAgain = (((runningAgain.onDense 7 fun x => x.setSub
      3 none).bump (pid 9 7 262)).countUe 1).report 9 7 1 job1.layer) ∧ (freedAgain.dense 7).tile job1.tile = some
      tileAgain ∧ (tileAgain.cancelled = true ∨ ∃ r, tileAgain.layers[job1.layer]? = some r ∧ r.aborted.contains
      job1.stripe = true)) ∧
    (7 < 8 ∧ 3 < 4 ∧ (running1.dense 7).sub 3 = some job1 ∧ (freedOnce = (((running1.onDense 7 fun x => x.setSub 3
      none).bump (pid 9 7 262)).countUe 1).report 9 7 1 job1.layer) ∧ (freedOnce.dense 7).tile job1.tile = some
      runningTile ∧ runningTile.cancelled = false ∧ runningTile.layers[job1.layer]? = some layerRun1 ∧
      layerRun1.aborted.contains job1.stripe = false) ∧
    (7 < 8 ∧ (edge1.dense 7).edge = some job1) ∧
    (7 < 8 ∧ batch1.fcBatch 7 ≠ [] ∧ (batch1.dense 7).edge = none) :=
  by
  refine ⟨?_, ?_, ?_, ?_, ?_, ?_, ?_⟩ <;> decide +kernel

/-- States and operands that meet the hypotheses of `Obligations.PostUnitCommands`, one part for each of its clauses. -/
theorem witness_PostUnitCommands :
    (7 < 8 ∧ (List.find? (fun r => r.id == BitVec.toNat obj7 && r.posted.isNone) (scores.dense 7).done = some scored1) ∧
      (scored1.maps = none ∨ scored1.boxes.isSome = true)) ∧
    (7 < 8 ∧ (List.find? (fun r => r.id == BitVec.toNat obj7 && r.maps.isSome && !r.boxAsked) (mapped.dense 7).done =
      some maps1)) ∧
    (4 < 8 ∧ (4 = 0 ∨ 4 = 4) ∧ (boxes.dense 4).boxReqs = [(7, 14680069)] ∧ (boxesGone = boxes.onDense 4 fun x =>
      DenseUnit.mk x.reqs x.tiles x.mode x.subs x.edge x.lastBatch x.done []) ∧ (List.find? (fun r => r.id == 14680069)
      (boxesGone.dense 7).done = some maps1) ∧ maps1.maps = some (plane1, plane1, bmap1) ∧ boxesOut =
      boxesGone.takeFree.2.suppress 4 (boxesGone.takeFree.2.candidates 4 boxesGone.free plane1 plane1 bmap1) ∧ boxW =
      (boxesGone.takeFree.2.bump (postId 4 257)).bump (postId 4 258) ((boxesGone.takeFree.2.candidates 4 boxesGone.free
      plane1 plane1 bmap1).length - 256) ∧ (boxT = boxW.writeBoxes 4 (List.map (fun b => boxRecord 14680069 maps1.tileW
      maps1.tileH b.2 b.1) boxesOut.zipIdx) PtrCheck.good)) :=
  by
  refine ⟨?_, ?_, ⟨by decide, by decide, by decide +kernel, by rfl, by decide +kernel, by decide +kernel, by rfl, by rfl, by rfl⟩⟩ <;> decide +kernel

/-- States and operands that meet the hypotheses of `Obligations.VerdictCommands`, one part for each of its clauses. -/
theorem witness_VerdictCommands :
    (pendWait.pendOf (BitVec.toNat obj7) = some pendE ∧ pendE.wait = some 0 ∧ ssnReached pendWait.ssnClosed 0 = true) ∧
    (pendVoted.pendOf (BitVec.toNat obj7) = some pendV ∧ pendVoted.deadline pendV ≤ pendVoted.dev ∧ pendV.vote = some
      vote1) ∧
    (pendLate.pendOf (BitVec.toNat obj7) = some pend2 ∧ pendLate.deadline pend2 ≤ pendLate.dev ∧ pend2.vote = none) ∧
    (7 < 8 ∧ frames.frameDue 7 = true) ∧
    (1 < 2 ∧ launchDown.launchQ 1 = [launch0] ∧ launch0.time ≤ launchDown.dev ∧ launchDown.mgmt.fault.fatal = none ∧
      launchDown.portUp 1 = false) ∧
    (1 < 2 ∧ launchUp.launchQ 1 = [launch0] ∧ launch0.time ≤ launchUp.dev ∧ launchUp.mgmt.fault.fatal = none ∧
      launchUp.portUp 1 = true ∧ launchUp.lineEnd 1 ≤ launchUp.dev ∧ launchUp.dev ≤ launch0.time + ↑(launchUp.fld
      (tportId 1 0) 17 10)) ∧
    (1 < 2 ∧ launchLate.launchQ 1 = [launchM] ∧ launchM.time ≤ launchLate.dev ∧ launchLate.mgmt.fault.fatal = none ∧
      launchLate.portUp 1 = true ∧ launchLate.lineEnd 1 ≤ launchLate.dev ∧ launchM.time + ↑(launchLate.fld (tportId 1 0)
      17 10) < launchLate.dev ∧ launchLate.bitAt (tportId 1 0) 16 = true) ∧
    (1 < 2 ∧ launchDrop.launchQ 1 = [launchM] ∧ launchM.time ≤ launchDrop.dev ∧ launchDrop.mgmt.fault.fatal = none ∧
      launchDrop.portUp 1 = true ∧ launchDrop.lineEnd 1 ≤ launchDrop.dev ∧ launchM.time + ↑(launchDrop.fld (tportId 1 0)
      17 10) < launchDrop.dev ∧ launchDrop.bitAt (tportId 1 0) 16 = false) :=
  by
  refine ⟨?_, ?_, ?_, ?_, ?_, ?_, ?_, ?_⟩ <;> decide +kernel

/-- States and operands that meet the hypotheses of `Obligations.AuxiliaryFilterCommands`, one part for each of its clauses. -/
theorem witness_AuxiliaryFilterCommands :
    (aux.canonical ∧ 15 < 16 ∧ aux.auxRuns 15 [true].length = true) ∧
    (auxNear.canonical ∧ 15 < 16 ∧ auxNear.auxRuns 15 [true].length = true ∧ (auxNear.chan 15).stuck = false ∧
      ((auxNear.auxBits 15 [true]).chan 15).stuck = true) ∧
    (auxStuck.canonical ∧ 15 < 16 ∧ auxStuck.auxRuns 15 1 = true ∧ (auxStuck.chan 15).stuck = true ∧ (auxStuck.chan
      15).last ≠ some false) ∧
    (aux.canonical ∧ 15 < 16 ∧ aux.wordService = true ∧ aux.refusesWrite (auxModId 4) (32768 : Word) = none ∧ bitOf
      (BitVec.toNat (32768 : Word)) 15 = true ∧ cfgEnable (BitVec.toNat (aux.word (auxId 15 0))) = true ∧ aux.domOn 42 =
      true) ∧
    (aux.canonical ∧ 15 < 16 ∧ aux.wordService = true ∧ aux.refusesWrite (auxId 15 0) (37 : Word) = none ∧ aux.domOn 42 =
      true) ∧
    (aux.canonical ∧ 15 < 16 ∧ aux.wordService = true ∧ aux.domOn 42 = true ∧ aux.readRefuses (auxId 15 4) = none) :=
  by
  refine ⟨?_, ?_, ?_, ?_, ?_, ?_⟩ <;> (simp only [canonical_iff]; decide +kernel)

/-- States and operands that meet the hypotheses of `Obligations.QueueCommands`, one part for each of its clauses. -/
theorem witness_QueueCommands :
    (queueClaims.canonical ∧ 4095 < 4096 ∧ queueClaims.wordService = true ∧ queueClaims.refusesWrite (queId 4095 0) (29 :
      Word) = none ∧ bitsOf (BitVec.toNat (29 : Word)) 0 11 ≠ queueClaims.fld (queId 4095 0) 0 11) ∧
    (up.canonical ∧ 4095 < 4096 ∧ up.wordService = true ∧ up.writeRefuses (queId 4095 0) (29 : Word) = none ∧ up.claimed
      5 4095 = false) ∧
    (queueTwo.canonical ∧ 4095 < 4096 ∧ queueTwo.wordService = true ∧ queueTwo.refusesWrite (queId 4095 3) (1 : Word) =
      none ∧ bitOf (BitVec.toNat (1 : Word)) 0 = true) ∧
    (queueDiag.canonical ∧ 4095 < 4096 ∧ queueDiag.qEnabled 4095 = true ∧ queueDiag.qProducer 4095 = producerCode
      Producer.headraceDiag ∧ (true = true ∨ Producer.headraceDiag = Producer.firmware) ∧ (queueDiag.queueAccess 4095
      PtrCheck.good).packetFits 4095 words504.length = true) ∧
    (queueDiag.canonical ∧ 4095 < 4096 ∧ queueDiag.qEnabled 4095 = true ∧ queueDiag.qProducer 4095 = producerCode
      Producer.headraceDiag ∧ (true = true ∨ Producer.headraceDiag = Producer.firmware) ∧ (queueDiag.queueAccess 4095
      PtrCheck.corrected).packetFits 4095 words505.length = false) ∧
    (queueTwo.canonical ∧ 4095 < 4096) ∧
    (queueFull.canonical ∧ 4095 < 4096 ∧ (List.find? (fun r => r.opcode == 773 && r.req.tag == (4095 : BitVec 12))
      queueFull.host.running = some waitWrite) ∧ queueFull.awake = true ∧ 100000000 ≤ locDiff queueFull.loc
      waitWrite.start ∧ queueFull.queueWriteFits waitWrite = false) :=
  by
  refine ⟨?_, ?_, ?_, ?_, ?_, ?_, ?_⟩ <;> (simp only [canonical_iff]; decide +kernel)

/-- States and operands that meet the hypotheses of `Obligations.QueuesAreFirstInFirstOut`, one part for each of its clauses. -/
theorem witness_QueuesAreFirstInFirstOut :
    (queue1.canonical ∧ (queue1.queue 4095).discarding = false ∧ wordsTwo ≠ []) ∧
    (queueTwo.canonical ∧ (queueTwo.queue 4095).words = [qword1, qword2] ∧ EccCheck.uncorrectable =
      EccCheck.uncorrectable) ∧
    (queue1.canonical ∧ (queue1.queue 4095).words = []) :=
  by
  refine ⟨?_, ?_, ?_⟩ <;> (simp only [canonical_iff]; decide +kernel)

/-- States and operands that meet the hypotheses of `Obligations.CheckValueCommands`, one part for each of its clauses. -/
theorem witness_CheckValueCommands :
    (check1.canonical ∧ 15 < 16 ∧ check1.wordService = true ∧ check1.claimed 7 15 = true ∧ (check1.cvOf 15).busy = false) ∧
    (check1.canonical ∧ 15 < 16 ∧ check1.wordService = true ∧ check1.claimed 7 15 = true ∧ (check1.cvOf 15).busy = false
      ∧ check1.writeRefuses (cvId 15 5) (61718255 : Word) = none) ∧
    (check1.canonical ∧ 15 < 16 ∧ check1.wordService = true ∧ check1.claimed 7 15 = true ∧ (check1.cvOf 15).busy = false
      ∧ (check1.cvRange 15).2 ≠ 0 ∧ check1.hostRange (check1.cvRange 15).1 (check1.cvRange 15).2 = true) ∧
    (claimedRange.canonical ∧ 15 < 16 ∧ (claimedRange.cvOf 15).busy = true) ∧
    (check1.canonical ∧ 15 < 16 ∧ check1.wordService = true) :=
  by
  refine ⟨?_, ?_, ?_, ?_, ?_⟩ <;> (simp only [canonical_iff]; decide +kernel)

/-- States and operands that meet the hypotheses of `Obligations.SpokePortsTrain`, one part for each of its clauses. -/
theorem witness_SpokePortsTrain :
    (3 < 4 ∧ (port3 LinkState.detect).canonical ∧ (port3 LinkState.detect).running = true ∧ (port3
      LinkState.detect).domOff (36 + 3) = false ∧ ((port3 LinkState.detect).spk 3).state = LinkState.detect) ∧
    (3 < 4 ∧ (port3 LinkState.disabled).canonical ∧ (port3 LinkState.disabled).running = true ∧ (port3
      LinkState.disabled).domOff (36 + 3) = false ∧ ((port3 LinkState.disabled).spk 3).state = LinkState.disabled ∧
      (port3 LinkState.disabled).trainTurn = some 3) ∧
    (3 < 4 ∧ (port3 LinkState.lock).canonical ∧ ((port3 LinkState.lock).spk 3).state = LinkState.lock ∧ (port3
      LinkState.lock).domOff (36 + 3) = false) ∧
    (3 < 4 ∧ (port3 LinkState.align).canonical ∧ ((port3 LinkState.align).spk 3).state = LinkState.align ∧ (port3
      LinkState.align).domOff (36 + 3) = false ∧ (upDown = [0, 1, 2, 3] ∨ upDown = [3, 2, 1, 0]) ∧ 8 ≤ 8) ∧
    (3 < 4 ∧ (port3 LinkState.align).canonical ∧ ((port3 LinkState.align).spk 3).state = LinkState.align ∧ (port3
      LinkState.align).domOff (36 + 3) = false ∧ (crossed ≠ [0, 1, 2, 3] ∧ crossed ≠ [3, 2, 1, 0] ∨ 8 < 0)) ∧
    (3 < 4 ∧ (port3 LinkState.align).canonical ∧ ((port3 LinkState.align).spk 3).state = LinkState.align ∧ (port3
      LinkState.align).domOff (36 + 3) = false ∧ (upDown ≠ [0, 1, 2, 3] ∧ upDown ≠ [3, 2, 1, 0] ∨ 8 < 9)) ∧
    (3 < 4 ∧ (port3 LinkState.exchange).canonical ∧ ((port3 LinkState.exchange).spk 3).state = LinkState.exchange ∧
      (port3 LinkState.exchange).domOff (36 + 3) = false ∧ (port3 LinkState.exchange).chain = none) ∧
    (3 < 4 ∧ (port3 LinkState.exchange).canonical ∧ ((port3 LinkState.exchange).spk 3).state = LinkState.exchange ∧
      (port3 LinkState.exchange).domOff (36 + 3) = false ∧ (port3 LinkState.exchange).chain = none ∧ ((port3
      LinkState.exchange).spk 3).waiting = []) ∧
    (3 < 4 ∧ (port3 LinkState.disabled).canonical ∧ (port3 LinkState.disabled).trainTurn = some 3 ∧ ((port3
      LinkState.disabled).spk 3).state = LinkState.disabled) ∧
    (3 < 4 ∧ (port3 LinkState.exchange).canonical ∧ ((port3 LinkState.exchange).spk 3).state.training = true ∧ (port3
      LinkState.exchange).domOff (36 + 3) = false ∧ 10000000 ≤ locDiff (port3 LinkState.exchange).loc ((port3
      LinkState.exchange).spk 3).attemptAt) ∧
    (3 < 4 ∧ (port3 LinkState.hold).canonical ∧ ((port3 LinkState.hold).spk 3).state = LinkState.hold ∧ (port3
      LinkState.hold).trainTurn = some 3) ∧
    (3 < 4 ∧ up.canonical ∧ up.wordService = true ∧ up.refusesWrite (spkId 3 0) (1 : Word) = none) :=
  by
  refine ⟨?_, ?_, ?_, ?_, ?_, ?_, ?_, ?_, ?_, ?_, ?_, ?_⟩ <;> (simp only [canonical_iff]; decide +kernel)

/-- States and operands that meet the hypotheses of `Obligations.LinkLossEmptiesThePort`, one part for each of its clauses. -/
theorem witness_LinkLossEmptiesThePort :
    (3 < 4 ∧ linked.canonical ∧ linked.spkUp 3 = true) ∧
    (3 < 4 ∧ hbLate.canonical ∧ hbLate.spkUp 3 = true ∧ hbLate.fld (spkId 3 1) 8 3 * hbLate.fld (spkId 3 1) 0 8 * 1000 ≤
      locDiff hbLate.loc (hbLate.spk 3).hbRx) ∧
    (3 < 4 ∧ waitsAck.canonical ∧ waitsAck.spkUp 3 = true ∧ (waitsAck.spk 3).retry ≠ [] ∧ waitsAck.fld (spkId 3 1) 15 8 *
      100 ≤ locDiff waitsAck.loc (waitsAck.spk 3).progressAt ∧ (waitsAck.spk 3).resends + 1 < waitsAck.fld (spkId 3 1) 11
      4) ∧
    (3 < 4 ∧ drained.canonical ∧ (drained.spk 3).drain = some 0 ∧ (drained.spk 3).retry = [] ∧ (∀ q < 4, q ≠ 3 →
      (drained.spk q).state.training = false)) ∧
    (3 < 4 ∧ drainLate.canonical ∧ (drainLate.spk 3).drain = some 0 ∧ (drainLate.spk 3).retry ≠ [] ∧ 10000 ≤ locDiff
      drainLate.loc 0) ∧
    (3 < 4 ∧ linked.canonical ∧ linked.chain = none) :=
  by
  refine ⟨?_, ?_, ?_, ?_, ?_, ?_⟩ <;> (simp only [canonical_iff]; decide +kernel)

/-- States and operands that meet the hypotheses of `Obligations.FlitsAreNumberedAndAcknowledged`, one part for each of its clauses. -/
theorem witness_FlitsAreNumberedAndAcknowledged :
    (linked.canonical ∧ 3 < 4 ∧ linked.spkUp 3 = true ∧ badLink.check ≠ flitCheck (linked.spk 3).rxEpoch badLink ∧
      sequenced badLink = false) ∧
    (linked.canonical ∧ 3 < 4 ∧ linked.spkUp 3 = true ∧ wrongSeq.check = flitCheck (linked.spk 3).rxEpoch wrongSeq ∧
      flitLegal wrongSeq = true ∧ sequenced wrongSeq = true ∧ wrongSeq.seq.toNat ≠ (linked.spk 3).seqRx) ∧
    (linked.canonical ∧ 3 < 4 ∧ linked.spkUp 3 = true ∧ haloFlit.check = flitCheck (linked.spk 3).rxEpoch haloFlit ∧
      flitLegal haloFlit = true ∧ sequenced haloFlit = true ∧ haloFlit.seq.toNat = (linked.spk 3).seqRx) ∧
    (waitsAck.canonical ∧ 3 < 4 ∧ waitsAck.spkUp 3 = true ∧ ackFlit.check = flitCheck (waitsAck.spk 3).rxEpoch ackFlit ∧
      ackFlit.mtype = 0 ∧ ackFlit.vc = 0 ∧ bitOf (leAt ackFlit.payload 0 1) 0 = false ∧ ackFlit.ackValid = true ∧
      (List.findIdx? (fun g => g.seq == ackFlit.ack) (waitsAck.spk 3).retry = some 0)) ∧
    (waitsAck.canonical ∧ 3 < 4 ∧ waitsAck.spkUp 3 = true ∧ ackFlit.mtype = 0) ∧
    (linked.canonical ∧ 3 < 4 ∧ linked.spkUp 3 = true ∧ oddFlit.check = flitCheck (linked.spk 3).rxEpoch oddFlit ∧
      flitLegal oddFlit = false) ∧
    (linked.canonical ∧ 3 < 4 ∧ linked.spkUp 3 = true ∧ (badCheck.check ≠ flitCheck (linked.spk 3).rxEpoch badCheck ∨
      sequenced badCheck = true ∧ badCheck.seq.toNat ≠ (linked.spk 3).seqRx ∨ 6 < badCheck.mtype)) ∧
    (linked.canonical ∧ 3 < 4 ∧ linked.spkUp 3 = true ∧ (oddFlit.check ≠ flitCheck (linked.spk 3).rxEpoch oddFlit ∨
      sequenced oddFlit = true ∧ oddFlit.seq.toNat ≠ (linked.spk 3).seqRx ∨ 6 < oddFlit.mtype)) :=
  by
  refine ⟨?_, ?_, ?_, ?_, ?_, ?_, ?_, ?_⟩ <;> (simp only [canonical_iff]; decide +kernel)

/-- States and operands that meet the hypotheses of `Obligations.LinkMessages`, one part for each of its clauses. -/
theorem witness_LinkMessages :
    (3 < 4 ∧ linked.spkUp 3 = true ∧ linked.fld (spkId 3 1) 0 8 * 1000 ≤ locDiff linked.loc (linked.spk 3).hbTx) ∧
    (3 < 4 ∧ linked.spkUp 3 = true ∧ beatFlit.mtype = 1 ∧ beatFlit.check = flitCheck (linked.spk 3).rxEpoch beatFlit ∧
      beatFlit.vc = 0) ∧
    (3 < 4 ∧ linked.spkUp 3 = true ∧ badBeat.mtype = 1 ∧ (badBeat.check ≠ flitCheck (linked.spk 3).rxEpoch badBeat ∨
      badBeat.vc ≠ 0)) ∧
    (3 < 4 ∧ inChain.spkUp 3 = true ∧ inChain.rx 3 haloFlit = (some (gotOf inChain haloFlit), afterRx inChain haloFlit) ∧
      haloFlit.mtype = 4 ∧ (afterRx inChain haloFlit).chain = some haloFlit.dest) ∧
    (3 < 4 ∧ inChain.spkUp 3 = true ∧ inChain.rx 3 relayFlit = (some (gotOf inChain relayFlit), afterRx inChain
      relayFlit) ∧ relayFlit.mtype = 5) ∧
    (3 < 4 ∧ inChain.spkUp 3 = true ∧ inChain.rx 3 activFlit = (some (gotOf inChain activFlit), afterRx inChain
      activFlit) ∧ activFlit.mtype = 6 ∧ activFlit.abort = false ∧ (activFlit.hops ≤ (Option.map (fun x => x.maxHops)
      inChain.mgmt.model.active).getD 16)) ∧
    (3 < 4 ∧ inChain.spkUp 3 = true ∧ inChain.rx 3 fwdFlit = (some (gotOf inChain fwdFlit), afterRx inChain fwdFlit) ∧
      fwdFlit.mtype = 3 ∧ inChain.unroutable 3 fwdFlit = false) ∧
    (3 < 4 ∧ inChain.spkUp 3 = true ∧ inChain.rx 3 lastPart = (none, afterRx inChain lastPart) ∧ lastPart.mtype = 4) ∧
    (3 < 4 ∧ inChain.spkUp 3 = true ∧ inChain.rx 3 lastRelay = (none, afterRx inChain lastRelay) ∧ lastRelay.mtype = 5) ∧
    (3 < 4 ∧ inChain.spkUp 3 = true ∧ inChain.rx 3 lastFwd = (none, afterRx inChain lastFwd) ∧ lastFwd.mtype = 3 ∧
      inChain.unroutable 3 lastFwd = false) ∧
    (3 < 4 ∧ inChain.spkUp 3 = true ∧ inChain.rx 3 lostFlit = (none, afterRx inChain lostFlit) ∧ lostFlit.mtype = 3 ∧
      inChain.unroutable 3 lostFlit = true ∧ (parsePacket (List.drop 4 lostFlit.payload)).reply = false) :=
  by
  refine ⟨?_, ?_, ?_, ?_, ?_, ?_, ?_, ?_, ?_, ?_, ?_⟩ <;> decide +kernel

/-- States and operands that meet the hypotheses of `Obligations.EnumerationMessages`, one part for each of its clauses. -/
theorem witness_EnumerationMessages :
    (3 < 4 ∧ inChain.spkUp 3 = true ∧ (enumFlit 1).mtype = 2 ∧ inChain.rx 3 (enumFlit 1) = (some (gotOf inChain (enumFlit
      1)), afterRx inChain (enumFlit 1)) ∧ leAt (enumFlit 1).payload 2 1 = (gotOf inChain (enumFlit 1)).sub ∧ (afterRx
      inChain (enumFlit 1)).restarting = false ∧ (gotOf inChain (enumFlit 1)).sub = 1) ∧
    (3 < 4 ∧ inChain.spkUp 3 = true ∧ (enumFlit 2).mtype = 2 ∧ inChain.rx 3 (enumFlit 2) = (some (gotOf inChain (enumFlit
      2)), afterRx inChain (enumFlit 2)) ∧ leAt (enumFlit 2).payload 2 1 = (gotOf inChain (enumFlit 2)).sub ∧ (afterRx
      inChain (enumFlit 2)).restarting = false ∧ (gotOf inChain (enumFlit 2)).sub = 2) ∧
    (3 < 4 ∧ inChain.spkUp 3 = true ∧ (enumFlit 3).mtype = 2 ∧ inChain.rx 3 (enumFlit 3) = (some (gotOf inChain (enumFlit
      3)), afterRx inChain (enumFlit 3)) ∧ leAt (enumFlit 3).payload 2 1 = (gotOf inChain (enumFlit 3)).sub ∧ (afterRx
      inChain (enumFlit 3)).restarting = false ∧ (gotOf inChain (enumFlit 3)).sub = 3) ∧
    (3 < 4 ∧ inChain.spkUp 3 = true ∧ (enumFlit 4).mtype = 2 ∧ inChain.rx 3 (enumFlit 4) = (some (gotOf inChain (enumFlit
      4)), afterRx inChain (enumFlit 4)) ∧ leAt (enumFlit 4).payload 2 1 = (gotOf inChain (enumFlit 4)).sub ∧ (afterRx
      inChain (enumFlit 4)).restarting = false ∧ (gotOf inChain (enumFlit 4)).sub = 4) ∧
    (3 < 4 ∧ inChain.spkUp 3 = true ∧ (enumFlit 5).mtype = 2 ∧ inChain.rx 3 (enumFlit 5) = (some (gotOf inChain (enumFlit
      5)), afterRx inChain (enumFlit 5)) ∧ leAt (enumFlit 5).payload 2 1 = (gotOf inChain (enumFlit 5)).sub ∧ (afterRx
      inChain (enumFlit 5)).restarting = false ∧ (gotOf inChain (enumFlit 5)).sub = 5) ∧
    (3 < 4 ∧ inChain.spkUp 3 = true ∧ (enumFlit 6).mtype = 2 ∧ inChain.rx 3 (enumFlit 6) = (some (gotOf inChain (enumFlit
      6)), afterRx inChain (enumFlit 6)) ∧ leAt (enumFlit 6).payload 2 1 = (gotOf inChain (enumFlit 6)).sub ∧ (afterRx
      inChain (enumFlit 6)).restarting = false ∧ (gotOf inChain (enumFlit 6)).sub = 6) ∧
    (3 < 4 ∧ rootChain.spkUp 3 = true ∧ notifyFlit.mtype = 2 ∧ rootChain.rx 3 notifyFlit = (some (gotOf rootChain
      notifyFlit), afterRx rootChain notifyFlit) ∧ leAt notifyFlit.payload 2 1 = (gotOf rootChain notifyFlit).sub ∧
      (afterRx rootChain notifyFlit).restarting = false ∧ (gotOf rootChain notifyFlit).sub = 7 ∧ (afterRx rootChain
      notifyFlit).spoke.root = true) ∧
    (3 < 4 ∧ restarting1.spkUp 3 = true ∧ (enumFlit 1).mtype = 2 ∧ restarting1.rx 3 (enumFlit 1) = (some (gotOf
      restarting1 (enumFlit 1)), afterRx restarting1 (enumFlit 1)) ∧ leAt (enumFlit 1).payload 2 1 = (gotOf restarting1
      (enumFlit 1)).sub ∧ (afterRx restarting1 (enumFlit 1)).restarting = true ∧ (gotOf restarting1 (enumFlit 1)).sub =
      1) ∧
    (3 < 4 ∧ restarting1.spkUp 3 = true ∧ (enumFlit 2).mtype = 2 ∧ restarting1.rx 3 (enumFlit 2) = (some (gotOf
      restarting1 (enumFlit 2)), afterRx restarting1 (enumFlit 2)) ∧ leAt (enumFlit 2).payload 2 1 = (gotOf restarting1
      (enumFlit 2)).sub ∧ (afterRx restarting1 (enumFlit 2)).restarting = true ∧ (gotOf restarting1 (enumFlit 2)).sub =
      2) ∧
    (3 < 4 ∧ restarting1.spkUp 3 = true ∧ (enumFlit 3).mtype = 2 ∧ restarting1.rx 3 (enumFlit 3) = (some (gotOf
      restarting1 (enumFlit 3)), afterRx restarting1 (enumFlit 3)) ∧ leAt (enumFlit 3).payload 2 1 = (gotOf restarting1
      (enumFlit 3)).sub ∧ (afterRx restarting1 (enumFlit 3)).restarting = true ∧ (gotOf restarting1 (enumFlit 3)).sub =
      3) ∧
    (3 < 4 ∧ restarting1.spkUp 3 = true ∧ (enumFlit 4).mtype = 2 ∧ restarting1.rx 3 (enumFlit 4) = (some (gotOf
      restarting1 (enumFlit 4)), afterRx restarting1 (enumFlit 4)) ∧ leAt (enumFlit 4).payload 2 1 = (gotOf restarting1
      (enumFlit 4)).sub ∧ (afterRx restarting1 (enumFlit 4)).restarting = true ∧ (gotOf restarting1 (enumFlit 4)).sub =
      4) ∧
    (3 < 4 ∧ restarting1.spkUp 3 = true ∧ (enumFlit 5).mtype = 2 ∧ restarting1.rx 3 (enumFlit 5) = (some (gotOf
      restarting1 (enumFlit 5)), afterRx restarting1 (enumFlit 5)) ∧ leAt (enumFlit 5).payload 2 1 = (gotOf restarting1
      (enumFlit 5)).sub ∧ (afterRx restarting1 (enumFlit 5)).restarting = true ∧ (gotOf restarting1 (enumFlit 5)).sub =
      5) ∧
    (3 < 4 ∧ restarting1.spkUp 3 = true ∧ (enumFlit 6).mtype = 2 ∧ restarting1.rx 3 (enumFlit 6) = (some (gotOf
      restarting1 (enumFlit 6)), afterRx restarting1 (enumFlit 6)) ∧ leAt (enumFlit 6).payload 2 1 = (gotOf restarting1
      (enumFlit 6)).sub ∧ (afterRx restarting1 (enumFlit 6)).restarting = true ∧ (gotOf restarting1 (enumFlit 6)).sub =
      6) ∧
    (3 < 4 ∧ restarting1.spkUp 3 = true ∧ (enumFlit 7).mtype = 2 ∧ restarting1.rx 3 (enumFlit 7) = (some (gotOf
      restarting1 (enumFlit 7)), afterRx restarting1 (enumFlit 7)) ∧ leAt (enumFlit 7).payload 2 1 = (gotOf restarting1
      (enumFlit 7)).sub ∧ (afterRx restarting1 (enumFlit 7)).restarting = true ∧ (gotOf restarting1 (enumFlit 7)).sub =
      7) ∧
    (acceptable.wordService = true ∧ acceptable.refusesWrite (chainId 2) (265 : Word) = none ∧ bitOf (BitVec.toNat (265 :
      Word)) 8 = true ∧ acceptable.chainNode (bitsOf (BitVec.toNat (265 : Word)) 0 8) = some deviceChanged) :=
  by
  refine ⟨?_, ?_, ?_, ?_, ?_, ?_, ?_, ?_, ?_, ?_, ?_, ?_, ?_, ?_, ?_⟩ <;> decide +kernel

/-- States and operands that meet the hypotheses of `Obligations.ParameterCommands`, one part for each of its clauses. -/
theorem witness_ParameterCommands :
    (up.accepts 256 readReq = true ∧ readReq.payload.length = 8 ∧ rangeBad readReq.payload 1019 = false ∧ firstRefused
      up.readRefuses 0 (idRange (leAt readReq.payload 0 4) (leAt readReq.payload 4 2)) = none) ∧
    (up.accepts 256 readBadReq = true ∧ readBadReq.payload.length = 8 ∧ rangeBad readBadReq.payload 1019 = false ∧
      firstRefused up.readRefuses 0 (idRange (leAt readBadReq.payload 0 4) (leAt readBadReq.payload 4 2)) = some
      (Status.badParam, 0)) ∧
    (up.accepts 258 listReq = true ∧ listIds.length ≤ 1018 ∧ listIds ≠ [] ∧ (∀ i ∈ listIds, i < 2 ^ 32) ∧ listReq.payload
      = leBytes 2 listIds.length ++ leBytes 2 0 ++ List.flatMap (leBytes 4) listIds ∧ firstRefused up.readRefuses 0
      listIds = none) ∧
    (up.accepts 258 badListReq = true ∧ badIds.length ≤ 1018 ∧ badIds ≠ [] ∧ (∀ i ∈ badIds, i < 2 ^ 32) ∧
      badListReq.payload = leBytes 2 badIds.length ++ leBytes 2 0 ++ List.flatMap (leBytes 4) badIds ∧ firstRefused
      up.readRefuses 0 badIds = some (Status.badParam, 1)) ∧
    (up.accepts 257 writeReq = true ∧ writeReq.payload.length = 8 + 4 * leAt writeReq.payload 4 2 ∧ rangeBad
      writeReq.payload 1017 = false ∧ (writeWs = List.map (fun i => (leAt writeReq.payload 0 4 + i, BitVec.ofNat 32 (leAt
      writeReq.payload (8 + 4 * i) 4))) (upTo (leAt writeReq.payload 4 2))) ∧ (firstRefused (fun w => up.writeRefuses w.1
      w.2) 0 writeWs = none) ∧ ((forEach writeWs (fun t w => t.setWord w.1 w.2) (up.taken 257 writeReq)).writeWords
      (up.taken 257 writeReq) 0 writeWs = Except.ok (written 257 writeReq writeWs))) ∧
    (up.accepts 257 writeOwnReq = true ∧ writeOwnReq.payload.length = 8 + 4 * leAt writeOwnReq.payload 4 2 ∧ rangeBad
      writeOwnReq.payload 1017 = false ∧ (writeOwnWs = List.map (fun i => (leAt writeOwnReq.payload 0 4 + i, BitVec.ofNat
      32 (leAt writeOwnReq.payload (8 + 4 * i) 4))) (upTo (leAt writeOwnReq.payload 4 2))) ∧ (firstRefused (fun w =>
      up.writeRefuses w.1 w.2) 0 writeOwnWs = none) ∧ ((forEach writeOwnWs (fun t w => t.setWord w.1 w.2) (up.taken 257
      writeOwnReq)).writeWords (up.taken 257 writeOwnReq) 0 writeOwnWs = Except.error (Status.wrongState, 0))) ∧
    (up.accepts 257 writeBadReq = true ∧ writeBadReq.payload.length = 8 + 4 * leAt writeBadReq.payload 4 2 ∧ rangeBad
      writeBadReq.payload 1017 = false ∧ (writeBadWs = List.map (fun i => (leAt writeBadReq.payload 0 4 + i, BitVec.ofNat
      32 (leAt writeBadReq.payload (8 + 4 * i) 4))) (upTo (leAt writeBadReq.payload 4 2))) ∧ (firstRefused (fun w =>
      up.writeRefuses w.1 w.2) 0 writeBadWs = some (Status.badParam, 0))) ∧
    (up.accepts 259 writeListReq = true ∧ writeWs.length ≤ 509 ∧ writeWs ≠ [] ∧ (∀ w ∈ writeWs, w.1 < 2 ^ 32) ∧
      (writeListReq.payload = leBytes 2 writeWs.length ++ leBytes 2 0 ++ List.flatMap (fun w => leBytes 4 w.1 ++ leBytes
      4 (BitVec.toNat w.2)) writeWs) ∧ (firstRefused (fun w => up.writeRefuses w.1 w.2) 0 writeWs = none) ∧ ((forEach
      writeWs (fun t w => t.setWord w.1 w.2) (up.taken 259 writeListReq)).writeWords (up.taken 259 writeListReq) 0
      writeWs = Except.ok (written 259 writeListReq writeWs))) ∧
    (up.accepts 259 writeOwnListReq = true ∧ writeOwnWs.length ≤ 509 ∧ writeOwnWs ≠ [] ∧ (∀ w ∈ writeOwnWs, w.1 < 2 ^ 32)
      ∧ (writeOwnListReq.payload = leBytes 2 writeOwnWs.length ++ leBytes 2 0 ++ List.flatMap (fun w => leBytes 4 w.1 ++
      leBytes 4 (BitVec.toNat w.2)) writeOwnWs) ∧ (firstRefused (fun w => up.writeRefuses w.1 w.2) 0 writeOwnWs = none) ∧
      ((forEach writeOwnWs (fun t w => t.setWord w.1 w.2) (up.taken 259 writeOwnListReq)).writeWords (up.taken 259
      writeOwnListReq) 0 writeOwnWs = Except.error (Status.wrongState, 0))) ∧
    (up.accepts 259 writeBadListReq = true ∧ writeBadWs.length ≤ 509 ∧ writeBadWs ≠ [] ∧ (∀ w ∈ writeBadWs, w.1 < 2 ^ 32)
      ∧ (writeBadListReq.payload = leBytes 2 writeBadWs.length ++ leBytes 2 0 ++ List.flatMap (fun w => leBytes 4 w.1 ++
      leBytes 4 (BitVec.toNat w.2)) writeBadWs) ∧ (firstRefused (fun w => up.writeRefuses w.1 w.2) 0 writeBadWs = some
      (Status.badParam, 0))) ∧
    (up.wordService = true ∧ up.refusesWrite (posId 4) (1000 : Word) = none ∧ posId 4 < 2 ^ 32) ∧
    (up.wordService = true ∧ up.refusesWrite (hpId 3 77) (0 : Word) = none ∧ 3 < 4 ∧ 7 < 8 ∧ 5 < 8 ∧ hpId 3 77 = hpId 3
      (16 + 8 * 7 + 5)) ∧
    (up.wordService = true ∧ up.refusesWrite (pid 21 64 0) (100 : Word) = none ∧ 64 < 65 ∧ pid 21 64 0 = pid 21 64 0) ∧
    (failed7.wordService = true ∧ failed7.refusesWrite (pid 1 0 306) (15 : Word) = none ∧ pid 1 0 306 = pid 1 0 306) ∧
    (up.wordService = true ∧ up.refusesWrite 4278190080 (100 : Word) = some Status.badParam ∧ 4278190080 < 2 ^ 32) ∧
    (arm.wordService = true ∧ arm.refusesWrite (hpId 3 77) (0 : Word) = some Status.locked ∧ 3 < 4 ∧ 7 < 8 ∧ 5 < 8 ∧ hpId
      3 77 = hpId 3 (16 + 8 * 7 + 5)) ∧
    (up.wordService = true ∧ up.refusesWrite (pid 21 64 0) (4294967295 : Word) = some Status.badParam ∧ 64 < 65 ∧ pid 21
      64 0 = pid 21 64 0) ∧
    (arm.wordService = true ∧ arm.refusesWrite (pid 1 0 306) (15 : Word) = some Status.wrongState ∧ pid 1 0 306 = pid 1 0
      306) ∧
    (63 < 64 ∧ 0 < 2) ∧
    (63 < 64 ∧ 1 < 2) ∧
    (bitOf (BitVec.toNat (15 : Word)) 3 = true) :=
  by
  refine ⟨?_, ?_, ?_, ?_, ?_, ?_, ?_, ?_, ?_, ?_, ?_, ?_, ?_, ?_, ?_, ?_, ?_, ?_, ?_, ?_, ?_⟩ <;> decide +kernel

/-- States and operands that meet the hypotheses of `Obligations.ModelImageCommands`, one part for each of its clauses. -/
theorem witness_ModelImageCommands :
    (up.accepts 512 beginReq = true ∧ beginReq.payload.length = 12 ∧ leAt beginReq.payload 0 1 = 1 ∧ 1 < 2 ∧ leAt
      beginReq.payload 1 3 = 0 ∧ leAt beginReq.payload 4 8 = 2 ^ 32 ∧ 2 ^ 32 ≠ 0 ∧ 2 ^ 32 ≤ 2 ^ 32 ∧ up.swapping = false
      ∧ up.host.bulkIn = none ∧ up.host.remoteIn = none ∧ BitVec.toNat beginReq.src = up.addr) ∧
    (up.accepts 513 (askOf 0) = true ∧ selectorOf (askOf 0).payload = some 0 ∧ (up.taken 513 (askOf 0)).checkModel (some
      (askOf 0).payload) = Except.error (Status.wrongState, [])) ∧
    (loaded.accepts 514 (askOf 1) = true ∧ (askOf 1).payload.length = 4 ∧ selectorOf (askOf 1).payload = some 1 ∧
      loaded.mgmt.model.active.isSome = true) ∧
    (arrived.accepts 514 (askOf 0) = true ∧ (askOf 0).payload.length = 4 ∧ selectorOf (askOf 0).payload = some 0 ∧
      arrived.mgmt.model.staged = some staged1 ∧ staged1.kind = 0) ∧
    (bulkOpen.accepts 516 none1 = true ∧ none1.payload = []) ∧
    (service.accepts 517 swapReq = true ∧ swapReq.payload.length = 10 ∧ selectorOf swapReq.payload = some 0 ∧
      service.swapping = false ∧ (service.taken 517 swapReq).checkModel none = Except.error (Status.wrongState, [])) ∧
    (swapping1.mgmt.model.swap = some swap1 ∧ swapping1.running = true ∧ swapping1.cutDue = true) :=
  by
  refine ⟨?_, ?_, ?_, ?_, ?_, ?_, ?_⟩ <;> decide +kernel

/-- States and operands that meet the hypotheses of `Obligations.ClaimsQueuesAndSupplies`, one part for each of its clauses. -/
theorem witness_ClaimsQueuesAndSupplies :
    (arm.accepts 771 claimReq = true ∧ claimReq.payload.length = 16 ∧ arm.armed = true) ∧
    (up.accepts 771 claimReq = true ∧ claimReq.payload.length = 16 ∧ up.armed = false ∧ leAt claimReq.payload 0 1 = 7 ∧
      leAt claimReq.payload 1 1 = 0 ∧ leAt claimReq.payload 2 2 = 15 ∧ leAt claimReq.payload 4 4 = 1 ∧ leAt
      claimReq.payload 8 8 = 0 ∧ claimRange 7 15 1 0 = true ∧ up.claimHeld 7 15 1 0 = false ∧ up.poolLacks 7 15 1 = false
      ∧ up.freeEntry = some 0) ∧
    (arm.accepts 772 releaseReq = true ∧ releaseReq.payload.length = 2 ∧ arm.armed = true) ∧
    (hasClaim.accepts 772 releaseReq = true ∧ releaseReq.payload.length = 2 ∧ hasClaim.armed = false ∧ leAt
      releaseReq.payload 0 2 < 1024 ∧ hasClaim.claim (leAt releaseReq.payload 0 2) = some claim7 ∧ claim7.image = false ∧
      hasClaim.claimUsed claim7 = false) ∧
    (queue1.accepts 773 (queueReq 504 true) = true ∧ 4095 < 4096 ∧ 1 ≤ 504 ∧ 504 ≤ 509 ∧ queue1.qProducer 4095 = 0 ∧
      (queueReq 504 true).payload.length = 4 + 8 * 504 ∧ leAt (queueReq 504 true).payload 0 2 = 4095 ∧ leAt (queueReq 504
      true).payload 2 2 = 504 + bit true * 2 ^ 15 ∧ ((queue1.taken 773 (queueReq 504 true)).queueAccess 4095
      PtrCheck.good).packetFits 4095 504 = true ∧ (∀ x ∈ ((queue1.taken 773 (queueReq 504 true)).queueAccess 4095
      PtrCheck.good).host.running, x.queue ≠ some 4095)) ∧
    (queue1.accepts 773 (queueReq 505 false) = true ∧ 4095 < 4096 ∧ 1 ≤ 505 ∧ 505 ≤ 509 ∧ queue1.qProducer 4095 = 0 ∧
      (queueReq 505 false).payload.length = 4 + 8 * 505 ∧ leAt (queueReq 505 false).payload 0 2 = 4095 ∧ leAt (queueReq
      505 false).payload 2 2 = 505 + bit false * 2 ^ 15 ∧ ((queue1.taken 773 (queueReq 505 false)).queueAccess 4095
      PtrCheck.good).packetFits 4095 505 = false) ∧
    (queueTwo.accepts 774 queueReadReq = true ∧ queueReadReq.payload = leBytes 2 4095 ++ leBytes 2 452 ∧ 4095 < 4096 ∧ 1
      ≤ 452 ∧ 452 ≤ 452 ∧ queueTwo.qConsumer 4095 = 0 ∧ accessed queueTwo 774 queueReadReq 4095 = (queueTwo.taken 774
      queueReadReq).queueAccess 4095 PtrCheck.good ∧ 2 = readCountOf ((accessed queueTwo 774 queueReadReq 4095).queue
      4095) 452 false) ∧
    ((counter 12287 7).accepts 775 syncReq = true ∧ syncReq.payload.length = 12 ∧ leAt syncReq.payload 0 2 < 12288 ∧ leAt
      syncReq.payload 2 1 < 16 ∧ leAt syncReq.payload 3 1 = 0 ∧ ((counter 12287 7).taken 775 syncReq).soOp (leAt
      syncReq.payload 0 2) (leAt syncReq.payload 2 1) (leAt syncReq.payload 4 4) (leAt syncReq.payload 8 4) = (Status.ok,
      (7 : Word), syncAfter)) ∧
    (camsOn.accepts 1536 i2cReq = true ∧ i2cReq.payload.length = 8 + leAt i2cReq.payload 2 2 ∧ leAt i2cReq.payload 0 1 <
      4 ∧ leAt i2cReq.payload 1 1 < 128 ∧ leAt i2cReq.payload 2 2 ≤ 256 ∧ leAt i2cReq.payload 4 2 ≤ 256 ∧ leAt
      i2cReq.payload 6 2 = 0 ∧ leAt i2cReq.payload 2 2 + leAt i2cReq.payload 4 2 ≠ 0 ∧ camsOn.bitAt camId (leAt
      i2cReq.payload 0 1) = true) ∧
    (up.accepts 1537 (askOf 15) = true ∧ (askOf 15).payload.length = 4 ∧ leAt (askOf 15).payload 0 4 = 15 ∧ 15 < 16 ∧ (∀
      p < 4, bitOf (up.fld camId 0 4) p = true → bitOf 15 p = false → up.bitAt (hpId p 0) 0 = false) ∧ 15 = 15 - (15 &&&
      up.fld camId 0 4) ∧ (supplySet up 15 15 = (up.setFld camId 0 4 15).onBoard fun b => BoardState.mk b.supply b.trips
      ((b.softStart ||| 15) &&& 15) b.store b.storing (b.tripped - (b.tripped &&& 15)) b.reloaded b.reload) ∧ 15 ≠ 0) ∧
    (camsOn.accepts 1537 (askOf 0) = true ∧ (askOf 0).payload.length = 4 ∧ leAt (askOf 0).payload 0 4 = 0 ∧ 0 < 16 ∧ (∀ p
      < 4, bitOf (camsOn.fld camId 0 4) p = true → bitOf 0 p = false → camsOn.bitAt (hpId p 0) 0 = false) ∧ 0 = 0 - (0
      &&& camsOn.fld camId 0 4) ∧ (supplySet camsOn 0 0 = (camsOn.setFld camId 0 4 0).onBoard fun b => BoardState.mk
      b.supply b.trips ((b.softStart ||| 0) &&& 0) b.store b.storing (b.tripped - (b.tripped &&& 0)) b.reloaded b.reload)
      ∧ 0 = 0) ∧
    (linked.accepts 2305 (reqOf [(3 : Byte)]) = true ∧ (reqOf [(3 : Byte)]).payload.length = 1 ∧ leAt (reqOf [(3 :
      Byte)]).payload 0 1 < 4 ∧ linked.spkUp (leAt (reqOf [(3 : Byte)]).payload 0 1) = true) ∧
    (up.accepts 1793 (oneOf 8 (255 : Byte)) = true ∧ (oneOf 8 (255 : Byte)).payload.length = 8) ∧
    (up.accepts 770 none1 = true ∧ none1.payload = [] ∧ up.host.resetReply = none ∧ BitVec.toNat none1.src = up.addr) ∧
    (up.accepts 770 farReq = true ∧ farReq.payload = [] ∧ up.host.resetReply = none ∧ BitVec.toNat farReq.src ≠ up.addr) ∧
    (resetAsked.accepts 770 none1 = true ∧ none1.payload = [] ∧ resetAsked.host.resetReply.isSome = true) :=
  by
  refine ⟨?_, ?_, ?_, ?_, ?_, ?_, ?_, ?_, ?_, ?_, ?_, ?_, ?_, ?_, ?_, ?_⟩ <;> decide +kernel

/-- States and operands that meet the hypotheses of `Obligations.LongCommandsAndTheirReplies`, one part for each of its clauses. -/
theorem witness_LongCommandsAndTheirReplies :
    (armable.accepts 768 none1 = true ∧ none1.payload = [] ∧ (armable.taken 768 none1).armRefuses = none) ∧
    (up.accepts 768 none1 = true ∧ none1.payload = [] ∧ (up.taken 768 none1).armRefuses = some Status.wrongState) ∧
    (service.accepts 769 none1 = true ∧ none1.payload = []) ∧
    (up.accepts 1024 powerOn = true ∧ powerOn.payload = leBytes 1 42 ++ leBytes 1 0 ++ leBytes 2 0 ∧ 42 < 44 ∧ 0 < 3 ∧
      up.powerRefuses 42 0 = none ∧ (up.pdom 42).move = none ∧ (up.pdom 42).st = pwrOf 0) ∧
    (up.accepts 1024 powerOff = true ∧ powerOff.payload = leBytes 1 42 ++ leBytes 1 2 ++ leBytes 2 0 ∧ 42 < 44 ∧ 2 < 3 ∧
      up.powerRefuses 42 2 = none ∧ (up.pdom 42).move = none ∧ (up.pdom 42).st ≠ pwrOf 2) ∧
    (parkable.accepts 1026 parkReq = true ∧ parkReq.payload = leBytes 1 7 ++ leBytes 1 1 ∧ 7 < 8 ∧ (1 = 1 ∨ 1 = 2) ∧
      parkable.otherOut 7 = false ∧ parkable.region 7 = 1 ∧ parkable.swapping = false ∧ parkable.armed = true ∧
      parkable.mgmt.model.active.isSome = true ∧ (∀ i < 4, (parkable.pdom (4 * 7 + i)).move = none ∧ (parkable.pdom (4 *
      7 + i)).pend = none) ∧ (1 = 2 → parkable.queueIn 7 = false)) ∧
    (parkedState.accepts 1027 (reqOf [(7 : Byte)]) = true ∧ (reqOf [(7 : Byte)]).payload = leBytes 1 7 ∧ 7 < 8 ∧
      parkedState.swapping = false ∧ parkedState.region 7 = 3) ∧
    (up.accepts 2049 (oneOf 32 (7 : Byte)) = true ∧ (oneOf 32 (7 : Byte)).payload.length = 32 ∧ up.keyTemporary = false) ∧
    (up.accepts 2051 none1 = true ∧ up.lifeRefuses none1.payload = some Status.badLength) ∧
    (firmware1.accepts 2052 (askOf 0) = true ∧ (askOf 0).payload.length = 4 ∧ selectorOf (askOf 0).payload = some 0 ∧
      firmware1.stagedFirmware = some image1 ∧ firmware1.firmwareRefuses image1 = some Status.badParam) ∧
    (up.powered = true) ∧
    (up.accepts 2304 none1 = true ∧ none1.payload = [] ∧ BitVec.toNat none1.src = up.addr ∧ up.armed = false ∧
      up.partnersArmed = false ∧ up.farModules = false) ∧
    (inChain.accepts 2304 chainReq = true ∧ chainReq.payload = [] ∧ BitVec.toNat chainReq.src = inChain.addr ∧
      inChain.armed = false ∧ inChain.partnersArmed = false ∧ inChain.farModules = true) ∧
    (up.accepts 2304 farReq = true ∧ farReq.payload = [] ∧ (BitVec.toNat farReq.src ≠ up.addr ∨ up.armed = true ∨
      up.partnersArmed = true)) ∧
    (up.accepts 2562 bistReq = true ∧ leAt bistReq.payload 0 1 = 1 ∧ leAt bistReq.payload 1 3 = 0 ∧ 1 ≤ 1 ∧ 1 ≤ 64 ∧
      bistReq.payload.length = 4 + 1 ∧ up.bistRefuses (bistCodes bistReq.payload) = none) ∧
    ((runs 768 []).awake = true ∧ (List.find? (fun x => x.req.tag == (4095 : BitVec 12)) (runs 768 []).host.running =
      some (running 768 [])) ∧ (running 768 []).opcode ∈ [513, 514, 768, 2049]) ∧
    ((runs 1536 i2cPay).awake = true ∧ (List.find? (fun x => x.req.tag == (4095 : BitVec 12)) (runs 1536
      i2cPay).host.running = some (running 1536 i2cPay)) ∧ (running 1536 i2cPay).opcode = 1536 ∧ (runs 1536
      i2cPay).i2cFirst (running 1536 i2cPay) = true ∧ i2cRead.length = leAt (running 1536 i2cPay).req.payload 4 2 ∧
      locDiff (runs 1536 i2cPay).loc (running 1536 i2cPay).took ≤ 50000000) ∧
    (fwRuns.awake = true ∧ (List.find? (fun x => x.req.tag == (4095 : BitVec 12)) fwRuns.host.running = some (running
      2052 (leBytes 4 0))) ∧ (running 2052 (leBytes 4 0)).opcode = 2052) ∧
    (BitVec.toNat (running 768 []).req.src = (runs 768 []).addr ∧ (runs 768 []).host.replies.length < 256) :=
  by
  refine ⟨?_, ?_, ?_, ?_, ?_, ?_, ?_, ?_, ?_, ?_, ?_, ?_, ?_, ?_, ?_, ?_, ?_, ?_, ?_⟩ <;> decide +kernel

/-- States and operands that meet the hypotheses of `Obligations.PowerDomainEvents`, one part for each of its clauses. -/
theorem witness_PowerDomainEvents :
    (43 < 44 ∧ (enteringRet.pdom 43).move = some toRetGo ∧ toRetGo.goal ≠ PwrState.on ∧ toRetGo.committed = false ∧
      enteringRet.domOff 43 = false ∧ enteringRet.domBusy 43 = false ∧ enteringRet.restarting = false ∧ toRetGo.goal =
      PwrState.ret) ∧
    (43 < 44 ∧ (entering.pdom 43).move = some toOff ∧ toOff.goal ≠ PwrState.on ∧ toOff.committed = false ∧
      entering.domOff 43 = false ∧ entering.domBusy 43 = false ∧ entering.restarting = false ∧ toOff.goal = PwrState.off
      ∧ (43 < 32 → 43 % 4 = 3 → entering.queueIn (43 / 4 : Nat) = false)) ∧
    (31 < 44 ∧ (enteringHeld.pdom 31).move = some toOff ∧ toOff.goal ≠ PwrState.on ∧ toOff.committed = false ∧
      enteringHeld.domOff 31 = false ∧ enteringHeld.domBusy 31 = false ∧ enteringHeld.restarting = false ∧ toOff.goal =
      PwrState.off ∧ 31 < 32 ∧ 31 % 4 = 3 ∧ enteringHeld.queueIn (31 / 4 : Nat) = true ∧ enteringHeld.canonical) ∧
    (43 < 44 ∧ (entering.pdom 43).move = some toOff ∧ toOff.goal ≠ PwrState.on ∧ toOff.committed = false ∧ domainOf 4 0 =
      some 43 ∧ entering.mayRefuse 43 4 = true ∧ entering.restarting = false) ∧
    (43 < 44 ∧ (entering.pdom 43).move = some toOff ∧ toOff.goal ≠ PwrState.on ∧ toOff.committed = false ∧
      (¬(((entering.endEntry 43).pdom 43).st = PwrState.ret ∧ ((entering.endEntry 43).pdom 43).move = none))) ∧
    (28 < 44 ∧ (pendRet.pdom 28).move = some toRetGo ∧ toRetGo.goal ≠ PwrState.on ∧ toRetGo.committed = false ∧
      ((pendRet.endEntry 28).pdom 28).st = PwrState.ret ∧ ((pendRet.endEntry 28).pdom 28).move = none) ∧
    (28 < 44 ∧ (committedRet.pdom 28).move = some toRet ∧ toRet.goal ≠ PwrState.on ∧ toRet.committed = true) ∧
    (28 < 44 ∧ (inRet.pdom 28).move = none ∧ (inRet.pdom 28).st = PwrState.ret ∧ inRet.canonical) ∧
    (28 < 44 ∧ (held20.pdom 28).retry = some 0 ∧ (held20.pdom 28).move = none ∧ (held20.pdom 28).target ≠ PwrState.on ∧
      held20.restarting = false ∧ held20.fld (pwId 28 0) 0 16 * 1000 ≤ locDiff held20.loc 0) ∧
    (28 < 44 ∧ (waking.pdom 28).move = some toOn ∧ (toOn.goal = PwrState.on ∨ toOn.committed = true) ∧ toOn.goal =
      PwrState.on) ∧
    (28 < 44 ∧ (enteredRet.pdom 28).move = some toRet ∧ (toRet.goal = PwrState.on ∨ toRet.committed = true) ∧ toRet.goal
      ≠ PwrState.on) ∧
    (28 < 44 ∧ (enteredRet.pdom 28).move = some toRet ∧ (toRet.goal = PwrState.on ∨ toRet.committed = true)) :=
  by
  refine ⟨?_, ?_, ?_, ?_, ?_, ?_, ?_, ?_, ?_, ?_, ?_, ?_⟩ <;> (try simp only [canonical_iff]) <;> decide +kernel

/-- States and operands that meet the hypotheses of `Obligations.RegionFaults`, one part for each of its clauses. -/
theorem witness_RegionFaults :
    (up.running = true ∧ inRange 1 24 rep1.block = true ∧ (rep1.block = 5 → rep1.inst < 136) ∧ (¬(rep1.block = 16 ∧
      rep1.code = 3))) ∧
    (up.running = true ∧ inRange 1 24 rep5.block = true ∧ (rep5.block = 5 → rep5.inst < 136) ∧ (¬(rep5.block = 16 ∧
      rep5.code = 3))) ∧
    (up.running = true ∧ inRange 1 24 rep5.block = true ∧ (rep5.block = 5 → rep5.inst < 136) ∧ rep5.block = 5 ∧ rep5.inst
      < 128) ∧
    (queueClaims.running = true ∧ inRange 1 24 repQ.block = true ∧ (repQ.block = 5 → repQ.inst < 136) ∧ repQ.block = 16 ∧
      repQ.code = 3) ∧
    (up.running = true ∧ inRange 1 24 rep0A.block = true ∧ (rep0A.block = 5 → rep0A.inst < 136) ∧ rep0A.code ≠ 1 ∧
      (rep0A.block ≠ 5 ∨ 128 ≤ rep0A.inst)) ∧
    (up.running = true ∧ inRange 1 24 rep6.block = true ∧ (rep6.block = 5 → rep6.inst < 136) ∧ rep6.code = 1 ∧ rep6.block
      = 6) ∧
    (up.running = true ∧ inRange 1 24 repC.block = true ∧ (repC.block = 5 → repC.inst < 136) ∧ repC.code = 1 ∧ repC.block
      = 16) ∧
    (7 < 8 ∧ up.running = true) ∧
    (7 < 8 ∧ stepLate.running = true ∧ stepLate.pos.cur.isSome = true ∧ stepLate.runs 7 = true ∧ (∃ b < 16,
      (stepLate.block (16 * 7 + b)).finished = false) ∧ stepLate.fld (pid 1 0 304) 0 16 * 1000 ≤ locDiff stepLate.loc
      stepLate.pos.stepAt) ∧
    (7 < 8 ∧ up.awake = true) ∧
    (7 < 8 ∧ (failed7.region 7 = 2 ∨ 7 ∈ failed7.mgmt.power.failing)) ∧
    (99 < 100 ∧ up.running = true ∧ up.clockLock 99 = true) ∧
    (31 < 100 ∧ up.running = true ∧ up.clockLock 31 = true) ∧
    (93 < 100 ∧ up.running = true ∧ up.clockLock 93 = true) ∧
    (failed7.mgmt.fault.failed = some (7, 0, true) ∧ failed7.awake = true ∧ failed7.armed = true ∧ failed7.bitAt (pid 1 0
      304) 16 = true ∧ failed7.region 7 = 2 ∧ failed7.mgmt.fault.retest = none ∧ 1000000000 ≤ locDiff failed7.loc 0) ∧
    (testing7.mgmt.fault.retest = some 7 ∧ testing7.awake = true ∧ (List.map (fun x => x.code) passed7 = regionCodes 7) ∧
      failedOf passed7 = []) ∧
    (testing7.mgmt.fault.retest = some 7 ∧ testing7.awake = true ∧ (List.map (fun x => x.code) fails7 = regionCodes 7) ∧
      failedOf fails7 ≠ []) :=
  by
  refine ⟨?_, ?_, ?_, ?_, ?_, ?_, ?_, ?_, ?_, ?_, ?_, ?_, ?_, ?_, ?_, ?_, ?_⟩ <;> decide +kernel

/-- States and operands that meet the hypotheses of `Obligations.MonitorsAndSensors`, one part for each of its clauses. -/
theorem witness_MonitorsAndSensors :
    (up.canonical ∧ up.running = true ∧ up.snapDue = true ∧ up.bitAt (pid 21 64 0) 16 = false) ∧
    (snapAfter.canonical ∧ snapAfter.running = true ∧ snapAfter.snapDue = true ∧ snapAfter.bitAt (pid 21 64 0) 16 =
      false) ∧
    ((snapAfter.setFld (pid 21 0 0) 0 8 6).canonical ∧ 0 < 64 ∧ (snapAfter.setFld (pid 21 0 0) 0 8 6).running = true ∧
      (snapAfter.setFld (pid 21 0 0) 0 8 6).tickDue 0 = true ∧ (snapAfter.setFld (pid 21 0 0) 0 8 6).fld (pid 21 0 0) 0 8
      = 6) ∧
    ((mon 3).canonical ∧ 63 < 64 ∧ (mon 3).running = true ∧ (mon 3).tickDue 63 = true ∧ (mon 3).fld (pid 21 63 0) 0 8 =
      3) ∧
    ((mon 6).canonical ∧ 63 < 64 ∧ (mon 6).running = true ∧ (mon 6).tickDue 63 = true ∧ (mon 6).fld (pid 21 63 0) 0 8 =
      6) ∧
    ((mon 10).canonical ∧ 63 < 64 ∧ (mon 10).running = true ∧ (mon 10).tickDue 63 = true ∧ (mon 10).fld (pid 21 63 0) 0 8
      = 10) ∧
    (up.canonical ∧ 7 < 8 ∧ up.powered = true ∧ up.mgmt.fault.fatal = none ∧ up.mgmt.fault.thermalHold = false ∧
      BitVec.toInt (1000 : BitVec 16) ≤ (tempLimits 7).2.1 * (16 : Int)) ∧
    (up.canonical ∧ 7 < 8 ∧ up.powered = true ∧ up.mgmt.fault.fatal = none ∧ up.mgmt.fault.thermalHold = false ∧
      (tempLimits 7).2.1 * (16 : Int) < BitVec.toInt (32767 : BitVec 16)) ∧
    (up.canonical ∧ 12 < 13 ∧ up.powered = true ∧ up.mgmt.fault.fatal = none ∧ (railGood 12 (BitVec.toNat (0 : BitVec
      16)) = true ∨ true = false ∨ 12 = 0 ∨ 9 ≤ 12)) ∧
    (up.canonical ∧ 8 < 13 ∧ up.powered = true ∧ up.mgmt.fault.fatal = none ∧ railGood 8 (BitVec.toNat (0 : BitVec 16)) =
      false ∧ true = true ∧ 1 ≤ 8 ∧ 8 ≤ 8) ∧
    (trip1.canonical ∧ 3 < 4 ∧ trip1.powered = true ∧ trip1.bitAt camId 3 = true) ∧
    (noLock.canonical ∧ 1 < 2 ∧ noLock.running = true ∧ noLock.domOn (40 + 1) = true ∧ noLock.bitAt (pid 19 1 0) 0 =
      true) ∧
    (ethUp.canonical ∧ 1 < 2 ∧ ethUp.running = true ∧ ethUp.bitAt (pid 19 1 1) 0 = true) ∧
    (ethUp.canonical ∧ 1 < 2 ∧ ethUp.running = true ∧ ethUp.portUp 1 = true) :=
  by
  refine ⟨?_, ?_, ?_, ?_, ?_, ?_, ?_, ?_, ?_, ?_, ?_, ?_, ?_, ?_⟩ <;> (simp only [canonical_iff]; decide +kernel)
/-! ### Witnesses whose last hypothesis is an open value

A commit, a swap and an activation succeed when signatures verify under the keys that the chip holds and the toolchain's sections
spell something; the spec states neither those keys nor that layout (log 53, log 54), so each theorem supposes one such outcome
and shows the rest. -/

/-- A model image of a footprint, with one NEEDS section of T = 100 and SLOT = 100, its other sections empty. -/
def imageHead (footprint : Nat) : List Byte :=
  leBytes 4 0x1A474649 ++ leBytes 2 2 ++ leBytes 2 5 ++ leBytes 8 2352 ++ leBytes 8 footprint ++ leBytes 2 0 ++ leBytes 2 1 ++
    List.replicate 36 0 ++ (leBytes 4 1 ++ leBytes 4 160 ++ leBytes 8 144) ++
    ([2, 3, 4, 5].flatMap fun k => leBytes 4 k ++ leBytes 4 0 ++ leBytes 8 304) ++ (List.replicate 4 0 ++ leBytes 4 100 ++
    leBytes 4 0 ++ leBytes 4 100)
def signed (kind : Nat) : List Byte := leBytes 4 0x4B474953 ++ leBytes 2 1 ++ leBytes 1 kind
def stagedImage : Staged := ⟨0, 2352, true, true⟩
/-- The image with its empty sections and its signature block. -/
def imageBytes (footprint : Nat) : List Byte := imageHead footprint ++ List.replicate 144 0 ++ (signed 0 ++ List.replicate 2041 0)
theorem firstBad_none {l : List (Bool × Nat)} (h : ∀ e ∈ l, e.1 = true) : firstBad l = none := by
  induction l with
  | nil => rfl
  | cons e l ih =>
    obtain ⟨ok, off⟩ := e
    have h1 : ok = true := h _ (List.mem_cons_self ..)
    subst h1
    exact ih fun e he => h e (List.mem_cons_of_mem _ he)

theorem leAt_zeros (bs : List Byte) (m off n : Nat) (h : bs.length ≤ off) : leAt (bs ++ List.replicate m 0) off n = 0 := by
  have : ∀ k, ofLe (List.replicate k (0 : Byte)) = 0 := by
    intro k
    induction k with
    | zero => rfl
    | succ k ih => rw [List.replicate_succ, ofLe, ih]; rfl
  rw [leAt, List.drop_append, List.drop_eq_nil_of_le h, List.nil_append, List.drop_replicate, List.take_replicate, this]

/-- A signature block with no reserved byte set. -/
theorem sigBad_signed (kind : Nat) (h : kind < 2) (bs : List Byte) :
    sigBad kind (bs ++ (signed kind ++ List.replicate 2041 0)) = none := by
  have hl : (bs ++ (signed kind ++ List.replicate 2041 0)).length = bs.length + 2048 := by
    rw [List.length_append, List.length_append, List.length_replicate]; rfl
  have hb : sigBlock (bs ++ (signed kind ++ List.replicate 2041 0)) = signed kind ++ List.replicate 2041 0 := by
    rw [sigBlock, hl, Nat.add_sub_cancel, List.drop_left]
  have fields : ∀ k : Fin 2, leAt (signed k ++ List.replicate 2041 0) 0 4 = 0x4B474953 ∧
      leAt (signed k ++ List.replicate 2041 0) 4 2 = 1 ∧ leAt (signed k ++ List.replicate 2041 0) 6 1 = k ∧
      leAt (signed k ++ List.replicate 2041 0) 8 1 = 0 ∧ decide (leAt (signed k ++ List.replicate 2041 0) 9 1 < 16) = true := by
    decide +kernel
  apply firstBad_none
  rw [hb, hl]
  intro e he
  rcases List.mem_append.1 he with he | he
  · rcases List.mem_append.1 he with he | he
    · obtain ⟨h1, h2, h3, h4, h5⟩ := fields ⟨kind, h⟩
      dsimp only at h1 h2 h3 h4 h5
      simp only [h1, h2, h3, h4, List.mem_cons, List.not_mem_nil, or_false] at he
      rcases he with rfl | rfl | rfl | rfl | rfl
      · simp
      · rfl
      · simp
      · simp
      · exact h5
    · obtain ⟨i, -, rfl⟩ := List.mem_map.1 he
      dsimp only
      rw [leAt_zeros _ _ _ _ (by simp [signed, leBytes]; omega)]; rfl
  · obtain ⟨i, -, rfl⟩ := List.mem_map.1 he
    dsimp only
    rw [leAt_zeros _ _ _ _ (by simp [signed, leBytes]; omega)]; rfl
/-- A staged image whose bytes lie in the staging area. -/
def stage (s : State) (x : Staged) (bs : List Byte) : State :=
  { s.onModel fun m => { m with staged := some x } with mem := (s.writeBytes stagingBase bs).mem }

theorem stage_bytes {s : State} (h : Memory.wf s.mem = true) (x : Staged) (bs : List Byte) (hl : bs.length = x.length) :
    (stage s x bs).stagedBytes x = bs := by
  have := State.readBytes_writeBytes h stagingBase bs
  rw [hl] at this
  exact this

def imageIn (s : State) (footprint : Nat) : State := stage s stagedImage (imageBytes footprint)
def imaged : State := imageIn up 4096
def imagedBig : State := imageIn up (2 ^ 34)
def imagedLine : State := imageIn service 4096
def imagedSet : State := imageIn { service with rtr := { service.rtr with nextSet := 1 } } 4096

theorem imageIn_staged (s : State) (h : Memory.wf s.mem = true) (f : Nat) (hf : f = 4096 ∨ f = 2 ^ 34) :
    (imageIn s f).stagedBytes stagedImage = imageBytes f :=
  stage_bytes h stagedImage _ (by rcases hf with rfl | rfl <;> decide +kernel)

/-- The NEEDS section of the image, whatever its footprint. -/
def needs1 : List Byte := (imageBytes 4096).drop 144 |>.take 160
def emptyPlan : Plan × List (Nat × Plan) := (⟨[], none, []⟩, [])

/-- An image of one member with a NEEDS section `nb`, its other required sections empty, is accepted when its checks pass. -/
theorem checkImage_of (s : State) (table : Option (List Byte)) (img nb : List Byte) (ht : table.all (payloadFits 1) = true)
    (hb : Config.blocksOf [] = some []) (hu : Config.subsOf [] = some []) (hp : Config.planOf [] [] = some emptyPlan)
    (hs : s.imageSigned 0 img = true) (h0 : sigBad 0 img = none) (h1 : firstBad (headerChecks img) = none)
    (h2 : firstBad (tableChecks img) = none) (hm : membersOf img = 1) (s1 : sectionAt img 1 = some (0, nb))
    (s2 : sectionAt img 2 = some (1, [])) (s3 : sectionAt img 3 = some (2, [])) (s4 : sectionAt img 4 = some (3, []))
    (s5 : sectionAt img 5 = some (4, [])) (s6 : sectionAt img 6 = none) (s7 : sectionAt img 7 = none)
    (hn : firstBad (needsChecks nb) = none) (hl : (needsOf nb).lregions = 0) :
    ∃ m o, s.checkImage img table = .ok (m, o) ∧ m.needs = needsOf nb ∧ m.members = 1 ∧ m.footprint = leAt img 16 8 ∧
      o = outcomeOf (needsOf nb) (leAt img 16 8) s.compat ∧ m.slotHold = o.slotHold := by
  have hpu : s.probUsed 0 [] = false := by simp [State.probUsed, upTo, bitOf]
  have hlb : loadBlocks [] = some [] := by simp [loadBlocks, hb]
  have hls : loadSubs [] = some [] := by simp [loadSubs, hu]
  have hlp : s.loadPlan img (needsOf nb) (paramsOf []) [] = some emptyPlan := by
    simp only [State.loadPlan, s5, Option.map_some, Option.getD_some, hp, hl]
    rw [show paramsOf [] = [] from rfl, hpu]
    rfl
  have hpt : firstBad [(table.all (payloadFits 1), 0)] = none := by rw [ht]; rfl
  simp only [State.checkImage, h0, hs, Bool.not_true, Bool.false_eq_true, if_false, partChecks, h1, h2, hpt, hm, if_true,
    State.readModel, sectionPass, sectionRead, s1, s2, s3, s4, s6, s7, hn, hlb, hls, hlp, Option.map_none, Option.getD_none,
    Except.ok.injEq, Prod.mk.injEq]
  exact ⟨_, _, ⟨rfl, rfl⟩, rfl, rfl, rfl, rfl, rfl⟩

/-- The image is accepted wherever it is staged. -/
theorem checkImage_ok (s : State) (f : Nat) (table : Option (List Byte)) (ht : table.all (payloadFits 1) = true)
    (hf : f = 4096 ∨ f = 2 ^ 34) (hb : Config.blocksOf [] = some []) (hu : Config.subsOf [] = some [])
    (hp : Config.planOf [] [] = some emptyPlan) (hs : s.imageSigned 0 (imageBytes f) = true) :
    ∃ m o, s.checkImage (imageBytes f) table = .ok (m, o) ∧ m.needs = needsOf needs1 ∧ m.members = 1 ∧
      m.footprint = f ∧ o = outcomeOf (needsOf needs1) f s.compat ∧ m.slotHold = o.slotHold := by
  have hl : leAt (imageBytes f) 16 8 = f := by rcases hf with rfl | rfl <;> decide +kernel
  have hm : membersOf (imageBytes f) = 1 := by rcases hf with rfl | rfl <;> decide +kernel
  obtain ⟨m, o, h⟩ := checkImage_of s table (imageBytes f) needs1 ht hb hu hp hs (sigBad_signed 0 (by decide) _)
    (by rcases hf with rfl | rfl <;> decide +kernel) (by rcases hf with rfl | rfl <;> decide +kernel)
    (by rcases hf with rfl | rfl <;> decide +kernel) (by rcases hf with rfl | rfl <;> decide +kernel)
    (by rcases hf with rfl | rfl <;> decide +kernel) (by rcases hf with rfl | rfl <;> decide +kernel)
    (by rcases hf with rfl | rfl <;> decide +kernel) (by rcases hf with rfl | rfl <;> decide +kernel)
    (by rcases hf with rfl | rfl <;> decide +kernel) (by rcases hf with rfl | rfl <;> decide +kernel)
    (by decide +kernel) (by decide +kernel)
  rw [hl] at h
  exact ⟨m, o, h⟩

theorem taken_signed (s : State) (op : Nat) (r : Req) (k : Nat) (b : List Byte) :
    (s.taken op r).imageSigned k b = s.imageSigned k b := rfl

theorem taken_bytes (s : State) (op : Nat) (r : Req) (x : Staged) : (s.taken op r).stagedBytes x = s.stagedBytes x := rfl

theorem imageClaims_none (s : State) (n : Needs) (h : n.lregions = 0) (gs : List Nat) : s.imageClaims n gs = .ok s := by
  induction gs with
  | nil => rfl
  | cons g gs ih => simp [State.imageClaims, State.imageClaim, h, bitOf, ih]

/-- The commit clauses of `Obligations.ModelImageCommands`: an image installed, and one refused for CAPACITY. -/
theorem witness_ModelImageCommands_commit (hb : Config.blocksOf [] = some []) (hu : Config.subsOf [] = some [])
    (hp : Config.planOf [] [] = some emptyPlan) (hs : imaged.imageSigned 0 (imageBytes 4096) = true)
    (hs' : imagedBig.imageSigned 0 (imageBytes (2 ^ 34)) = true) :
    (imaged.accepts 0x0201 (askOf 0) = true ∧ imagedBig.accepts 0x0201 (askOf 0) = true ∧
      selectorOf (askOf 0).payload = some 0) ∧
    (∃ m o t, (imaged.taken 0x0201 (askOf 0)).checkModel (some (askOf 0).payload) = .ok (m, o) ∧
      (imaged.taken 0x0201 (askOf 0)).claimModel m o = .ok t) ∧
    (∃ m o, (imagedBig.taken 0x0201 (askOf 0)).checkModel (some (askOf 0).payload) = .ok (m, o) ∧
      (imagedBig.taken 0x0201 (askOf 0)).claimModel m o = .error (.capacity, o.bytes)) := by
  refine ⟨⟨by decide +kernel, by decide +kernel, by decide +kernel⟩, ?_, ?_⟩
  · have hx : (imaged.taken 0x0201 (askOf 0)).stagedModel = some stagedImage := by decide +kernel
    obtain ⟨m, o, h, hn, -, -, ho, -⟩ := checkImage_ok (imaged.taken 0x0201 (askOf 0)) 4096 (some (askOf 0).payload) (by decide +kernel) (.inl rfl) hb hu
      hp (by rw [taken_signed]; exact hs)
    have hk : (outcomeOf (needsOf needs1) 4096 (imaged.taken 0x0201 (askOf 0)).compat).status = .ok := by decide +kernel
    have hl : (needsOf needs1).lregions = 0 := by decide +kernel
    refine ⟨m, o, (imaged.taken 0x0201 (askOf 0)).dropImageClaims, ?_, ?_⟩
    · rw [State.checkModel, hx]
      dsimp only
      rw [taken_bytes, imaged, imageIn_staged _ (by decide) _ (.inl rfl)]
      exact h
    · rw [State.claimModel, ho, hk, hn, imageClaims_none _ _ hl]; rfl
  · have hx : (imagedBig.taken 0x0201 (askOf 0)).stagedModel = some stagedImage := by decide +kernel
    obtain ⟨m, o, h, -, -, -, ho, -⟩ := checkImage_ok (imagedBig.taken 0x0201 (askOf 0)) (2 ^ 34) (some (askOf 0).payload) (by decide +kernel) (.inr rfl)
      hb hu hp (by rw [taken_signed]; exact hs')
    have hk : (outcomeOf (needsOf needs1) (2 ^ 34) (imagedBig.taken 0x0201 (askOf 0)).compat).status = .capacity := by
      decide +kernel
    refine ⟨m, o, ?_, ?_⟩
    · rw [State.checkModel, hx]
      dsimp only
      rw [taken_bytes, imagedBig, imageIn_staged _ (by decide) _ (.inr rfl)]
      exact h
    · rw [State.claimModel, ho, hk]; rfl

/-- The swap clauses of `Obligations.ModelImageCommands`: an image accepted, and one while a translation set waits. -/
theorem witness_ModelImageCommands_swap (hb : Config.blocksOf [] = some []) (hu : Config.subsOf [] = some [])
    (hp : Config.planOf [] [] = some emptyPlan) (hs : imagedLine.imageSigned 0 (imageBytes 4096) = true)
    (hs' : imagedSet.imageSigned 0 (imageBytes 4096) = true) :
    (imagedLine.accepts 0x0205 swapReq = true ∧ imagedSet.accepts 0x0205 swapReq = true ∧ swapReq.payload.length = 10 ∧
      selectorOf swapReq.payload = some 0 ∧ imagedLine.swapping = false ∧ imagedSet.swapping = false) ∧
    (∃ m o, (imagedLine.taken 0x0205 swapReq).checkModel none = .ok (m, o) ∧
      (imagedLine.taken 0x0205 swapReq).swapRefuses m o = none) ∧
    (∃ m o, (imagedSet.taken 0x0205 swapReq).checkModel none = .ok (m, o) ∧
      (imagedSet.taken 0x0205 swapReq).swapRefuses m o = some (.wrongState, [])) := by
  refine ⟨⟨by decide +kernel, by decide +kernel, by decide +kernel, by decide +kernel, by decide +kernel, by decide +kernel⟩,
    ?_, ?_⟩
  · have hy : (imagedLine.taken 0x0205 swapReq).stagedModel = some stagedImage := by decide +kernel
    obtain ⟨m, o, h, hn, hm, hf, ho, hl⟩ := checkImage_ok (imagedLine.taken 0x0205 swapReq) 4096 none rfl (.inl rfl) hb hu
      hp (by rw [taken_signed]; exact hs)
    refine ⟨m, o, ?_, ?_⟩
    · rw [State.checkModel, hy]
      dsimp only
      rw [taken_bytes, imagedLine, imageIn_staged _ (by decide) _ (.inl rfl)]
      exact h
    · have key : (imagedLine.taken 0x0205 swapReq).swapRefuses
          { model1 with
            needs := needsOf needs1, members := 1, footprint := 4096,
            slotHold := (outcomeOf (needsOf needs1) 4096 (imagedLine.taken 0x0205 swapReq).compat).slotHold }
          (outcomeOf (needsOf needs1) 4096 (imagedLine.taken 0x0205 swapReq).compat) = none := by
        decide +kernel
      rw [← key, ← ho]
      simp only [State.swapRefuses, hn, hm, hf, hl]
  · have hx : (imagedSet.taken 0x0205 swapReq).stagedModel = some stagedImage := by decide +kernel
    obtain ⟨m, o, h, hn, hm, hf, ho, hl⟩ := checkImage_ok (imagedSet.taken 0x0205 swapReq) 4096 none rfl (.inl rfl) hb hu
      hp (by rw [taken_signed]; exact hs')
    refine ⟨m, o, ?_, ?_⟩
    · rw [State.checkModel, hx]
      dsimp only
      rw [taken_bytes, imagedSet, imageIn_staged _ (by decide) _ (.inl rfl)]
      exact h
    · have key : (imagedSet.taken 0x0205 swapReq).swapRefuses
          { model1 with
            needs := needsOf needs1, members := 1, footprint := 4096,
            slotHold := (outcomeOf (needsOf needs1) 4096 (imagedSet.taken 0x0205 swapReq).compat).slotHold }
          (outcomeOf (needsOf needs1) 4096 (imagedSet.taken 0x0205 swapReq).compat) = some (.wrongState, []) := by
        decide +kernel
      rw [← key, ← ho]
      simp only [State.swapRefuses, hn, hm, hf, hl]

/-- Owner keys: the base point of P-384 and an LMS key of R442's types, its identifier and root zeros. -/
def goodKeys : List Byte :=
  (leBytes 48 p384Base.1).reverse ++ (leBytes 48 p384Base.2).reverse ++ [0, 0, 0, 8, 0, 0, 0, 4] ++ List.replicate 48 0

/-- A LIFECYCLE_SET to DEPLOYED in PRODUCTION, its NONCE the one drawn. -/
def deployed : State := up.onSec fun x => { x with lc := 1 }
def lifeReq : Req := reqOf (leBytes 1 2 ++ leBytes 3 0 ++ deployed.nonce ++ goodKeys)

/-- The clause of `Obligations.LongCommandsAndTheirReplies` that changes the life cycle. -/
theorem witness_LongCommandsAndTheirReplies_lifecycle :
    deployed.accepts 0x0803 lifeReq = true ∧ deployed.lifeRefuses lifeReq.payload = none := by
  have hn : deployed.nonce.length = 32 := by simp [State.nonce, padTo]; omega
  have hg : goodKeys.length = 152 := by decide +kernel
  have hk : ownerKeysValid goodKeys = true := by decide +kernel
  have hl : lifeReq.payload.length = 188 := by simp [lifeReq, reqOf, hn, leBytes, hg]
  have hp : lifeReq.payload = 2 :: 0 :: 0 :: 0 :: (deployed.nonce ++ goodKeys) := by
    simp [lifeReq, reqOf, leBytes]
  have h1 : (lifeReq.payload.drop 4).take 32 = deployed.nonce := by
    rw [hp]; simp [← hn]
  have h2 : lifeReq.payload.drop 36 = goodKeys := by
    rw [hp]; simp [← hn]
  have h3 : leAt lifeReq.payload 0 1 = 2 := by rw [hp]; rfl
  have h4 : leAt lifeReq.payload 1 3 = 0 := by rw [hp]; rfl
  refine ⟨by decide +kernel, ?_⟩
  simp only [State.lifeRefuses, h1, h2, h3, h4, hl, hk, bne_self_eq_false]
  decide +kernel

/-- A firmware image of 2,048 bytes. -/
def fwBytes : List Byte := signed 1 ++ List.replicate 2041 0
def fwStaged : State := stage State.reset ⟨1, 2048, true, true⟩ fwBytes

theorem fwStaged_firmware : fwStaged.stagedFirmware = some fwBytes :=
  congrArg some (stage_bytes (s := State.reset) (by decide) ⟨1, 2048, true, true⟩ fwBytes (by decide +kernel))

/-- The clause of `Obligations.LongCommandsAndTheirReplies` that starts an activation. -/
theorem witness_LongCommandsAndTheirReplies_firmware (hs : fwStaged.imageSigned 1 fwBytes = true) :
    fwStaged.accepts 0x0804 (askOf 0) = true ∧ (askOf 0).payload.length = 4 ∧ selectorOf (askOf 0).payload = some 0 ∧
      fwStaged.stagedFirmware = some fwBytes ∧ fwStaged.firmwareRefuses fwBytes = none := by
  refine ⟨by decide +kernel, by decide +kernel, by decide +kernel, fwStaged_firmware, ?_⟩
  have h0 : sigBad 1 fwBytes = none := sigBad_signed 1 (by decide) []
  have hl : decide (4 * 1048576 < fwBytes.length) = false := by decide +kernel
  have h1 : bitOf (leAt (sigBlock fwBytes) 9 1) (leAt (sigBlock fwBytes) 7 1) = false := by decide +kernel
  simp only [State.firmwareRefuses, firmwareCopy, h0, hl, hs, h1, Bool.not_true, Option.isSome_none, Bool.or_self]
  decide +kernel

/-- The region, state and walk of a scrub read at the last bank of a module whose domains are all ON: whatever unit the bank
belongs to, it is read (the unit is free, log 63). -/
theorem witness_FatalErrorsAndRestarts_scrub :
    scrub0.running = true ∧ scrub0.bankOn 1535 = true ∧ Sparse.get (fun _ => 0) scrub0.mgmt.fault.scrub 1535 = 8191 := by
  refine ⟨by decide +kernel, ?_, by decide +kernel⟩
  have h : ∀ o : Option Nat, o.all scrub0.domOn = true := by rintro (_ | d) <;> rfl
  exact h _

/-- A locked-out input, for which one of the two clauses on VIN_OUT_OF_RANGE holds, whichever value is drawn. -/
theorem witness_InputPowerSequence_lockedOut :
    (supplied .lockedOut).mgmt.board.supply = .lockedOut ∧
      (Config.vinRemoved (supplied .lockedOut).free = true ∨ Config.vinRemoved (supplied .lockedOut).free = false) :=
  ⟨rfl, by cases Config.vinRemoved (supplied .lockedOut).free <;> simp⟩
/-- The second copy of the firmware when only it verifies (R443). -/
theorem witness_StartUpSequence_otherCopy :
    boot3.copyAccepted boot3.mgmt.sec.preferred false = false ∧
      boot3.copyAccepted (1 - boot3.mgmt.sec.preferred) true = true := by
  decide +kernel

/-- A region node whose SRAM is full (R174). -/
def fullNode : State := eval1.onNode 7 fun n => { n with sram := List.replicate 32768 held1 }

/-- The spill clause of `Obligations.EventsAreHeldInOrder`. -/
theorem witness_EventsAreHeldInOrder_spill :
    fullNode.regionAsync 7 = false ∧ held2.pending = false ∧ fullNode.curSsn.map (· % 65536) ≠ some 2 ∧
      32768 ≤ (fullNode.node 7).sram.length ∧ (fullNode.node 7).spill.length < 8388608 := by
  decide +kernel

/-! ### Ill-formed commands -/

def longReq : Req := reqOf (List.replicate 4077 0)
def fitFlit : SpokeFlit := freshFlit 0 2 5 9 []
def slice1 : SliceResult := ⟨1, 0, 10, 0⟩

/-- Units past the last one (R17, R158, R278, R295, R306, R312). -/
theorem test_wf_units :
    (Instr.blockInputComplete 8 0).wf = false ∧ (Instr.blockInputComplete 0 16).wf = false ∧
    (Instr.trackerStepProcess 8).wf = false ∧ (Instr.flitEventsRx 11 false .clean ecc7).wf = false ∧
    (Instr.flitStepEndRx 11 true ecc2 ecc2 ecc4).wf = false ∧ (Instr.flitControlRx (11, false) (.clean :: ecc7) none).wf = false ∧
    (Instr.camSyncPulse 4).wf = false ∧ (Instr.refractSweep 4 0).wf = false ∧ (Instr.refractSweep 0 131072).wf = false ∧
    (Instr.fmtDescriptorWrite 0 8 0 0).wf = false ∧ (Instr.fmtDescriptorWrite 0 0 8 0).wf = false ∧
    (Instr.frameLaunch 2).wf = false ∧ (Instr.ptpDelayReqSend 0 2).wf = false ∧ (Instr.ptpReceiptTimeout 2 true).wf = false ∧
    (Instr.tcuCapture 16 ⟨false, 0⟩).wf = false ∧ (Instr.fusionForceWrite 0 32 0).wf = false ∧ (Instr.tileReady 0 256).wf = false ∧
    (Instr.quernModeSwitch 0 3).wf = false ∧ (Instr.stripeStart 0 4).wf = false ∧ (Instr.boxDecodeDone ⟨1, .good⟩).wf = false ∧
    (Instr.frameBuild 8).wf = false ∧ (Instr.auxStuck 16 []).wf = false ∧ (Instr.auxfiltCfgWrite 17 0).wf = false ∧
    (Instr.queueEnableWrite 4096 0).wf = false ∧ (Instr.syncobjSet 12288).wf = false ∧ (Instr.checkvalStart 16 0).wf = false ∧
    (Instr.sdioCmd52 false false 8 0 0).wf = false ∧ (Instr.monitorCfgWrite 65 0 0).wf = false ∧
    (Instr.powerAccessWake 44).wf = false ∧ (Instr.clockLockLoss 100).wf = false ∧
    (Instr.scrubAccess 1536 .clean false).wf = false ∧ (Instr.patrolScrub 7 .clean).wf = false ∧
    (Instr.tempSample 8 0).wf = false ∧ (Instr.railSample 13 0 false).wf = false ∧
    (Instr.servoEnableWrite (some 2) 0).wf = false ∧ (Instr.monitorSampleTick 64 0).wf = false ∧
    (Instr.blockErrorReport ⟨0, 0, 1, 0⟩).wf = false ∧ (Instr.blockErrorReport ⟨25, 0, 1, 0⟩).wf = false ∧
    (Instr.blockErrorReport ⟨5, 136, 1, 0⟩).wf = false := by
  decide

/-- Operands that do not fit the fields that carry them (R79, R92, R94, R301, R320, R322, R326, R347, R353, R369, R423, R453). -/
theorem test_wf_operands :
    (Instr.echo longReq).wf = false ∧ (Instr.linkRx 0 { fitFlit with vc := 4 }).wf = false ∧
    (Instr.linkRx 0 { fitFlit with mtype := 8 }).wf = false ∧ (Instr.linkRx 0 { fitFlit with credVc := 4 }).wf = false ∧
    (Instr.linkRx 0 { fitFlit with credN := 32 }).wf = false ∧ (Instr.linkRx 0 { fitFlit with hops := 256 }).wf = false ∧
    (Instr.linkRx 0 { fitFlit with payload := [] }).wf = false ∧
    (Instr.csi2PacketRx 0 { packet with vc := 16 }).wf = false ∧ (Instr.csi2PacketRx 0 { packet with dt := 64 }).wf = false ∧
    (Instr.ptpSyncRx 0 { ptp with domain := 256 }).wf = false ∧ (Instr.ptpSyncRx 0 { ptp with seq := 65536 }).wf = false ∧
    (Instr.ptpSyncRx 0 { ptp with portNo := 65536 }).wf = false ∧
    (Instr.bootSliceSetDone [{ slice1 with code := 256 }]).wf = false ∧
    (Instr.bootSliceSetDone [{ slice1 with result := 3 }]).wf = false ∧
    (Instr.retestDone [{ slice1 with timeUs := 65536 }]).wf = false ∧
    (Instr.queueHwWrite 0 .firmware [] true .good).wf = false ∧ (Instr.spokeAlignDone 0 [0, 1, 2] 0).wf = false ∧
    (Instr.spokeTs2ExchangeDone 0 ⟨0, false, false, 0, [1], 0⟩).wf = false ∧
    (Instr.sdioCmd52 false false 0 131072 0).wf = false ∧ (Instr.sdioCmd53 false false false 0 131072 1 []).wf = false ∧
    (Instr.sdioCmd53 false false false 0 0 513 []).wf = false ∧ (Instr.blockErrorReport ⟨1, 65536, 1, 0⟩).wf = false ∧
    (Instr.blockErrorReport ⟨1, 0, 65536, 0⟩).wf = false ∧ (Instr.fatalError 0).wf = false ∧ (Instr.fatalError 10).wf = false ∧
    (Instr.commandCompletion 0 (.i2cBytes (List.replicate 257 0))).wf = false ∧
    (Instr.commandCompletion 0 (.i2cNack 257)).wf = false ∧
    (Instr.commandCompletion 0 (.slices [{ slice1 with code := 256 }])).wf = false := by
  decide +kernel

/-- Check results that do not fit a flit's eight words, and a CONTROL flit for a position past the last (R158, R160). -/
theorem test_wf_flit :
    (Instr.flitEventsRx 0 false .clean []).wf = false ∧ (Instr.flitCloseRx 0 true .clean ecc2).wf = false ∧
    (Instr.flitStepEndRx 0 false ecc2 ecc4 ecc2).wf = false ∧ (Instr.flitStepEndRx 0 false ecc2 ecc2 ecc4).wf = true ∧
    (Instr.flitControlRx (0, false) (.clean :: ecc7) (some 11)).wf = false ∧
    (Instr.flitControlRx (0, false) (.clean :: ecc7) (some 10)).wf = true := by
  decide

/-- A packet one byte longer than R94's length field can say. -/
theorem test_wf_csi2_length : (Instr.csi2PacketRx 0 { packet with payload := List.replicate 65536 0 }).fits = false := by
  have h : decide ((List.replicate 65536 (0 : Byte)).length < 65536) = false := by
    rw [List.length_replicate]; decide
  unfold Instr.fits CsiPacket.fits
  dsimp only
  rw [h, Bool.and_false]

/-- Well-formed commands at their last unit. -/
theorem test_wf_good :
    (Instr.blockInputComplete 7 15).wf = true ∧ (Instr.echo (reqOf [1])).wf = true ∧ (Instr.linkRx 3 fitFlit).wf = true ∧
    (Instr.csi2PacketRx 3 packet).wf = true ∧ (Instr.sdioCmd53 true false false 1 0x1000 512 []).wf = true := by
  decide +kernel

/-! ### Worked examples of the spec -/

/-- 05_spiking_fabric.md: the corner neuron at MEMBRANE 70 receives 224 and fires with value 2. -/
theorem test_corner_neuron :
    (evaluate ⟨cornerPar, false, false, 3⟩ ⟨70, 0, 0, 2⟩ 224 0).1.membrane = 40 ∧
    (evaluate ⟨cornerPar, false, false, 3⟩ ⟨70, 0, 0, 2⟩ 224 0).2.1.map (·.1) = [2] := by
  decide +kernel

/-- The same neuron receives 448 at MEMBRANE 40: value 3, and the membrane stays above the threshold. -/
theorem test_corner_recheck :
    (evaluate ⟨cornerPar, false, false, 1⟩ ⟨40, 0, 0, 2⟩ 448 0).1.membrane = 180 ∧
    (evaluate ⟨cornerPar, false, false, 1⟩ ⟨40, 0, 0, 2⟩ 448 0).2.1.map (·.1) = [3] := by
  decide +kernel

/-- CAM0 with the distortion cell and the homography of 04_headrace.md's example. -/
def aligned : State :=
  let s := State.reset.setFld (pid 3 0 0x1200) 0 9 (19 + 11 * 32)
  let s := ((s.setWord (pid 3 0 (65 * 30 + 32)) 0xFFE00040).setWord (pid 3 0 (65 * 30 + 33)) 0xFFE00060)
  let s := ((s.setWord (pid 3 0 (65 * 31 + 32)) 64).setWord (pid 3 0 (65 * 31 + 33)) 96)
  s.setWord (pid 3 0 0x1100) 0x00DC0000

/-- 04_headrace.md: pixel (645, 363) is shifted by 72 and -24 and lies at ACROSS 8,873, ALONG 363. -/
theorem test_alignment :
    aligned.gridShift 0 645 363 0 = 72 ∧ aligned.gridShift 0 645 363 16 = -24 ∧ aligned.align 0 645 363 0 = some (8873, 363) := by
  decide +kernel

/-- 07_tracking_fusion.md: class 2 with weight 10 and confidence 230 against class 4 with weight 6 gives conf 153. -/
theorem test_vote : (up.voteOf 7 0 12 pairB).cls = 2 ∧ (up.voteOf 7 0 12 pairB).conf = 153 := by decide +kernel

/-- 08_tiles_arithmetic.md: age 32 at TAU_LOG2 5 gives 64. -/
theorem test_time_surface : tsurf (32 * 65536) 5 = 64 := by decide +kernel

/-- 10_decisions.md: ACROSS 12,480 lies in column 12 at ACROSS0 0 and PITCH 1,000. -/
theorem test_column :
    (((State.reset.setFld (tailId 2) 16 12 1000).setFld (tailId 3) 0 6 31).column 12480) = (12, false) := by
  decide +kernel

/-- 11_aux_filters.md: GAIN 0x4000 divides by 128; 1,216 rounds to 10, 1,088 to 8 and 1,217 to 10. -/
theorem test_trim : trim 0x4000 0 1216 = 10 ∧ trim 0x4000 0 1088 = 8 ∧ trim 0x4000 0 1217 = 10 := by decide +kernel

/-- 12_queues_checkvalues.md: the host reads a packet of two words and then once more. -/
theorem test_queue_reads :
    (queueTwo.popWord 4095 .clean).2.1 = 0 ∧
    ((queueTwo.popWord 4095 .clean).2.2.popWord 4095 .clean).2.1 = 1 ∧
    (((queueTwo.popWord 4095 .clean).2.2.popWord 4095 .clean).2.2.popWord 4095 .clean).2.1 = 3 ∧
    (((queueTwo.popWord 4095 .clean).2.2.popWord 4095 .clean).2.2.popWord 4095 .clean).1 = qword2 := by
  decide +kernel

/-- 14_commands.md: the first 14 bytes and the payload of the PARAM_WRITE of LEAD 2,400. -/
theorem test_packet :
    (packetBytes 2 false false 0 0x0101 0x02A 1 0
      (leBytes 4 (laneId 12 1) ++ leBytes 2 1 ++ leBytes 2 0 ++ leBytes 4 2400)).take 14 =
        [0xC7, 2, 0, 0, 1, 1, 0x2A, 0, 1, 0, 0x0C, 0, 0, 0] ∧
    leBytes 4 (laneId 12 1) ++ leBytes 2 1 ++ leBytes 2 0 ++ leBytes 4 2400 = [1, 0, 0x4C, 0x0C, 1, 0, 0, 0, 0x60, 9, 0, 0] := by
  decide +kernel

/-- 15_models.md: SLOT_HOLD of an image with DENSE_CYCLES 14,400. -/
theorem test_slot_hold : slotHoldOf { model1.needs with dense := 14400, edge := 9000 } false = 7315 := by decide +kernel

/-- 15_models.md: translation set 4 holds 0x1F for logical block 51. -/
theorem test_translation : Sparse.get transDefault transSets (4 * 128 + 51) = 0x1F := by decide +kernel

/-- Reset values of 19_module.md and 04_headrace.md, from their maps. -/
theorem test_reset_words :
    State.reset.word (pid 1 0 0x100) = 0x01482308 ∧ State.reset.word (pid 3 3 0x1100) = 0x00100000 := by decide +kernel

/-- The rows give no bits, so no word spells a command. -/
theorem test_decode_none : decodeTableWord 0 0 = none ∧ State.reset.withFetchWord 0 0 = State.reset := by decide +kernel


/-! ### Contacts -/

/-- 19_module.md, R456, R457, R470 and R473: the first, last and boundary positions of the tables. -/
theorem test_contacts :
    backplaneAt 17 = some ("PRESENT_N", .short) ∧ backplaneAt 21 = some ("GND", .long) ∧
    backplaneAt 22 = some ("ETH0_TX_P", .medium) ∧ backplaneAt 33 = some ("GND", .long) ∧
    backplaneAt 129 = some ("SPK3_RX3_N", .medium) ∧ backplaneAt 146 = some ("FAULT_N", .medium) ∧
    backplaneAt 168 = some ("AUX_IO15", .medium) ∧ backplaneAt 181 = none ∧ cameraAt 15 = some "D3_N" ∧
    cameraAt 19 = some "CAM_SYNC" ∧ cameraAt 28 = some "GND" ∧ cameraAt 29 = none ∧
    auxiliaryAt 53 = some "MCLK1_P" ∧ auxiliaryAt 55 = some "GND" ∧ auxiliaryAt 56 = none := by
  decide +kernel

/-! ### Digests and signatures -/

/-- FIPS 180-4's example for SHA-384 and SHA-256: the message "abc". -/
theorem test_sha_abc :
    (leBytes 48 (sha384 [0x61, 0x62, 0x63])).take 8 = [0xCB, 0x00, 0x75, 0x3F, 0x45, 0xA3, 0x5E, 0x8B] ∧
      (sha256 [0x61, 0x62, 0x63]).take 8 = [0xBA, 0x78, 0x16, 0xBF, 0x8F, 0x01, 0xCF, 0xEA] := by
  decide +kernel

/-- A signature verifies under the signer's own key, and not for another message (FIPS 186-5). -/
theorem test_ecdsa :
    ecdsaOk ((publicKey 5).drop 1) [1] (ecdsaSign 5 7 [1]) = true ∧ ecdsaOk ((publicKey 5).drop 1) [2] (ecdsaSign 5 7 [1]) = false := by
  decide +kernel
end Sys2Proof.Tests
end

section
/-!
PROOF. Every step keeps the canonical form, and the state after reset has it (O5, O4).
-/

namespace Sys2Proof.Machine

/-! ### What a step carries over -/

/-- What every command carries over: the queue, the counter of free values and the canonical form, by the law of its row. -/
theorem exec_carries {s0 s : State} (hc : Carries s0 s) : ∀ c : Instr, CarriesTo s0 (exec c s)
  | .powerGood compatSel => execPowerGood_carries hc compatSel
  | .vinQualified => execVinQualified_carries hc
  | .vinOutOfRange => execVinOutOfRange_carries hc
  | .presentNOpen => execPresentNOpen_carries hc
  | .overcurrentTrip => execOvercurrentTrip_carries hc
  | .overcurrentRetry => execOvercurrentRetry_carries hc
  | .firmwareVerified preferredOk otherOk => execFirmwareVerified_carries hc preferredOk otherOk
  | .bootSliceSetDone results => execBootSliceSetDone_carries hc results
  | .startupReady => execStartupReady_carries hc
  | .modelStoreCopyDone => execModelStoreCopyDone_carries hc
  | .encoderCountEdge levels stable => execEncoderCountEdge_carries hc levels stable
  | .encZEdge => execEncZEdge_carries hc
  | .lineFault => execLineFault_carries hc
  | .synthCountEdge => execSynthCountEdge_carries hc
  | .speedWindowAge => execSpeedWindowAge_carries hc
  | .countSetWrite value => execCountSetWrite_carries hc value
  | .positionCountRead => execPositionCountRead_carries hc
  | .backstopClose => execBackstopClose_carries hc
  | .replayPaceTimer => execReplayPaceTimer_carries hc
  | .fabricStepStart => execFabricStepStart_carries hc
  | .blockInputComplete region block => execBlockInputComplete_carries hc region block
  | .asyncSynapticUpdate region block index => execAsyncSynapticUpdate_carries hc region block index
  | .blockStepFinished region block => execBlockStepFinished_carries hc region block
  | .decoderRecordRelease region => execDecoderRecordRelease_carries hc region
  | .stateWordRepair region block synapse index => execStateWordRepair_carries hc region block synapse index
  | .flitEventsRx node up header words => execFlitEventsRx_carries hc node up header words
  | .flitCloseRx node up header words => execFlitCloseRx_carries hc node up header words
  | .flitStepEndRx node up first second behind => execFlitStepEndRx_carries hc node up first second behind
  | .flitControlRx hop ecc own => execFlitControlRx_carries hc hop ecc own
  | .spillReadback region => execSpillReadback_carries hc region
  | .csi2PacketRx port packet => execCsi2PacketRx_carries hc port packet
  | .refractSweep port cell => execRefractSweep_carries hc port cell
  | .camSyncPulse port => execCamSyncPulse_carries hc port
  | .replayWord => execReplayWord_carries hc
  | .fmtDescriptorWrite port descriptor word value => execFmtDescriptorWrite_carries hc port descriptor word value
  | .ptpSyncRx port msg => execPtpSyncRx_carries hc port msg
  | .ptpFollowUpRx port msg => execPtpFollowUpRx_carries hc port msg
  | .ptpAnnounceRx port msg data => execPtpAnnounceRx_carries hc port msg data
  | .ptpDelayRespRx port msg => execPtpDelayRespRx_carries hc port msg
  | .ptpPdelayReqRx port msg => execPtpPdelayReqRx_carries hc port msg
  | .ptpPdelayRespRx port part msg => execPtpPdelayRespRx_carries hc port part msg
  | .ptpMessageIgnored port => execPtpMessageIgnored_carries hc port
  | .ptpDelayReqSend port domain => execPtpDelayReqSend_carries hc port domain
  | .ptpReceiptTimeout domain announce => execPtpReceiptTimeout_carries hc domain announce
  | .domainSwitchDone => execDomainSwitchDone_carries hc
  | .timeSwitchWrite value => execTimeSwitchWrite_carries hc value
  | .domainRelockWrite domain value => execDomainRelockWrite_carries hc domain value
  | .timeNowRead localCount => execTimeNowRead_carries hc localCount
  | .ppsPulse => execPpsPulse_carries hc
  | .tcuCapture unit edge => execTcuCapture_carries hc unit edge
  | .tcuCapRead unit => execTcuCapRead_carries hc unit
  | .frameLaunch port => execFrameLaunch_carries hc port
  | .trackerStepProcess region => execTrackerStepProcess_carries hc region
  | .mirrorCopy region late => execMirrorCopy_carries hc region late
  | .pairWaitEnd object => execPairWaitEnd_carries hc object
  | .fusionVote region object => execFusionVote_carries hc region object
  | .fusionForceWrite region sensor value => execFusionForceWrite_carries hc region sensor value
  | .refineApply unfinished => execRefineApply_carries hc unfinished
  | .tileBuildStart region => execTileBuildStart_carries hc region
  | .tileReady region tile => execTileReady_carries hc region tile
  | .tileUe region tile => execTileUe_carries hc region tile
  | .quernModeSwitch region mode => execQuernModeSwitch_carries hc region mode
  | .stripeStart region sub => execStripeStart_carries hc region sub
  | .stripeDone region sub => execStripeDone_carries hc region sub
  | .stripeAbort region sub planeBad => execStripeAbort_carries hc region sub planeBad
  | .edgeLayerGroupDone region => execEdgeLayerGroupDone_carries hc region
  | .fcBatchStream region => execFcBatchStream_carries hc region
  | .postClassify region object => execPostClassify_carries hc region object
  | .boxRequest region object => execBoxRequest_carries hc region object
  | .boxDecodeDone box => execBoxDecodeDone_carries hc box
  | .verdictDeadline object => execVerdictDeadline_carries hc object
  | .frameBuild group => execFrameBuild_carries hc group
  | .auxSampleOutput channel bits rom => execAuxSampleOutput_carries hc channel bits rom
  | .auxStuck channel bits => execAuxStuck_carries hc channel bits
  | .auxStuckRecover channel bit => execAuxStuckRecover_carries hc channel bit
  | .auxfiltSyncWrite value => execAuxfiltSyncWrite_carries hc value
  | .auxfiltCfgWrite unit value => execAuxfiltCfgWrite_carries hc unit value
  | .auxfiltLastRead channel => execAuxfiltLastRead_carries hc channel
  | .queueEnableWrite queue value => execQueueEnableWrite_carries hc queue value
  | .qflushWrite queue value => execQflushWrite_carries hc queue value
  | .queueHwWrite queue producer words eop pointers => execQueueHwWrite_carries hc queue producer words eop pointers
  | .queueWriteTimeout tag => execQueueWriteTimeout_carries hc tag
  | .syncobjRead object => execSyncobjRead_carries hc object
  | .syncobjWrite object operand => execSyncobjWrite_carries hc object operand
  | .syncobjAdd object operand => execSyncobjAdd_carries hc object operand
  | .syncobjCas object new expected => execSyncobjCas_carries hc object new expected
  | .syncobjSet object => execSyncobjSet_carries hc object
  | .syncobjClear object => execSyncobjClear_carries hc object
  | .syncobjTestAndSet object => execSyncobjTestAndSet_carries hc object
  | .checkvalStart context value => execCheckvalStart_carries hc context value
  | .checkvalFeed context value => execCheckvalFeed_carries hc context value
  | .checkvalFeedPart context value => execCheckvalFeedPart_carries hc context value
  | .checkvalRangeGo context value => execCheckvalRangeGo_carries hc context value
  | .checkvalRangeDone context errorAfter => execCheckvalRangeDone_carries hc context errorAfter
  | .checkvalStateWrite context value => execCheckvalStateWrite_carries hc context value
  | .checkvalStateRead context result => execCheckvalStateRead_carries hc context result
  | .spokeSignalDetect port => execSpokeSignalDetect_carries hc port
  | .spokeLockDone port inverted => execSpokeLockDone_carries hc port inverted
  | .spokeAlignDone port lanes skew => execSpokeAlignDone_carries hc port lanes skew
  | .spokeTs2ExchangeDone port ts2 => execSpokeTs2ExchangeDone_carries hc port ts2
  | .spokeTrainingTimeout port => execSpokeTrainingTimeout_carries hc port
  | .spokeHoldExpiry port => execSpokeHoldExpiry_carries hc port
  | .spokeLockLoss port => execSpokeLockLoss_carries hc port
  | .linkRx port flit => execLinkRx_carries hc port flit
  | .spokeFlitDiscard port flit => execSpokeFlitDiscard_carries hc port flit
  | .spokeAckTimeout port => execSpokeAckTimeout_carries hc port
  | .heartbeatSend port => execHeartbeatSend_carries hc port
  | .heartbeatRx port flit => execHeartbeatRx_carries hc port flit
  | .heartbeatTimeout port => execHeartbeatTimeout_carries hc port
  | .haloEvents port flit => execHaloEvents_carries hc port flit
  | .verdictRelay port flit => execVerdictRelay_carries hc port flit
  | .activation port flit => execActivation_carries hc port flit
  | .commandFwd port flit => execCommandFwd_carries hc port flit
  | .explore port flit => execExplore_carries hc port flit
  | .discover port flit => execDiscover_carries hc port flit
  | .identify port flit => execIdentify_carries hc port flit
  | .report port flit => execReport_carries hc port flit
  | .assign port flit => execAssign_carries hc port flit
  | .routes port flit => execRoutes_carries hc port flit
  | .notify port flit => execNotify_carries hc port flit
  | .spokeAcceptWrite value => execSpokeAcceptWrite_carries hc value
  | .retrainDrainDone port => execRetrainDrainDone_carries hc port
  | .sdioCmd0 => execSdioCmd0_carries hc
  | .sdioCmd3 => execSdioCmd3_carries hc
  | .sdioCmd5 arg => execSdioCmd5_carries hc arg
  | .sdioCmd7 rca => execSdioCmd7_carries hc rca
  | .sdioCmd11 => execSdioCmd11_carries hc
  | .sdioCmd19 => execSdioCmd19_carries hc
  | .sdioCmd52 write raw function address data => execSdioCmd52_carries hc write raw function address data
  | .sdioCmd53 write blockMode increment function address count data =>
    execSdioCmd53_carries hc write blockMode increment function address count data
  | .sdioIllegalCommand index => execSdioIllegalCommand_carries hc index
  | .inDoorbellWrite length => execInDoorbellWrite_carries hc length
  | .commandPacketAccept => execCommandPacketAccept_carries hc
  | .outAckWrite value => execOutAckWrite_carries hc value
  | .bulkBlockWrite data => execBulkBlockWrite_carries hc data
  | .bulkBlockRead => execBulkBlockRead_carries hc
  | .bulkInComplete => execBulkInComplete_carries hc
  | .fwdTimeout dest tag => execFwdTimeout_carries hc dest tag
  | .getInfo req => execGetInfo_carries hc req
  | .getCaps req => execGetCaps_carries hc req
  | .echo req => execEcho_carries hc req
  | .getState req => execGetState_carries hc req
  | .paramRead req => execParamRead_carries hc req
  | .paramWrite req => execParamWrite_carries hc req
  | .paramReadList req => execParamReadList_carries hc req
  | .paramWriteList req => execParamWriteList_carries hc req
  | .paramWordWrite id value => execParamWordWrite_carries hc id value
  | .imageBegin req => execImageBegin_carries hc req
  | .imageCommit req => execImageCommit_carries hc req
  | .imageUnload req => execImageUnload_carries hc req
  | .imageInfo req => execImageInfo_carries hc req
  | .bulkAbort req => execBulkAbort_carries hc req
  | .imageSwap req => execImageSwap_carries hc req
  | .swapCut => execSwapCut_carries hc
  | .arm req => execArm_carries hc req
  | .stop req => execStop_carries hc req
  | .moduleReset req => execModuleReset_carries hc req
  | .moduleResetExecute compatSel => execModuleResetExecute_carries hc compatSel
  | .claim req => execClaim_carries hc req
  | .release req => execRelease_carries hc req
  | .queueWrite req => execQueueWrite_carries hc req
  | .queueRead req => execQueueRead_carries hc req
  | .syncobjOp req => execSyncobjOp_carries hc req
  | .powerSet req => execPowerSet_carries hc req
  | .powerStatus req => execPowerStatus_carries hc req
  | .regionPark req => execRegionPark_carries hc req
  | .regionResume req => execRegionResume_carries hc req
  | .timeSnapshot req => execTimeSnapshot_carries hc req
  | .camI2c req => execCamI2c_carries hc req
  | .camSupply req => execCamSupply_carries hc req
  | .monRead req => execMonRead_carries hc req
  | .monClear req => execMonClear_carries hc req
  | .monitorCfgWrite channel word value => execMonitorCfgWrite_carries hc channel word value
  | .dumpInfo req => execDumpInfo_carries hc req
  | .dumpRead req => execDumpRead_carries hc req
  | .dumpClear req => execDumpClear_carries hc req
  | .logRead req => execLogRead_carries hc req
  | .getIdentity req => execGetIdentity_carries hc req
  | .attest req => execAttest_carries hc req
  | .lifecycleGet req => execLifecycleGet_carries hc req
  | .lifecycleSet req => execLifecycleSet_carries hc req
  | .firmwareActivate req => execFirmwareActivate_carries hc req
  | .enumerate req => execEnumerate_carries hc req
  | .retrain req => execRetrain_carries hc req
  | .testReport req => execTestReport_carries hc req
  | .testRead req => execTestRead_carries hc req
  | .bistRun req => execBistRun_carries hc req
  | .powerTransitionDone domain ok => execPowerTransitionDone_carries hc domain ok
  | .powerBlockStopTimeout domain blockCode unit => execPowerBlockStopTimeout_carries hc domain blockCode unit
  | .powerEntryCommit domain => execPowerEntryCommit_carries hc domain
  | .powerAccessWake domain => execPowerAccessWake_carries hc domain
  | .powerRetHoldExpiry domain => execPowerRetHoldExpiry_carries hc domain
  | .blockErrorReport report => execBlockErrorReport_carries hc report
  | .regionFailureReport region => execRegionFailureReport_carries hc region
  | .stepDeadlineMiss region => execStepDeadlineMiss_carries hc region
  | .hubHeartbeatMiss region => execHubHeartbeatMiss_carries hc region
  | .clockLockLoss domain => execClockLockLoss_carries hc domain
  | .regionRetestWrite value => execRegionRetestWrite_carries hc value
  | .autoRetestTimer => execAutoRetestTimer_carries hc
  | .retestDone results => execRetestDone_carries hc results
  | .scrubAccess bank ecc lastOfPass => execScrubAccess_carries hc bank ecc lastOfPass
  | .patrolScrub area ecc => execPatrolScrub_carries hc area ecc
  | .watchdogTimeout => execWatchdogTimeout_carries hc
  | .millerWarmRestart cause => execMillerWarmRestart_carries hc cause
  | .restartDone tablesOk => execRestartDone_carries hc tablesOk
  | .restartTimeout => execRestartTimeout_carries hc
  | .fatalError cause => execFatalError_carries hc cause
  | .fatalDumpDone compatSel => execFatalDumpDone_carries hc compatSel
  | .monitorSnapSwap => execMonitorSnapSwap_carries hc
  | .tempSample sensor reading => execTempSample_carries hc sensor reading
  | .railSample rail reading sustained => execRailSample_carries hc rail reading sustained
  | .camSupplyTrip port => execCamSupplyTrip_carries hc port
  | .presentNMate => execPresentNMate_carries hc
  | .ethBlockLockLost port => execEthBlockLockLost_carries hc port
  | .ethBlockLockGained port => execEthBlockLockGained_carries hc port
  | .ethFrameRx port fcsOk => execEthFrameRx_carries hc port fcsOk
  | .spokePortEnWrite port value => execSpokePortEnWrite_carries hc port value
  | .servoEnableWrite domainWord value => execServoEnableWrite_carries hc domainWord value
  | .commandCompletion tag later => execCommandCompletion_carries hc tag later
  | .monitorSampleTick channel value => execMonitorSampleTick_carries hc channel value

/-- A step keeps the canonical form: on an empty queue the tick keeps it; otherwise taking a command from the queue touches no
store, and the command keeps it. -/
theorem step_canonical {s t : State} (h : s.canonical) (e : step s = .next t) : t.canonical := by
  unfold step at e
  split at e
  · exact (exec_carries (Carries.refl _) _ t e).canonical (State.canonical_pending h)
  · exact (CarriesTo.next (State.tick_carries (Carries.refl s)) t e).canonical h

/-- Settles O5: the step lemma `step_canonical`, which rests on what each row carries over (`exec_carries`). -/
theorem everyStepKeepsCanonicalStores : Obligations.EveryStepKeepsCanonicalStores :=
  fun _ _ => step_canonical

/-- Settles O4: every store of the reset state is empty. -/
theorem canonicalAtReset : Obligations.CanonicalAtReset :=
  ⟨⟨rfl, rfl, rfl, rfl, rfl⟩, rfl, fun _ => rfl, fun _ => rfl⟩

end Sys2Proof.Machine
end

section
/-!
PROOF. Every command answers a next state, and one that names a missing unit changes a status at most (O3).
-/

namespace Sys2Proof.Machine

/-! ### Every command completes -/

/-- A line fault ends in one of four next states (R39). -/
theorem execLineFault_next (s : State) : ∃ t, execLineFault s = .next t := by
  unfold execLineFault
  dsimp only
  repeat' split
  all_goals exact ⟨_, rfl⟩

/-- No row ends in a fault or a refusal. -/
theorem exec_next (c : Instr) (s : State) : ∃ t, exec c s = .next t := by
  cases c
  case lineFault => exact execLineFault_next s
  all_goals exact ⟨_, rfl⟩

/-! ### A command that names a missing unit -/

/-- An outcome of a command that names a missing unit: the state stands but for the status of a single-word access and that of
an operation on a synchronisation object. -/
def StatusOnly (s : State) (o : Host.Outcome State Fault Refusal) : Prop :=
  ∃ t, o = .next t ∧ t = { s with lastStatus := t.lastStatus, que := { s.que with soStatus := t.que.soStatus } }

theorem StatusOnly.onUnit {s t : State} {ok : Bool} (h : ok = false) : StatusOnly s (onUnit ok s t) := by
  subst h
  exact ⟨s, rfl, rfl⟩

theorem StatusOnly.onInstance {s t : State} {ok : Bool} (h : ok = false) : StatusOnly s (onInstance ok s t) := by
  subst h
  exact ⟨_, rfl, rfl⟩

theorem StatusOnly.soRow {s : State} {object : Nat} (h : decide (object < 12288) = false) (op operand expected : Nat) :
    StatusOnly s (soRow object op operand expected s) := by
  unfold Machine.soRow whenDue
  simp only [if_neg (of_decide_eq_false h)]
  split
  · exact ⟨_, rfl, rfl⟩
  · exact ⟨s, rfl, rfl⟩

theorem flitRow_missing {p : Nat} (h : decide (p < 4) = false) (f : SpokeFlit) (kind : Bool) (take : Message → State → State)
    (s : State) : flitRow p f kind take s = .next s := by
  unfold flitRow onUnit
  rw [h]
  rfl

theorem execActivation_missing {port : Nat} (h : decide (port < 4) = false) (flit : SpokeFlit) (s : State) :
    execActivation port flit s = .next s := by
  unfold execActivation
  rw [flitRow_missing h]
  simp only [bne_self_eq_false, Bool.false_and, State.bumpIf, Bool.false_eq_true, if_false]
  split <;> rfl

theorem execCommandFwd_missing {port : Nat} (h : decide (port < 4) = false) (flit : SpokeFlit) (s : State) :
    execCommandFwd port flit s = .next s := by
  unfold execCommandFwd
  rw [flitRow_missing h]
  simp only [State.unroutable, h, Bool.false_and, Bool.false_eq_true, if_false]

/-- The rows by what they do when their unit is missing; the rows that name no unit cannot miss one. -/
theorem exec_statusOnly {c : Instr} {s : State} (h : c.unitsOk = false) : StatusOnly s (exec c s) := by
  cases c
  case blockInputComplete | asyncSynapticUpdate | blockStepFinished | decoderRecordRelease | stateWordRepair |
      flitEventsRx | flitCloseRx | flitStepEndRx | flitControlRx | spillReadback | csi2PacketRx | refractSweep |
      camSyncPulse | ptpSyncRx | ptpFollowUpRx | ptpAnnounceRx | ptpDelayRespRx | ptpPdelayReqRx | ptpPdelayRespRx |
      ptpMessageIgnored | ptpDelayReqSend | ptpReceiptTimeout | tcuCapture | frameLaunch | trackerStepProcess |
      mirrorCopy | fusionVote | tileBuildStart | tileReady | tileUe | quernModeSwitch | stripeStart | stripeDone |
      stripeAbort | edgeLayerGroupDone | fcBatchStream | postClassify | boxRequest | boxDecodeDone | frameBuild |
      auxSampleOutput | auxStuck | auxStuckRecover | queueHwWrite | checkvalRangeDone | spokeSignalDetect |
      spokeLockDone | spokeAlignDone | spokeTs2ExchangeDone | spokeTrainingTimeout | spokeHoldExpiry | spokeLockLoss |
      linkRx | spokeFlitDiscard | spokeAckTimeout | heartbeatSend | heartbeatRx | heartbeatTimeout | haloEvents |
      verdictRelay | explore | discover | identify | report | assign | routes | notify | retrainDrainDone |
      powerTransitionDone | powerBlockStopTimeout | powerEntryCommit | powerAccessWake | powerRetHoldExpiry |
      blockErrorReport | regionFailureReport | stepDeadlineMiss | hubHeartbeatMiss | clockLockLoss | scrubAccess |
      patrolScrub | tempSample | railSample | camSupplyTrip | ethBlockLockLost | ethBlockLockGained | ethFrameRx |
      monitorSampleTick =>
    exact .onUnit h
  case activation port flit => exact ⟨s, execActivation_missing h flit s, rfl⟩
  case commandFwd port flit => exact ⟨s, execCommandFwd_missing h flit s, rfl⟩
  case fmtDescriptorWrite | domainRelockWrite | tcuCapRead | fusionForceWrite | auxfiltCfgWrite | auxfiltLastRead |
      queueEnableWrite | qflushWrite | checkvalStart | checkvalFeed | checkvalFeedPart | checkvalRangeGo |
      checkvalStateWrite | checkvalStateRead | monitorCfgWrite | spokePortEnWrite | servoEnableWrite =>
    exact .onInstance h
  case syncobjRead | syncobjWrite | syncobjAdd | syncobjCas | syncobjSet | syncobjClear | syncobjTestAndSet =>
    exact .soRow h _ _ _
  all_goals cases h

/-- Settles O3: every row ends in a next state, and a row that names a missing unit is an event that does not come about, or an
access that is answered with its status. -/
theorem everyCommandCompletes : Obligations.EveryCommandCompletes :=
  fun c s => ⟨exec_next c s, exec_statusOnly⟩

end Sys2Proof.Machine
end

section
/-!
PROOF. Fields of a parameter word: reading back what was placed, an accepted write, the reset word, and the lock (O50).
-/

namespace Sys2Proof.Machine

/-! ### Fields of a word -/

/-- Two fields share no bit. -/
def Field.apart (f g : Field) : Prop := f.lsb + f.width ≤ g.lsb ∨ g.lsb + g.width ≤ f.lsb

theorem Field.apart.symm {f g : Field} (h : f.apart g) : g.apart f := Or.symm h

theorem fieldsWf_iff {fs : List Field} :
    fieldsWf fs = true ↔
      (∀ f ∈ fs, f.lsb + f.width ≤ 32 ∧ (f.acc = .w1c → f.width = 1)) ∧ fs.Pairwise Field.apart := by
  have e : (fun f g : Field => f.lsb + f.width ≤ g.lsb ∨ g.lsb + g.width ≤ f.lsb) = Field.apart := rfl
  simp [fieldsWf, e, imp_iff_not_or]

/-- A number with a field set to what `code` gives, if it gives something. -/
def placed (code : Field → Option Nat) (a : Nat) (f : Field) : Nat := (code f).elim a (withBits a f.lsb f.width)

section

variable (code : Field → Option Nat)

theorem bitsOf_placed_apart {f k : Field} (h : f.apart k) (a : Nat) :
    bitsOf (placed code a f) k.lsb k.width = bitsOf a k.lsb k.width := by
  unfold placed
  cases code f with
  | none => rfl
  | some v => exact h.elim bitsOf_withBits_above bitsOf_withBits_below

theorem bitsOf_placed_same (f : Field) (a : Nat) :
    bitsOf (placed code a f) f.lsb f.width = (code f).elim (bitsOf a f.lsb f.width) (· % 2 ^ f.width) := by
  unfold placed
  cases code f with
  | none => rfl
  | some v => exact bitsOf_withBits a f.lsb f.width v

theorem placed_lt {f : Field} (h : f.lsb + f.width ≤ 32) {a : Nat} (ha : a < 2 ^ 32) : placed code a f < 2 ^ 32 := by
  unfold placed
  cases code f with
  | none => exact ha
  | some v => exact withBits_lt ha h

theorem foldl_placed_lt : ∀ {fs : List Field}, (∀ f ∈ fs, f.lsb + f.width ≤ 32) → ∀ {a : Nat}, a < 2 ^ 32 →
    fs.foldl (placed code) a < 2 ^ 32
  | [], _, _, ha => ha
  | f :: _, h, _, ha => by
    obtain ⟨hf, h⟩ := List.forall_mem_cons.1 h
    exact foldl_placed_lt h (placed_lt code hf ha)

theorem bitsOf_foldl_placed_apart {k : Field} : ∀ {fs : List Field}, (∀ f ∈ fs, f.apart k) → ∀ a : Nat,
    bitsOf (fs.foldl (placed code) a) k.lsb k.width = bitsOf a k.lsb k.width
  | [], _, _ => rfl
  | f :: fs, h, a => by
    obtain ⟨hf, h⟩ := List.forall_mem_cons.1 h
    exact (bitsOf_foldl_placed_apart h _).trans (bitsOf_placed_apart code hf a)

/-- Of fields that share no bit, each reads back as it was placed. -/
theorem bitsOf_foldl_placed {k : Field} : ∀ {fs : List Field}, fs.Pairwise Field.apart → k ∈ fs → ∀ a : Nat,
    bitsOf (fs.foldl (placed code) a) k.lsb k.width = (code k).elim (bitsOf a k.lsb k.width) (· % 2 ^ k.width)
  | f :: fs, hp, hk, a => by
    obtain ⟨hf, hp⟩ := List.pairwise_cons.1 hp
    rcases List.mem_cons.1 hk with rfl | hk
    · exact (bitsOf_foldl_placed_apart code (fun j hj => (hf j hj).symm) _).trans (bitsOf_placed_same code k a)
    · rw [List.foldl_cons, bitsOf_foldl_placed hp hk, bitsOf_placed_apart code (hf k hk)]

/-- The fields of a well-formed word read back as they were placed in an old word. -/
theorem Field.get_foldl_placed {fs : List Field} (hw : fieldsWf fs = true) {f : Field} (hf : f ∈ fs) (old : Word) :
    f.get (BitVec.ofNat 32 (fs.foldl (placed code) old.toNat)) = (code f).elim (f.get old) (· % 2 ^ f.width) := by
  obtain ⟨hfit, hp⟩ := fieldsWf_iff.1 hw
  rw [Field.get, BitVec.toNat_ofNat, Nat.mod_eq_of_lt (foldl_placed_lt code (fun k hk => (hfit k hk).1) old.isLt)]
  exact bitsOf_foldl_placed code hp hf old.toNat

end

/-! ### An accepted write -/

/-- What an accepted write puts into a field, if anything (R10). -/
def Field.written (old new : Word) (f : Field) : Option Nat :=
  match f.acc with
  | .rw | .rwl => some (f.get new)
  | .w1c => some (f.get old - f.get new)
  | .ro | .wo => none

theorem mergeWrite_eq (fs : List Field) (old new : Word) :
    mergeWrite fs old new = BitVec.ofNat 32 (fs.foldl (placed (Field.written old new)) old.toNat) := by
  unfold mergeWrite
  congr 2
  funext a ⟨lsb, width, acc, rst, ok⟩
  cases acc <;> rfl

section

variable {fs : List Field} (hw : fieldsWf fs = true) {f : Field} (hf : f ∈ fs) (old new : Word)

include hw hf

theorem Field.get_mergeWrite_writable (h : f.acc = .rw ∨ f.acc = .rwl) : f.get (mergeWrite fs old new) = f.get new := by
  have e : f.written old new = some (f.get new) := by
    unfold Field.written
    rcases h with h | h <;> rw [h]
  rw [mergeWrite_eq, Field.get_foldl_placed _ hw hf, e]
  exact Nat.mod_eq_of_lt (bitsOf_lt _ _ _)

theorem Field.get_mergeWrite_kept (h : f.acc = .ro ∨ f.acc = .wo) : f.get (mergeWrite fs old new) = f.get old := by
  have e : f.written old new = none := by
    unfold Field.written
    rcases h with h | h <;> rw [h]
  rw [mergeWrite_eq, Field.get_foldl_placed _ hw hf, e]
  rfl

/-- A W1C bit stays set exactly where it was set and a 0 was written. -/
theorem bitOf_mergeWrite_w1c (h : f.acc = .w1c) :
    bitOf (mergeWrite fs old new).toNat f.lsb = (bitOf old.toNat f.lsb && !bitOf new.toNat f.lsb) := by
  have e : f.written old new = some (f.get old - f.get new) := by
    unfold Field.written
    rw [h]
  have k := Field.get_foldl_placed (Field.written old new) hw hf old
  rw [← mergeWrite_eq, e] at k
  simp only [Field.get, ((fieldsWf_iff.1 hw).1 f hf).2 h, Option.elim_some] at k
  simp only [bitOf_eq_bitsOf, k]
  have ho := bitsOf_lt old.toNat f.lsb 1
  have hn := bitsOf_lt new.toNat f.lsb 1
  generalize bitsOf old.toNat f.lsb 1 = x at ho ⊢
  generalize bitsOf new.toNat f.lsb 1 = y at hn ⊢
  interval_cases x <;> interval_cases y <;> rfl

end

/-! ### The reset word -/

/-- Adding a code into bits that are 0 places it there. -/
theorem withBits_of_zero {a lsb width : Nat} (h : bitsOf a lsb width = 0) (v : Nat) :
    withBits a lsb width v = a + v % 2 ^ width * 2 ^ lsb := by
  unfold withBits
  rw [h, Nat.zero_mul, Nat.sub_zero]

theorem foldl_reset_eq : ∀ {fs : List Field}, fs.Pairwise Field.apart → ∀ {a : Nat},
    (∀ f ∈ fs, bitsOf a f.lsb f.width = 0) →
    fs.foldl (fun a f => a + f.rst % 2 ^ f.width * 2 ^ f.lsb) a = fs.foldl (placed fun f => some f.rst) a
  | [], _, _, _ => rfl
  | f :: fs, hp, a, h => by
    obtain ⟨hf, hp⟩ := List.pairwise_cons.1 hp
    obtain ⟨h0, h⟩ := List.forall_mem_cons.1 h
    have e : placed (fun f => some f.rst) a f = a + f.rst % 2 ^ f.width * 2 ^ f.lsb := withBits_of_zero h0 f.rst
    rw [List.foldl_cons, List.foldl_cons, ← e]
    exact foldl_reset_eq hp fun k hk => (bitsOf_placed_apart _ (hf k hk) a).trans (h k hk)

theorem resetOf_eq {fs : List Field} (hw : fieldsWf fs = true) :
    resetOf fs = BitVec.ofNat 32 (fs.foldl (placed fun f => some f.rst) (0 : Word).toNat) := by
  unfold resetOf
  rw [foldl_reset_eq (fieldsWf_iff.1 hw).2]
  · rfl
  · intro f _
    simp [bitsOf]

/-- A field of the reset word reads as the field's reset code. -/
theorem Field.get_resetOf {fs : List Field} (hw : fieldsWf fs = true) {f : Field} (hf : f ∈ fs) (h : f.rst < 2 ^ f.width) :
    f.get (resetOf fs) = f.rst := by
  rw [resetOf_eq hw, Field.get_foldl_placed _ hw hf]
  exact Nat.mod_eq_of_lt h

/-! ### The lock of an armed pipeline -/

theorem hasRwl_iff {fs : List Field} : hasRwl fs = true ↔ ∃ f ∈ fs, f.acc = .rwl := by
  simp [hasRwl]

theorem hasRw_iff {fs : List Field} : hasRw fs = true ↔ ∃ f ∈ fs, f.acc = .rw := by
  simp [hasRw]

theorem all_rwl_unchanged_iff {fs : List Field} {old new : Word} :
    (fs.all fun f => f.acc != .rwl || f.get old == f.get new) = true ↔ ∀ f ∈ fs, f.acc = .rwl → f.get old = f.get new := by
  simp [imp_iff_not_or]

/-- The lock lets a write pass when the word has no RWL field, or has an RW field and every RWL field stays as it is (R12). -/
theorem lockRefuses_eq_false_iff {fs : List Field} {old new : Word} :
    lockRefuses fs old new = false ↔
      (∃ f ∈ fs, f.acc = .rwl) → (∃ f ∈ fs, f.acc = .rw) ∧ ∀ f ∈ fs, f.acc = .rwl → f.get old = f.get new := by
  rw [← hasRwl_iff, ← hasRw_iff, ← all_rwl_unchanged_iff, ← Bool.and_eq_true, lockRefuses]
  cases hasRwl fs <;> simp

theorem lockedWord_lookup {id : Nat} (h : lockedWord id = true) : ∃ l w, lookup id = .word [.wo l w] := by
  simp only [lockedWord, Bool.or_eq_true, beq_iff_eq] at h
  rcases h with ((rfl | rfl) | rfl) | rfl <;> exact ⟨_, _, rfl⟩

/-- No word that a chapter locks whole has an RWL field (R43, R72). -/
theorem lockedWord_of_rwl {id : Nat} {fs : List Field} (hl : lookup id = .word fs) (h : ∃ f ∈ fs, f.acc = .rwl) :
    lockedWord id = false := by
  by_contra k
  obtain ⟨l, w, e⟩ := lockedWord_lookup (Bool.not_eq_false _ ▸ k)
  obtain rfl := Lookup.word.inj (hl.symm.trans e)
  obtain ⟨f, hf, ha⟩ := h
  obtain rfl := List.mem_singleton.1 hf
  cases ha

/-- A single-word write that the common checks refuse leaves its status alone (R9, R365). -/
theorem State.wordWrite_refused {s : State} {id : Nat} {v : Word} {e : Status} (hs : s.wordService = true)
    (h : s.writeRefuses id v = some e) : s.wordWrite id v = { s with lastStatus := e } := by
  simp [State.wordWrite, State.writeWord, State.refusesWrite, hs, h]

section

variable {s : State} {id : Nat} {fs : List Field} (v : Word) (harm : s.armed = true) (hl : lookup id = .word fs)
  (hab : s.absent id = none) (hroot : s.rootRefuses id = false) (hrwl : ∃ f ∈ fs, f.acc = .rwl)

include harm hl hab hroot hrwl

/-- Of a word with an RWL field that is there to be written, the armed pipeline asks first whether the lock refuses (R12). -/
theorem State.writeRefuses_armed :
    s.writeRefuses id v =
      if lockRefuses fs (s.word id) v then some .locked
      else if rangeAllows fs (s.word id) v then none else some .badParam := by
  simp only [State.writeRefuses, hab, hl, hroot, harm, lockedWord_of_rwl hl hrwl, Bool.true_and, Bool.false_or,
    Bool.false_eq_true, if_false]

theorem State.wordWrite_locked (hs : s.wordService = true)
    (h : (∀ f ∈ fs, f.acc ≠ .rw) ∨ ∃ f ∈ fs, f.acc = .rwl ∧ f.get (s.word id) ≠ f.get v) :
    s.wordWrite id v = { s with lastStatus := .locked } := by
  have k : lockRefuses fs (s.word id) v = true := by
    by_contra k
    obtain ⟨⟨f, hf, ha⟩, hk⟩ := lockRefuses_eq_false_iff.1 (Bool.eq_false_iff.2 k) hrwl
    rcases h with h | ⟨g, hg, ha, hne⟩
    · exact h f hf ha
    · exact hne (hk g hg ha)
  exact State.wordWrite_refused hs (by rw [State.writeRefuses_armed v harm hl hab hroot hrwl, if_pos k])

theorem State.writeRefuses_ne_locked (hrw : ∃ f ∈ fs, f.acc = .rw)
    (hk : ∀ f ∈ fs, f.acc = .rwl → f.get (s.word id) = f.get v) : s.writeRefuses id v ≠ some .locked := by
  rw [State.writeRefuses_armed v harm hl hab hroot hrwl, lockRefuses_eq_false_iff.2 fun _ => ⟨hrw, hk⟩,
    if_neg Bool.false_ne_true]
  split <;> simp

end

/-- Settles O50: each field reads back as the write placed it, and the lock comes before the range. -/
theorem fieldsFollowTheirAccess : Obligations.FieldsFollowTheirAccess := by
  refine ⟨fun fs old new hw f hf => ⟨?_, ?_, ?_⟩, fun s id fs v hs harm hl hab hroot hrwl =>
    ⟨?_, fun hw hrw hk => ⟨?_, ?_⟩⟩⟩
  · exact Field.get_mergeWrite_writable hw hf old new
  · exact Field.get_mergeWrite_kept hw hf old new
  · exact bitOf_mergeWrite_w1c hw hf old new
  · exact State.wordWrite_locked v harm hl hab hroot hrwl hs
  · exact State.writeRefuses_ne_locked v harm hl hab hroot hrwl hrw hk
  · intro f hf ha
    rw [Field.get_mergeWrite_writable hw hf _ _ (.inr ha), hk f hf ha]

end Sys2Proof.Machine
end

section
/-!
PROOF. The parameter maps, one lemma for each map function, and the lookup over all blocks (O51).
-/

namespace Sys2Proof.Machine

/-- The fields of a word fit in it and do not overlap, and each reset code fits in its field. -/
def mapWf (fs : List Field) : Bool := fieldsWf fs && fs.all fun f => decide (f.rst < 2 ^ f.width)

theorem mapWf_singleton {f : Field} (hf : f.lsb + f.width ≤ 32) (ha : f.acc ≠ .w1c) (hr : f.rst < 2 ^ f.width) :
    mapWf [f] = true := by
  simp [mapWf, fieldsWf, hf, ha, hr]

/-! ### The map of each kind of unit -/

theorem archWord_wf (idx : Nat) : (archWord idx).all mapWf = true := by
  unfold archWord
  split <;> decide

theorem positionWord_wf (idx : Nat) : (positionWord idx).all mapWf = true := by
  unfold positionWord
  split <;> decide

theorem timeWord_wf {t : TimeUnit} (ht : ∀ d, t = .domain d → d < 2) (idx : Nat) : (timeWord t idx).all mapWf = true := by
  unfold timeWord
  split
  case h_9 d =>
    have hd := ht d rfl
    interval_cases d <;> decide
  all_goals decide

theorem timeUnit_domain {u d : Nat} (h : timeUnit u = some (.domain d)) : d < 2 := by
  unfold timeUnit at h
  split at h
  · cases h
  · split at h
    · cases h
      omega
    · (repeat' split at h) <;> cases h

theorem fmtWord_wf (w : Nat) : (fmtWord w).all mapWf = true := by
  unfold fmtWord
  split <;> decide

theorem headWord_wf (k : HeadUnit) (idx : Nat) : (headWord k idx).all mapWf = true := by
  cases k <;> unfold headWord <;> dsimp only
  case port =>
    split
    case h_6 =>
      split
      · exact fmtWord_wf _
      · split <;> decide
    all_goals decide
  all_goals (repeat' split) <;> decide

theorem alignWord_wf (idx : Nat) : (alignWord idx).all mapWf = true := by
  unfold alignWord
  (repeat' split) <;> decide

theorem neuronBlockWord_wf {unit : Nat} (hu : unit < 0x80) (idx : Nat) : (neuronBlockWord unit idx).all mapWf = true := by
  unfold neuronBlockWord
  split
  · refine mapWf_singleton (Nat.le_refl 32) nofun ?_
    simp only [Field.rwl, Field.within]
    omega
  · (repeat' split) <;> decide

theorem neuronConvWord_wf {unit : Nat} (hu : unit < 0x88) (idx : Nat) : (neuronConvWord unit idx).all mapWf = true := by
  unfold neuronConvWord
  split
  · refine mapWf_singleton (Nat.le_refl 32) nofun ?_
    simp only [Field.rwl, Field.within]
    omega
  · (repeat' split) <;> decide

theorem routerWord_wf (k : RouterUnit) (idx : Nat) : (routerWord k idx).all mapWf = true := by
  unfold routerWord
  (repeat' split) <;> decide

theorem queueWord_wf (k : Nat) : (queueWord k).all mapWf = true := by
  unfold queueWord
  split <;> decide

theorem queueEngineWord_wf (idx : Nat) : (queueEngineWord idx).all mapWf = true := by
  unfold queueEngineWord
  split <;> decide

theorem checkvalWord_wf (idx : Nat) : (checkvalWord idx).all mapWf = true := by
  unfold checkvalWord
  split <;> decide

theorem trackerSource_wf (o : Nat) : (trackerSource o).all mapWf = true := by
  unfold trackerSource
  (repeat' split) <;> decide

theorem trackerRegion_wf (idx : Nat) : (trackerRegion idx).all mapWf = true := by
  unfold trackerRegion
  split
  case h_7 =>
    by_cases hr : idx < 0x208 <;> simp only [hr, if_true, if_false]
    all_goals
      split
      · decide
      · split
        · exact trackerSource_wf _
        · (repeat' split) <;> decide
  all_goals decide

theorem trackerModule_wf (idx : Nat) : (trackerModule idx).all mapWf = true := by
  unfold trackerModule
  split <;> decide

theorem fusionRegion_wf (idx : Nat) : (fusionRegion idx).all mapWf = true := by
  unfold fusionRegion
  (repeat' split) <;> decide

theorem fusionModule_wf (idx : Nat) : (fusionModule idx).all mapWf = true := by
  unfold fusionModule
  (repeat' split) <;> decide

theorem tileWord_wf (idx : Nat) : (tileWord idx).all mapWf = true := by
  unfold tileWord
  (repeat' split) <;> decide

theorem quernWord_wf (idx : Nat) : (quernWord idx).all mapWf = true := by
  unfold quernWord
  (repeat' split) <;> decide

theorem edgeWord_wf (idx : Nat) : (edgeWord idx).all mapWf = true := by
  unfold edgeWord
  (repeat' split) <;> decide

theorem postWord_wf (idx : Nat) : (postWord idx).all mapWf = true := by
  unfold postWord
  split <;> decide

theorem postBoxWord_wf (idx : Nat) : (postBoxWord idx).all mapWf = true := by
  unfold postBoxWord
  (repeat' split) <;> decide

theorem factoryMac_lt (p : Nat) : factoryMac p < 2 ^ 48 := by
  unfold factoryMac
  split <;> omega

theorem tailWord_wf (k : TailUnit) (idx : Nat) : (tailWord k idx).all mapWf = true := by
  cases k <;> unfold tailWord <;> dsimp only
  case main =>
    split
    case h_5 | h_6 => exact mapWf_singleton (by decide) nofun (Nat.mod_lt _ (by decide))
    case h_7 | h_8 => exact mapWf_singleton (by decide) nofun (Nat.div_lt_of_lt_mul (factoryMac_lt _))
    all_goals (repeat' split) <;> decide
  all_goals (repeat' split) <;> decide

theorem auxChannelWord_wf (idx : Nat) : (auxChannelWord idx).all mapWf = true := by
  unfold auxChannelWord
  (repeat' split) <;> decide

theorem auxModuleWord_wf (idx : Nat) : (auxModuleWord idx).all mapWf = true := by
  unfold auxModuleWord
  split <;> decide

theorem spokePortWord_wf (idx : Nat) : (spokePortWord idx).all mapWf = true := by
  unfold spokePortWord
  (repeat' split) <;> decide

theorem spokeChainWord_wf (idx : Nat) : (spokeChainWord idx).all mapWf = true := by
  unfold spokeChainWord
  split <;> decide

theorem spokeNodeWord_wf (idx : Nat) : (spokeNodeWord idx).all mapWf = true := by
  unfold spokeNodeWord
  split <;> decide

theorem spokeIdWord_wf (idx : Nat) : (spokeIdWord idx).all mapWf = true := by
  unfold spokeIdWord
  split <;> decide

theorem sdioWord_wf (idx : Nat) : (sdioWord idx).all mapWf = true := by
  unfold sdioWord
  (repeat' split) <;> decide

theorem powerWord_wf (idx : Nat) : (powerWord idx).all mapWf = true := by
  unfold powerWord
  (repeat' split) <;> decide

theorem monitorWord_wf (idx : Nat) : (monitorWord idx).all mapWf = true := by
  unfold monitorWord
  split <;> decide

theorem snapWord_wf (idx : Nat) : (snapWord idx).all mapWf = true := by
  unfold snapWord
  split <;> decide

theorem securityWord_wf (idx : Nat) : (securityWord idx).all mapWf = true := by
  unfold securityWord
  split <;> decide

theorem bistWord_wf (idx : Nat) : (bistWord idx).all mapWf = true := by
  unfold bistWord
  split <;> decide

theorem ethWord_wf (idx : Nat) : (ethWord idx).all mapWf = true := by
  unfold ethWord
  (repeat' split) <;> decide

theorem millerWord_wf (idx : Nat) : (millerWord idx).all mapWf = true := by
  unfold millerWord
  split
  case h_13 => cases Config.factoryOk <;> decide
  all_goals (repeat' split) <;> decide

/-! ### The lookup over all blocks -/

/-- The fields of a word that a lookup finds make a well-formed map. -/
def Lookup.wf : Lookup → Bool
  | .word fs => mapWf fs
  | _ => true

theorem Lookup.pick_wf {here : Option (List Field)} (h : here.all mapWf = true) (elsewhere : Bool) :
    (Lookup.pick here elsewhere).wf = true := by
  cases here with
  | some fs => exact h
  | none => cases elsewhere <;> rfl

theorem Lookup.pick_wf_of_unit {here : Option (List Field)} (h : here.all mapWf = true) (elsewhere : Bool) (c : Prop)
    [Decidable c] : (if c then Lookup.pick here elsewhere else .notPresent).wf = true := by
  split
  · exact Lookup.pick_wf h elsewhere
  · rfl

theorem timeLookup_wf (u idx : Nat) : (timeLookup u idx).wf = true := by
  unfold timeLookup
  split
  case h_1 => rfl
  case h_2 t ht => exact Lookup.pick_wf (timeWord_wf (fun d e => timeUnit_domain (ht.trans (congrArg some e))) idx) _

theorem headLookup_wf (u idx : Nat) : (headLookup u idx).wf = true := by
  unfold headLookup
  split
  · rfl
  · exact Lookup.pick_wf (headWord_wf _ idx) _

theorem neuronLookup_wf (u idx : Nat) : (neuronLookup u idx).wf = true := by
  unfold neuronLookup
  split
  · exact Lookup.pick_wf (neuronBlockWord_wf ‹_› idx) _
  · split
    · exact Lookup.pick_wf (neuronConvWord_wf ‹_› idx) _
    · rfl

theorem monitorLookup_wf (u idx : Nat) :
    (if u < 64 then Lookup.pick (monitorWord idx) (snapWord idx).isSome
      else if u = 64 then .pick (snapWord idx) (monitorWord idx).isSome else .notPresent).wf = true := by
  split
  · exact Lookup.pick_wf (monitorWord_wf idx) _
  · exact Lookup.pick_wf_of_unit (snapWord_wf idx) _ _

theorem millerMap_wf (idx : Nat) : ((archWord idx).orElse fun _ => millerWord idx).all mapWf = true := by
  have h := archWord_wf idx
  cases e : archWord idx with
  | some fs =>
    rw [e] at h
    exact h
  | none => exact millerWord_wf idx

theorem routerLookup_wf (u idx : Nat) : (routerLookup u idx).wf = true := by
  unfold routerLookup
  split
  · rfl
  · exact Lookup.pick_wf (routerWord_wf _ idx) _

theorem trackerLookup_wf (u idx : Nat) : (trackerLookup u idx).wf = true := by
  unfold trackerLookup
  split
  · exact Lookup.pick_wf (trackerRegion_wf idx) _
  · exact Lookup.pick_wf_of_unit (trackerModule_wf idx) _ _

theorem fusionLookup_wf (u idx : Nat) : (fusionLookup u idx).wf = true := by
  unfold fusionLookup
  split
  · exact Lookup.pick_wf (fusionRegion_wf idx) _
  · exact Lookup.pick_wf_of_unit (fusionModule_wf idx) _ _

theorem postLookup_wf (u idx : Nat) : (postLookup u idx).wf = true := by
  unfold postLookup
  split
  · refine Lookup.pick_wf ?_ _
    split
    · exact postWord_wf idx
    · exact postBoxWord_wf idx
  · exact Lookup.pick_wf_of_unit (postWord_wf idx) _ _

theorem tailLookup_wf (u idx : Nat) : (tailLookup u idx).wf = true := by
  unfold tailLookup
  split
  · rfl
  · exact Lookup.pick_wf (tailWord_wf _ idx) _

theorem auxLookup_wf (u idx : Nat) : (auxLookup u idx).wf = true := by
  unfold auxLookup
  split
  · exact Lookup.pick_wf (auxChannelWord_wf idx) _
  · exact Lookup.pick_wf_of_unit (auxModuleWord_wf idx) _ _

theorem checkvalLookup_wf (u idx : Nat) : (checkvalLookup u idx).wf = true :=
  Lookup.pick_wf_of_unit (checkvalWord_wf idx) _ _

theorem queueLookup_wf (u idx : Nat) : (queueLookup u idx).wf = true := by
  unfold queueLookup
  split
  · split
    · have h := queueWord_wf (idx % 16)
      split
      case h_1 fs e =>
        rw [e] at h
        exact h
      case h_2 => rfl
    · split <;> rfl
  · split
    · (repeat' split) <;> decide
    · split
      · exact Lookup.pick_wf (queueEngineWord_wf idx) _
      · split
        · split
          · (repeat' split) <;> decide
          · split <;> rfl
        · rfl

theorem spokeLookup_wf (u idx : Nat) : (spokeLookup u idx).wf = true := by
  unfold spokeLookup
  dsimp only
  split
  · exact Lookup.pick_wf (spokePortWord_wf idx) _
  · split
    · exact Lookup.pick_wf (spokeChainWord_wf idx) _
    · exact Lookup.pick_wf (spokeNodeWord_wf idx) _
    · exact Lookup.pick_wf (spokeIdWord_wf idx) _
    · rfl

theorem lookup_wf (id : Nat) : (lookup id).wf = true := by
  unfold lookup
  dsimp only
  split
  case h_1 => exact Lookup.pick_wf_of_unit (millerMap_wf _) _ _
  case h_2 => exact headLookup_wf _ _
  case h_3 => exact Lookup.pick_wf_of_unit (alignWord_wf _) _ _
  case h_4 => exact routerLookup_wf _ _
  case h_5 => exact neuronLookup_wf _ _
  case h_6 => exact trackerLookup_wf _ _
  case h_7 => exact fusionLookup_wf _ _
  case h_8 => exact Lookup.pick_wf_of_unit (tileWord_wf _) _ _
  case h_9 => exact Lookup.pick_wf_of_unit (quernWord_wf _) _ _
  case h_10 => exact Lookup.pick_wf_of_unit (edgeWord_wf _) _ _
  case h_11 => exact postLookup_wf _ _
  case h_12 => exact tailLookup_wf _ _
  case h_13 => exact timeLookup_wf _ _
  case h_14 => exact Lookup.pick_wf_of_unit (positionWord_wf _) _ _
  case h_15 => exact auxLookup_wf _ _
  case h_16 => exact queueLookup_wf _ _
  case h_17 => exact checkvalLookup_wf _ _
  case h_18 => exact spokeLookup_wf _ _
  case h_19 => exact Lookup.pick_wf_of_unit (ethWord_wf _) _ _
  case h_20 => exact Lookup.pick_wf_of_unit (powerWord_wf _) _ _
  case h_21 => exact monitorLookup_wf _ _
  case h_22 => exact Lookup.pick_wf_of_unit (securityWord_wf _) _ _
  case h_23 => exact Lookup.pick_wf_of_unit (bistWord_wf _) _ _
  case h_24 => exact Lookup.pick_wf_of_unit (sdioWord_wf _) _ _
  case h_25 => rfl

/-- A word of the parameter maps has well-formed fields, and each reset code fits in its field. -/
theorem fieldsWf_of_lookup {id : Nat} {fs : List Field} (h : lookup id = .word fs) :
    fieldsWf fs = true ∧ ∀ f ∈ fs, f.rst < 2 ^ f.width := by
  have k := lookup_wf id
  rw [h] at k
  simpa only [Lookup.wf, mapWf, Bool.and_eq_true, List.all_eq_true, decide_eq_true_eq] using k

theorem resetWord_of_lookup {id : Nat} {fs : List Field} (h : lookup id = .word fs) : resetWord id = resetOf fs := by
  unfold resetWord
  rw [h]

/-- Settles O51: every map is well formed, so each field of a reset word reads as the code that was placed there. -/
theorem parameterMapsAreWellFormed : Obligations.ParameterMapsAreWellFormed := by
  intro id fs h
  obtain ⟨hw, hr⟩ := fieldsWf_of_lookup h
  refine ⟨hw, fun f hf => ⟨hr f hf, ?_⟩⟩
  rw [resetWord_of_lookup h, Field.get_resetOf hw hf (hr f hf)]

end Sys2Proof.Machine
end

section
/-!
PROOF. An event at a unit that is there: its outcome when it is due and when it is not.
-/

namespace Sys2Proof.Machine

theorem onUnit_present {ok : Bool} (h : ok = true) (s t : State) : onUnit ok s t = .next t := by
  subst h
  rfl

theorem whenDue_of_due {due : Bool} (h : due = true) (f : State → State) (s : State) : whenDue due f s = f s := by
  subst h
  rfl

theorem whenDue_of_not_due {due : Bool} (h : due = false) (f : State → State) (s : State) : whenDue due f s = s := by
  subst h
  rfl

end Sys2Proof.Machine
end

section
/-!
PROOF. The camera ports: what a packet is to a port, the refractory sweep and the sync pulse (O18).
-/

namespace Sys2Proof.Machine

/-! ### A packet at a port -/

/-- The state in which port `p` is marked as receiving now. -/
def State.sawPacket (s : State) (p : Nat) : State := s.onPort p fun q => { q with lastRx := some s.loc }

/-- The byte clock and the lane clocks of camera port `p`. -/
def portClocks (p : Nat) : List Nat := (45 + p) :: (upTo 4).map (49 + 4 * p + ·)

/-- The receiver of port `p` takes no packet further: it is not enabled, was not when the packet began, or the input is a replay
(R93, R120). -/
def State.packetPasses (s : State) (p : Nat) (k : CsiPacket) : Bool :=
  !s.bitAt (hpId p 0) 0 || k.begunBefore || (s.armed && s.pos.src == .replay)

theorem State.packetPasses_iff {s : State} {p : Nat} {k : CsiPacket} :
    s.packetPasses p k = true ↔
      s.bitAt (hpId p 0) 0 = false ∨ k.begunBefore = true ∨ (s.armed = true ∧ s.pos.src = .replay) := by
  simp [State.packetPasses, or_assoc]

section

variable {s : State} {p : Nat} (k : CsiPacket) (hp : p < 4)

include hp

theorem exec_csi2PacketRx :
    exec (.csi2PacketRx p k) s = .next (whenDue (s.running && s.domOn (32 + p) && !bitOf s.mgmt.board.tripped p)
      (fun s => if s.packetPasses p k then s.sawPacket p
        else ((s.sawPacket p).relocked (portClocks p)).csiPacket p k) s) :=
  onUnit_present (decide_eq_true hp) _ _

/-- The events of a port whose camera supply has tripped stop (R472). -/
theorem exec_csi2PacketRx_tripped (ht : bitOf s.mgmt.board.tripped p = true) : exec (.csi2PacketRx p k) s = .next s := by
  rw [exec_csi2PacketRx k hp, whenDue_of_not_due (by simp [ht])]

variable (hr : s.running = true) (hd : s.domOn (32 + p) = true) (ht : bitOf s.mgmt.board.tripped p = false)

include hr hd ht

theorem exec_csi2PacketRx_passed (h : s.packetPasses p k = true) :
    exec (.csi2PacketRx p k) s = .next (s.sawPacket p) := by
  rw [exec_csi2PacketRx k hp, whenDue_of_due (by simp [hr, hd, ht]), if_pos h]

theorem exec_csi2PacketRx_received (h : s.packetPasses p k = false) :
    exec (.csi2PacketRx p k) s = .next (((s.sawPacket p).relocked (portClocks p)).csiPacket p k) := by
  rw [exec_csi2PacketRx k hp, whenDue_of_due (by simp [hr, hd, ht]), if_neg (Bool.eq_false_iff.1 h)]

end

/-! ### A packet at an enabled receiver -/

section

variable {s : State} {p : Nat} {k : CsiPacket}

theorem State.csiPacket_badHeader (h : k.header = .bad) :
    s.csiPacket p k = (s.bump (hpId p 0x102)).flag (hpId p 4) 2 := by
  unfold State.csiPacket
  rw [h]

variable (h : k.header = .good) (hs : s.csiSupported p k = true) (hl : k.isLong = true) (hb : k.buffersFull = false)

include h hs hl hb

/-- A supported long packet with a good header that finds a buffer free: its CRC decides, then its data type (R94 to R97). -/
theorem State.csiPacket_goodHeader :
    s.csiPacket p k =
      if !k.crcOk then (s.bump (hpId p 0x103)).flag (hpId p 4) 2
      else if k.dt == 0x12 then s.diagPacket p k.payload k.pointers
      else if s.armed then s.eventPacket p k
      else s := by
  have e : (HeaderCheck.good == HeaderCheck.corrected) = false := rfl
  simp only [State.csiPacket, h, e, State.bumpIf, hs, hl, hb, Bool.not_true, Bool.false_eq_true, if_false]

theorem State.csiPacket_crcError (hc : k.crcOk = false) :
    s.csiPacket p k = (s.bump (hpId p 0x103)).flag (hpId p 4) 2 := by
  rw [State.csiPacket_goodHeader h hs hl hb, hc]
  rfl

theorem State.csiPacket_diagnostic (hc : k.crcOk = true) (hd : k.dt = 0x12) :
    s.csiPacket p k = s.diagPacket p k.payload k.pointers := by
  rw [State.csiPacket_goodHeader h hs hl hb, hc, hd]
  rfl

theorem State.csiPacket_event (hc : k.crcOk = true) (hd : k.dt ≠ 0x12) (ha : s.armed = true) :
    s.csiPacket p k = s.eventPacket p k := by
  rw [State.csiPacket_goodHeader h hs hl hb, hc, beq_eq_false_iff_ne.2 hd, ha]
  rfl

end

/-! ### The sweep and the pulse -/

/-- The sweep clears the valid mark of a cell that is valid and at least 2^14 units old (R104). -/
theorem exec_refractSweep_old {s : State} {p cell old : Nat} {t0 : Int} (hp : p < 4) (hc : cell < 131072)
    (ht : (s.port p).t0 = some t0) (ho : old = Sparse.get (fun _ => 0) (s.port p).refract cell) (hv : 32768 ≤ old)
    (ha : 16384 ≤ (((s.dev - t0).fdiv 1000).toNat / 2 ^ s.fld (hpId p 2) 12 2 + 32768 - old % 32768) % 32768) :
    exec (.refractSweep p cell) s = .next (s.onPort p fun q =>
      { q with refract := Sparse.set (fun _ => 0) q.refract cell (old - 32768) }) := by
  have e : exec (.refractSweep p cell) s = execRefractSweep p cell s := rfl
  subst ho
  rw [e, execRefractSweep, onUnit_present (by simp [hp, hc])]
  simp only [ht, hv, ha, decide_true, Bool.and_self, if_true]

theorem exec_camSyncPulse_due {s : State} {p : Nat} {t0 : Int} (hp : p < 4) (ht : (s.port p).t0 = some t0)
    (ha : s.armed = true) (he : s.bitAt (hpId p 0) 0 = true) (hd : t0 + (s.port p).edge * 1000000 ≤ s.dev) :
    exec (.camSyncPulse p) s = .next ((s.onPort p fun q =>
      { q with sync := true, edge := q.edge + 1, syncEnd := s.loc + s.fld (hpId p 1) 25 5 * 1000 }).captureEdge
        (4 + p) (s.bitAt (hpId p 1) 24)) := by
  have e : exec (.camSyncPulse p) s = execCamSyncPulse p s := rfl
  rw [e, execCamSyncPulse, onUnit_present (decide_eq_true hp)]
  simp only [ht]
  rw [whenDue_of_due (by simp [ha, he, hd])]

/-- Settles O18: what a packet is to its port, by the supply, the receiver, the header, the CRC and the data type. -/
theorem cameraPackets : Obligations.CameraPackets := by
  intro s p hp
  refine ⟨fun hr hd k u hu => ⟨fun ht => exec_csi2PacketRx_tripped k hp ht, fun ht h => ?_,
    fun ht he hb hn v hv => ?_⟩, ?_, ?_⟩
  · subst hu
    exact exec_csi2PacketRx_passed k hp hr hd ht (State.packetPasses_iff.2 h)
  · subst hu hv
    have hpass : s.packetPasses p k = false := by
      rw [← Bool.not_eq_true, State.packetPasses_iff]
      rintro (h | h | ⟨h, h'⟩)
      · simp [he] at h
      · simp [hb] at h
      · exact hn.elim (by simp [h]) (· h')
    have received := exec_csi2PacketRx_received k hp hr hd ht hpass
    refine ⟨fun h => ?_, fun h hs hl hf => ⟨fun hc => ?_, fun hc => ⟨fun hdt => ?_, fun hdt ha => ?_⟩⟩⟩
    · exact received.trans (congrArg _ (State.csiPacket_badHeader h))
    · exact received.trans (congrArg _ (State.csiPacket_crcError h hs hl hf hc))
    · exact received.trans (congrArg _ (State.csiPacket_diagnostic h hs hl hf hc hdt))
    · exact received.trans (congrArg _ (State.csiPacket_event h hs hl hf hc hdt ha))
  · intro cell t0 hc ht hv ha
    exact exec_refractSweep_old hp hc ht rfl hv ha
  · intro t0 ht ha he hd
    exact exec_camSyncPulse_due hp ht ha he hd

end Sys2Proof.Machine
end

section
/-!
PROOF. Block errors, region failures, lost clocks and the retest of a failed region (O58).
-/

namespace Sys2Proof.Machine

/-! ### Block errors -/

theorem exec_blockErrorReport {s : State} {rep : ErrorReport} (hr : s.running = true) (hb : inRange 1 24 rep.block = true)
    (hi : rep.block = 5 → rep.inst < 136) :
    exec (.blockErrorReport rep) s =
      .next (if rep.block = 0x10 ∧ rep.code = 3 then s.queueReset (rep.detail.toNat % 4096) else s.blockError rep) := by
  have e : exec (.blockErrorReport rep) s = execBlockErrorReport rep s := rfl
  have hu : (rep.block != 5 || decide (rep.inst < 136)) = true := by simpa [imp_iff_not_or] using hi
  rw [e, execBlockErrorReport, onUnit_present (by rw [hb, hu]; rfl), whenDue_of_due hr]
  simp only [Bool.and_eq_true, decide_eq_true_eq]

section

variable {s : State} {rep : ErrorReport}

/-- Storage errors of neuron blocks have the blocks' own rule (R151). -/
theorem State.ownRule_neuron (hb : rep.block = 5) (hi : rep.inst < 128) : s.ownRule rep = s.neuronError rep := by
  simp only [State.ownRule, hb, hi, decide_true, Bool.and_self, if_true]

/-- Beyond neuron blocks only an uncorrectable word has a rule of its block. -/
theorem State.ownRule_other_code (hc : rep.code ≠ 1) (hb : rep.block ≠ 5 ∨ 128 ≤ rep.inst) : s.ownRule rep = s := by
  have hn : (decide (rep.block = 5) && decide (rep.inst < 128)) = false := by
    rw [← Bool.not_eq_true, Bool.and_eq_true, decide_eq_true_eq, decide_eq_true_eq]
    omega
  simp only [State.ownRule, hn, bne_iff_ne.2 hc, Bool.false_eq_true, if_false, if_true]

/-- Track slots (R24). -/
theorem State.ownRule_slot (hc : rep.code = 1) (hb : rep.block = 6) : s.ownRule rep = s.slotError rep.inst rep.detail.toNat := by
  simp [State.ownRule, hc, hb]

/-- Words of the queues (R304). -/
theorem State.ownRule_queue (hc : rep.code = 1) (hb : rep.block = 0x10) :
    s.ownRule rep = s.queueError (rep.detail.toNat % 4096) (rep.detail.toNat / 65536 % 65536) := by
  simp [State.ownRule, hc, hb]

end

/-! ### Failures of a region -/

section

variable {s : State} {r : Nat}

/-- A region already failed or failing is not failed again. -/
theorem State.regionFault_again (h : s.region r = 2 ∨ r ∈ s.mgmt.power.failing) (code : Nat) : s.regionFault r code = s := by
  have k : (decide (s.region r = 2) || s.mgmt.power.failing.contains r) = true := by simpa using h
  rw [State.regionFault, if_pos k]

variable (hr : r < 8)

include hr

theorem exec_regionFailureReport (h : s.running = true) :
    exec (.regionFailureReport r) s =
      .next ({ s with hubFails := s.hubFails.filter (· != r) }.regionFault r (if r ∈ s.hubFails then 0x0F else 1)) := by
  have e : exec (.regionFailureReport r) s = execRegionFailureReport r s := rfl
  rw [e, execRegionFailureReport, onUnit_present (decide_eq_true hr), whenDue_of_due h]
  simp only [List.contains_iff_mem]

theorem exec_stepDeadlineMiss (h : s.running = true) (hc : s.pos.cur.isSome = true) (hp : s.runs r = true)
    (hf : ∃ b, b < 16 ∧ (s.block (16 * r + b)).finished = false)
    (hd : s.fld (pid 1 0 0x130) 0 16 * 1000 ≤ locDiff s.loc s.pos.stepAt) :
    exec (.stepDeadlineMiss r) s = .next (s.regionFault r 7) := by
  have e : exec (.stepDeadlineMiss r) s = execStepDeadlineMiss r s := rfl
  have hu : ((upTo 16).any fun b => !(s.block (16 * r + b)).finished) = true := by simpa [upTo] using hf
  rw [e, execStepDeadlineMiss, onUnit_present (decide_eq_true hr), whenDue_of_due (by rw [h, hc, hp, hu, decide_eq_true hd]; rfl)]

theorem exec_hubHeartbeatMiss (h : s.awake = true) : exec (.hubHeartbeatMiss r) s = .next (s.regionFault r 8) := by
  have e : exec (.hubHeartbeatMiss r) s = execHubHeartbeatMiss r s := rfl
  rw [e, execHubHeartbeatMiss, onUnit_present (decide_eq_true hr), whenDue_of_due h]

end

/-! ### Lost clocks -/

/-- The state in which the source of clock domain `d` has lost lock. -/
def State.clockLost (s : State) (d : Nat) : State := s.onFault fun f => { f with clocksLost := f.clocksLost ++ [d] }

/-- A region's domain fails the region; domains 32 to 44, 93 and 99 are fatal; any other is reported (R417, R426). -/
theorem exec_clockLockLoss {s : State} {d : Nat} (hd : d < 100) (hr : s.running = true) (hl : s.clockLock d = true) :
    exec (.clockLockLoss d) s =
      .next (if d < 32 then (s.clockLost d).regionFault (d % 8) 6
        else if d < 45 ∨ d = 93 ∨ d = 99 then (s.clockLost d).fatal 5 d
        else (s.clockLost d).report (clockOwner d).1 (clockOwner d).2 6 d) := by
  have e : exec (.clockLockLoss d) s = execClockLockLoss d s := rfl
  rw [e, execClockLockLoss, onUnit_present (decide_eq_true hd), whenDue_of_due (by rw [hr, hl]; rfl)]
  simp only [Bool.or_eq_true, decide_eq_true_eq, or_assoc, State.clockLost]

/-! ### The retest -/

/-- 1 s after the failure the retest starts, and does not start by itself again (R420). -/
theorem exec_autoRetestTimer {s : State} {r t : Nat} (hf : s.mgmt.fault.failed = some (r, t, true)) (hw : s.awake = true)
    (ha : s.armed = true) (he : s.bitAt (pid 1 0 0x130) 16 = true) (hr : s.region r = 2) (hn : s.mgmt.fault.retest = none)
    (hd : 1000000000 ≤ locDiff s.loc t) :
    exec .autoRetestTimer s = .next ((s.startRetest r).noteFailed r false) := by
  have e : exec .autoRetestTimer s = execAutoRetestTimer s := rfl
  rw [e, execAutoRetestTimer]
  simp only [hf]
  rw [whenDue_of_due (by rw [hw, ha, he, hr, hn, decide_eq_true hd]; rfl)]

/-- A region in retest is in TEST. -/
theorem State.region_startRetest (s : State) (r : Nat) : (s.startRetest r).region r = 4 :=
  Sparse.get_set_new (fun _ => 0) s.regions (k := r) (v := 4) (by decide)

theorem exec_retestDone {s : State} {r : Nat} {results : List SliceResult} (hr : s.mgmt.fault.retest = some r)
    (hw : s.awake = true) (hc : results.map (·.code) = regionCodes r) :
    exec (.retestDone results) s = .next (if failedOf results = [] then (s.countSlices results).retestPasses r
      else (s.countSlices results).retestFails r) := by
  have e : exec (.retestDone results) s = execRetestDone results s := rfl
  rw [e, execRetestDone]
  simp only [hr]
  rw [whenDue_of_due (by rw [hw, hc]; simp)]
  simp only [List.isEmpty_iff]

/-- Settles O58: the rule of each report, what fails a region, what a lost clock does, and how a retest starts and ends. -/
theorem regionFaults : Obligations.RegionFaults := by
  refine fun s => ⟨fun rep hr hb hi => ⟨fun h => ?_, fun hq hc => ?_, State.ownRule_neuron, State.ownRule_other_code,
    State.ownRule_slot, State.ownRule_queue⟩, fun r hr => ⟨exec_regionFailureReport hr, exec_stepDeadlineMiss hr,
    exec_hubHeartbeatMiss hr, fun code h => State.regionFault_again h code⟩,
    fun d hd hr hl => ⟨s.clockLost d, rfl, exec_clockLockLoss hd hr hl⟩, ?_,
    fun r results hr hw hc => ⟨fun h => ?_, fun h => ?_⟩⟩
  · rw [exec_blockErrorReport hr hb hi, if_neg h]
    rfl
  · rw [exec_blockErrorReport hr hb hi, if_pos ⟨hq, hc⟩]
  · intro r t hf hw ha he hr hn hd
    exact ⟨_, exec_autoRetestTimer hf hw ha he hr hn hd, State.region_startRetest s r, rfl, rfl, rfl⟩
  · rw [exec_retestDone hr hw hc, if_pos h]
  · rw [exec_retestDone hr hw hc, if_neg h]

end Sys2Proof.Machine
end

section
/-!
PROOF. What samples, reports and fatal errors leave alone, and words read back after them.
-/

namespace Sys2Proof.Machine

/-! ### Words read back -/

section

variable {s t : State} {q : Nat}

theorem State.fld_of_word (h : t.word q = s.word q) (lsb width : Nat) : t.fld q lsb width = s.fld q lsb width := by
  rw [State.fld, State.fld, h]

theorem State.bitAt_of_word (h : t.word q = s.word q) (n : Nat) : t.bitAt q n = s.bitAt q n := by
  rw [State.bitAt, State.bitAt, h]

end

section

variable {s : State} (hw : Sparse.wf resetWord s.regs = true)

include hw

theorem State.wf_setWord (id : Nat) (w : Word) : Sparse.wf resetWord (s.setWord id w).regs = true := Sparse.set_wf id w hw

theorem State.wf_setFld (id lsb width v : Nat) : Sparse.wf resetWord (s.setFld id lsb width v).regs = true :=
  State.wf_setWord hw _ _

theorem State.wf_flag (id n : Nat) : Sparse.wf resetWord (s.flag id n).regs = true := State.wf_setFld hw _ _ _ _

theorem State.wf_bump (id n : Nat) : Sparse.wf resetWord (s.bump id n).regs = true := by
  unfold State.bump
  split
  · exact hw
  · exact State.wf_setWord hw _ _

theorem State.word_setFld_other {id q : Nat} (h : q ≠ id) (lsb width v : Nat) : (s.setFld id lsb width v).word q = s.word q := by
  rw [State.word_setFld hw, if_neg h]

theorem State.word_bump_other {id q : Nat} (h : q ≠ id) (n : Nat) : (s.bump id n).word q = s.word q := by
  rw [State.word_bump hw, if_neg h]

/-- A bit set to a value reads as that value. -/
theorem State.bitAt_setFld_bit {n : Nat} (hn : n < 32) (id : Nat) (b : Bool) : (s.setFld id n 1 (bit b)).bitAt id n = b := by
  have k := State.fld_setFld_same hw (id := id) (lsb := n) (width := 1) (bit b) (by omega)
  unfold State.fld at k
  rw [State.bitAt, bitOf_eq_bitsOf, k]
  cases b <;> rfl

end

/-! ### Folds -/

/-- What each step of a fold keeps, the fold keeps. -/
theorem forEach_keeps {α β : Type} (g : State → β) {f : State → α → State} (h : ∀ s x, g (f s x) = g s) :
    ∀ (xs : List α) (s : State), g (forEach xs f s) = g s
  | [], _ => rfl
  | x :: xs, s => (forEach_keeps g h xs (f s x)).trans (h s x)

/-! ### Samples -/

section

variable (s : State) (quantity inst : Nat) (v : Int)

@[simp] theorem State.sample_regs : (s.sample quantity inst v).regs = s.regs := by
  unfold State.sample
  refine forEach_keeps (·.regs) (fun _ _ => ?_) _ _
  rfl

@[simp] theorem State.sample_mem : (s.sample quantity inst v).mem = s.mem := by
  unfold State.sample
  refine forEach_keeps (·.mem) (fun _ _ => ?_) _ _
  rfl

@[simp] theorem State.sample_armed : (s.sample quantity inst v).armed = s.armed := by
  unfold State.sample
  refine forEach_keeps (·.armed) (fun _ _ => ?_) _ _
  rfl

@[simp] theorem State.sample_fault : (s.sample quantity inst v).mgmt.fault = s.mgmt.fault := by
  unfold State.sample
  refine forEach_keeps (·.mgmt.fault) (fun _ _ => ?_) _ _
  rfl

theorem State.word_sample (q : Nat) : (s.sample quantity inst v).word q = s.word q := by
  rw [State.word, State.word, State.sample_regs]

end

/-! ### Reports -/

/-- What a report comes to: a log entry, a place in the queue, or one of their two counters (R425, R434). -/
theorem State.logEntry_cases (s : State) (level action : Nat) (r : ErrorReport) :
    s.logEntry level action r = s.bump (pid 1 0 0x148) ∨ ∃ f, s.logEntry level action r = s.onLogs f := by
  unfold State.logEntry
  dsimp only
  split
  · exact .inl rfl
  · exact .inr ⟨_, rfl⟩

theorem State.queueReport_cases (s : State) (level : Nat) (r : ErrorReport) :
    s.queueReport level r = s.bump (pid 1 0 0x147) ∨ ∃ rs, s.queueReport level r = { s with reports := rs } := by
  unfold State.queueReport
  split
  · exact .inr ⟨_, rfl⟩
  · exact .inl rfl

theorem State.report_cases (s : State) (block inst code detail : Nat) :
    ((∃ f, s.report block inst code detail = s.onLogs f) ∨ ∃ rs, s.report block inst code detail = { s with reports := rs }) ∨
      s.report block inst code detail = s.bump (pid 1 0 0x147) ∨ s.report block inst code detail = s.bump (pid 1 0 0x148) := by
  unfold State.report State.reportAt
  split
  · exact (State.queueReport_cases s _ _).elim (fun h => .inr (.inl h)) fun h => .inl (.inr h)
  · exact (State.logEntry_cases s _ _ _).elim (fun h => .inr (.inr h)) fun h => .inl (.inl h)

section

variable (s : State) (block inst code detail : Nat)

@[simp] theorem State.report_mem : (s.report block inst code detail).mem = s.mem := by
  obtain (⟨f, e⟩ | ⟨rs, e⟩) | e | e := State.report_cases s block inst code detail <;> simp [e]

@[simp] theorem State.report_armed : (s.report block inst code detail).armed = s.armed := by
  obtain (⟨f, e⟩ | ⟨rs, e⟩) | e | e := State.report_cases s block inst code detail <;> simp [e]

/-- A report changes no word but its two counters. -/
theorem State.word_report {q : Nat} (hw : Sparse.wf resetWord s.regs = true) (h : q ≠ pid 1 0 0x147) (k : q ≠ pid 1 0 0x148) :
    (s.report block inst code detail).word q = s.word q := by
  obtain (⟨f, e⟩ | ⟨rs, e⟩) | e | e := State.report_cases s block inst code detail <;> rw [e]
  · rfl
  · rfl
  · exact State.word_bump_other hw h 1
  · exact State.word_bump_other hw k 1

end

/-! ### Fatal errors -/

@[simp] theorem State.logEntry_mem (s : State) (level action : Nat) (r : ErrorReport) :
    (s.logEntry level action r).mem = s.mem := by
  obtain e | ⟨f, e⟩ := State.logEntry_cases s level action r <;> simp [e]

@[simp] theorem State.logFatal_mem (s : State) (cause detail : Nat) : (s.logFatal cause detail).mem = s.mem := by
  unfold State.logFatal
  split
  · exact State.logEntry_mem _ _ _ _
  · rfl

@[simp] theorem State.capture_mem (s : State) (u : Nat) (falling : Bool) : (s.capture u falling).mem = s.mem := by
  unfold State.capture
  split
  · rfl
  · exact State.bump_mem _ _ _

@[simp] theorem State.captureEdge_mem (s : State) (src : Nat) (falling : Bool) : (s.captureEdge src falling).mem = s.mem := by
  unfold State.captureEdge
  refine forEach_keeps (·.mem) (fun s u => ?_) _ _
  split
  · exact State.capture_mem _ _ _
  · rfl

@[simp] theorem State.endSync_mem (s : State) (p : Nat) : (s.endSync p).mem = s.mem := by
  unfold State.endSync
  split
  · exact State.captureEdge_mem _ _ _
  · rfl

@[simp] theorem State.stopPorts_mem (s : State) : s.stopPorts.mem = s.mem := by
  unfold State.stopPorts
  refine forEach_keeps (·.mem) (fun s p => ?_) _ _
  exact State.endSync_mem s p

@[simp] theorem State.setLaunchQ_mem (s : State) (p : Nat) (q : List Launch) : (s.setLaunchQ p q).mem = s.mem := by
  unfold State.setLaunchQ
  split <;> rfl

/-- A fatal error writes no LPDDR5X before its dump. -/
@[simp] theorem State.fatal_mem (s : State) (cause detail : Nat) : (s.fatal cause detail).mem = s.mem := by
  unfold State.fatal State.haltPipeline
  split <;> simp

/-- The first fatal error is the one that is handled, and asserts FAULT_N (R427, R428). -/
theorem State.fatal_fault {s : State} (h : s.mgmt.fault.fatal = none) (cause detail : Nat) :
    (s.fatal cause detail).mgmt.fault.fatal = some cause ∧ (s.fatal cause detail).mgmt.fault.faultN = true := by
  have k : ¬ s.mgmt.fault.fatal.isSome = true := by simp [h]
  rw [State.fatal, if_neg k]
  exact ⟨rfl, rfl⟩

end Sys2Proof.Machine
end

section
/-!
PROOF. Monitor swaps and samples, temperatures, rails, camera supplies and the Ethernet links (O60).
-/

namespace Sys2Proof.Machine

/-! ### Monitor channels -/

/-- A channel after a swap at device time `t`, its CFG word then being `cfg` (R432). -/
def MonChan.swapped (c : MonChan) (cfg : Nat) (t : Int) : MonChan :=
  { live := .empty, snap := c.live, changed := false, quantity := bitsOf cfg 0 8, inst := bitsOf cfg 8 16, time := t,
    snapChanged := c.changed, tickAt := c.tickAt }

theorem State.mon_swapMon {s : State} (hw : Sparse.wf (fun _ => MonChan.reset) s.mgmt.mon = true) (n q : Nat) :
    (s.swapMon n).mon q = if q = n then (s.mon n).swapped (s.word (pid 0x15 n 0)).toNat s.dev else s.mon q :=
  State.mon_onMon hw n q _

theorem State.wf_onMon {s : State} (hw : Sparse.wf (fun _ => MonChan.reset) s.mgmt.mon = true) (n : Nat)
    (f : MonChan → MonChan) : Sparse.wf (fun _ => MonChan.reset) (s.onMon n f).mgmt.mon = true :=
  Sparse.modify_wf n f hw

/-- A swap reads its own channel, the configuration and the time only, so each channel of the list is swapped as it was. -/
theorem State.mon_forEach_swapMon : ∀ {ns : List Nat}, ns.Nodup → ∀ {s : State},
    Sparse.wf (fun _ => MonChan.reset) s.mgmt.mon = true → ∀ q, (forEach ns State.swapMon s).mon q =
      if q ∈ ns then (s.mon q).swapped (s.word (pid 0x15 q 0)).toNat s.dev else s.mon q
  | [], _, _, _, _ => rfl
  | n :: ns, hn, s, hw, q => by
    obtain ⟨hnot, hn⟩ := List.nodup_cons.1 hn
    have rest := State.mon_forEach_swapMon hn (s := s.swapMon n) (State.wf_onMon hw n _) q
    refine Eq.trans rest ?_
    rw [State.mon_swapMon hw]
    by_cases h : q = n
    · subst h
      rw [if_neg hnot, if_pos rfl, if_pos List.mem_cons_self]
    · rw [if_neg h]
      simp only [List.mem_cons, h, false_or]
      rfl

/-- The state with all 64 channels swapped, which takes the next period from now on (R432). -/
def State.swapAll (s : State) : State :=
  forEach (upTo 64) State.swapMon { s with mgmt := { s.mgmt with snapAt := some s.loc } }

section

variable (s : State)

theorem State.swapAll_regs : s.swapAll.regs = s.regs := by
  unfold State.swapAll
  exact forEach_keeps (·.regs) (f := State.swapMon) (fun _ _ => rfl) _ _

theorem State.swapAll_mem : s.swapAll.mem = s.mem := by
  unfold State.swapAll
  exact forEach_keeps (·.mem) (f := State.swapMon) (fun _ _ => rfl) _ _

theorem State.swapAll_logs : s.swapAll.mgmt.logs = s.mgmt.logs := by
  unfold State.swapAll
  exact forEach_keeps (·.mgmt.logs) (f := State.swapMon) (fun _ _ => rfl) _ _

end

theorem State.mon_swapAll {s : State} (c : s.canonical) {n : Nat} (hn : n < 64) :
    s.swapAll.mon n = (s.mon n).swapped (s.word (pid 0x15 n 0)).toNat s.dev := by
  have listed : n ∈ upTo 64 := List.mem_range.2 hn
  have swapped := State.mon_forEach_swapMon (ns := upTo 64) List.nodup_range
    (s := { s with mgmt := { s.mgmt with snapAt := some s.loc } }) c.mgmt_mon n
  rw [if_pos listed] at swapped
  exact swapped

/-- With no history, the swap of all channels is all that happens (R432, R434). -/
theorem exec_monitorSnapSwap {s : State} (hr : s.running = true) (hd : s.snapDue = true)
    (hb : s.bitAt (pid 0x15 0x40 0) 16 = false) : exec .monitorSnapSwap s = .next s.swapAll := by
  have e : exec .monitorSnapSwap s = execMonitorSnapSwap s := rfl
  have hk : s.swapAll.bitAt (pid 0x15 0x40 0) 16 = false := by
    rw [State.bitAt, State.word, State.swapAll_regs]
    exact hb
  unfold State.swapAll at hk
  rw [e, execMonitorSnapSwap, whenDue_of_due (by rw [hr, hd]; rfl)]
  simp only [hk, Bool.false_eq_true, if_false, State.swapAll]

theorem exec_monitorSampleTick {s : State} {c : Nat} {v : Word} (hc : c < 64) (hr : s.running = true) (hd : s.tickDue c = true) :
    (s.fld (pid 0x15 c 0) 0 8 = 3 →
      exec (.monitorSampleTick c v) s =
        .next ((s.sampleOn c (s.queue (s.fld (pid 0x15 c 0) 8 16)).words.length).tickTaken c)) ∧
    (s.fld (pid 0x15 c 0) 0 8 = 6 →
      exec (.monitorSampleTick c v) s =
        .next { (s.sampleOn c (Sparse.get (fun _ => 0) s.head.passed c : Nat)).tickTaken c with
          head := { s.head with passed := Sparse.set (fun _ => 0) s.head.passed c 0 } }) ∧
    (s.fld (pid 0x15 c 0) 0 8 = 0xA →
      exec (.monitorSampleTick c v) s = .next ((s.sampleOn c v.toNat).tickTaken c)) := by
  have e : exec (.monitorSampleTick c v) s = execMonitorSampleTick c v s := rfl
  rw [e, execMonitorSampleTick, onUnit_present (decide_eq_true hc), whenDue_of_due (by rw [hr, hd]; rfl)]
  exact ⟨fun h => by simp only [h], fun h => by simp only [h], fun h => by simp only [h]⟩

/-! ### Temperatures -/

/-- A temperature stored and sampled, and its live warning bit at `warm`. -/
def State.tempRead (s : State) (k : Nat) (x : BitVec 16) (warm : Bool) : State :=
  ((s.setWord (pid 1 0 (0x160 + k)) (BitVec.ofNat 32 x.toNat)).sample 8 k x.toInt).setFld thermalId (8 + k) 1 (bit warm)

/-- The same with the sticky warning bit. -/
def State.tempStored (s : State) (k : Nat) (x : BitVec 16) (warm : Bool) : State :=
  (s.tempRead k x warm).flagIf warm thermalId k

theorem signedOf_toNat (x : BitVec 16) : signedOf 16 x.toNat = x.toInt := by
  have h := x.isLt
  rw [BitVec.toInt, signedOf, Nat.mod_eq_of_lt h]
  split <;> split <;> omega

section

variable (s : State) (k : Nat) (x : BitVec 16) (warm : Bool)

@[simp] theorem State.tempStored_mem : (s.tempStored k x warm).mem = s.mem := by
  simp [State.tempStored, State.tempRead]

@[simp] theorem State.tempStored_armed : (s.tempStored k x warm).armed = s.armed := by
  simp [State.tempStored, State.tempRead]

@[simp] theorem State.tempStored_fault : (s.tempStored k x warm).mgmt.fault = s.mgmt.fault := by
  simp [State.tempStored, State.tempRead]

variable {s k} (hw : Sparse.wf resetWord s.regs = true) (hk : k < 8)

include hw

/-- The words after the reading is stored, where the warning bits are written. -/
theorem State.wf_tempSampled :
    Sparse.wf resetWord ((s.setWord (pid 1 0 (0x160 + k)) (BitVec.ofNat 32 x.toNat)).sample 8 k x.toInt).regs = true := by
  rw [State.sample_regs]
  exact State.wf_setWord hw _ _

theorem State.wf_tempRead : Sparse.wf resetWord (s.tempRead k x warm).regs = true :=
  State.wf_setFld (State.wf_tempSampled x hw) _ _ _ _

theorem State.wf_tempStored : Sparse.wf resetWord (s.tempStored k x warm).regs = true := by
  unfold State.tempStored State.flagIf
  split
  · exact State.wf_flag (State.wf_tempRead x warm hw) _ _
  · exact State.wf_tempRead x warm hw

include hk

theorem State.word_tempStored_reading : (s.tempStored k x warm).word (pid 1 0 (0x160 + k)) = BitVec.ofNat 32 x.toNat := by
  have hne : pid 1 0 (0x160 + k) ≠ thermalId := by
    unfold thermalId pid
    omega
  have read : (s.tempRead k x warm).word (pid 1 0 (0x160 + k)) = BitVec.ofNat 32 x.toNat := by
    rw [State.tempRead, State.word_setFld_other (State.wf_tempSampled x hw) hne, State.word_sample, State.word_setWord_same hw]
  unfold State.tempStored State.flagIf
  split
  · exact (State.word_setFld_other (State.wf_tempRead x warm hw) hne _ _ _).trans read
  · exact read

/-- The live bit of a sensor says whether its reading lies above the warning limit. -/
theorem State.bitAt_tempStored_live : (s.tempStored k x warm).bitAt thermalId (8 + k) = warm := by
  have read : (s.tempRead k x warm).bitAt thermalId (8 + k) = warm :=
    State.bitAt_setFld_bit (State.wf_tempSampled x hw) (by omega) thermalId warm
  unfold State.tempStored State.flagIf
  split
  · exact (State.bitAt_flag_other (State.wf_tempRead x warm hw) (by omega) (.inr (by omega))).trans read
  · exact read

/-- The sticky bit is set by a reading above the warning limit. -/
theorem State.bitAt_tempStored_sticky : (s.tempStored k x true).bitAt thermalId k = true :=
  State.bitAt_flag_same (State.wf_tempRead x true hw) (by omega)

end

section

variable {s : State} {k : Nat} (x : BitVec 16) (hk : k < 8) (hp : s.powered = true) (hf : s.mgmt.fault.fatal = none)
  (hh : s.mgmt.fault.thermalHold = false)

include hk hp hf hh

/-- A reading above the shutdown limit is fatal, one above the warning limit is reported (R475). -/
theorem exec_tempSample :
    exec (.tempSample k x) s =
      let t := s.tempStored k x (decide ((tempLimits k).1 * 16 < x.toInt))
      .next (if (tempLimits k).2.1 * 16 < x.toInt then t.fatal 8 (k + x.toNat * 65536)
        else if (tempLimits k).1 * 16 < x.toInt then t.report 1 k 0x10 (k + x.toNat * 65536) else t) := by
  have e : exec (.tempSample k x) s = execTempSample k x s := rfl
  have hs := State.tempStored_fault s k x (decide ((tempLimits k).1 * 16 < x.toInt))
  unfold State.tempStored State.tempRead at hs
  rw [e, execTempSample, onUnit_present (decide_eq_true hk), whenDue_of_due hp]
  simp only [hs, hh, hf, Bool.not_false, Option.isNone_none, Bool.and_true, Bool.false_and, Bool.false_eq_true, if_false,
    decide_eq_true_eq, State.tempStored, State.tempRead]

theorem exec_tempSample_hot (hx : (tempLimits k).2.1 * 16 < x.toInt) :
    ∃ t, exec (.tempSample k x) s = .next t ∧ t.mgmt.fault.fatal = some 8 ∧ t.mgmt.fault.faultN = true ∧ t.mem = s.mem := by
  have hs : (s.tempStored k x (decide ((tempLimits k).1 * 16 < x.toInt))).mgmt.fault.fatal = none := by
    rw [State.tempStored_fault, hf]
  obtain ⟨fatal, faultN⟩ := State.fatal_fault hs 8 (k + x.toNat * 65536)
  refine ⟨_, (exec_tempSample x hk hp hf hh).trans ?_, fatal, faultN, ?_⟩
  · exact congrArg _ (if_pos hx)
  · rw [State.fatal_mem, State.tempStored_mem]

theorem exec_tempSample_borne (hw : Sparse.wf resetWord s.regs = true) (hx : x.toInt ≤ (tempLimits k).2.1 * 16) :
    ∃ t, exec (.tempSample k x) s = .next t ∧ t.temp k = x.toInt ∧
      t.bitAt thermalId (8 + k) = decide ((tempLimits k).1 * 16 < x.toInt) ∧
      ((tempLimits k).1 * 16 < x.toInt → t.bitAt thermalId k = true) ∧ t.mem = s.mem ∧ t.armed = s.armed := by
  have e := (exec_tempSample x hk hp hf hh).trans (congrArg _ (if_neg (not_lt.2 hx)))
  generalize hd : decide ((tempLimits k).1 * 16 < x.toInt) = warm at e
  have stored : (s.tempStored k x warm).temp k = x.toInt := by
    have hlt := x.isLt
    rw [State.temp, State.sfld, State.fld, State.word_tempStored_reading x warm hw hk, BitVec.toNat_ofNat,
      Nat.mod_eq_of_lt (by omega), ← signedOf_toNat]
    simp [bitsOf, Nat.mod_eq_of_lt hlt]
  have live := State.bitAt_tempStored_live x warm hw hk
  by_cases hq : (tempLimits k).1 * 16 < x.toInt
  · obtain rfl : warm = true := by rw [← hd, decide_eq_true hq]
    have hstored := State.wf_tempStored x true hw (k := k)
    have hthermal := State.word_report (s.tempStored k x true) 1 k 0x10 (k + x.toNat * 65536) hstored (q := thermalId)
      (by decide) (by decide)
    have hreading := State.word_report (s.tempStored k x true) 1 k 0x10 (k + x.toNat * 65536) hstored
      (q := pid 1 0 (0x160 + k)) (by unfold pid; omega) (by unfold pid; omega)
    refine ⟨_, e.trans (congrArg _ (if_pos hq)), ?_, ?_, fun _ => ?_, ?_, ?_⟩
    · rw [State.temp, State.sfld, State.fld_of_word hreading]
      exact stored
    · rw [State.bitAt_of_word hthermal, live]
    · rw [State.bitAt_of_word hthermal, State.bitAt_tempStored_sticky x hw hk]
    · simp
    · simp
  · exact ⟨_, e.trans (congrArg _ (if_neg hq)), stored, live, fun h => absurd h hq, State.tempStored_mem _ _ _ _,
      State.tempStored_armed _ _ _ _⟩

end

/-! ### Rails -/

/-- A rail's reading stored with whether it is good, and sampled. -/
def State.railStored (s : State) (k : Nat) (x : BitVec 16) : State :=
  (s.setWord (pid 1 0 (0x170 + k)) (BitVec.ofNat 32 (x.toNat + 65536 * bit (railGood k x.toNat)))).sample 9 k x.toNat

section

variable (s : State) (k : Nat) (x : BitVec 16)

@[simp] theorem State.railStored_mem : (s.railStored k x).mem = s.mem := by
  simp [State.railStored]

@[simp] theorem State.railStored_fault : (s.railStored k x).mgmt.fault = s.mgmt.fault := by
  simp [State.railStored]

theorem State.word_railStored (hw : Sparse.wf resetWord s.regs = true) :
    ((s.railStored k x).word (pid 1 0 (0x170 + k))).toNat = x.toNat + 65536 * bit (railGood k x.toNat) := by
  have hx := x.isLt
  have hb : bit (railGood k x.toNat) ≤ 1 := by cases railGood k x.toNat <;> decide
  rw [State.railStored, State.word_sample, State.word_setWord_same hw, BitVec.toNat_ofNat, Nat.mod_eq_of_lt (by omega)]

end

section

variable {s : State} {k : Nat} (x : BitVec 16) (sustained : Bool) (hk : k < 13) (hp : s.powered = true)
  (hf : s.mgmt.fault.fatal = none)

include hk hp hf

/-- A bad reading sustained on a regulated rail is fatal (R476). -/
theorem exec_railSample :
    exec (.railSample k x sustained) s =
      .next (if !railGood k x.toNat && sustained && inRange 1 8 k then (s.railStored k x).fatal 9 (k + x.toNat * 65536)
        else s.railStored k x) := by
  have e : exec (.railSample k x sustained) s = execRailSample k x sustained s := rfl
  have hs := State.railStored_fault s k x
  unfold State.railStored at hs
  rw [e, execRailSample, onUnit_present (decide_eq_true hk), whenDue_of_due hp]
  simp only [hs, hf, Option.isNone_none, Bool.and_true, State.railStored]

theorem exec_railSample_borne (h : railGood k x.toNat = true ∨ sustained = false ∨ k = 0 ∨ 9 ≤ k) :
    exec (.railSample k x sustained) s = .next (s.railStored k x) := by
  have notFatal : ¬ (!railGood k x.toNat && sustained && inRange 1 8 k) = true := by
    simp only [Bool.and_eq_true, Bool.not_eq_true', inRange, decide_eq_true_eq]
    rintro ⟨⟨hg, hs⟩, hl, hu⟩
    rcases h with h | h | h | h
    · simp [hg] at h
    · simp [hs] at h
    · omega
    · omega
  exact (exec_railSample x sustained hk hp hf).trans (congrArg _ (if_neg notFatal))

theorem exec_railSample_lost (hg : railGood k x.toNat = false) (hs : sustained = true) (h1 : 1 ≤ k) (h8 : k ≤ 8) :
    exec (.railSample k x sustained) s = .next ((s.railStored k x).fatal 9 (k + x.toNat * 65536)) := by
  have isFatal : (!railGood k x.toNat && sustained && inRange 1 8 k) = true := by
    rw [hg, hs, inRange, decide_eq_true h1, decide_eq_true (by omega)]
    rfl
  exact (exec_railSample x sustained hk hp hf).trans (congrArg _ (if_pos isFatal))

end

/-! ### Camera supplies -/

theorem State.camTrip_mem (s : State) (p : Nat) : (s.camTrip p).mem = s.mem := by
  simp [State.camTrip]

/-- A tripped supply is off and flagged (R471). -/
theorem State.bitAt_camTrip {s : State} (hw : Sparse.wf resetWord s.regs = true) {p : Nat} (hp : p < 4) :
    (s.camTrip p).bitAt camId p = false ∧ (s.camTrip p).bitAt camId (4 + p) = true := by
  have htripped : Sparse.wf resetWord (s.onBoard fun b => { b with tripped := withBits b.tripped p 1 1 }).regs = true := hw
  have hoff := State.wf_setFld htripped camId p 1 0
  have hflag := State.wf_flag hoff camId (4 + p)
  have kept := (State.word_report _ 1 0 0x12 p (State.wf_bump hflag (pid 1 0 0x152) 1) (q := camId) (by decide)
    (by decide)).trans (State.word_bump_other hflag (by decide) 1)
  constructor
  · calc (s.camTrip p).bitAt camId p = _ := State.bitAt_of_word kept p
      _ = _ := State.bitAt_flag_other hoff (by omega) (.inr (by omega))
      _ = false := State.bitAt_setFld_bit htripped (by omega) camId false
  · exact (State.bitAt_of_word kept (4 + p)).trans (State.bitAt_flag_same hoff (by omega))

/-- A trip is the trip of a state that differs at most in the mailbox and in the soft starts. -/
theorem exec_camSupplyTrip {s : State} {p : Nat} (hp : p < 4) (hs : s.powered = true) (hb : s.bitAt camId p = true) :
    ∃ u : State, u.regs = s.regs ∧ u.mem = s.mem ∧ exec (.camSupplyTrip p) s = .next (u.camTrip p) := by
  have e : exec (.camSupplyTrip p) s = execCamSupplyTrip p s := rfl
  rw [e, execCamSupplyTrip, onUnit_present (decide_eq_true hp), whenDue_of_due (by rw [hs, hb]; rfl)]
  refine ⟨_, ?_, ?_, rfl⟩ <;> split <;> rfl

/-! ### Ethernet links -/

section

variable {s : State} {p : Nat} (hp : p < 2) (hr : s.running = true)

include hp hr

/-- Block lock gained sets the link and shows the receive domains as locked (R34, R468). -/
theorem exec_ethBlockLockGained (hd : s.domOn (40 + p) = true) (he : s.bitAt (pid 0x13 p 0) 0 = true) :
    exec (.ethBlockLockGained p) s = .next ((s.setFld (pid 0x13 p 1) 0 2 3).relocked [85 + 2 * p, 86 + 2 * p]) := by
  have e : exec (.ethBlockLockGained p) s = execEthBlockLockGained p s := rfl
  rw [e, execEthBlockLockGained, onUnit_present (decide_eq_true hp), whenDue_of_due (by rw [hr, hd, he]; rfl)]

theorem exec_ethBlockLockLost (hl : s.bitAt (pid 0x13 p 1) 0 = true) :
    exec (.ethBlockLockLost p) s =
      .next ((((s.setFld (pid 0x13 p 1) 0 2 0).flag (pid 0x13 p 1) 2).bump (pid 0x13 p 0x103)).report 0x13 p 4 p) := by
  have e : exec (.ethBlockLockLost p) s = execEthBlockLockLost p s := rfl
  rw [e, execEthBlockLockLost, onUnit_present (decide_eq_true hp), whenDue_of_due (by rw [hr, hl]; rfl)]

/-- Block lock lost: both link bits read 0, and the loss is flagged (R468). -/
theorem exec_ethBlockLockLost_reads (hw : Sparse.wf resetWord s.regs = true) (hl : s.bitAt (pid 0x13 p 1) 0 = true) :
    ∃ t, exec (.ethBlockLockLost p) s = .next t ∧ t.fld (pid 0x13 p 1) 0 2 = 0 ∧ t.bitAt (pid 0x13 p 1) 2 = true ∧
      t.mem = s.mem := by
  have hset := State.wf_setFld hw (pid 0x13 p 1) 0 2 0
  have hflag := State.wf_flag hset (pid 0x13 p 1) 2
  have kept := (State.word_report _ 0x13 p 4 p (State.wf_bump hflag (pid 0x13 p 0x103) 1) (q := pid 0x13 p 1)
    (by unfold pid; omega) (by unfold pid; omega)).trans (State.word_bump_other hflag (by unfold pid; omega) 1)
  refine ⟨_, exec_ethBlockLockLost hp hr hl, ?_, ?_, ?_⟩
  · have below := State.fld_setFld_below hset (id := pid 0x13 p 1) (q := pid 0x13 p 1) (lsb := 2) (width := 1) (v := 1)
      (l := 0) (w := 2) (by omega) (.inr (by omega))
    rw [State.fld_of_word kept, State.flag, below, State.fld_setFld_same hw 0 (by omega), Nat.zero_mod]
  · rw [State.bitAt_of_word kept, State.bitAt_flag_same hset (by omega)]
  · rw [State.report_mem, State.bump_mem, State.flag_mem, State.setFld_mem]

theorem exec_ethFrameRx (hu : s.portUp p = true) (fcsOk : Bool) :
    exec (.ethFrameRx p fcsOk) s = .next (if fcsOk then s.bump (pid 0x13 p 0x101) else s.bump (pid 0x13 p 0x102)) := by
  have e : exec (.ethFrameRx p fcsOk) s = execEthFrameRx p fcsOk s := rfl
  rw [e, execEthFrameRx, onUnit_present (decide_eq_true hp), whenDue_of_due (by rw [hr, hu]; rfl), State.framesRx]

end

/-- Settles O60: the swap and the samples of the monitors, and the readings of the board and its links. -/
theorem monitorsAndSensors : Obligations.MonitorsAndSensors := by
  intro s c
  have hw : Sparse.wf resetWord s.regs = true := c.regs
  refine ⟨fun hr hd hb => ?_, fun n v hn hr hd => ?_, fun k x hk hp hf hh => ⟨exec_tempSample_borne x hk hp hf hh hw,
    exec_tempSample_hot x hk hp hf hh⟩, fun k x sustained hk hp hf => ⟨fun h => ?_, fun hg hs h1 h8 => ?_⟩,
    fun p hp hs hb => ?_, fun p hp hr => ⟨exec_ethBlockLockGained hp hr, exec_ethBlockLockLost_reads hp hr hw, fun hu =>
      ⟨(exec_ethFrameRx hp hr hu true).trans (congrArg _ (if_pos rfl)),
        (exec_ethFrameRx hp hr hu false).trans (congrArg _ (if_neg Bool.false_ne_true))⟩⟩⟩
  · exact ⟨_, exec_monitorSnapSwap hr hd hb, State.swapAll_regs s, State.swapAll_mem s, State.swapAll_logs s, fun n hn => by
      rw [State.mon_swapAll c hn]
      exact ⟨rfl, rfl, rfl, rfl⟩⟩
  · obtain ⟨queue, rate, given⟩ := exec_monitorSampleTick (v := v) hn hr hd
    exact ⟨queue, fun h => ⟨_, rate h, Sparse.get_set_same (fun _ => 0) n 0 c.head_passed, rfl⟩, given⟩
  · exact ⟨_, exec_railSample_borne x sustained hk hp hf h, State.word_railStored s k x hw, State.railStored_fault s k x,
      State.railStored_mem s k x⟩
  · obtain ⟨fatal, -⟩ := State.fatal_fault (s := s.railStored k x) (by rw [State.railStored_fault, hf]) 9 (k + x.toNat * 65536)
    exact ⟨_, exec_railSample_lost x sustained hk hp hf hg hs h1 h8, fatal, by simp⟩
  · obtain ⟨u, hregs, hmem, e⟩ := exec_camSupplyTrip hp hs hb
    obtain ⟨off, flagged⟩ := State.bitAt_camTrip (s := u) (by rw [hregs]; exact hw) hp
    exact ⟨_, e, off, flagged, (State.camTrip_mem u p).trans hmem⟩

end Sys2Proof.Machine
end

section
/-!
PROOF. The position unit: what a capture, a read of the position and the high-water position leave alone.
-/

namespace Sys2Proof.Machine

/-! ### Folds, samples and captures -/

/-- What holds before a fold and is kept by each of its steps holds after it. -/
theorem forEach_induction {α : Type} (P : State → Prop) {f : State → α → State} (h : ∀ s x, P s → P (f s x)) :
    ∀ (xs : List α) {s : State}, P s → P (forEach xs f s)
  | [], _, hs => hs
  | x :: xs, s, hs => forEach_induction P h xs (h s x hs)

@[simp] theorem State.sample_pos (s : State) (quantity inst : Nat) (v : Int) : (s.sample quantity inst v).pos = s.pos := by
  unfold State.sample
  refine forEach_keeps (·.pos) (fun _ _ => ?_) _ _
  rfl

@[simp] theorem State.capture_pos (s : State) (u : Nat) (falling : Bool) : (s.capture u falling).pos = s.pos := by
  unfold State.capture
  split
  · rfl
  · exact State.bump_pos _ _ _

@[simp] theorem State.captureEdge_pos (s : State) (src : Nat) (falling : Bool) : (s.captureEdge src falling).pos = s.pos := by
  unfold State.captureEdge
  refine forEach_keeps (·.pos) (fun s u => ?_) _ _
  split
  · exact State.capture_pos _ _ _
  · rfl

/-- A capture changes no word but its unit's counter of lost captures (R83). -/
theorem State.word_capture {s : State} (hw : Sparse.wf resetWord s.regs = true) {u q : Nat} (h : q ≠ tcuId u 4)
    (falling : Bool) : (s.capture u falling).word q = s.word q := by
  unfold State.capture
  split
  · rfl
  · exact State.word_bump_other hw h 1

theorem State.wf_capture {s : State} (hw : Sparse.wf resetWord s.regs = true) (u : Nat) (falling : Bool) :
    Sparse.wf resetWord (s.capture u falling).regs = true := by
  unfold State.capture
  split
  · exact hw
  · exact State.wf_bump hw _ 1

theorem State.word_captureEdge {s : State} (hw : Sparse.wf resetWord s.regs = true) {q : Nat} (h : ∀ u, q ≠ tcuId u 4)
    (src : Nat) (falling : Bool) : (s.captureEdge src falling).word q = s.word q := by
  unfold State.captureEdge
  refine (forEach_induction (fun t => Sparse.wf resetWord t.regs = true ∧ t.word q = s.word q) (fun t u ht => ?_) _ ⟨hw, rfl⟩).2
  split
  · exact ⟨State.wf_capture ht.1 _ _, (State.word_capture ht.1 (h u) _).trans ht.2⟩
  · exact ht

/-! ### The position of now -/

/-- COUNT, and below it the fraction of the conversion of now where that lies within the count (R62). -/
theorem State.posNow_fst (s : State) :
    s.posNow.1 = s.pos.count * 65536 +
      (if (s.convert s.dev).1 / 65536 = s.pos.count then (s.convert s.dev).1 % 65536 else 0) := by
  unfold State.posNow State.stampOf
  dsimp only
  split <;> simp

theorem State.posNow_count (s : State) : s.posNow.1 / 65536 = s.pos.count := by
  rw [State.posNow_fst]
  split <;> omega

/-- Reading the position counts a conversion older than the log, and changes nothing else (R45, R63). -/
theorem State.posNow_state (s : State) :
    s.posNow.2 = if (s.convert s.dev).2 then (s.bump (posId 0x11)).flag (posId 0x0F) 14 else s := rfl

@[simp] theorem State.posNow_pos (s : State) : s.posNow.2.pos = s.pos := by
  rw [State.posNow_state]
  split <;> simp

@[simp] theorem State.posNow_mem (s : State) : s.posNow.2.mem = s.mem := by
  rw [State.posNow_state]
  split <;> simp

theorem State.wf_posNow {s : State} (hw : Sparse.wf resetWord s.regs = true) :
    Sparse.wf resetWord s.posNow.2.regs = true := by
  rw [State.posNow_state]
  split
  · exact State.wf_flag (State.wf_bump hw _ 1) _ _
  · exact hw

/-! ### Device time and status bits -/

/-- Device time is told by the local counter, the time unit and the parameter words alone (R65, R67, R75). -/
theorem State.dev_congr {s t : State} (hl : t.loc = s.loc) (hr : t.regs = s.regs) (ht : t.time = s.time) : t.dev = s.dev := by
  have hword : t.word = s.word := by
    unfold State.word
    rw [hr]
  have hlocal : t.localOnly = s.localOnly := by rw [State.localOnly, State.localOnly, State.bitAt, State.bitAt, hword]
  have hslew : t.slewPpm = s.slewPpm := by rw [State.slewPpm, State.slewPpm, State.fld, State.fld, hword]
  have hdomain : t.domain = s.domain := by
    unfold State.domain
    rw [ht]
  rw [State.dev, State.dev, State.devAt, State.devAt, State.domainTimeAt, State.domainTimeAt, hl, ht, hlocal, hslew, hdomain]

theorem State.word_flagIf_other {s : State} (hw : Sparse.wf resetWord s.regs = true) (c : Bool) {id q : Nat} (h : q ≠ id)
    (n : Nat) : (s.flagIf c id n).word q = s.word q := by
  cases c
  · rfl
  · exact State.word_setFld_other hw h n 1 1

/-! ### The high-water position -/

/-- Following the counter moves the high-water position, and may set REVERSE (R47, R52). -/
theorem State.followHw_cases (s : State) :
    ∃ top c, s.followHw = ({ s with pos := { s.pos with hw := top } } : State).flagIf c (posId 0x0F) 11 := by
  unfold State.followHw
  split
  · dsimp only
    split
    · exact ⟨_, _, rfl⟩
    · exact ⟨s.pos.hw, _, rfl⟩
  · exact ⟨s.pos.hw, false, rfl⟩

theorem State.followHw_unarmed {s : State} (h : s.armed = false) : s.followHw = s := by
  simp [State.followHw, h]

section

variable (s : State)

theorem State.followHw_pos : ∃ top, s.followHw.pos = { s.pos with hw := top } := by
  obtain ⟨top, c, e⟩ := State.followHw_cases s
  exact ⟨top, by rw [e, State.flagIf_pos]⟩

@[simp] theorem State.followHw_mem : s.followHw.mem = s.mem := by
  obtain ⟨top, c, e⟩ := State.followHw_cases s
  rw [e, State.flagIf_mem]

@[simp] theorem State.followHw_armed : s.followHw.armed = s.armed := by
  obtain ⟨top, c, e⟩ := State.followHw_cases s
  rw [e, State.flagIf_armed]

theorem State.word_followHw (hw : Sparse.wf resetWord s.regs = true) {q : Nat} (hq : q ≠ posId 0x0F) :
    s.followHw.word q = s.word q := by
  obtain ⟨top, c, e⟩ := State.followHw_cases s
  rw [e, State.word_flagIf_other (s := { s with pos := { s.pos with hw := top } }) hw c hq 11]
  rfl

end

end Sys2Proof.Machine
end

section
/-!
PROOF. One count edge of the driving source, where no position step can close (O10).
-/

namespace Sys2Proof.Machine

/-- The counter and the encoder log after a count edge (R42, R44). -/
def State.counted (s : State) (dir : Int) : State :=
  let c := codeOf 48 (s.pos.count + dir)
  { s with pos := { s.pos with
    count := c, load := none, log := (LogEntry.mk s.dev c dir :: s.pos.log).take 8192 } }

/-- The words after a counted edge: SPEED is computed anew, and of the others only STATUS may change. -/
theorem State.word_counted {s : State} (hw : Sparse.wf resetWord s.regs = true) (dir : Int) {q : Nat} (hq : q ≠ posId 0x0F) :
    (s.counted dir).updateSpeed.followHw.word q =
      if q = posId 0x0C then BitVec.ofInt 32 (speedOf s.dev (s.counted dir).pos.log) else s.word q := by
  have hdev : (s.counted dir).dev = s.dev := State.dev_congr rfl rfl rfl
  have hwc : Sparse.wf resetWord (s.counted dir).regs = true := hw
  have hwu : Sparse.wf resetWord (s.counted dir).updateSpeed.regs = true := State.wf_setWord hwc _ _
  rw [State.word_followHw _ hwu hq, State.updateSpeed, State.word_setWord hwc, hdev]
  rfl

/-- Where no position step can close, a count edge is the counter, the log, SPEED and the high-water position: it writes
neither CTRL nor the arming, so step mode is as before. -/
theorem State.countEdge_of_no_closure {s : State} (hw : Sparse.wf resetWord s.regs = true) (h : s.stepMode = false) (dir : Int) :
    s.countEdge dir = (s.counted dir).updateSpeed.followHw := by
  have hctrl : (s.counted dir).updateSpeed.followHw.word (posId 0) = s.word (posId 0) := by
    rw [State.word_counted hw dir (by decide), if_neg (by decide)]
  have harmed : (s.counted dir).updateSpeed.followHw.armed = s.armed := State.followHw_armed _
  have hmode : (s.counted dir).updateSpeed.followHw.stepMode = false := by
    rw [State.stepMode, State.asyncMode, harmed, State.bitAt_of_word hctrl]
    exact h
  show (if (s.counted dir).updateSpeed.followHw.stepMode && _ then _ else _) = _
  rw [hmode]
  rfl

/-- Settles O10: the edge is the counter, the log, SPEED and the high-water position, each of which names what it writes. -/
theorem countEdgeMovesCounter : Obligations.CountEdgeMovesCounter := by
  intro s dir hc h
  rw [State.countEdge_of_no_closure hc.regs h dir]
  obtain ⟨top, hpos⟩ := State.followHw_pos (s.counted dir).updateSpeed
  rw [hpos]
  refine ⟨rfl, rfl, rfl, ?_, fun q hC hF => ?_, State.followHw_mem _, fun ha => ?_⟩
  · rw [State.word_counted hc.regs dir (by decide), if_pos rfl]
    rfl
  · rw [State.word_counted hc.regs dir hF, if_neg hC]
  · rw [← hpos, State.followHw_unarmed (s := (s.counted dir).updateSpeed) ha]
    rfl

end Sys2Proof.Machine
end

section
/-!
PROOF. An accepted rising edge of Z (O11).
-/

namespace Sys2Proof.Machine

/-- The instant of the last accepted edge of Z is now (R37). -/
def State.zSeen (s : State) : State := { s with pos := { s.pos with zAt := some s.loc } }

/-- The position of now does not hang on when Z was last seen. -/
theorem State.zSeen_posNow (s : State) : s.zSeen.posNow.1 = s.posNow.1 := by
  have hconv : s.zSeen.convert s.zSeen.dev = s.convert s.dev := rfl
  rw [State.posNow_fst, State.posNow_fst, hconv]
  rfl

section

variable {s : State} (hp : s.powered = true)

include hp

theorem exec_encZEdge_accepted (hz : s.zStable = true) :
    exec .encZEdge s = .next (s.zSeen.captureZ.captureEdge 2 false) := by
  show Host.Outcome.next (whenDue _ (fun s => s.zSeen.captureZ.captureEdge 2 false) s) = _
  rw [whenDue_of_due (by rw [hp, hz]; rfl)]

theorem exec_encZEdge_rejected (hz : s.zStable = false) : exec .encZEdge s = .next s := by
  show Host.Outcome.next (whenDue _ _ s) = _
  rw [whenDue_of_not_due (by rw [hp, hz]; rfl)]

end

/-- Z_CAPTURE's words are two writes after the position has been read (R38). -/
theorem State.captureZ_eq (s : State) :
    s.captureZ = (s.posNow.2.setWord (posId 0x14) (BitVec.ofNat 32 (s.posNow.1 / 65536))).setWord (posId 0x15)
      (BitVec.ofNat 32 (s.posNow.1 / 65536 / 2 ^ 32 + s.posNow.1 % 65536 * 65536)) := rfl

@[simp] theorem State.captureZ_pos (s : State) : s.captureZ.pos = s.pos := by
  rw [State.captureZ_eq, State.setWord_pos, State.setWord_pos, State.posNow_pos]

@[simp] theorem State.captureZ_mem (s : State) : s.captureZ.mem = s.mem := by
  rw [State.captureZ_eq, State.setWord_mem, State.setWord_mem, State.posNow_mem]

section

variable {s : State} (hw : Sparse.wf resetWord s.regs = true)

include hw

theorem State.wf_captureZ : Sparse.wf resetWord s.captureZ.regs = true := by
  rw [State.captureZ_eq]
  exact State.wf_setWord (State.wf_setWord (State.wf_posNow hw) _ _) _ _

/-- The lower word of Z_CAPTURE holds the lower 32 bits of the counter. -/
theorem State.captureZ_low : (s.captureZ.word (posId 0x14)).toNat = s.pos.count % 2 ^ 32 := by
  rw [State.captureZ_eq, State.word_setWord_other (State.wf_setWord (State.wf_posNow hw) _ _) _ (by decide),
    State.word_setWord_same (State.wf_posNow hw), State.posNow_count, BitVec.toNat_ofNat]

/-- The upper word of Z_CAPTURE holds the upper 16 bits of the counter and, above them, the fraction. -/
theorem State.captureZ_high (hn : s.pos.count < 2 ^ 48) :
    (s.captureZ.word (posId 0x15)).toNat = s.pos.count / 2 ^ 32 + s.posNow.1 % 65536 * 65536 := by
  rw [State.captureZ_eq, State.word_setWord_same (State.wf_setWord (State.wf_posNow hw) _ _), State.posNow_count,
    BitVec.toNat_ofNat]
  omega

end

/-- The counter of lost captures is the word with index 4 of its unit. -/
theorem posId_ne_tcuId {i : Nat} (h : i % 0x10000 ≠ 4) (u : Nat) : posId i ≠ tcuId u 4 := by
  simp only [posId, tcuId, pid]
  omega

/-- Settles O11: Z_CAPTURE is written from the position of that instant, and the captures of ENC_Z write neither of its words. -/
theorem zEdgeCopiesPosition : Obligations.ZEdgeCopiesPosition := by
  intro s hc hp hn
  refine ⟨fun hz => ⟨_, exec_encZEdge_accepted hp hz, ?_⟩, exec_encZEdge_rejected hp⟩
  have hw : Sparse.wf resetWord s.zSeen.regs = true := hc.regs
  have hcount : s.zSeen.pos.count = s.pos.count := rfl
  have hlow := State.captureZ_low hw
  have hhigh := State.captureZ_high hw hn
  have hword : ∀ q, (∀ k, q ≠ tcuId k 4) → (s.zSeen.captureZ.captureEdge 2 false).word q = s.zSeen.captureZ.word q :=
    fun q h => State.word_captureEdge (State.wf_captureZ hw) h 2 false
  rw [hword _ (posId_ne_tcuId (by decide)), hword _ (posId_ne_tcuId (by decide)), hlow, hhigh, State.zSeen_posNow, hcount]
  refine ⟨rfl, by omega, by omega, State.posNow_count s, ?_, ?_⟩
  · rw [State.captureEdge_pos, State.captureZ_pos]
    rfl
  · rw [State.captureEdge_mem, State.captureZ_mem]
    rfl

end Sys2Proof.Machine
end

section
/-!
PROOF. Closures: the halo marks before one, the fabric step it makes or owes, and the start of the next one (O12).
-/

namespace Sys2Proof.Machine

/-! ### Marks and lag -/

/-- The halo's marks go to open position steps alone (R336). -/
theorem State.haloShed_cases (s : State) :
    ∃ marks, s.haloShed = { s with pos := { s.pos with posMarks := marks } } := by
  unfold State.haloShed
  dsimp only
  split
  · exact ⟨s.pos.posMarks, rfl⟩
  · refine forEach_induction (fun t => ∃ marks, t = { s with pos := { s.pos with posMarks := marks } }) (fun t i ht => ?_) _
      ⟨s.pos.posMarks, rfl⟩
    obtain ⟨marks, rfl⟩ := ht
    exact ⟨_, rfl⟩

/-- Marks of failed regions go to the fabric step's SSN alone (R391). -/
theorem State.markFailing_cases (s : State) (ssn : Nat) :
    ∃ marks, s.markFailing ssn = { s with pos := { s.pos with ssnMarks := marks } } := by
  unfold State.markFailing
  refine forEach_induction (fun t => ∃ marks, t = { s with pos := { s.pos with ssnMarks := marks } }) (fun t i ht => ?_) _
    ⟨s.pos.ssnMarks, rfl⟩
  obtain ⟨marks, rfl⟩ := ht
  exact ⟨_, rfl⟩

section

variable {s t : State} (h : t.regs = s.regs)

include h

theorem State.word_of_regs (q : Nat) : t.word q = s.word q := by
  rw [State.word, State.word, h]

theorem State.lag_of_regs : t.lag = s.lag := by
  simp only [State.lag, State.ssnClosed, State.ssnDone, State.word_of_regs h]

theorem State.flagIf_regs_of_regs (c : Bool) (id n : Nat) : (t.flagIf c id n).regs = (s.flagIf c id n).regs := by
  cases c
  · exact h
  · simp only [State.flagIf, if_true, State.flag, State.setFld, State.setWord_regs, State.word_of_regs h, h]

end

/-! ### A fabric step made -/

@[simp] theorem State.sluiceClosure_pos (s : State) : s.sluiceClosure.pos = s.pos := by
  unfold State.sluiceClosure
  (repeat' split) <;> rfl

@[simp] theorem State.sluiceClosure_regs (s : State) : s.sluiceClosure.regs = s.regs := by
  unfold State.sluiceClosure
  (repeat' split) <;> rfl

@[simp] theorem State.markCut_pos (s : State) (k : Int) (ssn : Nat) : (s.markCut k ssn).pos = s.pos := by
  unfold State.markCut
  dsimp only
  (repeat' split) <;> rfl

@[simp] theorem State.markCut_regs (s : State) (k : Int) (ssn : Nat) : (s.markCut k ssn).regs = s.regs := by
  unfold State.markCut
  dsimp only
  (repeat' split) <;> rfl

section

variable (s : State) (k : Int) (backstop : Bool) (ssn : Nat)

@[simp] theorem State.sendClose_pos : (s.sendClose k backstop ssn).pos = s.pos := by
  unfold State.sendClose
  refine forEach_keeps (·.pos) (fun _ _ => ?_) _ _
  rfl

@[simp] theorem State.sendClose_regs : (s.sendClose k backstop ssn).regs = s.regs := by
  unfold State.sendClose
  refine forEach_keeps (·.regs) (fun _ _ => ?_) _ _
  rfl

end

/-- The SSN of the next fabric step (R49). -/
def State.nextSsn (s : State) : Nat := (s.ssnClosed + 1) % 2 ^ 32

/-- The state with a closed step's descriptor appended to the closed steps, under the next SSN (R49, R50). -/
def State.stepQueued (s : State) (st : FabStep) : State :=
  { s with pos := { s.pos with closed := s.pos.closed ++ [{ st with ssn := s.nextSsn }] } }

/-- The state with SSN_CLOSED counted on as well (R49). -/
def State.stepAppended (s : State) (st : FabStep) : State :=
  (s.stepQueued st).setWord (posId 0x0D) (BitVec.ofNat 32 s.nextSsn)

section

variable (s : State) (st : FabStep)

theorem State.makeStep_pos :
    (s.makeStep st).pos = { s.pos with closed := s.pos.closed ++ [{ st with ssn := s.nextSsn }] } := by
  unfold State.makeStep
  dsimp only
  split <;> simp only [State.sample_pos, State.markCut_pos, State.sluiceClosure_pos, State.flagIf_pos, State.sendClose_pos,
    State.setWord_pos] <;> rfl

/-- Of the words, a step made writes SSN_CLOSED and at most LAG_CEILING. -/
theorem State.makeStep_regs : ∃ c, (s.makeStep st).regs = ((s.stepAppended st).flagIf c (posId 0x0F) 13).regs := by
  refine ⟨((s.stepAppended st).sendClose st.posStep st.backstop s.nextSsn).lag == 64, ?_⟩
  rw [← State.flagIf_regs_of_regs (State.sendClose_regs (s.stepAppended st) st.posStep st.backstop s.nextSsn)]
  unfold State.makeStep
  dsimp only
  split <;> simp only [State.sample_regs, State.markCut_regs, State.sluiceClosure_regs] <;> rfl

section

variable (hw : Sparse.wf resetWord s.regs = true)

include hw

theorem State.wf_stepAppended : Sparse.wf resetWord (s.stepAppended st).regs = true :=
  State.wf_setWord (s := s.stepQueued st) hw _ _

theorem State.word_stepAppended (q : Nat) :
    (s.stepAppended st).word q = if q = posId 0x0D then BitVec.ofNat 32 s.nextSsn else s.word q :=
  State.word_setWord (s := s.stepQueued st) hw _ _ _

theorem State.makeStep_ssnClosed : (s.makeStep st).ssnClosed = s.nextSsn := by
  obtain ⟨c, e⟩ := State.makeStep_regs s st
  rw [State.ssnClosed, State.word_of_regs e, State.word_flagIf_other (State.wf_stepAppended s st hw) c (by decide),
    State.word_stepAppended s st hw, if_pos rfl, BitVec.toNat_ofNat]
  exact Nat.mod_eq_of_lt (Nat.mod_lt _ (by decide))

/-- A step made leaves LAG_CEILING set where it was set. -/
theorem State.makeStep_ceiling (h : s.bitAt (posId 0x0F) 13 = true) : (s.makeStep st).bitAt (posId 0x0F) 13 = true := by
  obtain ⟨c, e⟩ := State.makeStep_regs s st
  rw [State.bitAt_of_word (s := (s.stepAppended st).flagIf c (posId 0x0F) 13) (State.word_of_regs e _)]
  cases c
  · have k : (s.stepAppended st).word (posId 0x0F) = s.word (posId 0x0F) := by
      rw [State.word_stepAppended s st hw, if_neg (by decide)]
    exact (State.bitAt_of_word k 13).trans h
  · exact State.bitAt_flag_same (State.wf_stepAppended s st hw) (by decide)

end

end

/-! ### A closure -/

/-- The descriptor of a step that closes, before it has its SSN (R49, R50). -/
def State.closedAs (s : State) (k : Int) (backstop : Bool) : FabStep :=
  { ssn := 0, hw := s.pos.hw, backstop := backstop, posStep := k,
    closePos := if backstop then s.pos.hw else s.closePosOf k,
    shed := (s.pos.posMarks.filter fun m => backstop || m.1 ≤ k).foldl (fun a m => a ||| m.2) 0 }

/-- The state at a closure: the marks of the steps that close are taken, the interval and the pulse begin (R53, R467). -/
def State.atClosure (s : State) (k : Int) (backstop : Bool) : State :=
  { s with pos := { s.pos with
    posMarks := if backstop then s.pos.posMarks else s.pos.posMarks.filter fun m => !(m.1 ≤ k)
    lastClose := s.loc, pulse := some s.loc } }

section

variable {s : State} (k : Int) (backstop : Bool)

/-- Below lag 64 a closure makes its fabric step. -/
theorem State.closeFabric_made (h : s.lag < 64) :
    s.closeFabric k backstop = (s.atClosure k backstop).makeStep (s.closedAs k backstop) := by
  show (if s.lag < 64 then _ else _) = _
  rw [if_pos h]
  rfl

/-- At lag 64 it owes it. -/
theorem State.closeFabric_owed (h : ¬ s.lag < 64) :
    s.closeFabric k backstop =
      { s.atClosure k backstop with
        pos := { (s.atClosure k backstop).pos with owed := s.pos.owed ++ [s.closedAs k backstop] } } := by
  show (if s.lag < 64 then _ else _) = _
  rw [if_neg h]
  rfl

theorem State.closeFabric_ceiling (hw : Sparse.wf resetWord s.regs = true) (h : s.bitAt (posId 0x0F) 13 = true) :
    (s.closeFabric k backstop).bitAt (posId 0x0F) 13 = true := by
  by_cases hl : s.lag < 64
  · rw [State.closeFabric_made k backstop hl]
    exact State.makeStep_ceiling _ _ hw h
  · rw [State.closeFabric_owed k backstop hl]
    exact h

end

/-- The events of the first open position step dropped where the lag is 64 (R57). -/
def State.roomMade (s : State) : State :=
  if s.lag = 64 then (s.dropPending s.pos.openK).flag (posId 0x0F) 13 else s

/-- The next position step is the first open one. -/
def State.opened (s : State) (k : Int) : State := { s with pos := { s.pos with openK := k } }

/-- A position step closes over the halo's marks, with its events dropped at lag 64. -/
theorem State.closeStep_eq (s : State) :
    s.closeStep =
      (s.haloShed.roomMade.closeFabric s.haloShed.pos.openK false).opened (s.haloShed.pos.openK + 1) := by
  simp only [State.closeStep, State.opened, State.roomMade]

theorem State.closeStep_openK (s : State) : s.closeStep.pos.openK = s.pos.openK + 1 := by
  obtain ⟨marks, e⟩ := State.haloShed_cases s
  rw [State.closeStep_eq, e]
  rfl

/-- At lag 64 a position step closes with LAG_CEILING set (R57). -/
theorem State.closeStep_ceiling {s : State} (hc : s.canonical) (h : s.lag = 64) :
    s.closeStep.bitAt (posId 0x0F) 13 = true := by
  have hs : s.haloShed.lag = 64 := by
    obtain ⟨marks, e⟩ := State.haloShed_cases s
    rw [e, ← h]
    exact State.lag_of_regs rfl
  have hd : (s.haloShed.dropPending s.haloShed.pos.openK).canonical :=
    (State.dropPending_carries (State.haloShed_carries (Carries.refl s)) s.haloShed.pos.openK).canonical hc
  have hopened : ∀ (t : State) (k : Int), (t.opened k).bitAt (posId 0x0F) 13 = t.bitAt (posId 0x0F) 13 := fun _ _ => rfl
  rw [State.closeStep_eq, hopened, State.roomMade, if_pos hs]
  exact State.closeFabric_ceiling _ _ (State.wf_flag hd.regs _ _) (State.bitAt_flag_same hd.regs (by decide))

/-! ### The start of a fabric step -/

section

variable (s : State) (r : Nat) (h : Held)

@[simp] theorem State.historyTap_pos : (s.historyTap r h).pos = s.pos := by
  unfold State.historyTap
  (repeat' split) <;> rfl

@[simp] theorem State.feedBlock_pos : (s.feedBlock r h).pos = s.pos := by
  unfold State.feedBlock
  split
  · exact (State.flagIf_pos _ _ _ _).trans ((State.bumpIf_pos _ _ _).trans (State.onBlock_pos _ _ _))
  · exact (State.onBlock_pos _ _ _).trans (State.flag_pos _ _ _)

@[simp] theorem State.deliver_pos : (s.deliver r h).pos = s.pos :=
  (forEach_keeps (·.pos) (fun _ _ => State.feedBlock_pos _ _ _) _ _).trans (State.historyTap_pos s r h)

@[simp] theorem State.queueEvent_pos (dest src : Nat) : (s.queueEvent dest src h).pos = s.pos := by
  unfold State.queueEvent
  split <;> rfl

@[simp] theorem State.forward_pos : (s.forward r h).pos = s.pos := by
  unfold State.forward
  refine forEach_keeps (·.pos) (fun s q => ?_) _ _
  dsimp only
  split
  · rfl
  · exact State.queueEvent_pos _ _ _ _

@[simp] theorem State.releaseNode_pos : (s.releaseNode r).pos = s.pos := by
  have hdeliver : ∀ (now : List Held) (t : State), (forEach now (fun t h => (t.deliver r h).forward r h) t).pos = t.pos :=
    fun now t => forEach_keeps (·.pos) (fun t h => (State.forward_pos _ _ _).trans (State.deliver_pos t r h)) now t
  have hend : ∀ (n : Nat) (t : State), (forEach (upTo 8) (fun t q =>
      if q = r then t.onNode r fun x => { x with stepEnds := x.stepEnds ++ [r] }
      else t.sendFlit (ringPos q) (ringPos r) (.stepEnd n)) t).pos = t.pos := by
    refine fun n t => forEach_keeps (·.pos) (fun t q => ?_) _ _
    split <;> rfl
  unfold State.releaseNode
  split
  · rfl
  · dsimp only
    split
    · rfl
    · split
      · rw [hdeliver, State.onNode_pos]
      · rw [hend, State.onNode_pos, hdeliver, State.onNode_pos]

@[simp] theorem State.wakeBlocks_pos : s.wakeBlocks.pos = s.pos := by
  unfold State.wakeBlocks
  refine forEach_keeps (·.pos) (fun s b => ?_) _ _
  split
  · exact (State.flag_pos _ _ _).trans (State.onBlock_pos _ _ _)
  · rfl

end

/-- The oldest closed step in evaluation, before its marks and its events (R50, R124). -/
def State.stepTaken (s : State) (st : FabStep) (rest : List FabStep) : State :=
  { s with
    pos := { s.pos with
      closed := rest, cur := some st, stepAt := s.loc, stepped := true,
      sAll := if s.pos.stepped then s.pos.sAll + 1 else 0,
      sNorm := if s.pos.stepped && !st.backstop then s.pos.sNorm + 1 else if s.pos.stepped then s.pos.sNorm else 0 },
    rtr := { s.rtr with activeSet := s.rtr.nextSet } }

/-- Of the position unit, what follows at a start touches the marks alone. -/
theorem startStep_pos {s : State} {st : FabStep} {rest : List FabStep} (h : s.pos.closed = st :: rest) :
    ∃ marks, (startStep s).pos = { (s.stepTaken st rest).pos with ssnMarks := marks } := by
  obtain ⟨marks, e⟩ := State.markFailing_cases (s.stepTaken st rest) st.ssn
  refine ⟨marks, ?_⟩
  have hk : (startStep s).pos = ((s.stepTaken st rest).markFailing st.ssn).pos := by
    unfold startStep
    rw [h]
    refine (forEach_keeps (·.pos) (fun t r => State.releaseNode_pos t r) _ _).trans ?_
    refine (forEach_keeps (·.pos) (fun t r => ?_) _ _).trans ?_
    · rfl
    · refine (State.wakeBlocks_pos _).trans ?_
      exact forEach_keeps (·.pos) (fun t r => State.sample_pos t _ _ _) _ _
  rw [hk, e]

/-! ### The rows -/

section

variable {s : State}

theorem exec_backstopClose_due (h : s.backstopDue = true) :
    exec .backstopClose s =
      .next (((s.haloShed.closeFabric (s.pos.openK - 1) true).bump (posId 0x12)).flag (posId 0x0F) 15) := by
  show Host.Outcome.next (whenDue _ _ s) = _
  rw [whenDue_of_due h]

theorem exec_replayPaceTimer_due (hd : s.replayDue = true) (hp : s.bitAt (posId 7) 0 = true)
    (ht : s.fld (posId 7) 1 24 * 1000 ≤ locDiff s.loc s.pos.lastClose) : exec .replayPaceTimer s = .next s.closeStep := by
  show Host.Outcome.next (whenDue _ _ s) = _
  rw [whenDue_of_due (by rw [hd, hp, decide_eq_true ht]; rfl)]

theorem exec_fabricStepStart_due (hc : s.pos.cur = none) (hd : s.cutDue = false) :
    exec .fabricStepStart s = .next (startStep s) := by
  show Host.Outcome.next (whenDue _ _ s) = _
  rw [whenDue_of_due (by rw [hc, hd]; rfl)]

end

/-- Settles O12: a closure makes or owes its fabric step, a position step that closes moves the first open one on, and a start
takes the oldest closed step. -/
theorem fabricStepClosures : Obligations.FabricStepClosures := by
  intro s hc
  refine ⟨exec_backstopClose_due, exec_replayPaceTimer_due, fun k backstop => ?_, ?_, State.closeStep_ceiling hc,
    fun st rest hcur hcut hclosed => ?_⟩
  · by_cases hl : s.lag < 64
    · rw [State.closeFabric_made k backstop hl]
      have hpos := State.makeStep_pos (s.atClosure k backstop) (s.closedAs k backstop)
      rw [hpos]
      exact ⟨rfl, rfl, rfl, fun _ => ⟨State.makeStep_ssnClosed _ _ hc.regs, _, rfl, rfl, rfl, rfl⟩, fun h => absurd hl (by omega)⟩
    · rw [State.closeFabric_owed k backstop hl]
      exact ⟨rfl, rfl, rfl, fun h => absurd h hl, fun _ => ⟨rfl, rfl, _, rfl, rfl, rfl⟩⟩
  · rw [State.closeStep_openK]
    omega
  · obtain ⟨marks, hpos⟩ := startStep_pos hclosed
    refine ⟨_, exec_fabricStepStart_due hcur hcut, ?_⟩
    rw [hpos]
    exact ⟨rfl, rfl, rfl⟩

end Sys2Proof.Machine
end

section
/-!
PROOF. The next word of a replay (O19).
-/

namespace Sys2Proof.Machine

section

variable {s : State} {w : Nat}

theorem exec_replayWord_due (ha : s.armed = true) (hsrc : s.pos.src = .replay) (hd : s.replayDue = false)
    (hl : s.replayLeft s.head.repOff = true) :
    exec .replayWord s = .next (s.replayMoved.replayTaken (ofLe (s.readBytes s.head.repOff 8))) := by
  show Host.Outcome.next (whenDue _ _ s) = _
  rw [whenDue_of_due (by rw [ha, hsrc, hd, hl]; rfl)]

theorem State.replayLeft_iff {a : Nat} :
    s.replayLeft a = true ↔
      a + 8 ≤ s.replayEnd ∨ (s.replayEnd < s.replayStart ∧ s.replayStart ≤ a ∧ a + 8 ≤ s.recBase + s.recBytes) := by
  simp [State.replayLeft, and_assoc]

theorem State.replayTaken_position (hm : bitOf w 63 = true) (hk : bitsOf w 60 3 = 0) :
    s.replayTaken w = s.replayMarker (bitsOf w 0 48) := by
  rw [State.replayTaken, if_pos hm, if_pos hk]

theorem State.replayTaken_gap (hm : bitOf w 63 = true) (hk : bitsOf w 60 3 = 1) :
    s.replayTaken w = s.bump (pid 2 0x21 7) := by
  rw [State.replayTaken, if_pos hm, if_neg (by omega), if_pos hk]

theorem State.replayTaken_event (hm : bitOf w 63 = false) :
    s.replayTaken w = s.sluiceInput { Ev.ofWord s.head.repMark w with replay := true } := by
  rw [State.replayTaken, if_neg (by simp [hm])]

end

/-- Settles O19: a due word moves the pointer on, and is taken by its kind. -/
theorem replayStream : Obligations.ReplayStream := by
  intro s w ha hsrc hd hl hw u hu
  have hmoved : u = s.replayMoved := hu
  rw [exec_replayWord_due ha hsrc hd (State.replayLeft_iff.2 hl), ← hw, ← hmoved]
  refine ⟨fun hm hk => ?_, fun hm hk => ?_, fun hm => ?_⟩
  · rw [State.replayTaken_position hm hk]
  · rw [State.replayTaken_gap hm hk]
  · rw [State.replayTaken_event hm]

end Sys2Proof.Machine
end

section
/-!
PROOF. A read of COUNT whose conversion of now is older than the log counts it, so that it writes a parameter word (O9).
-/

namespace Sys2Proof.Machine

theorem State.readRefuses_count (s : State) : s.readRefuses (posId 8) = none := by
  have hdom : idDomain (posId 8) = none := by decide
  obtain ⟨fs, hlook⟩ : ∃ fs, lookup (posId 8) = .word fs := ⟨_, rfl⟩
  have habsent : s.absent (posId 8) = none := by
    rw [State.absent, hlook, hdom]
    rfl
  rw [State.readRefuses, habsent]
  rfl

/-- A read of COUNT's lower word answers it and keeps the snapshot (R62). -/
theorem exec_positionCountRead {s : State} (h : s.wordService = true) :
    exec .positionCountRead s = .next { s.readCount.2 with lastWord := s.readCount.1, lastStatus := .ok } := by
  have hwake : s.wakeFor (posId 8) = s := rfl
  have hvalue : s.valueOf (posId 8) = s.readCount := rfl
  show Host.Outcome.next (s.wordRead (posId 8)) = _
  rw [State.wordRead, h, State.readWord, State.readRefuses_count, hwake, hvalue]
  rfl

theorem State.readCount_regs (s : State) : s.readCount.2.regs = s.posNow.2.regs := by
  obtain ⟨x, hx⟩ : ∃ x, s.posNow = x := ⟨_, rfl⟩
  simp only [State.readCount, hx]

/-- The words after such a read of COUNT: a conversion older than the log is counted (R45, R63). -/
theorem State.readCount_stale {s : State} (hw : Sparse.wf resetWord s.regs = true) (h : (s.convert s.dev).2 = true) :
    s.readCount.2.word (posId 0x11) = BitVec.ofNat 32 (satAdd32 (s.word (posId 0x11)).toNat 1) := by
  have hregs : s.readCount.2.regs = ((s.bump (posId 0x11)).flag (posId 0x0F) 14).regs := by
    rw [State.readCount_regs, State.posNow_state, if_pos h]
  rw [State.word_of_regs hregs, State.flag, State.word_setFld_other (State.wf_bump hw _ 1) (by decide), State.word_bump hw,
    if_pos rfl, if_neg (by decide)]

/-- The module after one count edge at a time of the network; LOCAL_ONLY has been set since, so that device time is the local
counter again, far below the edge's (R67). -/
def localAfterEdge : State :=
  { State.reset.setFld (timeId 0) 1 1 1 with
    pos := { PosState.reset with count := 1, log := [⟨1700000000000000000, 1, 1⟩] } }

theorem localAfterEdge_canonical : localAfterEdge.canonical := ⟨rfl, rfl, rfl, rfl, rfl⟩

/-- Refutes O9: POSITION_COUNT_READ does not leave the parameter words as they were. With its one log entry beyond the present
device time, the conversion of now is older than the log, and the read counts it (R45, R63). -/
theorem not_encoderCounting : ¬ Obligations.EncoderCounting := by
  intro h
  obtain ⟨-, -, -, -, -, -, -, hread⟩ := h localAfterEdge localAfterEdge_canonical
  have hservice : localAfterEdge.wordService = true := by decide
  have hstale : (localAfterEdge.convert localAfterEdge.dev).2 = true := by decide
  obtain ⟨t, ht, -, -, -, -, hregs, -⟩ := hread hservice
  rw [exec_positionCountRead hservice] at ht
  obtain rfl := Host.Outcome.next.inj ht
  have hcounted := State.readCount_stale localAfterEdge_canonical.regs hstale
  have hkept : localAfterEdge.readCount.2.word (posId 0x11) = localAfterEdge.word (posId 0x11) := State.word_of_regs hregs _
  have hzero : localAfterEdge.word (posId 0x11) = 0 := by decide
  rw [hkept, hzero] at hcounted
  exact absurd hcounted (by decide)

end Sys2Proof.Machine
end

section
/-!
PROOF. The time unit: its domains, and what the changes of a domain and of a switch leave alone.
-/

namespace Sys2Proof.Machine

/-! ### A domain replaced -/

section

variable (s : State) (d : Nat) (x : Domain)

@[simp] theorem State.setDomain_loc : (s.setDomain d x).loc = s.loc := by unfold State.setDomain; split <;> rfl
@[simp] theorem State.setDomain_regs : (s.setDomain d x).regs = s.regs := by unfold State.setDomain; split <;> rfl
@[simp] theorem State.setDomain_mem : (s.setDomain d x).mem = s.mem := by unfold State.setDomain; split <;> rfl
@[simp] theorem State.setDomain_waiting : (s.setDomain d x).time.waiting = s.time.waiting := by
  unfold State.setDomain; split <;> rfl
@[simp] theorem State.setDomain_ptpSent : (s.setDomain d x).time.ptpSent = s.time.ptpSent := by
  unfold State.setDomain; split <;> rfl

@[simp] theorem State.domain_setDomain : (s.setDomain d x).domain d = x := by
  unfold State.setDomain State.domain
  split <;> rfl

end

/-- The other domain of the two stands. -/
theorem State.domain_setDomain_other {d : Nat} (hd : d < 2) (s : State) (x : Domain) :
    (s.setDomain d x).domain (1 - d) = s.domain (1 - d) := by
  interval_cases d <;> rfl

theorem State.domain_of_time {s t : State} (h : t.time = s.time) (d : Nat) : t.domain d = s.domain d := by
  rw [State.domain, State.domain, h]

/-! ### Times of a domain (R65, R66) -/

@[simp] theorem locDiff_self (l : Nat) : locDiff l l = 0 := by
  rw [locDiff, Nat.add_sub_cancel_left, Nat.mod_self]

/-- At its anchor a domain's time is its base. -/
theorem Domain.timeAt_anchor (d : Domain) : d.timeAt d.anchor = d.base := by
  simp [Domain.timeAt]

/-- A new rate takes the time of its instant as base and the instant as anchor (R66). -/
theorem Domain.timeAt_setRate (d : Domain) (l : Nat) (r : Int) : (d.setRate l r).timeAt l = d.timeAt l :=
  (d.setRate l r).timeAt_anchor

/-! ### Device time through a switch (R67, R75) -/

section

variable {s t : State} {w : Switch}

theorem State.localOnly_of_word (h : t.word (timeId 0) = s.word (timeId 0)) : t.localOnly = s.localOnly :=
  State.bitAt_of_word h 1

theorem State.domainTimeAt_switch (h : s.time.switch = some w) (l : Nat) :
    s.domainTimeAt l = w.dev1 + ((s.domain w.target).timeAt l - w.ty1) +
      signInt w.delta * (w.removed s.slewPpm (locDiff l w.start) : Nat) := by
  simp only [State.domainTimeAt, h]

@[simp] theorem Switch.removed_zero (w : Switch) (ppm : Nat) : w.removed ppm 0 = 0 := by
  simp [Switch.removed]

/-- At the start of a switch nothing of its difference is removed: the domains' timescale reads as it was taken then. -/
theorem State.domainTimeAt_start (h : s.time.switch = some w) (hs : w.start = s.loc)
    (ht : w.ty1 = (s.domain w.target).timeAt s.loc) : s.domainTimeAt s.loc = w.dev1 := by
  rw [State.domainTimeAt_switch h, hs, ht, locDiff_self, Switch.removed_zero]
  simp

/-- A switch that starts at the timescale of its instant makes no step of device time. -/
theorem State.dev_of_started (hl : t.loc = s.loc) (hr : t.localOnly = s.localOnly) (h : t.time.switch = some w)
    (hs : w.start = s.loc) (hd : w.dev1 = s.domainTimeAt s.loc) (ht : w.ty1 = (t.domain w.target).timeAt s.loc) :
    t.dev = s.dev := by
  have hstart : t.domainTimeAt t.loc = s.domainTimeAt s.loc := by
    rw [State.domainTimeAt_start h (hs.trans hl.symm) (by rw [ht, hl]), hd]
  rw [State.dev, State.dev, State.devAt, State.devAt, hr, hstart, hl]

theorem signInt_mul_natAbs (x : Int) : signInt x * (x.natAbs : Int) = x := by
  unfold signInt
  split
  · omega
  · split <;> omega

/-- Once a switch has removed its whole difference, the timescale is the target domain's (R75). -/
theorem State.domainTimeAt_removed (h : s.time.switch = some w) (hd : w.delta = w.ty1 - w.dev1)
    (hr : w.delta.natAbs ≤ w.removed s.slewPpm (locDiff s.loc w.start)) :
    s.domainTimeAt s.loc = (s.domain w.target).timeAt s.loc := by
  have hall : w.removed s.slewPpm (locDiff s.loc w.start) = w.delta.natAbs :=
    Nat.le_antisymm (Nat.min_le_left _ _) hr
  rw [State.domainTimeAt_switch h, hall, signInt_mul_natAbs]
  omega

end

end Sys2Proof.Machine
end

section
/-!
PROOF. The changes of rate, of a switch and of a domain's time that leave device time as it is (O23).
-/

namespace Sys2Proof.Machine

theorem State.startSwitch_dev (s : State) (y : Nat) : (s.startSwitch y).dev = s.dev :=
  State.dev_of_started rfl rfl rfl rfl rfl rfl

/-- The premise of `domainTimeAt_removed` is what starting a switch establishes. -/
theorem State.startSwitch_delta {s : State} {y : Nat} {w : Switch} (h : (s.startSwitch y).time.switch = some w) :
    w.delta = w.ty1 - w.dev1 ∧ w.target = y := by
  obtain rfl := Option.some.inj h
  exact ⟨rfl, rfl⟩

theorem State.reanchor_cases (s : State) :
    (s.time.switch = none ∧ s.reanchor = s) ∨ ∃ w, s.time.switch = some w ∧ s.reanchor = s.startSwitch w.target := by
  unfold State.reanchor
  cases h : s.time.switch with
  | none => exact .inl ⟨rfl, rfl⟩
  | some w => exact .inr ⟨w, rfl, rfl⟩

theorem State.reanchor_dev (s : State) : s.reanchor.dev = s.dev := by
  obtain ⟨-, h⟩ | ⟨w, -, h⟩ := s.reanchor_cases
  · rw [h]
  · rw [h, State.startSwitch_dev]

/-- Slewing toward the domain that device time follows starts a switch to it from the device time of now (R68, R75). -/
theorem State.slewTo_dev {s : State} {d : Nat} (h : d = s.timeTarget) (x : Domain) : (s.slewTo d x).dev = s.dev := by
  rw [State.slewTo, if_pos h]
  refine State.dev_of_started (State.setDomain_loc s d x) (State.localOnly_of_word (State.word_of_regs ?_ _)) rfl rfl rfl ?_
  · exact State.setDomain_regs s d x
  · exact congrArg (·.timeAt s.loc) (State.domain_setDomain s d x).symm

/-- While armed, the step of a first lock is slewed; under LOCAL_ONLY device time is not the domain's (R68). -/
theorem State.firstLock_dev {s : State} {d : Nat} (h : d = s.timeTarget) (ha : s.armed = true) : (s.firstLock d).dev = s.dev := by
  by_cases hlocal : s.localOnly = true
  · have hkept : ∀ x : Domain, (s.setDomain d x).localOnly = true := fun x => by
      rw [State.localOnly_of_word (State.word_of_regs (State.setDomain_regs s d x) _), hlocal]
    simp [State.firstLock, State.dev, State.devAt, hlocal, hkept]
  · simp only [State.firstLock, h, ha, hlocal]
    exact State.slewTo_dev rfl _

/-- The switch is over: device time follows its target, and SWITCHED is set (R75). -/
def State.switchEnded (s : State) (w : Switch) : State :=
  ({ s with time := { s.time with
      active := w.target, switch := none,
      everLocked := s.time.everLocked || (s.domain w.target).state == DomState.locked } }).flag (timeId 2) 3

section

variable {s : State} {w : Switch} (h : s.time.switch = some w)
  (hr : w.delta.natAbs ≤ w.removed s.slewPpm (locDiff s.loc w.start))

include h hr

theorem exec_domainSwitchDone (hs : s.restarting = false) : exec .domainSwitchDone s = .next (s.switchEnded w) := by
  show execDomainSwitchDone s = _
  simp only [execDomainSwitchDone, h, hs]
  rw [whenDue_of_due (by simpa using hr)]
  rfl

/-- The end of a switch makes no step of device time: all of the difference has been removed (R75). -/
theorem State.switchEnded_dev (c : s.canonical) (hd : w.delta = w.ty1 - w.dev1) : (s.switchEnded w).dev = s.dev := by
  have hlocal : (s.switchEnded w).localOnly = s.localOnly :=
    State.bitAt_flag_other c.regs (by decide) (.inl (by decide))
  have htime : (s.switchEnded w).domainTimeAt s.loc = s.domainTimeAt s.loc := by
    rw [State.domainTimeAt_removed h hd hr]
    rfl
  rw [State.dev, State.dev, State.devAt, State.devAt, hlocal]
  exact congrArg _ htime

end

/-- Settles O23: each change starts from the device time of its instant, and a switch ends when no difference is left. -/
theorem deviceTimeKeptAcrossChanges : Obligations.DeviceTimeKeptAcrossChanges := by
  refine ⟨fun d l r => ⟨d.timeAt_setRate l r, rfl, rfl⟩,
    fun s y => ⟨s.startSwitch_dev y, fun w => State.startSwitch_delta⟩,
    fun s d x => ⟨s.reanchor_dev, fun h => State.slewTo_dev h x, fun _ h ha => State.firstLock_dev h ha⟩, ?_⟩
  intro s w c hw hd _ hs _ hr
  exact ⟨_, exec_domainSwitchDone hw hr hs, rfl, rfl, State.switchEnded_dev hw hr c hd,
    State.bitAt_flag_same c.regs (by decide)⟩

end Sys2Proof.Machine
end

section
/-!
PROOF. A tick at which a waiting PTP message starts (O2).
-/

namespace Sys2Proof.Machine

/-- The module after reset with ETH0 up; a Pdelay_Resp waits for its line, which falls idle at the local count 1. -/
def answerWaiting : State :=
  { (State.reset.setFld (pid 0x13 0 0) 0 1 1).setFld (pid 0x13 0 1) 0 1 1 with
    time := { TimeState.reset with waiting := [⟨0, 3, 0, 0, false, 0⟩], txEnd0 := 1 } }

/-- The next ns starts the message, and its frame is counted (R86, R481). -/
theorem answerWaiting_tick_framesTx : answerWaiting.tick.word (pid 0x13 0 0x100) = 1 := by decide

/-- Refutes O2: the tick at which a waiting PTP message starts counts its frame, so it does not leave the parameter words as they
were. The module is `answerWaiting`. -/
theorem not_emptyQueueTicks : ¬ Obligations.EmptyQueueTicks := by
  intro h
  obtain ⟨-, hpowered⟩ := h answerWaiting rfl
  obtain ⟨t, ht, -, hregs, -⟩ := hpowered (by decide) rfl rfl
  obtain rfl : answerWaiting.tick = t := Host.Outcome.next.inj ht
  have hkept : answerWaiting.tick.word (pid 0x13 0 0x100) = answerWaiting.word (pid 0x13 0 0x100) :=
    State.word_of_regs hregs _
  have hzero : answerWaiting.word (pid 0x13 0 0x100) = 0 := by decide
  rw [answerWaiting_tick_framesTx, hzero] at hkept
  exact absurd hkept (by decide)

end Sys2Proof.Machine
end

section
/-!
PROOF. The capture units (O25).
-/

namespace Sys2Proof.Machine

/-- The module after reset with capture unit 0 set to rising edges of SOURCE 8, a code that R83 gives no meaning. -/
def sourceEight : State := State.reset.setWord (tcuId 0 0) 72

theorem sourceEight_canonical : sourceEight.canonical := ⟨rfl, rfl, rfl, rfl, rfl⟩

/-- SOURCE 8 lies among those the model takes for the module's own: the codes 4 to 10, and not 4 to 7 alone. -/
theorem sourceEight_own : sourceEight.outsideSource 0 false = false := by decide

theorem sourceEight_capture : exec (.tcuCapture 0 ⟨false, 0⟩) sourceEight = .next sourceEight := by
  show onUnit _ sourceEight (whenDue _ _ sourceEight) = _
  rw [onUnit_present (by decide), whenDue_of_not_due (by rw [sourceEight_own, Bool.and_false, Bool.false_and])]

/-- Refutes O25: an edge on a unit whose SOURCE is 8 is not captured. The statement takes every code but 4 to 7 as coming from
outside; in the state `sourceEight` the model does not. R83 lets no write give SOURCE that code. -/
theorem not_captureUnitsAndPulses : ¬ Obligations.CaptureUnitsAndPulses := by
  intro h
  obtain ⟨hcapture, -⟩ := h sourceEight sourceEight_canonical
  obtain ⟨hselected, -⟩ := hcapture 0 ⟨false, 0⟩ (by decide)
  have hsource : sourceEight.tcuSource 0 = 8 := by decide
  obtain ⟨hroom, -⟩ := hselected (by decide) (by simp [hsource]) (by simp [hsource]) (by simp [hsource])
  have hmade := hroom (by decide)
  rw [sourceEight_capture] at hmade
  exact absurd (congrArg (·.time.tcu) (Host.Outcome.next.inj hmade)) (by decide)

end Sys2Proof.Machine
end

section
/-!
PROOF. PTP messages that a domain tracks (O21).
-/

namespace Sys2Proof.Machine

/-! ### The counter of received frames -/

/-- A counter is never at 0 after it has counted, so counting changes no other word, whatever the list. -/
theorem State.word_bump_of_zero {id q : Nat} (hz : resetWord id = 0) (h : q ≠ id) (s : State) :
    (s.bump id).word q = s.word q := by
  have hcount : BitVec.ofNat 32 (satAdd32 (s.word id).toNat 1) ≠ resetWord id := by
    rw [hz]
    refine fun e => ?_
    have hpos : 0 < satAdd32 (s.word id).toNat 1 := by unfold satAdd32; omega
    have hlt : satAdd32 (s.word id).toNat 1 < 2 ^ 32 := by unfold satAdd32; omega
    have hval := congrArg BitVec.toNat e
    rw [BitVec.toNat_ofNat, Nat.mod_eq_of_lt hlt] at hval
    exact hpos.ne' hval
  rw [State.bump, if_neg Nat.one_ne_zero, State.setWord, State.word, Sparse.set, if_neg hcount]
  exact Sparse.get_put_other resetWord _ h s.regs

section

variable (s : State) (p : Nat)

@[simp] theorem State.framesRx_loc : (s.framesRx p).loc = s.loc := State.bump_loc _ _ _
@[simp] theorem State.framesRx_time : (s.framesRx p).time = s.time := State.bump_time _ _ _
@[simp] theorem State.framesRx_mem : (s.framesRx p).mem = s.mem := State.bump_mem _ _ _
@[simp] theorem State.domain_framesRx (d : Nat) : (s.framesRx p).domain d = s.domain d :=
  State.domain_of_time (State.framesRx_time s p) d

end

theorem State.servoOn_framesRx {p : Nat} (hp : p < 2) (s : State) : (s.framesRx p).servoOn = s.servoOn := by
  refine State.bitAt_of_word (State.word_bump_of_zero ?_ ?_ s) 0
  · interval_cases p <;> rfl
  · interval_cases p <;> decide

/-! ### A message taken or discarded (R70, R80) -/

section

variable {s : State} {p : Nat} (hp : p < 2) (hr : s.running = true) (hd : s.domOff (40 + p) = false)

include hp hr hd

theorem ptpMessage_counted (m : PtpMsg) (lo hi : Int) (f : Nat → State → State) :
    ptpMessage p m lo hi f s = .next
      (if !s.servoOn || decide (m.logInterval < lo) || decide (hi < m.logInterval) then (s.framesRx p).ptpIgnore p
       else match (s.framesRx p).trackedBy p m with
         | some d => f d (s.framesRx p)
         | none => s.framesRx p) := by
  rw [ptpMessage, onUnit_present (decide_eq_true hp), hr, hd]
  simp only [State.servoOn_framesRx hp]
  rfl

/-- Before SERVO_EN a message is counted and discarded (R70). -/
theorem ptpMessage_discarded (hs : s.servoOn = false) (m : PtpMsg) (lo hi : Int) (f : Nat → State → State) :
    ptpMessage p m lo hi f s = .next ((s.framesRx p).bump (tportId p 5)) := by
  rw [ptpMessage_counted hp hr hd, hs]
  rfl

/-- A message that a domain tracks is taken by it, once its frame is counted (R70, R80). -/
theorem ptpMessage_tracked (hs : s.servoOn = true) {m : PtpMsg} {d : Nat} (ht : (s.framesRx p).trackedBy p m = some d)
    {lo hi : Int} (hlo : lo ≤ m.logInterval) (hhi : m.logInterval ≤ hi) (f : Nat → State → State) :
    ptpMessage p m lo hi f s = .next (f d (s.framesRx p)) := by
  rw [ptpMessage_counted hp hr hd, hs, ht, decide_eq_false (not_lt.2 hlo), decide_eq_false (not_lt.2 hhi)]
  rfl

end

/-! ### The rows -/

/-- A Sync of the master has come in: its time and interval stand with the master (R71). -/
def Domain.heardSync (x : Domain) (now : Nat) (msg : PtpMsg) : Domain :=
  { x with master := x.master.map fun (o : Master) => { o with lastSync := now, syncLog := msg.logInterval } }

section

variable {s : State} {p d : Nat} {msg : PtpMsg} (hp : p < 2) (hr : s.running = true) (hd : s.domOff (40 + p) = false)
  (hs : s.servoOn = true)

include hp hr hd hs

section

variable (ht : (s.framesRx p).trackedBy p msg = some d) (hlo : -7 ≤ msg.logInterval) (hhi : msg.logInterval ≤ 1)
  (hm : (s.domain d).fromMaster p msg = true)

include ht hlo hhi hm

theorem exec_ptpSyncRx_twoStep (h2 : msg.twoStep = true) :
    exec (.ptpSyncRx p msg) s = .next ((s.framesRx p).setDomain d
      { (s.domain d).heardSync s.loc msg with sync := some (msg.seq, (s.framesRx p).ingressTs p, corrNs msg) }) := by
  show execPtpSyncRx p msg s = _
  rw [execPtpSyncRx, ptpMessage_tracked hp hr hd hs ht hlo hhi]
  simp [hm, h2, Domain.heardSync]

theorem exec_ptpSyncRx_oneStep (h2 : msg.twoStep = false) :
    exec (.ptpSyncRx p msg) s = .next (((s.framesRx p).setDomain d (((s.domain d).heardSync s.loc msg).sawSec msg)).syncPair d
      (((s.domain d).heardSync s.loc msg).stampNs msg + corrNs msg) ((s.framesRx p).ingressTs p) msg.rateOffset) := by
  show execPtpSyncRx p msg s = _
  rw [execPtpSyncRx, ptpMessage_tracked hp hr hd hs ht hlo hhi]
  simp [hm, h2, Domain.heardSync]

theorem exec_ptpFollowUpRx {t2 corr : Int} (hsync : (s.domain d).sync = some (msg.seq, t2, corr)) :
    exec (.ptpFollowUpRx p msg) s = .next (((s.framesRx p).setDomain d ((s.domain d).sawSec msg)).syncPair d
      ((s.domain d).stampNs msg + corr + corrNs msg) t2 msg.rateOffset) := by
  show execPtpFollowUpRx p msg s = _
  rw [execPtpFollowUpRx, ptpMessage_tracked hp hr hd hs ht hlo hhi]
  simp [hm, hsync]

end

/-- The sender of an Announce as the domain lists it, with the time of its Announce before (R79). -/
def Domain.announcer (x : Domain) (p : Nat) (msg : PtpMsg) (data : PtpDataset) (now : Nat) : Master :=
  let m : Master := ⟨p, msg.clockId, msg.portNo, data, none, now, now, 0⟩
  { m with prevAnn := (x.heard.find? fun (o : Master) => o.same m).map (·.lastAnn) }

theorem exec_ptpAnnounceRx {data : PtpDataset}
    (ht : (s.framesRx p).trackedBy p { msg with logInterval := data.logInterval } = some d)
    (hlo : -3 ≤ data.logInterval) (hhi : data.logInterval ≤ 3) {m : Master}
    (hm : m = (s.domain d).announcer p msg data s.loc) :
    exec (.ptpAnnounceRx p msg data) s = .next ((s.framesRx p).setDomain d (Domain.select { s.domain d with
      heard := ((s.domain d).heard.filter fun o => !o.same m) ++ [m] } s.loc ((s.framesRx p).fld (domId d 0) 13 3)
        ((s.framesRx p).profile d == 2))) := by
  subst hm
  show execPtpAnnounceRx p msg data s = _
  rw [execPtpAnnounceRx, ptpMessage_tracked hp hr hd hs ht hlo hhi]
  simp only [State.domain_framesRx, State.framesRx_loc]
  rfl

section

variable {e : DelayExchange} (hu : msg.toUs = true) (hseq : e.seq = msg.seq)

include hu hseq

theorem exec_ptpDelayRespRx (ht : (s.framesRx p).trackedBy p msg = some d) (hlo : -3 ≤ msg.logInterval)
    (hhi : msg.logInterval ≤ 3) (he : (s.domain d).exchange = some e) (hm : (s.domain d).fromMaster p msg = true)
    (hprofile : (s.framesRx p).profile d = 0) :
    exec (.ptpDelayRespRx p msg) s = .next ((s.framesRx p).setDomain d { s.domain d with
      delay := some (((s.domain d).timeOf e.t2 - (s.domain d).timeOf e.t3 +
        ((s.domain d).stampNs msg - corrNs msg - e.t1)).fdiv 2) }) := by
  show execPtpDelayRespRx p msg s = _
  rw [execPtpDelayRespRx, ptpMessage_tracked hp hr hd hs ht hlo hhi]
  simp [he, hm, hu, hseq, hprofile]

section

variable (ht : (s.framesRx p).trackedBy p { msg with logInterval := 0 } = some d)
  (he : ((s.domain d).link p).exchange = some e) (hprofile : (s.framesRx p).profile d ≠ 0)

include ht he hprofile

theorem exec_ptpPdelayRespRx_twoStep (h2 : msg.twoStep = true) :
    exec (.ptpPdelayRespRx p .resp msg) s = .next ((s.framesRx p).setDomain d ((s.domain d).setLink p
      { (s.domain d).link p with exchange := some { e with
          t4 := (s.framesRx p).ingressTs p, t2p := some (((msg.sec * 1000000000 + msg.ns : Nat) : Int) - corrNs msg) } })) := by
  show execPtpPdelayRespRx p .resp msg s = _
  rw [execPtpPdelayRespRx, ptpMessage_tracked hp hr hd hs ht (by simp) (by simp)]
  simp [he, hu, hseq, hprofile, h2]

theorem exec_ptpPdelayRespRx_oneStep (h2 : msg.twoStep = false) :
    exec (.ptpPdelayRespRx p .resp msg) s = .next ((s.framesRx p).setDomain d ((s.domain d).setLink p
      (((s.domain d).link p).measured ((s.framesRx p).profile d == 2) { e with t4 := (s.framesRx p).ingressTs p }
        (corrNs msg) none))) := by
  show execPtpPdelayRespRx p .resp msg s = _
  rw [execPtpPdelayRespRx, ptpMessage_tracked hp hr hd hs ht (by simp) (by simp)]
  simp [he, hu, hseq, hprofile, h2]

theorem exec_ptpPdelayRespRx_followUp {t2p : Int} (h2 : e.t2p = some t2p) :
    exec (.ptpPdelayRespRx p .followUp msg) s = .next ((s.framesRx p).setDomain d ((s.domain d).setLink p
      (((s.domain d).link p).measured ((s.framesRx p).profile d == 2) e
        (peerDiff (((msg.sec * 1000000000 + msg.ns : Nat) : Int) + corrNs msg) t2p)
        (some (((msg.sec * 1000000000 + msg.ns : Nat) : Int) + corrNs msg))))) := by
  show execPtpPdelayRespRx p .followUp msg s = _
  rw [execPtpPdelayRespRx, ptpMessage_tracked hp hr hd hs ht (by simp) (by simp)]
  simp [he, hu, hseq, hprofile, h2]

end

end

end

/-! ### Peer links -/

@[simp] theorem Domain.link_setLink (x : Domain) (p : Nat) (l : PeerLink) : (x.setLink p l).link p = l := by
  unfold Domain.setLink Domain.link
  split <;> rfl

@[simp] theorem Domain.setLink_state (x : Domain) (p : Nat) (l : PeerLink) : (x.setLink p l).state = x.state := by
  unfold Domain.setLink
  split <;> rfl

/-- Between equal rates the delay of a peer is half of what the exchange took beyond the time the peer held the request (R79). -/
theorem PeerLink.measured_delay {l : PeerLink} (hn : l.num = 1) (hd : l.den = 1) (e : DelayExchange) (held : Int)
    (sent : Option Int) : (l.measured false e held sent).delay = some ((e.t4 - e.t3 - held).fdiv 2) := by
  simp [PeerLink.measured, hn, hd]

/-- Settles O21: a tracked message is counted and then taken by its row in its domain. -/
theorem ptpMessagesAreTracked : Obligations.PtpMessagesAreTracked := by
  rintro s port d msg hp hd hr hoff hs u x rfl rfl
  refine ⟨?_, ?_, ?_, ?_⟩
  · rintro o ht hlo hhi ho hm y rfl
    have hy : { s.domain d with master := some { o with lastSync := s.loc, syncLog := msg.logInterval } } =
        (s.domain d).heardSync s.loc msg := by rw [Domain.heardSync, ho]; rfl
    rw [hy]
    exact ⟨exec_ptpSyncRx_twoStep hp hr hoff hs ht hlo hhi hm, exec_ptpSyncRx_oneStep hp hr hoff hs ht hlo hhi hm,
      fun t2 corr => exec_ptpFollowUpRx hp hr hoff hs ht hlo hhi hm⟩
  · intro data ht hlo hhi
    exact ⟨_, rfl, rfl, rfl, rfl, rfl, exec_ptpAnnounceRx hp hr hoff hs ht hlo hhi rfl⟩
  · intro e ht hlo hhi hu he hm hseq hprofile
    exact exec_ptpDelayRespRx hp hr hoff hs hu hseq ht hlo hhi he hm hprofile
  · intro e ht hu he hseq hprofile
    refine ⟨fun h2 h1 hn hden => ?_, exec_ptpPdelayRespRx_twoStep hp hr hoff hs hu hseq ht he hprofile,
      fun t2p => exec_ptpPdelayRespRx_followUp hp hr hoff hs hu hseq ht he hprofile⟩
    refine ⟨_, exec_ptpPdelayRespRx_oneStep hp hr hoff hs hu hseq ht he hprofile h2, ?_, ?_, ?_, ?_⟩
    · rw [State.domain_setDomain, Domain.link_setLink, h1]
      exact PeerLink.measured_delay hn hden _ _ _
    · rw [State.domain_setDomain, Domain.setLink_state]
    · rw [State.domain_setDomain_other hd, State.domain_framesRx]
    · rw [State.setDomain_mem, State.framesRx_mem]

end Sys2Proof.Machine
end

section
/-!
PROOF. PTP messages outside the tracked ones: what is discarded, what the module answers and sends, and the loss of a master
(O22).
-/

namespace Sys2Proof.Machine

/-! ### Received requests and ignored messages -/

section

variable {s : State} {p : Nat} (hp : p < 2) (hr : s.running = true) (hd : s.domOff (40 + p) = false)

include hp hr hd

theorem exec_ptpMessageIgnored : exec (.ptpMessageIgnored p) s = .next ((s.framesRx p).bump (tportId p 5)) := by
  show execPtpMessageIgnored p s = _
  rw [execPtpMessageIgnored, onUnit_present (decide_eq_true hp), whenDue_of_due (by rw [hr, hd]; rfl), State.ptpIgnore]

theorem exec_ptpPdelayReqRx (he : s.bitAt (pid 0x13 p 0) 0 = true) (msg : PtpMsg) :
    exec (.ptpPdelayReqRx p msg) s = .next
      (if decide (msg.logInterval < -3) || decide (3 < msg.logInterval) then (s.framesRx p).ptpIgnore p
       else (s.framesRx p).ptpSend ⟨p, 3, msg.seq, 0, msg.udp, (s.framesRx p).ingressTs p⟩) := by
  show execPtpPdelayReqRx p msg s = _
  rw [execPtpPdelayReqRx, onUnit_present (decide_eq_true hp), whenDue_of_due (by rw [hr, hd, he]; rfl)]

end

/-! ### Requests of the module -/

section

variable {s : State} {p d : Nat} (hp : p < 2) (hd : d < 2) (hr : s.running = true) (hs : s.servoOn = true)
  (hx : (s.domain d).state ≠ .disabled)

include hp hd hr hs hx

theorem delayReqSend_due :
    (decide (p < 2) && decide (d < 2)) = true ∧ (s.running && s.servoOn && (s.domain d).state != .disabled) = true := by
  simp [hp, hd, hr, hs, hx]

/-- Toward the master, once a Sync of it is complete (R79). -/
theorem exec_ptpDelayReqSend_master (h : s.profile d = 0) {m : Master} (hm : (s.domain d).master = some m) (hport : m.port = p)
    {pair : Int × Int} (hpair : (s.domain d).lastPair = some pair) :
    exec (.ptpDelayReqSend p d) s = .next (s.ptpSend
      ⟨p, 1, (((s.domain d).exchange.map fun e => (e.seq + 1) % 65536).getD 0), d, s.bitAt (domId d 0) 10, 0⟩) := by
  obtain ⟨hunits, hdue⟩ := delayReqSend_due hp hd hr hs hx
  show execPtpDelayReqSend p d s = _
  rw [execPtpDelayReqSend, onUnit_present hunits, whenDue_of_due hdue]
  simp [h, hm, hport, hpair]

/-- On any port of the domain in the peer-to-peer profiles (R79). -/
theorem exec_ptpDelayReqSend_peer (h : s.profile d ≠ 0) (hport : bitOf (s.domPorts d) p = true) :
    exec (.ptpDelayReqSend p d) s = .next (s.ptpSend
      ⟨p, 2, ((((s.domain d).link p).exchange.map fun e => (e.seq + 1) % 65536).getD 0), d, s.bitAt (domId d 0) 10, 0⟩) := by
  obtain ⟨hunits, hdue⟩ := delayReqSend_due hp hd hr hs hx
  show execPtpDelayReqSend p d s = _
  rw [execPtpDelayReqSend, onUnit_present hunits, whenDue_of_due hdue]
  simp [h, hport]

end

/-! ### Sending (R86) -/

/-- A message has taken its place behind those that wait. -/
def State.queued (s : State) (w : PtpWait) : State :=
  { s with time := { s.time with waiting := s.time.waiting ++ [w] } }

@[simp] theorem State.queued_waiting (s : State) (w : PtpWait) : (s.queued w).time.waiting = s.time.waiting ++ [w] := rfl

section

variable (s : State) (w : PtpWait)

/-- A request that has started is kept with its domain, and nothing else. -/
theorem State.requestSent_cases (t3 : Int) :
    s.requestSent w t3 = s ∨ ∃ x, s.requestSent w t3 = s.setDomain w.domain x := by
  by_cases h1 : w.kind = 1
  · simp only [State.requestSent, if_pos h1]
    cases (s.domain w.domain).lastPair with
    | none => exact .inl rfl
    | some pair => exact .inr ⟨_, rfl⟩
  · by_cases h2 : w.kind = 2
    · simp only [State.requestSent, if_neg h1, if_pos h2]
      exact .inr ⟨_, rfl⟩
    · simp [State.requestSent, h1, h2]

@[simp] theorem State.requestSent_waiting (t3 : Int) : (s.requestSent w t3).time.waiting = s.time.waiting := by
  obtain h | ⟨x, h⟩ := s.requestSent_cases w t3
  · rw [h]
  · rw [h, State.setDomain_waiting]

@[simp] theorem State.requestSent_ptpSent (t3 : Int) : (s.requestSent w t3).time.ptpSent = s.time.ptpSent := by
  obtain h | ⟨x, h⟩ := s.requestSent_cases w t3
  · rw [h]
  · rw [h, State.setDomain_ptpSent]

/-- A message that starts leaves the list; a Pdelay_Resp puts its Follow_Up with the egress time in front (R81). -/
theorem State.ptpStart_waiting :
    (s.ptpStart w).time.waiting =
      if w.kind = 3 then { w with kind := 0xA, stamp := s.egressTs w.port } :: s.time.waiting.erase w
      else s.time.waiting.erase w := by
  unfold State.ptpStart
  rw [State.requestSent_waiting]

/-- A request is sent with the egress time it was taken at, any other message with the timestamp it carries (R79, R81). -/
theorem State.ptpStart_ptpSent :
    (s.ptpStart w).time.ptpSent =
      ⟨w.port, w.kind, w.seq, if w.kind = 1 || w.kind = 2 then s.egressTs w.port else w.stamp⟩ :: s.time.ptpSent := by
  unfold State.ptpStart
  rw [State.requestSent_ptpSent]
  exact congrArg _ (congrArg TimeState.ptpSent (State.bump_time _ _ _))

end

section

variable {s : State} {w : PtpWait} (hw : ∀ x ∈ s.time.waiting, x.port ≠ w.port)

include hw

theorem PtpWait.not_mem_waiting : w ∉ s.time.waiting := fun h => hw w h rfl

/-- The first message of a port starts when it may, and otherwise waits (R86). -/
theorem State.ptpSend_first : s.ptpSend w = if s.ptpMayStart w then (s.queued w).ptpStart w else s.queued w := by
  have hfind : (s.queued w).time.waiting.find? (fun x => x.port == w.port) = some w := by
    rw [State.queued_waiting, List.find?_append, List.find?_eq_none.2 fun x hx => by simpa using hw x hx]
    simp
  show (s.queued w).ptpKick w.port = _
  rw [State.ptpKick, hfind]
  rfl

theorem State.queued_erase : (s.queued w).time.waiting.erase w = s.time.waiting := by
  rw [State.queued_waiting, List.erase_append_right _ (PtpWait.not_mem_waiting hw)]
  simp

section

variable (hm : s.ptpMayStart w = true)

include hm

theorem State.ptpSend_answer (hk : w.kind = 3) :
    (s.ptpSend w).time.ptpSent = ⟨w.port, 3, w.seq, w.stamp⟩ :: s.time.ptpSent ∧
      (s.ptpSend w).time.waiting = { w with kind := 0xA, stamp := s.egressTs w.port } :: s.time.waiting := by
  rw [State.ptpSend_first hw, if_pos hm, State.ptpStart_ptpSent, State.ptpStart_waiting, State.queued_erase hw, if_pos hk, hk]
  exact ⟨rfl, rfl⟩

theorem State.ptpSend_request (hk : w.kind = 1 ∨ w.kind = 2) :
    (s.ptpSend w).time.ptpSent = ⟨w.port, w.kind, w.seq, s.egressTs w.port⟩ :: s.time.ptpSent ∧
      (s.ptpSend w).time.waiting = s.time.waiting := by
  have hrequest : (w.kind = 1 || w.kind = 2) = true := by simpa using hk
  rw [State.ptpSend_first hw, if_pos hm, State.ptpStart_ptpSent, State.ptpStart_waiting, State.queued_erase hw,
    if_pos hrequest, if_neg (by omega)]
  exact ⟨rfl, rfl⟩

end

theorem State.ptpSend_held (hm : s.ptpMayStart w = false) : s.ptpSend w = s.queued w := by
  rw [State.ptpSend_first hw, hm, if_neg Bool.false_ne_true]

end

/-- A frame takes time on the line. -/
theorem byteNs_pos (slow : Bool) {n : Nat} (h : 0 < n) : 0 < byteNs slow n := by
  unfold byteNs ceilDiv
  split <;> omega

/-- A message that may start finds its port up, and ends before the last 100 ns ahead of the next launch (R86). -/
theorem State.ptpMayStart_spec {s : State} {w : PtpWait} (h : s.ptpMayStart w = true) :
    s.portUp w.port = true ∧ ∀ l rest, s.launchQ w.port = l :: rest → s.dev + 100 < l.time := by
  rw [State.ptpMayStart, Bool.and_eq_true, Bool.and_eq_true] at h
  obtain ⟨⟨hup, -⟩, hlaunch⟩ := h
  refine ⟨hup, fun l rest hq => ?_⟩
  simp only [hq, decide_eq_true_eq] at hlaunch
  have hpos := byteNs_pos (s.bitAt (pid 0x13 w.port 0) 1) (n := ptpBytes w.kind w.udp + 8) (Nat.succ_pos _)
  omega

/-! ### The loss of a master (R71, R74) -/

/-- The domain without its master, and without what it had of it. -/
def Domain.masterless (x : Domain) : Domain :=
  { x with
    heard := match x.master with | some m => x.heard.filter fun (o : Master) => !o.same m | none => x.heard,
    master := none, sync := none, lastPair := none, exchange := none, samples := [] }

section

variable {s : State} {d : Nat}

theorem State.domain_autoSwitch (s : State) (d q : Nat) : (s.autoSwitch d).domain q = s.domain q := by
  unfold State.autoSwitch
  dsimp only
  split
  · split <;> rfl
  · rfl

theorem State.domain_enterFreewheel (s : State) (d : Nat) :
    (s.enterFreewheel d).domain d =
      { (s.domain d).setRate s.loc (s.domain d).freq with state := .freewheel, slew := 0, inside := 0, outside := 0 } := by
  unfold State.enterFreewheel
  rw [State.domain_autoSwitch, State.domain_setDomain]

/-- A domain that has settled goes on at its frequency estimate (R74). -/
theorem State.loseMaster_settled (h : (s.domain d).state = .settle ∨ (s.domain d).state = .locked) :
    s.loseMaster d = (s.setDomain d (s.domain d).masterless).enterFreewheel d := by
  unfold State.loseMaster
  dsimp only
  split
  · simp_all
  · rfl
  · rfl
  · simp_all

/-- A domain that has not settled listens again (R71). -/
theorem State.loseMaster_acquire (h : (s.domain d).state = .acquire) :
    s.loseMaster d =
      (s.setDomain d (s.domain d).masterless).setDomain d { (s.domain d).masterless with state := .listen } := by
  unfold State.loseMaster
  dsimp only
  split
  · rfl
  all_goals simp_all

theorem exec_ptpReceiptTimeout (hd : d < 2) (hr : s.restarting = false) {announce : Bool} (h : s.receiptDue d announce = true) :
    exec (.ptpReceiptTimeout d announce) s = .next (s.loseMaster d) := by
  show execPtpReceiptTimeout d announce s = _
  rw [execPtpReceiptTimeout, onUnit_present (decide_eq_true hd), whenDue_of_due (by rw [hr, h]; rfl)]

end

/-- Settles O22: each row by what is due of it, sending by the first message of a port, and a timeout by the domain's state. -/
theorem ptpAnswersAndTimeouts : Obligations.PtpAnswersAndTimeouts := by
  intro s
  refine ⟨fun port => exec_ptpMessageIgnored, ?_, ?_, ?_, ?_, fun w => State.ptpMayStart_spec, ?_⟩
  · intro port msg hp hr hoff hs
    exact ⟨show execPtpSyncRx port msg s = _ from ptpMessage_discarded hp hr hoff hs _ _ _ _,
      show execPtpFollowUpRx port msg s = _ from ptpMessage_discarded hp hr hoff hs _ _ _ _,
      show execPtpDelayRespRx port msg s = _ from ptpMessage_discarded hp hr hoff hs _ _ _ _⟩
  · intro port msg hp hr hoff he
    refine ⟨fun hlo hhi => ?_, fun hout => ?_⟩
    · rw [exec_ptpPdelayReqRx hp hr hoff he, if_neg (by simp [hlo, hhi])]
    · rw [exec_ptpPdelayReqRx hp hr hoff he, if_pos (by simpa using hout), State.ptpIgnore]
  · intro port d hp hd hr hs hx
    exact ⟨fun m pair h hm hport hpair => exec_ptpDelayReqSend_master hp hd hr hs hx h hm hport hpair,
      exec_ptpDelayReqSend_peer hp hd hr hs hx⟩
  · intro w _ hw
    exact ⟨State.ptpSend_answer hw, State.ptpSend_request hw, State.ptpSend_held hw⟩
  · intro d announce hd hr hdue
    refine ⟨fun h => ⟨_, exec_ptpReceiptTimeout hd hr hdue, ?_⟩, fun h => ⟨_, exec_ptpReceiptTimeout hd hr hdue, ?_⟩⟩
    · rw [State.loseMaster_settled h, State.domain_enterFreewheel, State.domain_setDomain]
      exact ⟨rfl, rfl, rfl⟩
    · rw [State.loseMaster_acquire h, State.domain_setDomain]
      exact ⟨rfl, rfl, by simp⟩

end Sys2Proof.Machine
end

section
/-!
PROOF. Single-word writes of TIME words that steer time (O24).
-/

namespace Sys2Proof

variable {α : Type}

/-! ### A key written with what it holds -/

/-- Dropping a key that reads as an unlisted one changes nothing. -/
theorem Sparse.drop_of_get [DecidableEq α] {d : Nat → α} {k : Nat} :
    ∀ {m : Sparse α}, Sparse.wf d m = true → Sparse.get d m k = d k → Sparse.drop k m = m
  | [], _, _ => rfl
  | (j, v) :: m, hw, h => by
    obtain ⟨-, hv, hw⟩ := Sparse.wf_cons.1 hw
    by_cases hk : k = j
    · subst hk
      simp only [Sparse.get, beq_self_eq_true, if_true] at h
      exact absurd h hv
    · by_cases hlt : k < j
      · simp [Sparse.drop, hk, hlt]
      · simp only [Sparse.get, Sparse.drop, beq_iff_eq, hk, hlt, if_false] at h ⊢
        rw [Sparse.drop_of_get hw h]

/-- Putting what a listed key holds changes nothing. -/
theorem Sparse.put_of_get [DecidableEq α] {d : Nat → α} {k : Nat} :
    ∀ {m : Sparse α}, Sparse.get d m k ≠ d k → Sparse.put k (Sparse.get d m k) m = m
  | [], h => absurd rfl h
  | (j, v) :: m, h => by
    by_cases hk : k = j
    · simp [Sparse.get, Sparse.put, hk]
    · by_cases hlt : k < j
      · simp [Sparse.get, hk, hlt] at h
      · simp only [Sparse.get, Sparse.put, beq_iff_eq, hk, hlt, if_false] at h ⊢
        rw [Sparse.put_of_get h]

theorem Sparse.set_get [DecidableEq α] {d : Nat → α} {m : Sparse α} (hw : Sparse.wf d m = true) (k : Nat) :
    Sparse.set d m k (Sparse.get d m k) = m := by
  unfold Sparse.set
  split
  · rename_i h
    exact Sparse.drop_of_get hw h
  · rename_i h
    exact Sparse.put_of_get h

end Sys2Proof

namespace Sys2Proof.Machine

/-! ### An access to a word of the always-on domain -/

section

variable {s : State} {id : Nat} {v : Word} (hs : s.wordService = true)

include hs

theorem State.wordWrite_ok (h : s.refusesWrite id v = none) : s.wordWrite id v = { s.putWord id v with lastStatus := .ok } := by
  simp [State.wordWrite, State.writeWord, hs, h]

theorem State.wordWrite_status {e : Status} (h : s.refusesWrite id v = some e) :
    s.wordWrite id v = { s with lastStatus := e } := by
  simp [State.wordWrite, State.writeWord, hs, h]

end

/-- The words in error without `id`, which a write makes good (R24). -/
def State.madeGood (s : State) (id : Nat) : State := s.onFault fun f => { f with badIds := f.badIds.filter (· != id) }

section

variable {id : Nat} {fs : List Field} (hl : lookup id = .word fs) (hd : idDomain id = none)

include hl hd

theorem State.putWord_alwaysOn (s : State) (v : Word) :
    s.putWord id v = ((if id = timeId 0 then (s.madeGood id).reanchor else s.madeGood id).setWord id
      (mergeWrite fs (s.word id) v)).written id (s.word id) v := by
  have hwake : s.wakeFor id = s := by rw [State.wakeFor, hd]
  rw [State.putWord, hwake]
  simp only [hl]
  rfl

theorem State.absent_alwaysOn (s : State) : s.absent id = none := by
  rw [State.absent, hl, hd]
  rfl

end

/-- A word of one write-only field keeps its stored word. -/
theorem mergeWrite_wo (l w : Nat) (old v : Word) : mergeWrite [.wo l w] old v = old := by
  simp [mergeWrite, Field.wo]

theorem State.setWord_word {s : State} (hw : Sparse.wf resetWord s.regs = true) (id : Nat) : s.setWord id (s.word id) = s := by
  rw [State.setWord, State.word, Sparse.set_get hw]

/-- The common checks of a word of one write-only field, which no arming locks but where its chapter says so (R365). -/
theorem State.writeRefuses_wo {s : State} {id : Nat} {l w : Nat} {v : Word} (hl : lookup id = .word [.wo l w])
    (hd : idDomain id = none) (hroot : s.rootRefuses id = false) :
    s.writeRefuses id v =
      if s.armed && lockedWord id then some .locked
      else if rangeAllows [.wo l w] (s.word id) v then none else some .badParam := by
  rw [State.writeRefuses, State.absent_alwaysOn hl hd]
  simp only [hl, hroot]
  simp [lockRefuses, hasRwl, Field.wo]

/-! ### TIME.SWITCH (R75 to R77) -/

/-- Of a word within its range, TIME.SWITCH alone judges. -/
theorem State.refusesWrite_switch {v : Word} (s : State) (hv : v.toNat < 2) :
    s.refusesWrite (timeId 1) v = s.switchRefuses v := by
  have hrange : rangeAllows [.wo 0 1] (s.word (timeId 1)) v = true := by
    obtain rfl | rfl : v = 0 ∨ v = 1 := by
      rcases (by omega : v.toNat = 0 ∨ v.toNat = 1) with h | h
      · exact .inl (BitVec.eq_of_toNat_eq h)
      · exact .inr (BitVec.eq_of_toNat_eq h)
    · rfl
    · rfl
  have hunlocked : (s.armed && lockedWord (timeId 1)) = false := Bool.and_false _
  rw [State.refusesWrite, State.writeRefuses_wo (l := 0) (w := 1) rfl rfl rfl, hunlocked, hrange]
  rfl

section

variable {s : State} {v : Word} (hs : s.wordService = true)

include hs

/-- An accepted write toward another domain starts the switch to it. -/
theorem exec_timeSwitchWrite_ok (hy : bitsOf v.toNat 0 1 ≠ s.timeTarget) (hw : Sparse.wf resetWord s.regs = true)
    (h : s.refusesWrite (timeId 1) v = none) :
    exec (.timeSwitchWrite v) s =
      .next { (s.madeGood (timeId 1)).startSwitch (bitsOf v.toNat 0 1) with lastStatus := .ok } := by
  have hput : s.putWord (timeId 1) v = (s.madeGood (timeId 1)).startSwitch (bitsOf v.toNat 0 1) := by
    rw [State.putWord_alwaysOn (fs := [.wo 0 1]) rfl rfl, if_neg (by decide), mergeWrite_wo]
    show State.switchWritten ((s.madeGood (timeId 1)).setWord (timeId 1) ((s.madeGood (timeId 1)).word (timeId 1))) v = _
    rw [State.setWord_word (s := s.madeGood (timeId 1)) hw]
    exact if_neg hy
  show Host.Outcome.next (s.wordWrite (timeId 1) v) = _
  rw [State.wordWrite_ok hs h, hput]

theorem exec_timeSwitchWrite_refused (hv : v.toNat < 2) {e : Status} (h : s.switchRefuses v = some e) :
    exec (.timeSwitchWrite v) s = .next { s with lastStatus := e } := by
  show Host.Outcome.next (s.wordWrite (timeId 1) v) = _
  rw [State.wordWrite_status hs ((s.refusesWrite_switch hv).trans h)]

end

/-! ### DOMAIN_RELOCK (R72) -/

section

variable {s : State} {d : Nat} (hd : d < 2) (hs : s.wordService = true)

include hd

/-- What a write of DOMAIN_RELOCK meets before its effect. -/
theorem relock_word :
    lookup (domId d 8) = .word [.wo 0 1] ∧ idDomain (domId d 8) = none ∧ s.rootRefuses (domId d 8) = false ∧
      lockedWord (domId d 8) = true ∧ domId d 8 ≠ timeId 0 := by
  interval_cases d <;> exact ⟨rfl, rfl, rfl, rfl, by decide⟩

theorem State.written_relock (old : Word) : s.written (domId d 8) old 1 = s.relock d := by
  interval_cases d <;> rfl

theorem State.ownerRefuses_relock (fin : State) (v : Word) : s.ownerRefuses fin (domId d 8) v = none := by
  interval_cases d <;> rfl

include hs

theorem exec_domainRelockWrite_armed (ha : s.armed = true) (v : Word) :
    exec (.domainRelockWrite d v) s = .next { s with lastStatus := .locked } := by
  obtain ⟨hl, hdom, hroot, hlock, -⟩ := relock_word (s := s) hd
  have hrefuses : s.writeRefuses (domId d 8) v = some .locked := by
    rw [State.writeRefuses_wo hl hdom hroot, ha, hlock]
    rfl
  show onInstance _ s (s.wordWrite (domId d 8) v) = _
  rw [decide_eq_true hd, onInstance, if_pos rfl, State.wordWrite_refused hs hrefuses]

theorem exec_domainRelockWrite_ok (hw : Sparse.wf resetWord s.regs = true) (ha : s.armed = false) :
    exec (.domainRelockWrite d 1) s = .next { (s.madeGood (domId d 8)).relock d with lastStatus := .ok } := by
  obtain ⟨hl, hdom, hroot, -, h0⟩ := relock_word (s := s) hd
  have hrange : rangeAllows [.wo 0 1] (s.word (domId d 8)) 1 = true := rfl
  have haccepted : s.refusesWrite (domId d 8) 1 = none := by
    rw [State.refusesWrite, State.writeRefuses_wo hl hdom hroot, ha, hrange]
    exact State.ownerRefuses_relock hd _ _
  have hput : s.putWord (domId d 8) 1 = (s.madeGood (domId d 8)).relock d := by
    rw [State.putWord_alwaysOn hl hdom, if_neg h0, mergeWrite_wo, State.written_relock hd]
    exact congrArg (·.relock d) (State.setWord_word (s := s.madeGood (domId d 8)) hw _)
  show onInstance _ s (s.wordWrite (domId d 8) 1) = _
  rw [decide_eq_true hd, onInstance, if_pos rfl, State.wordWrite_ok hs haccepted, hput]

end

/-! ### The start of a servo (R70, R71) -/

section

variable {s : State} {d : Nat}

theorem State.refreshDomain_regs (s : State) (d : Nat) : (s.refreshDomain d).regs = s.regs := by
  unfold State.refreshDomain
  dsimp only
  (repeat' split) <;> simp

theorem State.refreshDomain_mem (s : State) (d : Nat) : (s.refreshDomain d).mem = s.mem := by
  unfold State.refreshDomain
  dsimp only
  (repeat' split) <;> simp

theorem State.domain_refreshDomain_other (hd : d < 2) (s : State) :
    (s.refreshDomain d).domain (1 - d) = s.domain (1 - d) := by
  unfold State.refreshDomain
  dsimp only
  (repeat' split) <;> simp [State.domain_setDomain_other hd]

/-- A disabled domain that has a port enters LISTEN once the servo is on. -/
theorem State.refreshDomain_listens (hs : s.servoOn = true) (hp : s.domPorts d ≠ 0) (hx : (s.domain d).state = .disabled) :
    ((s.refreshDomain d).domain d).state = .listen := by
  simp [State.refreshDomain, hs, hp, hx]

/-- So does one of the two when both are refreshed, one after the other. -/
theorem State.refreshDomains_listen (hd : d < 2) (hs : s.servoOn = true) (hp : s.domPorts d ≠ 0)
    (hx : (s.domain d).state = .disabled) : (((s.refreshDomain 0).refreshDomain 1).domain d).state = .listen := by
  interval_cases d
  · rw [← State.refreshDomain_listens hs hp hx]
    exact congrArg Domain.state (State.domain_refreshDomain_other (d := 1) (by decide) (s.refreshDomain 0))
  · have hword := State.word_of_regs (s.refreshDomain_regs 0)
    have hdomain := State.domain_refreshDomain_other (d := 0) (by decide) s
    refine State.refreshDomain_listens ((State.bitAt_of_word (hword _) 0).trans hs) ?_ ?_
    · exact fun h => hp ((State.fld_of_word (hword _) 11 2).symm.trans h)
    · exact (congrArg Domain.state hdomain).trans hx

theorem State.reanchor_regs (s : State) : s.reanchor.regs = s.regs := by
  obtain ⟨-, h⟩ | ⟨w, -, h⟩ := s.reanchor_cases
  · rw [h]
  · rw [h]
    rfl

theorem State.domain_reanchor (s : State) (d : Nat) : s.reanchor.domain d = s.domain d := by
  obtain ⟨-, h⟩ | ⟨w, -, h⟩ := s.reanchor_cases
  · rw [h]
  · rw [h]
    rfl

theorem State.servoOn_of_word {w : Word} (h : s.word (timeId 0) = w) : s.servoOn = bitOf w.toNat 0 := by
  rw [State.servoOn, State.bitAt, h]

theorem State.domPorts_of_word {w : Word} (h : s.word (domId d 0) = w) : s.domPorts d = bitsOf w.toNat 11 2 := by
  rw [State.domPorts, State.fld, h]

theorem domId_ne_timeId (hd : d < 2) : domId d 0 ≠ timeId 0 := by
  interval_cases d <;> decide

end

/-- A field that may be written reads back from the stored word as the write gave it. -/
theorem bitsOf_mergeWrite {id : Nat} {fs : List Field} (hl : lookup id = .word fs) {f : Field} (hf : f ∈ fs) (hacc : f.acc = .rwl)
    (old v : Word) : bitsOf (mergeWrite fs old v).toNat f.lsb f.width = bitsOf v.toNat f.lsb f.width :=
  Field.get_mergeWrite_writable (fieldsWf_of_lookup hl).1 hf old v (.inr hacc)

/-- TIME.CTRL has been stored as `w`: the switch in progress goes on from now, and both domains follow SERVO_EN (R71, R75). -/
def State.ctrlStored (s : State) (w : Word) : State :=
  (((s.madeGood (timeId 0)).reanchor.setWord (timeId 0) w).refreshDomain 0).refreshDomain 1

section

variable {s : State}

theorem exec_servoEnableWrite_ctrl (hs : s.wordService = true) {v : Word} (h : s.refusesWrite (timeId 0) v = none) :
    ∃ w : Word, bitOf w.toNat 0 = bitOf v.toNat 0 ∧
      exec (.servoEnableWrite none v) s = .next { s.ctrlStored w with lastStatus := .ok } := by
  obtain ⟨fs, hl, hf⟩ : ∃ fs, lookup (timeId 0) = .word fs ∧ Field.rwl 0 1 ∈ fs := ⟨_, rfl, List.mem_cons_self⟩
  refine ⟨mergeWrite fs (s.word (timeId 0)) v, ?_, ?_⟩
  · rw [bitOf_eq_bitsOf, bitOf_eq_bitsOf]
    exact congrArg (· == 1) (bitsOf_mergeWrite hl hf rfl _ v)
  · show Host.Outcome.next (s.wordWrite (timeId 0) v) = _
    rw [State.wordWrite_ok hs h, State.putWord_alwaysOn hl rfl, if_pos rfl]
    rfl

variable (hw : Sparse.wf resetWord s.regs = true)

include hw

theorem State.word_ctrlStored (w : Word) : (s.ctrlStored w).word (timeId 0) = w := by
  have hregs : (s.ctrlStored w).regs = (s.setWord (timeId 0) w).regs := by
    rw [State.ctrlStored, State.refreshDomain_regs, State.refreshDomain_regs, State.setWord_regs, State.reanchor_regs]
    rfl
  rw [State.word_of_regs hregs, State.word_setWord_same hw]

/-- With the servo on, a disabled domain that has a port enters LISTEN. -/
theorem State.ctrlStored_listens {w : Word} (hon : bitOf w.toNat 0 = true) {d : Nat} (hd : d < 2)
    (hx : (s.domain d).state = .disabled) (hp : s.domPorts d ≠ 0) : ((s.ctrlStored w).domain d).state = .listen := by
  have hregs : ((s.madeGood (timeId 0)).reanchor.setWord (timeId 0) w).regs = (s.setWord (timeId 0) w).regs := by
    rw [State.setWord_regs, State.reanchor_regs]
    rfl
  refine State.refreshDomains_listen hd ?_ ?_ ?_
  · rw [State.servoOn_of_word (State.word_of_regs hregs _), State.word_setWord_same hw, hon]
  · rwa [State.domPorts_of_word ((State.word_of_regs hregs _).trans
      (State.word_setWord_other hw _ (domId_ne_timeId hd)))]
  · exact (congrArg Domain.state (State.domain_reanchor (s.madeGood (timeId 0)) d)).trans hx

end

/-! ### A domain's configuration (R71, R79) -/

section

variable {s : State} {d : Nat}

theorem State.setDomain_setDomain (s : State) (d : Nat) (x y : Domain) : (s.setDomain d x).setDomain d y = s.setDomain d y := by
  unfold State.setDomain
  split <;> rfl

theorem State.loseMaster_disabled (h : (s.domain d).state = .disabled) :
    s.loseMaster d = s.setDomain d (s.domain d).masterless := by
  unfold State.loseMaster
  dsimp only
  split
  · simp_all
  · simp_all
  · simp_all
  · rfl

/-- A new configuration leaves a disabled domain disabled. -/
theorem State.domainWritten_disabled (h : (s.domain d).state = .disabled) (old new : Nat) :
    ∃ x : Domain, x.state = .disabled ∧ s.domainWritten d old new = s.setDomain d x := by
  unfold State.domainWritten
  dsimp only
  split
  · refine ⟨_, ?_, rfl⟩
    exact h
  · rw [State.loseMaster_disabled (by rw [State.domain_setDomain]; exact h), State.setDomain_setDomain]
    refine ⟨_, ?_, rfl⟩
    rw [State.domain_setDomain]
    exact h

/-- DOMAIN_CFG has been stored as `w` on a write of `v`. -/
def State.cfgStored (s : State) (d : Nat) (w v : Word) : State :=
  (((s.madeGood (domId d 0)).setWord (domId d 0) w).domainWritten d (s.word (domId d 0)).toNat v.toNat).refreshDomain d

theorem State.written_cfg (hd : d < 2) (t : State) (old v : Word) :
    t.written (domId d 0) old v = (t.domainWritten d old.toNat v.toNat).refreshDomain d := by
  interval_cases d <;> rfl

theorem lookup_cfg (hd : d < 2) : ∃ fs, lookup (domId d 0) = .word fs ∧ Field.rwl 11 2 3 ∈ fs := by
  interval_cases d <;> exact ⟨_, rfl, by decide⟩

theorem exec_servoEnableWrite_cfg (hd : d < 2) (hs : s.wordService = true) {v : Word}
    (h : s.refusesWrite (domId d 0) v = none) :
    ∃ w : Word, bitsOf w.toNat 11 2 = bitsOf v.toNat 11 2 ∧
      exec (.servoEnableWrite (some d) v) s = .next { s.cfgStored d w v with lastStatus := .ok } := by
  obtain ⟨fs, hl, hf⟩ := lookup_cfg hd
  have hdom : idDomain (domId d 0) = none := by interval_cases d <;> rfl
  refine ⟨mergeWrite fs (s.word (domId d 0)) v, bitsOf_mergeWrite hl hf rfl _ v, ?_⟩
  show onInstance (decide (d < 2)) s (s.wordWrite (domId d 0) v) = _
  rw [decide_eq_true hd, onInstance, if_pos rfl, State.wordWrite_ok hs h, State.putWord_alwaysOn hl hdom,
    if_neg (domId_ne_timeId hd), State.written_cfg hd]
  rfl

/-- A disabled domain that the write gives a port enters LISTEN when the servo is on; the other domain and the memory stand. -/
theorem State.cfgStored_listens (hw : Sparse.wf resetWord s.regs = true) (hd : d < 2) (hs : s.servoOn = true)
    (hx : (s.domain d).state = .disabled) {w : Word} (hp : bitsOf w.toNat 11 2 ≠ 0) (v : Word) :
    ((s.cfgStored d w v).domain d).state = .listen ∧ (s.cfgStored d w v).domain (1 - d) = s.domain (1 - d) ∧
      (s.cfgStored d w v).mem = s.mem := by
  obtain ⟨x, hstate, hwritten⟩ := State.domainWritten_disabled (s := (s.madeGood (domId d 0)).setWord (domId d 0) w) hx
    (s.word (domId d 0)).toNat v.toNat
  rw [State.cfgStored, hwritten]
  obtain ⟨t, ht⟩ : ∃ t, t = ((s.madeGood (domId d 0)).setWord (domId d 0) w).setDomain d x := ⟨_, rfl⟩
  have hregs : t.regs = (s.setWord (domId d 0) w).regs := by
    rw [ht, State.setDomain_regs]
    rfl
  have hservo : t.servoOn = true := by
    rw [← hs]
    exact State.bitAt_of_word ((State.word_of_regs hregs _).trans
      (State.word_setWord_other hw _ (domId_ne_timeId hd).symm)) 0
  have hports : t.domPorts d ≠ 0 := by
    rw [State.domPorts_of_word (State.word_of_regs hregs _), State.word_setWord_same hw]
    exact hp
  rw [← ht]
  refine ⟨State.refreshDomain_listens hservo hports (by rw [ht, State.domain_setDomain, hstate]), ?_, ?_⟩
  · rw [State.domain_refreshDomain_other hd, ht, State.domain_setDomain_other hd]
    rfl
  · rw [State.refreshDomain_mem, ht, State.setDomain_mem]
    rfl

end

/-- Settles O24: each write is refused by its status alone, or stores its word and has the effect of its chapter. -/
theorem timeWordWrites : Obligations.TimeWordWrites := by
  intro s v c hs
  refine ⟨fun h hy => ?_, fun hv hy => ⟨fun hx => ?_, fun hx hfar => ?_⟩, ?_, ?_, fun h hon => ?_, ?_⟩
  · exact ⟨_, _, exec_timeSwitchWrite_ok hs hy c.regs h, rfl, rfl, rfl, rfl, rfl, rfl, rfl⟩
  · exact exec_timeSwitchWrite_refused hs hv (by simp [State.switchRefuses, hy, hx])
  · exact exec_timeSwitchWrite_refused hs hv (by simp [State.switchRefuses, hy, hx, hfar])
  · rintro d hd ha rfl
    refine ⟨_, exec_domainRelockWrite_ok hd hs c.regs ha, rfl, ?_⟩
    have hrelock : ((s.madeGood (domId d 8)).relock d).domain d = _ := State.domain_setDomain _ _ _
    refine ⟨(congrArg Domain.state hrelock).trans ?_, congrArg Domain.master hrelock, congrArg Domain.samples hrelock,
      congrArg Domain.stepDone hrelock, State.domain_setDomain_other hd _ _, State.setDomain_regs _ _ _,
      State.setDomain_mem _ _ _⟩
    exact if_congr beq_iff_eq rfl rfl
  · exact fun d hd ha _ => exec_domainRelockWrite_armed hd hs ha v
  · obtain ⟨w, hkept, hexec⟩ := exec_servoEnableWrite_ctrl hs h
    have hservo : bitOf w.toNat 0 = true := hkept.trans hon
    refine ⟨_, hexec, rfl, ?_, fun d hd hx hp => State.ctrlStored_listens c.regs hservo hd hx hp⟩
    exact (State.servoOn_of_word (State.word_ctrlStored c.regs w)).trans hservo
  · intro d hd h hservo hports hx
    obtain ⟨w, hkept, hexec⟩ := exec_servoEnableWrite_cfg hd hs h
    exact ⟨_, hexec, rfl, State.cfgStored_listens c.regs hd hservo hx (hkept ▸ hports) v⟩

end Sys2Proof.Machine
end

section
/-!
PROOF. The homography of every camera port is the identity at reset (O20).
-/

namespace Sys2Proof.Machine

/-- A word that one RWL field fills reads at reset as the field's code. -/
theorem resetOf_rwl_whole (r : Nat) : resetOf [Field.rwl 0 32 r] = BitVec.ofNat 32 r :=
  BitVec.eq_of_toNat_eq (by simp [resetOf, Field.rwl])

/-- Below unit 4 the block 3 holds the ALIGN words (R4, R5). -/
theorem lookup_align {p idx : Nat} (hp : p < 4) (hidx : idx < 0x10000) :
    lookup (pid 3 p idx) = .pick (alignWord idx) false := by
  have hblock : pid 3 p idx / 0x1000000 = 3 := by unfold pid; omega
  have hunit : pid 3 p idx / 0x10000 % 256 = p := by unfold pid; omega
  have hindex : pid 3 p idx % 0x10000 = idx := by unfold pid; omega
  simp only [lookup, hblock, hunit, hindex, hp, if_true]

/-- A homography word is one RWL field, which resets to 1.0 on the diagonal and to 0 off it (R122). -/
theorem alignWord_homography {i : Nat} (hi : i < 9) :
    alignWord (0x1100 + i) = some [.rwl 0 32 (if i = 0 ∨ i = 4 ∨ i = 8 then 0x00100000 else 0)] := by
  have hgrid : ¬ 0x1100 + i ≤ 0x1080 := by omega
  have hrange : inRange 0x1100 9 (0x1100 + i) = true := by
    simp only [inRange, Bool.and_eq_true, decide_eq_true_eq]
    omega
  have hmiddle : 0x1100 + i = 0x1104 ↔ i = 4 := by omega
  have hlast : 0x1100 + i = 0x1108 ↔ i = 8 := by omega
  simp only [alignWord, hgrid, hrange, Nat.add_eq_left, hmiddle, hlast, if_true, if_false]

/-- Settles O20: a word of the reset state reads its map's reset codes, and the map of a homography word gives the identity. -/
theorem homographyResetsToIdentity : Obligations.HomographyResetsToIdentity := by
  intro p i hp hi
  obtain ⟨-, -, hword, -⟩ := canonicalAtReset
  have hlook : lookup (pid 3 p (0x1100 + i)) = .word [.rwl 0 32 (if i = 0 ∨ i = 4 ∨ i = 8 then 0x00100000 else 0)] := by
    rw [lookup_align hp (by omega), alignWord_homography hi]
    rfl
  rw [hword, resetWord_of_lookup hlook, resetOf_rwl_whole]
  split <;> rfl

end Sys2Proof.Machine
end

section
/-!
PROOF. The neuron update unit stays in its widths (O16).
-/

namespace Sys2Proof.Machine

/-! ### Clamped and saturated values -/

/-- A clamp answers one of its bounds or a value between them. -/
theorem clampInt_mem {lo hi : Int} (h : lo ≤ hi) (x : Int) : lo ≤ clampInt lo hi x ∧ clampInt lo hi x ≤ hi := by
  unfold clampInt
  split
  · exact ⟨le_rfl, h⟩
  · split
    · exact ⟨h, le_rfl⟩
    · omega

/-- A clamp whose range meets [a, b] keeps a value of [a, b] in it. -/
theorem clampInt_between {a b lo hi x : Int} (hlo : lo ≤ b) (hhi : a ≤ hi) (ha : a ≤ x) (hb : x ≤ b) :
    a ≤ clampInt lo hi x ∧ clampInt lo hi x ≤ b := by
  unfold clampInt
  split
  · omega
  · split <;> omega

theorem satInt_mem (w : Nat) (x : Int) : -(2 ^ (w - 1) : Nat) ≤ satInt w x ∧ satInt w x ≤ (2 ^ (w - 1) : Nat) - 1 :=
  clampInt_mem (by have := Nat.two_pow_pos (w - 1); omega) x

/-! ### V through the micro-operations (R135, R136, R138) -/

/-- V of the working registers fits 32 signed bits (R135). -/
def EvalRegs.vFits (r : EvalRegs) : Prop := -2147483648 ≤ r.v ∧ r.v ≤ 2147483647

/-- Every operation that computes V saturates it (R135). -/
theorem EvalRegs.vFits_of_satInt {r : EvalRegs} {x : Int} (h : r.v = satInt 32 x) : r.vFits := by
  unfold EvalRegs.vFits
  rw [h]
  exact satInt_mem 32 x

section

variable (env : EvalEnv) (r : EvalRegs)

theorem opCmpFire_v : (opCmpFire env r).v = r.v := by
  unfold opCmpFire
  dsimp only
  split <;> rfl

theorem opBurstFire_v : (opBurstFire env r).v = r.v := by
  unfold opBurstFire
  dsimp only
  split
  · rfl
  · split <;> rfl

theorem opTrace_v (x : Nat) : (opTrace r x).v = r.v := by
  unfold opTrace
  split
  · rfl
  · split <;> rfl
  · rfl

theorem emitValue_v (x : Int) (delay port : Nat) : (emitValue env r x delay port).v = r.v := by
  unfold emitValue
  split <;> rfl

theorem opEmit_v (x : Nat) : (opEmit env r x).v = r.v := by
  unfold opEmit
  dsimp only
  split
  · exact emitValue_v env r _ _ _
  · split
    · exact emitValue_v env r _ _ _
    · rfl

theorem opMulLeak_vFits (stoch : Bool) : (opMulLeak env r stoch).vFits := by
  unfold opMulLeak
  dsimp only
  split <;> exact EvalRegs.vFits_of_satInt rfl

variable {env r} (h : r.vFits)

include h

theorem EvalRegs.vFits_of_same {t : EvalRegs} (e : t.v = r.v) : t.vFits := by
  unfold EvalRegs.vFits
  rw [e]
  exact h

/-- Each range of CLAMP meets the 32 signed bits: those of 20 bits, and the symmetric one of the threshold (R136). -/
theorem opClamp_vFits (hlo : -524288 ≤ env.par.reset) (hhi : env.par.reset ≤ 524287) (range : Nat) :
    (opClamp env r range).vFits := by
  obtain ⟨ha, hb⟩ := h
  unfold opClamp
  dsimp only
  split <;> exact clampInt_between (by omega) (by omega) ha hb

theorem execOp_vFits (hlo : -524288 ≤ env.par.reset) (hhi : env.par.reset ≤ 524287) (op : Nat) : (execOp env r op).vFits := by
  unfold execOp
  dsimp only
  split
  · exact EvalRegs.vFits_of_satInt rfl
  · exact EvalRegs.vFits_of_satInt rfl
  · exact EvalRegs.vFits_of_satInt rfl
  · exact opMulLeak_vFits env r _
  · exact opClamp_vFits h hlo hhi _
  · exact EvalRegs.vFits_of_same h (opCmpFire_v env r)
  · exact EvalRegs.vFits_of_same h (opBurstFire_v env r)
  · split
    · exact EvalRegs.vFits_of_satInt rfl
    · exact h
  · split
    · exact EvalRegs.vFits_of_satInt rfl
    · exact h
  · exact EvalRegs.vFits_of_same h (opTrace_v r _)
  · exact h
  · exact EvalRegs.vFits_of_same h (opEmit_v env r _)
  · exact EvalRegs.vFits_of_satInt rfl
  · exact h

end

/-- Settles O16: each operation saturates V, clamps it or leaves it, and the membrane is V saturated to 20 bits. -/
theorem neuronArithmeticStaysInRange : Obligations.NeuronArithmeticStaysInRange := by
  refine ⟨fun env r op hlo hhi ha hb => execOp_vFits ⟨ha, hb⟩ hlo hhi op, fun env x a lfsr => ?_⟩
  obtain ⟨hlow, hhigh⟩ : -524288 ≤ (evaluate env x a lfsr).1.membrane ∧ (evaluate env x a lfsr).1.membrane ≤ 524287 :=
    satInt_mem 20 _
  exact ⟨hlow, hhigh, rfl, fun hasync => if_pos hasync⟩

end Sys2Proof.Machine
end

section
/-!
PROOF. What sending an event leaves of the recheck lists and their counters, and the recheck of a fired neuron (O17).
-/

namespace Sys2Proof.Machine

/-! ### States with the same rechecks -/

/-- The recheck lists and the counters NEURON.RECHECKS of `t`, whose words and blocks are in canonical form, are those of `s`. -/
structure SameRechecks (s t : State) : Prop where
  regs : Sparse.wf resetWord t.regs = true
  blocks : Sparse.wf (fun _ => Block.empty) t.fab.blocks = true
  lists : ∀ b, (t.block b).recheck = (s.block b).recheck
  counters : ∀ b, t.word (pid 5 b 0x202) = s.word (pid 5 b 0x202)

theorem State.block_of_fab {s t : State} (h : t.fab = s.fab) (b : Nat) : t.block b = s.block b := by
  rw [State.block, State.block, h]

/-- The parameters of one index are not those of another (R4). -/
theorem pid_ne_of_index {i j : Nat} (hi : i < 0x10000) (hj : j < 0x10000) (h : i ≠ j) (block unit block' unit' : Nat) :
    pid block unit i ≠ pid block' unit' j := by
  unfold pid
  omega

namespace SameRechecks

theorem refl {s : State} (hc : s.canonical) : SameRechecks s s := ⟨hc.regs, hc.fab_blocks, fun _ => rfl, fun _ => rfl⟩

section

variable {s t : State} (h : SameRechecks s t)

include h

/-- Blocks and words alone bear on rechecks. -/
theorem of_same {u : State} (hf : u.fab = t.fab) (hr : u.regs = t.regs) : SameRechecks s u where
  regs := hr ▸ h.regs
  blocks := hf ▸ h.blocks
  lists b := (congrArg Block.recheck (State.block_of_fab hf b)).trans (h.lists b)
  counters b := (State.word_of_regs hr _).trans (h.counters b)

theorem onBlock (b : Nat) {f : Block → Block} (hf : ∀ x, (f x).recheck = x.recheck) : SameRechecks s (t.onBlock b f) where
  regs := h.regs
  blocks := Sparse.modify_wf b f h.blocks
  lists q := by
    rw [State.block_onBlock h.blocks, ← h.lists q]
    split
    · rename_i e
      rw [hf, e]
    · rfl
  counters b := (State.word_of_regs (State.onBlock_regs t _ f) _).trans (h.counters b)

section

variable {i : Nat} (hi : i < 0x10000 ∧ i ≠ 0x202) (block unit : Nat)

include hi

theorem setWord (w : Word) : SameRechecks s (t.setWord (pid block unit i) w) where
  regs := State.wf_setWord h.regs _ _
  blocks := by
    rw [State.setWord_fab]
    exact h.blocks
  lists b := by
    rw [State.block_of_fab (State.setWord_fab t _ w)]
    exact h.lists b
  counters b :=
    (State.word_setWord_other h.regs w (pid_ne_of_index (by decide) hi.1 hi.2.symm 5 b block unit)).trans (h.counters b)

theorem flag (n : Nat) : SameRechecks s (t.flag (pid block unit i) n) := h.setWord hi block unit _

theorem flagIf (c : Bool) (n : Nat) : SameRechecks s (t.flagIf c (pid block unit i) n) := by
  unfold State.flagIf
  split
  · exact h.flag hi block unit n
  · exact h

theorem bump (n : Nat) : SameRechecks s (t.bump (pid block unit i) n) := by
  unfold State.bump
  split
  · exact h
  · exact h.setWord hi block unit _

theorem bumpIf (c : Bool) : SameRechecks s (t.bumpIf c (pid block unit i)) := by
  unfold State.bumpIf
  split
  · exact h.bump hi block unit 1
  · exact h

end

theorem report (block inst code detail : Nat) : SameRechecks s (t.report block inst code detail) := by
  obtain (⟨f, e⟩ | ⟨rs, e⟩) | e | e := State.report_cases t block inst code detail <;> rw [e]
  · exact h.of_same rfl rfl
  · exact h.of_same rfl rfl
  · exact h.bump (by decide) 1 0 1
  · exact h.bump (by decide) 1 0 1

/-! ### An event on its way (R166, R172 to R178) -/

variable (r : Nat) (x : Held)

theorem historyTap : SameRechecks s (t.historyTap r x) := by
  unfold State.historyTap
  split
  · split
    · exact h.of_same rfl rfl
    · exact h
  · exact h

theorem feedBlock (b : Nat) : SameRechecks s (t.feedBlock b x) := by
  unfold State.feedBlock
  split
  · refine ((h.onBlock b ?_).bumpIf (i := 0x204) (by decide) 5 b _).flagIf (i := 2) (by decide) 5 b _ 0
    exact fun _ => rfl
  · exact (h.flag (i := 2) (by decide) 5 b 0).onBlock b fun _ => rfl

theorem deliver : SameRechecks s (t.deliver r x) :=
  forEach_induction (SameRechecks s) (fun _ b k => k.feedBlock _ b) _ (h.historyTap r x)

theorem queueEvent (dest src : Nat) : SameRechecks s (t.queueEvent dest src x) := by
  unfold State.queueEvent
  split <;> exact h.of_same rfl rfl

theorem forward : SameRechecks s (t.forward r x) := by
  unfold State.forward
  refine forEach_induction (SameRechecks s) (fun u q k => ?_) _ h
  dsimp only
  split
  · exact k
  · exact k.queueEvent _ _ _

theorem markHeld (fs : List Flit) (mask : Nat) : SameRechecks s (t.markHeld fs x mask) := by
  unfold State.markHeld
  split
  · split <;> exact h.of_same rfl rfl
  · exact h.of_same rfl rfl

theorem spillDrop : SameRechecks s (t.spillDrop r x) :=
  (((h.bump (i := 0x102) (by decide) 4 r 1).flag (i := 1) (by decide) 4 r 1).report 4 r 0x0B x.src).markHeld _ _ _

theorem holdEvent : SameRechecks s (t.holdEvent r x) := by
  have delivered : SameRechecks s ((t.deliver r x).forward r x) := (h.deliver r x).forward r x
  unfold State.holdEvent
  split
  · exact delivered
  · split
    · exact delivered
    · dsimp only
      split
      · exact h.of_same rfl rfl
      · split
        · exact h.of_same rfl rfl
        · exact h.spillDrop r x

theorem sendEvent (srcPos unit : Nat) : SameRechecks s (t.sendEvent srcPos unit x) := by
  unfold State.sendEvent
  dsimp only
  split
  · exact h.bump (by decide) 4 unit 1
  · refine forEach_induction (SameRechecks s) (fun u d k => ?_) _ h
    split
    · exact k.holdEvent _ _
    · exact k.queueEvent _ _ _

end

end SameRechecks

/-! ### The evaluation of a neuron (R126, R129) -/

/-- A membrane at or beyond the threshold of its class (R129). -/
def ClassPar.reaches (p : ClassPar) (x : Neuron) : Bool :=
  decide ((p.theta : Int) ≤ x.membrane) || (p.twoSided && decide (x.membrane ≤ -(p.theta : Int)))

theorem ClassPar.reaches_iff {p : ClassPar} {x : Neuron} :
    p.reaches x = true ↔ (p.theta : Int) ≤ x.membrane ∨ (p.twoSided = true ∧ x.membrane ≤ -(p.theta : Int)) := by
  simp [ClassPar.reaches]

theorem Block.withStates_recheck (x : Block) (m : Sparse Nat) : { x with states := m }.recheck = x.recheck := rfl

theorem Block.setNeuron_recheck (x : Block) (n : Nat) (y : Neuron) : (x.setNeuron n y).recheck = x.recheck :=
  Block.withStates_recheck x _

/-- The block with the outcome of an evaluation of neuron `n`, which goes on recheck when `again`. -/
def Block.evalStored (x : Block) (n : Nat) (new : Neuron) (evs : List Held) (lfsr : Nat) (again : Bool) : Block :=
  let x := x.setNeuron n new
  { x with lfsr := lfsr, out := x.out ++ evs, recheck := if again then x.recheck ++ [n] else x.recheck }

theorem Block.recheck_evalStored (x : Block) (n : Nat) (new : Neuron) (evs : List Held) (lfsr : Nat) (again : Bool) :
    (x.evalStored n new evs lfsr again).recheck = if again then x.recheck ++ [n] else x.recheck := by
  show (if again then (x.setNeuron n new).recheck ++ [n] else (x.setNeuron n new).recheck) = _
  rw [Block.setNeuron_recheck]

/-- The state with that outcome in block `b` and the recheck counted, before the events go out. -/
def State.evalStored (s : State) (b n : Nat) (new : Neuron) (evs : List Held) (lfsr : Nat) (again : Bool) : State :=
  (s.onBlock b fun x => x.evalStored n new evs lfsr again).bumpIf again (pid 5 b 0x202)

section

variable {s : State} (hc : s.canonical) (b n : Nat) (new : Neuron) (evs : List Held) (lfsr : Nat) (again : Bool)

include hc

theorem State.recheck_evalStored :
    ((s.evalStored b n new evs lfsr again).block b).recheck =
      if again then (s.block b).recheck ++ [n] else (s.block b).recheck := by
  rw [State.evalStored, State.block_of_fab (State.bumpIf_fab _ _ _), State.block_onBlock hc.fab_blocks, if_pos rfl,
    Block.recheck_evalStored]

theorem State.rechecks_evalStored :
    (s.evalStored b n new evs lfsr again).word (pid 5 b 0x202) =
      if again then BitVec.ofNat 32 (satAdd32 (s.word (pid 5 b 0x202)).toNat 1) else s.word (pid 5 b 0x202) := by
  unfold State.evalStored State.bumpIf
  split
  · exact (State.word_bump (s := s.onBlock b _) hc.regs (pid 5 b 0x202) _ 1).trans (if_pos rfl)
  · rfl

theorem State.evalStored_canonical : (s.evalStored b n new evs lfsr again).canonical :=
  (State.bumpIf_carries (State.onBlock_carries (Carries.refl s) b _) again (pid 5 b 0x202)).canonical hc

end

/-- A readable neuron is evaluated, stored, and its events are sent (R126). -/
theorem State.evalNeuron_readable {s : State} {b n : Nat} (hbad : (s.block b).badState.contains n = false) {par : ClassPar}
    {env : EvalEnv} (hpar : par = s.classPar b ((s.block b).neuron n).cls)
    (henv : env = ⟨par, false, (s.pos.cur.map (·.backstop)).getD false, s.stepIdx par⟩) {a : Int} {new : Neuron}
    {emits : List (Int × Nat × Nat)} {lfsr : Nat} {fired : Bool}
    (he : evaluate env ((s.block b).neuron n) a (s.block b).lfsr = (new, emits, lfsr, fired)) (ssn : Nat) :
    s.evalNeuron b false ssn n a =
      forEach (emits.map (s.emitted b n ssn)) (fun t h => t.sendEvent (ringPos (b / 16)) (b / 16) h)
        (s.evalStored b n new (emits.map (s.emitted b n ssn)) lfsr (fired && par.reaches new)) := by
  subst henv hpar
  unfold State.evalNeuron
  simp only [hbad, Bool.false_eq_true, if_false]
  rw [he]
  dsimp only
  simp only [Bool.not_false, Bool.true_and]
  rfl

/-- Settles O17: the evaluation stores the recheck and counts it, and sending its events leaves both. -/
theorem firedNeuronsAreRechecked : Obligations.FiredNeuronsAreRechecked := by
  intro s b ssn n a hc _ hbad par env hpar henv new emits lfsr fired he
  obtain ⟨u, hu⟩ : ∃ u, u = s.evalStored b n new (emits.map (s.emitted b n ssn)) lfsr (fired && par.reaches new) := ⟨_, rfl⟩
  have sent : SameRechecks u (s.evalNeuron b false ssn n a) := by
    rw [State.evalNeuron_readable hbad hpar henv he, ← hu]
    exact forEach_induction (SameRechecks u) (fun _ h k => k.sendEvent h _ _) _
      (.refl (hu ▸ State.evalStored_canonical hc _ _ _ _ _ _))
  rw [sent.lists, sent.counters, hu, State.recheck_evalStored hc, State.rechecks_evalStored hc, ← ClassPar.reaches_iff,
    ← Bool.and_eq_true]
  refine ⟨fun again => ?_, fun once => ⟨if_neg once, if_neg once⟩⟩
  rw [if_pos again, if_pos again]
  refine ⟨rfl, ?_⟩
  rw [BitVec.toNat_ofNat, Nat.mod_eq_of_lt (by unfold satAdd32; omega)]
  rfl

end Sys2Proof.Machine
end

section
/-!
PROOF. The rows of a neuron block and the release of a decoder's records (O15).
-/

namespace Sys2Proof.Machine

/-! ### A unit of the module -/

theorem neuronBlock_present {region block : Nat} (hr : region < 8) (hb : block < 16) :
    (decide (region < 8) && decide (block < 16)) = true := by
  rw [decide_eq_true hr, decide_eq_true hb]
  rfl

/-! ### The evaluation of a block (R126) -/

/-- A block that counts as evaluated is not one at rest, so it reads back whatever store it is written to. -/
theorem State.evaluated_onBlock {f : Block → Block} (hf : ∀ x, (f x).evaluated = true) (s : State) (b : Nat) :
    ((s.onBlock b f).block b).evaluated = true := by
  have hne : f (s.block b) ≠ Block.empty := fun e => by
    have hev := hf (s.block b)
    rw [e] at hev
    cases hev
  have hread : (s.onBlock b f).block b = f (s.block b) := Sparse.get_set_new _ _ hne
  rw [hread]
  exact hf _

theorem State.evaluated_evalBlock (s : State) (b ssn : Nat) : ((s.evalBlock b ssn).block b).evaluated = true :=
  State.evaluated_onBlock (f := fun x => { x with evaluated := true, badAcc := [] }) (fun _ => rfl) _ b

/-! ### The rows -/

section

variable {s : State} {region block : Nat} (hr : region < 8) (hb : block < 16)

include hr hb

theorem exec_blockInputComplete_due (h : s.inputComplete (region * 16 + block) = true) :
    exec (.blockInputComplete region block) s = .next (s.evalBlock (region * 16 + block) (s.curSsn.getD 0)) := by
  show onUnit _ s (whenDue _ _ s) = _
  rw [onUnit_present (neuronBlock_present hr hb), whenDue_of_due h]

theorem exec_blockStepFinished_due (hcur : s.pos.cur.isSome = true) (hpart : s.takesPart (region * 16 + block) = true)
    (hev : (s.block (region * 16 + block)).evaluated = true) (hfin : (s.block (region * 16 + block)).finished = false) :
    exec (.blockStepFinished region block) s =
      .next (((s.onBlock (region * 16 + block) fun x => { x with finished := true, input := [] }).setFld
        (pid 5 (region * 16 + block) 2) 0 1 0).endIfDone) := by
  show onUnit _ s (whenDue _ _ s) = _
  rw [onUnit_present (neuronBlock_present hr hb), whenDue_of_due (by rw [hcur, hpart, hev, hfin]; rfl)]

theorem exec_asyncSynapticUpdate_waiting {index : Nat} {u : Update}
    (h : (s.block (region * 16 + block)).updates[index]? = some u) :
    exec (.asyncSynapticUpdate region block index) s =
      .next ((((s.onBlock (region * 16 + block) fun x => { x with updates := x.updates.eraseIdx index }).evalNeuron
        (region * 16 + block) true s.ssnDone u.neuron u.input).onBlock (region * 16 + block) fun x =>
          { x with out := [] }).sleepIdle (region * 16 + block)) := by
  show execAsyncSynapticUpdate region block index s = _
  rw [execAsyncSynapticUpdate, onUnit_present (neuronBlock_present hr hb)]
  simp only [h]
  rfl

theorem exec_stateWordRepair_synapse (index : Nat) :
    exec (.stateWordRepair region block true index) s =
      .next (s.onBlock (region * 16 + block) fun x => { x with badSyn := x.badSyn.filter (· != index) }) :=
  onUnit_present (neuronBlock_present hr hb) s _

/-- A bad state word is written as arming writes it, with the step index of now, and is usable again (R151). -/
theorem exec_stateWordRepair_state {index : Nat} (h : (s.block (region * 16 + block)).badState.contains index = true) :
    ∃ x, exec (.stateWordRepair region block false index) s =
      .next (s.onBlock (region * 16 + block) fun y =>
        { y.setNeuron index x with badState := y.badState.filter (· != index) }) := by
  have e : exec (.stateWordRepair region block false index) s = execStateWordRepair region block false index s := rfl
  rw [e, execStateWordRepair, onUnit_present (neuronBlock_present hr hb), if_neg (by decide), whenDue_of_due h]
  exact ⟨_, rfl⟩

end

/-- In step mode the oldest record that is held goes to its consumer (R155). -/
theorem exec_decoderRecordRelease_held {s : State} {region : Nat} {r : DecRec} {rest : List DecRec} (hr : region < 8)
    (hm : s.stepMode = true) (h : (s.conv region).held = r :: rest) :
    exec (.decoderRecordRelease region) s = .next ((s.onConv region fun c => { c with held := rest }).consumeRec region r) := by
  show execDecoderRecordRelease region s = _
  rw [execDecoderRecordRelease, onUnit_present (decide_eq_true hr), whenDue_of_due hm]
  simp only [h]

/-- Settles O15: a row of a block or of a converter that is there, in a state that meets its condition. -/
theorem neuronBlockCommands : Obligations.NeuronBlockCommands := by
  rintro s region block hc hr hb b rfl
  refine ⟨fun h => ⟨exec_blockInputComplete_due hr hb h, State.evaluated_evalBlock s _ _⟩,
    exec_blockStepFinished_due hr hb, fun index u h => exec_asyncSynapticUpdate_waiting hr hb h,
    exec_stateWordRepair_synapse hr hb, fun index h => ?_, fun r rest hm h => exec_decoderRecordRelease_held hr hm h⟩
  obtain ⟨x, hexec⟩ := exec_stateWordRepair_state hr hb h
  refine ⟨_, hexec, ?_, fun q hq => ?_, rfl, rfl⟩
  · rw [State.block_onBlock hc.fab_blocks, if_pos rfl]
  · rw [State.block_onBlock hc.fab_blocks, if_neg hq]

end Sys2Proof.Machine
end

section
/-!
PROOF. An event that is not due now waits in its node's SRAM, then in its spill area (O14).
-/

namespace Sys2Proof.Machine

/-- A node that is not at rest after a change reads back changed, whatever the list of nodes. -/
theorem State.node_onNode_new {s : State} {r : Nat} {f : Node → Node} (h : f (s.node r) ≠ Node.empty) :
    (s.onNode r f).node r = f (s.node r) :=
  Sparse.get_set_new _ _ h

/-- A change that does not put a node at rest leaves every other node as it was, whatever the list of nodes. -/
theorem State.node_onNode_of_ne {s : State} {r q : Nat} {f : Node → Node} (h : f (s.node r) ≠ Node.empty) (hq : q ≠ r) :
    (s.onNode r f).node q = s.node q := by
  have hput : (s.onNode r f).rtr.nodes = Sparse.put r (f (s.node r)) s.rtr.nodes := if_neg h
  rw [State.node, hput]
  exact Sparse.get_put_other _ _ hq _

theorem Node.sram_append_ne_empty (n : Node) (h : Held) : { n with sram := n.sram ++ [h] } ≠ Node.empty :=
  fun e => List.append_ne_nil_of_right_ne_nil _ (List.cons_ne_nil h []) (congrArg Node.sram e)

theorem Node.spill_append_ne_empty (n : Node) (h : Held) : { n with spill := n.spill ++ [h] } ≠ Node.empty :=
  fun e => List.append_ne_nil_of_right_ne_nil _ (List.cons_ne_nil h []) (congrArg Node.spill e)

section

variable {s : State} {r : Nat} {h : Held} (hstep : s.regionAsync r = false)
  (hlater : h.pending = true ∨ s.curSsn.map (· % 65536) ≠ some h.tag)

include hstep hlater

/-- In step mode an event that is not due now is held, spilled or dropped, by the room its node has (R172, R174, R176). -/
theorem State.holdEvent_later :
    s.holdEvent r h =
      if (s.node r).sram.length < 32768 then s.onNode r fun n => { n with sram := n.sram ++ [h] }
      else if (s.node r).spill.length < 8388608 then s.onNode r fun n => { n with spill := n.spill ++ [h] }
      else s.spillDrop r h := by
  have hdue : ¬(!h.pending && s.curSsn.map (· % 65536) == some h.tag) = true := by
    rcases hlater with hp | ht
    · simp [hp]
    · simp [ht]
  rw [State.holdEvent, if_neg (by simp [hstep]), if_neg hdue]

theorem State.holdEvent_sram (hroom : (s.node r).sram.length < 32768) :
    s.holdEvent r h = s.onNode r fun n => { n with sram := n.sram ++ [h] } := by
  rw [State.holdEvent_later hstep hlater, if_pos hroom]

theorem State.holdEvent_spill (hfull : 32768 ≤ (s.node r).sram.length) (hroom : (s.node r).spill.length < 8388608) :
    s.holdEvent r h = s.onNode r fun n => { n with spill := n.spill ++ [h] } := by
  rw [State.holdEvent_later hstep hlater, if_neg (Nat.not_lt.2 hfull), if_pos hroom]

end

/-- Settles O14: held or spilled, an event leaves its node not at rest, so the change reads back and no other node sees it. -/
theorem eventsAreHeldInOrder : Obligations.EventsAreHeldInOrder := by
  intro s r h hstep hlater
  refine ⟨fun q hq hroom => ?_, fun hroom => ?_, fun hfull hroom => ?_⟩
  · by_cases hsram : (s.node r).sram.length < 32768
    · rw [State.holdEvent_sram hstep hlater hsram]
      exact State.node_onNode_of_ne (Node.sram_append_ne_empty _ h) hq
    · rw [State.holdEvent_spill hstep hlater (Nat.not_lt.1 hsram) (hroom.resolve_left hsram)]
      exact State.node_onNode_of_ne (Node.spill_append_ne_empty _ h) hq
  · rw [State.holdEvent_sram hstep hlater hroom, State.node_onNode_new (Node.sram_append_ne_empty _ h)]
    exact ⟨rfl, rfl, rfl, rfl⟩
  · rw [State.holdEvent_spill hstep hlater hfull hroom, State.node_onNode_new (Node.spill_append_ne_empty _ h)]
    exact ⟨rfl, rfl, rfl, rfl⟩

end Sys2Proof.Machine
end

section
/-!
PROOF. The flits a node's input takes, the flit an output picks, and spill read-back (O13).
-/

namespace Sys2Proof.Machine

/-! ### A flit at a node -/

/-- A flit whose words can be used passes on at a node that is not its own; its own node takes it, the node of region `r` by
`own r` and the others unseen (R158, R161). -/
def State.atNode (u : State) (f : Flit) (node : Nat) (own : Nat → State) : State :=
  if f.dest != node then u.passFlit f node else (ringRegion node).elim (u.takeFlit f) own

section

variable (u : State) {f : Flit} {node : Nat} (own : Nat → State)

theorem State.atNode_other (h : f.dest ≠ node) : u.atNode f node own = u.passFlit f node :=
  if_pos (bne_iff_ne.2 h)

theorem State.atNode_own (h : f.dest = node) {r : Nat} (hr : ringRegion node = some r) : u.atNode f node own = own r := by
  rw [State.atNode, if_neg (by simp [h]), hr, Option.elim_some]

end

theorem any_uncorrectable_iff {ecc : List EccCheck} : ecc.any (· == .uncorrectable) = true ↔ .uncorrectable ∈ ecc := by
  simp

/-! ### The rows of a flit that comes next -/

section

variable {s t : State} {node : Nat} {up : Bool} {f : Flit} (hnode : node < 11) (hnext : s.nextFlit node up = some (f, t))

include hnode hnext

theorem exec_flitEventsRx_next {evs : List Held} (hbody : f.body = .events evs) (header : EccCheck) (words : List EccCheck) :
    exec (.flitEventsRx node up header words) s = .next
      (if (header :: words).any (· == .uncorrectable) then
        ((t.flitCorr node (header :: words)).takeFlit f).flitLost node f evs (s.behind f)
       else (t.flitCorr node (header :: words)).atNode f node fun r =>
         forEach evs (fun s h => s.holdEvent r h) ((t.flitCorr node (header :: words)).takeFlit f)) := by
  show execFlitEventsRx node up header words s = _
  rw [execFlitEventsRx, onUnit_present (decide_eq_true hnode), State.atNode, hnext]
  simp only [hbody]
  cases ringRegion node <;> rfl

theorem exec_flitCloseRx_next {k : Int} {b : Bool} {ssn : Nat} (hbody : f.body = .close k b ssn) (header : EccCheck)
    (words : List EccCheck) {u : State} (hu : u = (t.flitCorr node (header :: words)).flitUe node (header :: words)) :
    exec (.flitCloseRx node up header words) s = .next
      (if copiesBad (header :: words) then u.copiesLost node f
       else u.atNode f node fun r => (u.takeFlit f).takeClose r k b ssn) := by
  subst hu
  show execFlitCloseRx node up header words s = _
  rw [execFlitCloseRx, onUnit_present (decide_eq_true hnode), State.atNode, hnext]
  simp only [hbody]
  cases ringRegion node <;> rfl

theorem exec_flitStepEndRx_next {ssn : Nat} (hbody : f.body = .stepEnd ssn) (first second behind : List EccCheck)
    {ecc : List EccCheck} (hecc : ecc = first ++ second ++ behind) {u : State} (hu : u = (t.flitCorr node ecc).flitUe node ecc) :
    exec (.flitStepEndRx node up first second behind) s = .next
      (if copiesBad ecc then u.copiesLost node f
       else u.atNode f node fun r => (ringRegion f.src).elim (u.takeFlit f) fun q => (u.takeFlit f).takeStepEnd r q ssn) := by
  subst hu hecc
  show execFlitStepEndRx node up first second behind s = _
  rw [execFlitStepEndRx, onUnit_present (decide_eq_true hnode), State.atNode, hnext]
  simp only [hbody]
  cases ringRegion node <;> cases ringRegion f.src <;> rfl

theorem exec_flitControlRx_next (hbody : f.body = .control) (ecc : List EccCheck) :
    exec (.flitControlRx (node, up) ecc none) s = .next (t.takeControl node ecc f) := by
  show execFlitControlRx (node, up) ecc none s = _
  rw [execFlitControlRx, onUnit_present (by simp [hnode])]
  simp only [hnext, hbody]

end

theorem State.takeControl_eq (t : State) (node : Nat) (ecc : List EccCheck) (f : Flit) {u : State}
    (hu : u = (t.flitCorr node ecc).flitUe node ecc) :
    t.takeControl node ecc f = if f.dest = node then u.takeFlit f else u.passFlit f node := by
  subst hu
  unfold State.takeControl
  simp only [bne_iff_ne, ne_eq, ite_not]

/-! ### STEP_END flits at their own node (R173) -/

/-- What a flit's check results count and flag leaves the step in evaluation alone. -/
theorem State.curSsn_flitChecked (t : State) (node : Nat) (ecc : List EccCheck) :
    ((t.flitCorr node ecc).flitUe node ecc).curSsn = t.curSsn := by
  have hpos : ((t.flitCorr node ecc).flitUe node ecc).pos = t.pos := (State.flagIf_pos _ _ _ _).trans (State.bump_pos t _ _)
  rw [State.curSsn, hpos, State.curSsn]

theorem State.takeStepEnd_current {u : State} {ssn : Nat} (h : u.curSsn = some ssn) (r q : Nat) :
    u.takeStepEnd r q ssn = u.onNode r fun n => { n with stepEnds := n.stepEnds ++ [q] } :=
  if_pos (beq_iff_eq.2 h)

/-! ### The flit an output picks (R161, R163) -/

/-- What an output picks is a through flit for another node that has a credit, or the node's own candidate where that may be
injected. -/
theorem State.pickFlit_cases {s : State} {p : Nat} {up : Bool} {own : Option Flit} {f : Flit} {inject fresh : Bool}
    (h : s.pickFlit p up own = some (f, inject, fresh)) :
    (inject = false ∧ (s.through p up).find? (fun g => g.dest != p && s.hasCredit (nextPos p up) up g.src) = some f) ∨
      (inject = true ∧ own.filter (fun g => s.mayInject (nextPos p up) up g.src) = some f) := by
  unfold State.pickFlit at h
  dsimp only at h
  generalize (s.through p up).find? (fun g => g.dest != p && s.hasCredit (nextPos p up) up g.src) = through at h ⊢
  generalize own.filter (fun g => s.mayInject (nextPos p up) up g.src) = injected at h ⊢
  cases through with
  | none =>
    cases injected with
    | none => cases h
    | some g => cases h; exact .inr ⟨rfl, rfl⟩
  | some g =>
    cases injected with
    | none => cases h; exact .inl ⟨rfl, rfl⟩
    | some o =>
      dsimp only at h
      split at h
      · cases h; exact .inl ⟨rfl, rfl⟩
      · split at h
        · cases h; exact .inr ⟨rfl, rfl⟩
        · cases h; exact .inl ⟨rfl, rfl⟩

theorem State.pickFlit_through {s : State} {p : Nat} {up : Bool} {own : Option Flit} {f : Flit} {fresh : Bool}
    (h : s.pickFlit p up own = some (f, false, fresh)) :
    f ∈ s.through p up ∧ f.dest ≠ p ∧ s.hasCredit (nextPos p up) up f.src = true := by
  obtain ⟨-, hfind⟩ | ⟨hfalse, -⟩ := State.pickFlit_cases h
  · have hgood := List.find?_some hfind
    rw [Bool.and_eq_true, bne_iff_ne] at hgood
    exact ⟨List.mem_of_find?_eq_some hfind, hgood⟩
  · cases hfalse

theorem State.pickFlit_injected {s : State} {p : Nat} {up : Bool} {own : Option Flit} {f : Flit} {fresh : Bool}
    (h : s.pickFlit p up own = some (f, true, fresh)) :
    own = some f ∧ s.mayInject (nextPos p up) up f.src = true := by
  obtain ⟨htrue, -⟩ | ⟨-, hfilter⟩ := State.pickFlit_cases h
  · cases htrue
  · exact Option.filter_eq_some_iff.1 hfilter

/-! ### A CONTROL flit of the neighbour's own, and spill read-back (R161, R163, R175) -/

theorem exec_flitControlRx_own {s : State} {node p d : Nat} {up fresh : Bool} {f g : Flit} (hnode : node < 11)
    (hp : p = nextPos node (!up)) (hf : f = ⟨d, p, .control, p, false⟩) (hrun : s.running = true) (hd : d < 11)
    (hne : d ≠ p) (hup : f.up = up) (hpick : s.pickFlit p up (some f) = some (g, true, fresh)) (ecc : List EccCheck) :
    exec (.flitControlRx (node, up) ecc (some d)) s =
      .next ((({ s with rtr := { s.rtr with ring := s.rtr.ring ++ [f] } }).countGrant p up true fresh).takeControl node ecc
        f) := by
  subst hp hf
  show execFlitControlRx (node, up) ecc (some d) s = _
  rw [execFlitControlRx, onUnit_present (by simp [hnode, hd])]
  dsimp only
  rw [whenDue_of_due (by simp [hrun, hne, hup])]
  simp only [hpick]

theorem exec_spillReadback_due {s : State} {region n : Nat} (hr : region < 8) (hcur : s.curSsn = some n)
    (hclose : ssnReached (s.node region).closeSeen n = true) {moved : List Held}
    (hmoved : moved = ((s.node region).spill.filter (·.due ((n + 1) % 2 ^ 32))).take (32768 - (s.node region).sram.length)) :
    exec (.spillReadback region) s =
      .next ((forEach ((s.node region).spill.filter (·.due n)) (fun s h => (s.deliver region h).forward region h)
        (s.onNode region fun x => { x with
          sram := x.sram ++ moved
          spill := moved.foldl (fun l h => l.erase h) (x.spill.filter fun h => !h.due n) })).releaseNode region) := by
  subst hmoved
  show execSpillReadback region s = _
  rw [execSpillReadback, onUnit_present (decide_eq_true hr)]
  simp only [hcur]
  rw [whenDue_of_due hclose]

/-- Settles O13: each row is what its checks say of the flit, then `atNode`; an output's pick is one of two searches. -/
theorem ringFlitsAreTaken : Obligations.RingFlitsAreTaken := by
  intro s node up ecc hnode
  refine ⟨fun f t hnext u hu => ⟨fun evs header words hbody hecc => ?events, fun k b ssn header words hbody hecc => ?close,
    fun ssn first second behind hbody hecc => ?stepEnd, fun hbody => ?control⟩,
    fun p d f g fresh hp hf hrun hd hne hup hpick => exec_flitControlRx_own hnode hp hf hrun hd hne hup hpick ecc,
    fun own f inject fresh hpick => ⟨?through, ?injected⟩,
    fun region n hr hcur hclose moved hmoved => exec_spillReadback_due hr hcur hclose hmoved⟩
  case events =>
    rw [exec_flitEventsRx_next hnode hnext hbody, ← hecc]
    have hgood : (∀ e ∈ ecc, e ≠ .uncorrectable) → ¬ecc.any (· == .uncorrectable) = true :=
      fun h hany => h _ (any_uncorrectable_iff.1 hany) rfl
    refine ⟨fun h hdest => ?_, fun h hdest r hr => ?_, fun h => ?_⟩
    · rw [if_neg (hgood h), State.atNode_other _ _ hdest]
    · rw [if_neg (hgood h), State.atNode_own _ _ hdest hr]
    · rw [if_pos (any_uncorrectable_iff.2 h)]
  case close =>
    rw [exec_flitCloseRx_next hnode hnext hbody header words (hecc ▸ hu), ← hecc]
    refine ⟨fun h => ?_, fun h hdest => ?_, fun h hdest r hr => ?_⟩
    · rw [if_pos h]
    · rw [if_neg (Bool.eq_false_iff.1 h), State.atNode_other _ _ hdest]
    · rw [if_neg (Bool.eq_false_iff.1 h), State.atNode_own _ _ hdest hr]
  case stepEnd =>
    rw [exec_flitStepEndRx_next hnode hnext hbody first second behind hecc hu]
    refine ⟨fun h => ?_, fun h hdest => ?_, fun h hdest _ hcur r q hr hq => ?_⟩
    · rw [if_pos h]
    · rw [if_neg (Bool.eq_false_iff.1 h), State.atNode_other _ _ hdest]
    · have hstep : (u.takeFlit f).curSsn = some ssn := (hu ▸ State.curSsn_flitChecked t node ecc).trans hcur
      rw [if_neg (Bool.eq_false_iff.1 h), State.atNode_own _ _ hdest hr, hq, Option.elim_some,
        State.takeStepEnd_current hstep]
  case control =>
    rw [exec_flitControlRx_next hnode hnext hbody, State.takeControl_eq _ _ _ _ hu]
    exact ⟨fun hdest => by rw [if_neg hdest], fun hdest => by rw [if_pos hdest]⟩
  case through =>
    rintro rfl
    exact State.pickFlit_through hpick
  case injected =>
    rintro rfl
    exact State.pickFlit_injected hpick

end Sys2Proof.Machine
end

section
/-!
PROOF. The messages a link brings (O43).
-/

namespace Sys2Proof.Machine

section

variable {p : Nat} {f : SpokeFlit} (hp : p < 4)

include hp

/-! ### Heartbeats (R335, R336) -/

section

variable {s : State} (hup : s.spkUp p = true)

include hup

theorem exec_heartbeatSend_due (hdue : s.fld (spkId p 1) 0 8 * 1000 ≤ locDiff s.loc (s.spk p).hbTx) :
    exec (.heartbeatSend p) s = .next ((s.onSpk p fun x => { x with hbTx := s.loc }).sendPlain p
      (freshFlit 0 1 0 s.addr
        [BitVec.ofNat 8 s.addr, BitVec.ofNat 8 (bit s.chain.isSome + 2 * bit s.armed + 4 * bit s.spoke.root)])) := by
  show execHeartbeatSend p s = _
  rw [execHeartbeatSend, onUnit_present (decide_eq_true hp), whenDue_of_due (by rw [hup, decide_eq_true hdue]; rfl)]

theorem exec_heartbeatRx_up (hm : f.mtype = 1) :
    exec (.heartbeatRx p f) s = .next
      (if f.check == flitCheck (s.spk p).rxEpoch f && flitLegal f then (s.rx p f).2.takeHeartbeat p f
       else (s.rx p f).2).pumpAll := by
  show execHeartbeatRx p f s = _
  rw [execHeartbeatRx, onUnit_present (decide_eq_true hp), whenDue_of_due (by rw [hup, hm]; rfl)]

/-! ### A flit that completes a message, and one that completes none -/

variable {kind : Bool} (hkind : kind = true) (take : Message → State → State) {m : Message} {u : State}

include hkind

theorem flitRow_message (hrx : s.rx p f = (some m, u)) : flitRow p f kind take s = .next (take m u).pumpAll := by
  rw [flitRow, onUnit_present (decide_eq_true hp), whenDue_of_due (by rw [hup, hkind]; rfl), hrx]

theorem flitRow_no_message (hrx : s.rx p f = (none, u)) : flitRow p f kind take s = .next u.pumpAll := by
  rw [flitRow, onUnit_present (decide_eq_true hp), whenDue_of_due (by rw [hup, hkind]; rfl), hrx]

end

end

/-- A HEARTBEAT is legal on virtual channel 0 alone (R330). -/
theorem flitLegal_heartbeat {f : SpokeFlit} (hm : f.mtype = 1) : flitLegal f = (f.vc == 0) := by
  unfold flitLegal
  simp only [hm]

/-! ### The rows -/

section

variable {s u : State} {p : Nat} {f : SpokeFlit} {m : Message} (hp : p < 4) (hup : s.spkUp p = true)

include hp hup

theorem exec_haloEvents_message (hrx : s.rx p f = (some m, u)) (hm : f.mtype = 4) (hdest : u.chain = some f.dest) :
    exec (.haloEvents p f) s =
      .next (forEach (upTo m.sub) (fun u i => u.remoteEvent m.src (leAt m.body (8 * i) 8)) u).pumpAll := by
  show execHaloEvents p f s = _
  rw [execHaloEvents, flitRow_message hp hup (beq_iff_eq.2 hm) _ hrx, if_neg (by simp [hdest])]

theorem exec_haloEvents_no_message (hrx : s.rx p f = (none, u)) (hm : f.mtype = 4) :
    exec (.haloEvents p f) s = .next u.pumpAll := by
  show execHaloEvents p f s = _
  rw [execHaloEvents, flitRow_no_message hp hup (beq_iff_eq.2 hm) _ hrx]

theorem exec_verdictRelay_message (hrx : s.rx p f = (some m, u)) (hm : f.mtype = 5) :
    exec (.verdictRelay p f) s =
      .next (forEach (chunksOf 48 (m.body.take (48 * m.sub))) (fun u b => u.relayIn (entryRec m.src b)) u).pumpAll := by
  show execVerdictRelay p f s = _
  rw [execVerdictRelay, flitRow_message hp hup (beq_iff_eq.2 hm) _ hrx]

theorem exec_verdictRelay_no_message (hrx : s.rx p f = (none, u)) (hm : f.mtype = 5) :
    exec (.verdictRelay p f) s = .next u.pumpAll := by
  show execVerdictRelay p f s = _
  rw [execVerdictRelay, flitRow_no_message hp hup (beq_iff_eq.2 hm) _ hrx]

/-- A flit without ABORT within the hop limit leaves nothing to do but what its message does (R334, R396). -/
theorem exec_activation_message (hrx : s.rx p f = (some m, u)) (hm : f.mtype = 6) (habort : f.abort = false)
    (hhops : f.hops ≤ (s.mgmt.model.active.map (·.maxHops)).getD 16) :
    exec (.activation p f) s = .next (u.takeActivation m).pumpAll := by
  show execActivation p f s = _
  rw [execActivation, flitRow_message hp hup (beq_iff_eq.2 hm) _ hrx]
  simp only [habort, decide_eq_false (Nat.not_lt.2 hhops), Bool.and_false, State.bumpIf, Bool.false_eq_true, if_false]
  split <;> rfl

end

/-- A COMMAND_FWD is what its flit does, and the refusal of a packet that finds no route (R340). -/
theorem exec_commandFwd_of_row {s t : State} {p : Nat} {f : SpokeFlit}
    (h : flitRow p f (f.mtype == 3) (fun m s => s.takeFwd m) s = .next t) :
    exec (.commandFwd p f) s = .next
      (if s.unroutable p f && !(parsePacket (f.payload.drop 4)).reply then
        t.refusePacket (parsePacket (f.payload.drop 4)).opcode (parsePacket (f.payload.drop 4)).tag
          (parsePacket (f.payload.drop 4)).src .notPresent
       else t) := by
  show execCommandFwd p f s = _
  rw [execCommandFwd, h]

/-- Settles O43: every row of a link message is `rx`, then what its kind does with the message that the flit completed. -/
theorem linkMessages : Obligations.LinkMessages := by
  intro s p f hp hup
  refine ⟨exec_heartbeatSend_due hp hup, fun hm => ⟨fun hcheck hvc => ?_, fun hbad => ?_⟩,
    fun m u hrx => ?_, fun u hrx => ?_⟩
  · rw [exec_heartbeatRx_up hp hup hm, if_pos (by simp [flitLegal_heartbeat hm, hcheck, hvc])]
  · rw [exec_heartbeatRx_up hp hup hm, if_neg (by simpa [flitLegal_heartbeat hm, imp_iff_not_or] using hbad)]
  · refine ⟨exec_haloEvents_message hp hup hrx, exec_verdictRelay_message hp hup hrx, exec_activation_message hp hup hrx,
      fun hm hroute => ?_⟩
    rw [exec_commandFwd_of_row (flitRow_message hp hup (beq_iff_eq.2 hm) _ hrx), if_neg (by simp [hroute])]
  · refine ⟨exec_haloEvents_no_message hp hup hrx, exec_verdictRelay_no_message hp hup hrx, fun hm hroute => ?_,
      fun hm hlost hcommand => ?_⟩
    · rw [exec_commandFwd_of_row (flitRow_no_message hp hup (beq_iff_eq.2 hm) _ hrx), if_neg (by simp [hroute])]
    · rw [exec_commandFwd_of_row (flitRow_no_message hp hup (beq_iff_eq.2 hm) _ hrx), if_pos (by simp [hlost, hcommand])]

end Sys2Proof.Machine
end


section
/-!
PROOF. A vote names the lowest of the classes that weigh the most, and its confidence is a byte (O27).
-/

namespace Sys2Proof.Machine

/-! ### The vote (R198) -/

theorem foldl_max_spec {xs : List Nat} (h : xs ≠ []) : xs.foldl max 0 ∈ xs ∧ ∀ x ∈ xs, x ≤ xs.foldl max 0 := by
  obtain ⟨m, hm⟩ := Option.ne_none_iff_exists'.1 (mt List.max?_eq_none_iff.1 h)
  have hfold : xs.foldl max 0 = m := by rw [List.foldl_max, hm, Option.getD_some, Nat.zero_max]
  rw [hfold]
  exact List.max?_eq_some_iff.1 hm

theorem foldl_min_spec {xs : List Nat} {a : Nat} (h : xs ≠ []) (ha : ∀ x ∈ xs, x ≤ a) :
    xs.foldl min a ∈ xs ∧ ∀ x ∈ xs, xs.foldl min a ≤ x := by
  obtain ⟨m, hm⟩ := Option.ne_none_iff_exists'.1 (mt List.min?_eq_none_iff.1 h)
  have hspec := List.min?_eq_some_iff.1 hm
  have hfold : xs.foldl min a = m := by rw [List.foldl_min, hm, Option.getD_some, Nat.min_eq_right (ha m hspec.1)]
  rw [hfold]
  exact hspec

/-- The weight of all sources together, in the units of `weightOf`. -/
def totalWeight (ss : List Source) : Nat := (ss.map fun x => x.weight * x.conf).sum

/-- The greatest weight of a class that has a source. -/
def topWeight (ss : List Source) : Nat := (ss.map fun x => weightOf ss x.cls).foldl max 0

/-- The classes of greatest weight, one for each source that votes for one. -/
def topClasses (ss : List Source) : List Nat := (ss.filter fun x => weightOf ss x.cls == topWeight ss).map (·.cls)

/-- Some two decisive sources name different classes (R199). -/
def contradicts (ss : List Source) : Bool :=
  (ss.filter (·.decisive)).any fun x => (ss.filter (·.decisive)).any fun y => x.cls != y.cls

section

variable {ss : List Source}

theorem contradicts_eq_false_iff :
    contradicts ss = false ↔ ∀ x ∈ ss, ∀ y ∈ ss, x.decisive = true → y.decisive = true → x.cls = y.cls := by
  simp only [contradicts, List.any_eq_false, List.mem_filter, List.any_eq_true, bne_iff_ne, ne_eq]
  grind

theorem weightOf_le_totalWeight (c : Nat) : weightOf ss c ≤ totalWeight ss :=
  (List.filter_sublist.map _).sum_le_sum fun _ _ => Nat.zero_le _

theorem topWeight_spec (h : ss ≠ []) :
    (∃ x ∈ ss, weightOf ss x.cls = topWeight ss) ∧ ∀ x ∈ ss, weightOf ss x.cls ≤ topWeight ss := by
  obtain ⟨hmem, hle⟩ := foldl_max_spec (xs := ss.map fun x => weightOf ss x.cls) (by simpa using h)
  exact ⟨List.mem_map.1 hmem, fun x hx => hle _ (List.mem_map_of_mem hx)⟩

theorem topWeight_le_totalWeight : topWeight ss ≤ totalWeight ss := by
  by_cases h : ss = []
  · subst h
    exact le_rfl
  · obtain ⟨⟨x, -, hx⟩, -⟩ := topWeight_spec h
    exact hx ▸ weightOf_le_totalWeight x.cls

theorem mem_topClasses {c : Nat} : c ∈ topClasses ss ↔ (∃ x ∈ ss, x.cls = c) ∧ weightOf ss c = topWeight ss := by
  simp only [topClasses, List.mem_map, List.mem_filter, beq_iff_eq]
  exact ⟨fun ⟨x, ⟨hx, hw⟩, hc⟩ => ⟨⟨x, hx, hc⟩, hc ▸ hw⟩, fun ⟨⟨x, hx, hc⟩, hw⟩ => ⟨x, ⟨hx, hc ▸ hw⟩, hc⟩⟩

theorem topClasses_ne_nil (h : ss ≠ []) : topClasses ss ≠ [] := by
  obtain ⟨⟨x, hx, hw⟩, -⟩ := topWeight_spec h
  exact List.ne_nil_of_mem (mem_topClasses.2 ⟨⟨x, hx, rfl⟩, hw⟩)

variable (s : State) (lr i lane : Nat)

/-- The lane's policy takes the confidence of a source, or none. -/
theorem State.conflictVote_conf (h : ∀ x ∈ ss, x.conf ≤ 255) : (s.conflictVote lane ss).conf ≤ 255 := by
  unfold State.conflictVote
  dsimp only
  split
  · split
    · exact h _ (List.mem_of_find?_eq_some ‹_›)
    · exact Nat.zero_le _
  · exact Nat.zero_le _
  · exact Nat.zero_le _

/-- The four things a vote can be; the flag of the last one is UNCERTAIN. -/
theorem State.voteOf_eq :
    ∃ uncertain, s.voteOf lr i lane ss =
      if contradicts ss then s.conflictVote lane ss
      else if ss.isEmpty then ⟨s.fld (fuModId 0) 0 8, 0, false, true, none⟩
      else if totalWeight ss = 0 then ⟨0, Config.zeroWeight i % 256, false, true, none⟩
      else ⟨(topClasses ss).foldl min 255, 255 * topWeight ss / totalWeight ss, false, uncertain, none⟩ := ⟨_, rfl⟩

/-- A vote of sources that agree and weigh something is the lowest class of greatest weight, with its share. -/
theorem State.voteOf_agreed (hagree : contradicts ss = false) (hpos : 0 < totalWeight ss) :
    (s.voteOf lr i lane ss).cls = (topClasses ss).foldl min 255 ∧
      (s.voteOf lr i lane ss).conf = 255 * topWeight ss / totalWeight ss := by
  have hsome : ss.isEmpty = false := List.isEmpty_eq_false_iff.2 fun h => by simp [h, totalWeight] at hpos
  obtain ⟨u, h⟩ := s.voteOf_eq lr i lane (ss := ss)
  rw [hagree, hsome, if_neg Bool.false_ne_true, if_neg Bool.false_ne_true, if_neg hpos.ne'] at h
  exact ⟨congrArg (·.cls) h, congrArg (·.conf) h⟩

theorem State.voteOf_conf (h : ∀ x ∈ ss, x.conf ≤ 255) : (s.voteOf lr i lane ss).conf ≤ 255 := by
  obtain ⟨u, hvote⟩ := s.voteOf_eq lr i lane (ss := ss)
  rw [hvote]
  split
  · exact State.conflictVote_conf s lane h
  · split
    · exact Nat.zero_le _
    · split
      · exact Nat.le_of_lt_succ (Nat.mod_lt _ (by decide))
      · have htop := topWeight_le_totalWeight (ss := ss)
        exact Nat.div_le_of_le_mul (by omega)

end

/-- Settles O27: the class is the least of those that weigh the most, and its share of the total is at most 255. -/
theorem votesAreWellFormed : Obligations.VotesAreWellFormed := by
  intro s lr i lane ss hconf hcls
  refine ⟨State.voteOf_conf s lr i lane hconf, fun hagree hpos => ?_⟩
  have hne : ss ≠ [] := by
    rintro rfl
    exact absurd hpos (lt_irrefl 0)
  obtain ⟨hvote, hshare⟩ := State.voteOf_agreed s lr i lane (contradicts_eq_false_iff.2 hagree) hpos
  have hbytes : ∀ c ∈ topClasses ss, c ≤ 255 := fun c hc => by
    obtain ⟨⟨x, hx, rfl⟩, -⟩ := mem_topClasses.1 hc
    exact hcls x hx
  obtain ⟨hmem, hleast⟩ := foldl_min_spec (topClasses_ne_nil hne) hbytes
  rw [← hvote] at hmem hleast
  obtain ⟨hvoted, htop⟩ := mem_topClasses.1 hmem
  have hmost := (topWeight_spec hne).2
  rw [htop]
  refine ⟨hvoted, hmost, fun x hx hlow => lt_of_le_of_ne (hmost x hx) fun heq => ?_, hshare⟩
  exact absurd hlow (Nat.not_lt.2 (hleast _ (mem_topClasses.2 ⟨⟨x, hx, rfl⟩, heq⟩)))

end Sys2Proof.Machine
end

section
/-!
PROOF. A refinement stays within its rate limit and its total limit (O28).
-/

namespace Sys2Proof.Machine

/-! ### The limits of a refinement (R207) -/

theorem clampInt_of_mem {lo hi x : Int} (hlo : lo ≤ x) (hhi : x ≤ hi) : clampInt lo hi x = x := by
  rw [clampInt, if_neg (not_lt.2 hlo), if_neg (not_lt.2 hhi)]

/-- A clamp moves nothing but what lies outside its range. -/
theorem clampInt_eq_self_iff {lo hi x : Int} (h : lo ≤ hi) : clampInt lo hi x = x ↔ lo ≤ x ∧ x ≤ hi :=
  ⟨fun e => e ▸ clampInt_mem h x, fun ⟨hlo, hhi⟩ => clampInt_of_mem hlo hhi⟩

/-- A clamp goes no farther from a value of its range than what it clamps. -/
theorem natAbs_clampInt_sub_le {lo hi x d : Int} (hlo : lo ≤ x) (hhi : x ≤ hi) :
    (clampInt lo hi (x + d) - x).natAbs ≤ d.natAbs := by
  unfold clampInt
  split
  · omega
  · split <;> omega

/-- Settles O28: the change clamped to the rate limit, and the total limit, which only brings the value nearer the old one. -/
theorem refinementIsLimited : Obligations.RefinementIsLimited := by
  intro old change rate total hold
  obtain ⟨d, hd⟩ : ∃ d, d = clampInt (-(rate : Int)) rate change := ⟨_, rfl⟩
  have hrate : d.natAbs ≤ rate := by
    have := clampInt_mem (lo := -(rate : Int)) (hi := rate) (by omega) change
    omega
  have htotal := clampInt_mem (lo := -(total : Int)) (hi := total) (by omega) (old + d)
  have hflag := clampInt_eq_self_iff (lo := -(total : Int)) (hi := total) (x := old + d) (by omega)
  simp only [limited, ← hd]
  refine ⟨by omega, (natAbs_clampInt_sub_le (by omega) (by omega)).trans hrate, fun hchange hsum => ?_, ?_⟩
  · have hfree : d = change := hd ▸ clampInt_of_mem (by omega) (by omega)
    subst hfree
    simp [hflag.2 (by omega)]
  · rw [decide_eq_true_iff, ne_eq, hflag]
    omega

end Sys2Proof.Machine
end

section
/-!
PROOF. Verdicts: the end of a pair wait, the deadline, the building of a frame and its launch (O32).
-/

namespace Sys2Proof.Machine

/-! ### Pending verdicts (R193, R267, R485) -/

section

variable {s : State} {object : Word} {e : PendVerdict} (hpend : s.pendOf object.toNat = some e)

include hpend

theorem exec_pairWaitEnd_closed {w : Nat} (hwait : e.wait = some w) (hclosed : ssnReached s.ssnClosed w = true) :
    exec (.pairWaitEnd object) s = .next (s.endWait e) := by
  show execPairWaitEnd object s = _
  simp only [execPairWaitEnd, hpend, hwait, hclosed, if_true]

variable (hdue : s.deadline e ≤ s.dev)

include hdue

theorem exec_verdictDeadline_voted {v : Vote} (hvote : e.vote = some v) :
    exec (.verdictDeadline object) s = .next (s.formVote e v) := by
  show execVerdictDeadline object s = _
  simp only [execVerdictDeadline, hpend, whenDue_of_due (decide_eq_true hdue), hvote]

theorem exec_verdictDeadline_late (hvote : e.vote = none) : exec (.verdictDeadline object) s = .next (s.lateDefault e) := by
  show execVerdictDeadline object s = _
  simp only [execVerdictDeadline, hpend, whenDue_of_due (decide_eq_true hdue), hvote]

end

/-! ### Frames (R271) -/

theorem exec_frameBuild_due {s : State} {group : Nat} (hg : group < 8) (hdue : s.frameDue group = true) :
    exec (.frameBuild group) s = .next (s.buildFrame group) := by
  show execFrameBuild group s = _
  rw [execFrameBuild, onUnit_present (decide_eq_true hg), whenDue_of_due hdue]

/-! ### The launch of a frame (R85 to R87) -/

section

variable {s : State} {port : Nat} {l : Launch} {rest : List Launch} (hp : port < 2) (hq : s.launchQ port = l :: rest)
  (htime : l.time ≤ s.dev) (hfatal : s.mgmt.fault.fatal = none)

include hp hq htime hfatal

/-- What becomes of the first frame of a queue once its time has come, by the port and the lateness. -/
theorem exec_frameLaunch_due :
    exec (.frameLaunch port) s = .next
      (if s.portUp port = false then ((s.setLaunchQ port rest).bump (tportId port 6)).refillQueue port
       else if s.dev < s.lineEnd port then s
       else if l.time + s.fld (tportId port 0) 17 10 < s.dev then
         if s.bitAt (tportId port 0) 16 then
           (((s.setLaunchQ port rest).startFrame port (setLateBit l.frame l.udp) true).bump (tportId port 3)).refillQueue port
         else ((s.setLaunchQ port rest).bump (tportId port 2)).refillQueue port
       else ((s.setLaunchQ port rest).startFrame port l.frame false).refillQueue port) := by
  have hdue : (decide (l.time ≤ s.dev) && s.mgmt.fault.fatal.isNone) = true := by simp [htime, hfatal]
  show execFrameLaunch port s = _
  rw [execFrameLaunch, onUnit_present (decide_eq_true hp)]
  simp only [hq, whenDue_of_due hdue, Bool.not_eq_true']

theorem exec_frameLaunch_down (hup : s.portUp port = false) :
    exec (.frameLaunch port) s = .next (((s.setLaunchQ port rest).bump (tportId port 6)).refillQueue port) := by
  rw [exec_frameLaunch_due hp hq htime hfatal, if_pos hup]

variable (hup : s.portUp port = true) (hidle : s.lineEnd port ≤ s.dev)

include hup hidle

theorem exec_frameLaunch_inTime (h : s.dev ≤ l.time + s.fld (tportId port 0) 17 10) :
    exec (.frameLaunch port) s = .next (((s.setLaunchQ port rest).startFrame port l.frame false).refillQueue port) := by
  rw [exec_frameLaunch_due hp hq htime hfatal, if_neg (by simp [hup]), if_neg (not_lt.2 hidle), if_neg (not_lt.2 h)]

theorem exec_frameLaunch_late (h : l.time + s.fld (tportId port 0) 17 10 < s.dev) :
    exec (.frameLaunch port) s = .next
      (if s.bitAt (tportId port 0) 16 then
        (((s.setLaunchQ port rest).startFrame port (setLateBit l.frame l.udp) true).bump (tportId port 3)).refillQueue port
       else ((s.setLaunchQ port rest).bump (tportId port 2)).refillQueue port) := by
  rw [exec_frameLaunch_due hp hq htime hfatal, if_neg (by simp [hup]), if_neg (not_lt.2 hidle), if_pos h]

end

/-- Settles O32: each row by what its verdict, its group or the first frame of its queue meets. -/
theorem verdictCommands : Obligations.VerdictCommands := by
  refine fun s => ⟨fun object e w hpend hwait hclosed => exec_pairWaitEnd_closed hpend hwait hclosed,
    fun object e hpend hdue => ⟨fun v hvote => exec_verdictDeadline_voted hpend hdue hvote,
      exec_verdictDeadline_late hpend hdue⟩,
    fun group hg hdue => exec_frameBuild_due hg hdue, fun port l rest hp hq htime hfatal => ?launch⟩
  case launch =>
    refine ⟨exec_frameLaunch_down hp hq htime hfatal,
      fun hup hidle => ⟨exec_frameLaunch_inTime hp hq htime hfatal hup hidle, fun hover => ⟨fun hsend => ?_, fun hdrop => ?_⟩⟩⟩
    · rw [exec_frameLaunch_late hp hq htime hfatal hup hidle hover, if_pos hsend]
    · rw [exec_frameLaunch_late hp hq htime hfatal hup hidle hover, if_neg (Bool.eq_false_iff.1 hdrop)]

end Sys2Proof.Machine
end

section
/-!
PROOF. What the wake of a power domain leaves alone: the memory, and the words of the units below SPOKE.
-/

namespace Sys2Proof.Machine

/-- `t` keeps the memory of `s` and every word below the SPOKE block: what waking a power domain changes among the words are the
counters of SPOKE and POWER alone. -/
structure SameBelowSpoke (s t : State) : Prop where
  wf : Sparse.wf resetWord t.regs = true
  mem : t.mem = s.mem
  word : ∀ q < 0x12000000, t.word q = s.word q

namespace SameBelowSpoke

theorem refl {s : State} (hw : Sparse.wf resetWord s.regs = true) : SameBelowSpoke s s := ⟨hw, rfl, fun _ _ => rfl⟩

section

variable {s t : State} (h : SameBelowSpoke s t)

include h

theorem of_same {u : State} (hm : u.mem = t.mem) (hr : u.regs = t.regs) : SameBelowSpoke s u where
  wf := hr ▸ h.wf
  mem := hm.trans h.mem
  word q hq := (State.word_of_regs hr q).trans (h.word q hq)

theorem bump {id : Nat} (hid : 0x12000000 ≤ id) (n : Nat) : SameBelowSpoke s (t.bump id n) where
  wf := State.wf_bump h.wf id n
  mem := (State.bump_mem t id n).trans h.mem
  word q hq := (State.word_bump_other h.wf (by omega) n).trans (h.word q hq)

theorem bumpFlits (p n : Nat) : SameBelowSpoke s (t.bump (spkId p 0x100) n) := h.bump (by unfold spkId pid; omega) n

theorem onSpk (p : Nat) (f : SpokePort → SpokePort) : SameBelowSpoke s (t.onSpk p f) := h.of_same rfl rfl

theorem onHost (f : HostState → HostState) : SameBelowSpoke s (t.onHost f) := h.of_same rfl rfl

theorem onPower (f : PowerState → PowerState) : SameBelowSpoke s (t.onPower f) := h.of_same rfl rfl

theorem onPdom (d : Nat) (f : PowerDom → PowerDom) : SameBelowSpoke s (t.onPdom d f) := h.of_same rfl rfl

/-! ### Flits and replies (R324 to R327, R350) -/

theorem sendPlain (p : Nat) (f : SpokeFlit) : SameBelowSpoke s (t.sendPlain p f) := by
  unfold State.sendPlain
  exact (h.onSpk p _).bumpFlits p 1

theorem freeWaiting (w : Waiting) : SameBelowSpoke s (t.freeWaiting w) := by
  unfold State.freeWaiting
  split
  · exact h
  · split
    · exact h.onSpk _ _
    · exact h

theorem sendWaiting (p v : Nat) (w : Waiting) : SameBelowSpoke s (t.sendWaiting p v w) := by
  unfold State.sendWaiting
  exact ((h.onSpk p _).bumpFlits p 1).freeWaiting w

theorem pump (p : Nat) : SameBelowSpoke s (t.pump p) := by
  refine forEach_induction (SameBelowSpoke s) (fun u _ k => ?_) _ h
  split
  · split
    · exact k.sendWaiting p _ _
    · exact k
  · exact k

theorem flushLink (p : Nat) : SameBelowSpoke s (t.flushLink p) := by
  refine forEach_induction (SameBelowSpoke s) (fun u _ k => ?_) _ h
  dsimp only
  split
  · exact k.sendPlain p _
  · exact k

theorem pumpAll : SameBelowSpoke s t.pumpAll :=
  forEach_induction (SameBelowSpoke s) (fun _ p k => k.flushLink p) _
    (forEach_induction (SameBelowSpoke s) (fun _ p k => k.pump p) _ h)

theorem sendTo {dest vc mtype sub : Nat} {body : List Byte} {u : State} (hsend : t.sendTo dest vc mtype sub body = some u) :
    SameBelowSpoke s u := by
  unfold State.sendTo at hsend
  split at hsend
  · split at hsend
    · obtain rfl := Option.some.inj hsend
      exact SameBelowSpoke.pumpAll (h.onSpk _ _)
    · cases hsend
  · cases hsend

theorem outboxHead : SameBelowSpoke s t.outboxHead := by
  unfold State.outboxHead
  split
  · split
    · exact h.onHost _
    · exact h
  · exact h

theorem pushReply (tag : Nat) (b : List Byte) : SameBelowSpoke s (t.pushReply tag b) := by
  unfold State.pushReply
  dsimp only
  split
  · split
    · exact (h.onHost _).outboxHead
    · exact h.onHost _
  · exact h.onHost _

theorem sendReplyAs (held opcode tag dest : Nat) (st : Status) (payload : List Byte) :
    SameBelowSpoke s (t.sendReplyAs held opcode tag dest st payload) := by
  unfold State.sendReplyAs
  dsimp only
  split
  · exact h.pushReply held _
  · split
    · exact h.sendTo ‹_›
    · exact h.bump (by decide) 1

/-! ### Transitions (R407 to R414) -/

theorem finishOpt (r : Option Running) (st : Status) (payload : List Byte) : SameBelowSpoke s (t.finishOpt r st payload) := by
  unfold State.finishOpt
  split
  · split
    · exact h
    · exact SameBelowSpoke.sendReplyAs (h.onHost _) _ _ _ _ _ _
  · exact h

theorem startPending (d : Nat) : SameBelowSpoke s (t.startPending d) := by
  unfold State.startPending
  split
  · exact h
  · split
    · exact h
    · exact h.onPdom d _

theorem endMove (d : Nat) (st : Status) : SameBelowSpoke s (t.endMove d st) := by
  unfold State.endMove
  exact (h.onPdom d _).startPending d

theorem parkNext : SameBelowSpoke s t.parkNext := by
  unfold State.parkNext
  split
  · split
    · exact h
    · dsimp only
      split
      · exact (h.onPower _).finishOpt _ _ _
      · split
        · exact h.onPower _
        · exact ((h.onPower _).onPdom _ _).onPdom _ _
  · exact h

theorem parkStep (st : Option Status) : SameBelowSpoke s (t.parkStep st) := by
  unfold State.parkStep
  dsimp only
  split
  · exact ((h.onHost _).onPower _).parkNext
  · exact (h.onPower _).parkNext

theorem parkAfter (own : Bool) (st : Option Status) : SameBelowSpoke s (t.parkAfter own st) := by
  unfold State.parkAfter
  split
  · exact h.parkStep st
  · exact h.parkNext

theorem wakeEntry (d : Nat) : SameBelowSpoke s (t.wakeEntry d) := by
  unfold State.wakeEntry
  exact (((h.onPdom d _).endMove d .pending).finishOpt _ .pending []).parkAfter _ _

theorem endEntry (d : Nat) : SameBelowSpoke s (t.endEntry d) := by
  unfold State.endEntry
  dsimp only
  split
  · exact (h.wakeEntry d).wakeEntry d
  · exact h.wakeEntry d

theorem startWake (d : Nat) : SameBelowSpoke s (t.startWake d) := by
  unfold State.startWake
  exact SameBelowSpoke.bump (h.onPdom d _) (by unfold pwId pid; omega) 1

theorem accessWake (d : Nat) : SameBelowSpoke s (t.accessWake d) := by
  unfold State.accessWake
  split
  · split
    · exact h
    · split
      · exact h.onPdom d _
      · dsimp only
        split
        · exact (h.endEntry d).startWake d
        · exact h.endEntry d
  · split
    · split
      · exact h.onPdom d _
      · exact h
    · exact h.startWake d
    · exact h

theorem wakeFor (id : Nat) : SameBelowSpoke s (t.wakeFor id) := by
  unfold State.wakeFor
  split
  · exact h.accessWake _
  · exact h

end

end SameBelowSpoke

end Sys2Proof.Machine
end

section
/-!
PROOF. A write of FORCE votes a sensor out, or in again, at once (R204).
-/

namespace Sys2Proof.Machine

/-! ### A word that a write stores -/

/-- A write that nothing refuses names a word. -/
theorem State.lookup_of_accepted {s : State} {id : Nat} {v : Word} (h : s.refusesWrite id v = none) :
    ∃ fs, lookup id = .word fs := by
  unfold State.refusesWrite State.writeRefuses State.absent at h
  cases hl : lookup id with
  | word fs => exact ⟨fs, rfl⟩
  | badParam => simp [hl] at h
  | notPresent => simp [hl] at h

theorem State.putWord_of_lookup {s : State} {id : Nat} {fs : List Field} (hl : lookup id = .word fs) (h0 : id ≠ timeId 0)
    (v : Word) :
    s.putWord id v = (((s.wakeFor id).madeGood id).setWord id (mergeWrite fs ((s.wakeFor id).word id) v)).written id
      ((s.wakeFor id).word id) v := by
  rw [State.putWord]
  simp only [hl, if_neg h0]
  rfl

/-! ### FORCE of a sensor (R204) -/

section

variable {region : Nat} (hr : region < 8)

include hr

theorem fuId_block {i : Nat} (hi : i < 0x10000) :
    fuId region i / 0x1000000 = 7 ∧ fuId region i / 0x10000 % 256 = region ∧ fuId region i % 0x10000 = i := by
  unfold fuId pid
  omega

theorem lookup_fusionRegion {i : Nat} (hi : i < 0x10000) :
    lookup (fuId region i) = .pick (fusionRegion i) (fusionModule i).isSome := by
  obtain ⟨hblock, hunit, hindex⟩ := fuId_block hr hi
  simp only [lookup, hblock, hunit, hindex, fusionLookup, if_pos hr]

variable {sensor : Nat} (hj : sensor < 32)

include hj

/-- A sensor's word, where there is one, has FORCE as an RW field (R204, R208). -/
theorem force_mem_of_lookup {fs : List Field} (hl : lookup (fuId region (0x100 + sensor)) = .word fs) :
    (Field.rw 16 2).within 0 2 ∈ fs := by
  rw [lookup_fusionRegion hr (by omega)] at hl
  have hmap : fusionRegion (0x100 + sensor) =
      if isSensor sensor then some [(.within (.rwl 0 8 8) 1 255), .rwl 8 8 0x20, .within (.rw 16 2) 0 2] else none := by
    have hrules : inRange 0x10 32 (0x100 + sensor) = false := by simp [inRange]; omega
    have hcounters : inRange 0x50 2 (0x100 + sensor) = false := by simp [inRange]; omega
    have hsensors : inRange 0x100 32 (0x100 + sensor) = true := by simp [inRange]; omega
    rw [fusionRegion, if_neg (by omega), hrules, hcounters, hsensors, if_neg Bool.false_ne_true, if_neg Bool.false_ne_true,
      if_pos rfl, Nat.add_sub_cancel_left]
  rw [hmap] at hl
  split at hl
  · obtain rfl := Lookup.word.inj hl
    simp
  · unfold Lookup.pick at hl
    dsimp only at hl
    split at hl <;> cases hl

theorem State.written_force (t : State) {old v : Word} (hforce : bitsOf v.toNat 16 2 ≠ bitsOf old.toNat 16 2) :
    t.written (fuId region (0x100 + sensor)) old v = t.forceSensor region sensor := by
  obtain ⟨hblock, hunit, hindex⟩ := fuId_block hr (i := 0x100 + sensor) (by omega)
  have hrange : inRange 0x100 32 (0x100 + sensor) = true := by simp [inRange]; omega
  simp only [State.written, hblock, hunit, hindex, hrange, decide_eq_true hr, bne_iff_ne.2 hforce, Bool.and_true, if_true,
    Nat.add_sub_cancel_left]

omit hr hj in
/-- FORCE of 1 or 2 sets OUT or clears it at once, and writes no memory. -/
theorem State.forceSensor_out {t : State} (hw : Sparse.wf resetWord t.regs = true) {out : Bool}
    (hforce : t.fld (fuId region (0x100 + sensor)) 16 2 = if out then 1 else 2) :
    (t.forceSensor region sensor).sensorOut region sensor = out ∧ (t.forceSensor region sensor).mem = t.mem := by
  have hset : t.forceSensor region sensor = t.setFld (sensorId region sensor) 0 1 (bit out) := by
    rw [State.forceSensor, hforce]
    cases out <;> rfl
  rw [hset]
  exact ⟨State.bitAt_setFld_bit hw (by decide) _ out, rfl⟩

theorem exec_fusionForceWrite_changed {s : State} (hw : Sparse.wf resetWord s.regs = true) (hs : s.wordService = true) {v : Word}
    (hok : s.refusesWrite (fuId region (0x100 + sensor)) v = none)
    (hnew : bitsOf v.toNat 16 2 ≠ s.fld (fuId region (0x100 + sensor)) 16 2) {out : Bool}
    (hforce : bitsOf v.toNat 16 2 = if out then 1 else 2) :
    ∃ t, exec (.fusionForceWrite region sensor v) s = .next t ∧ t.lastStatus = .ok ∧ t.sensorOut region sensor = out ∧
      t.mem = s.mem := by
  obtain ⟨fs, hl⟩ := State.lookup_of_accepted hok
  have hf := force_mem_of_lookup hr hj hl
  obtain ⟨id, hid⟩ : ∃ id, id = fuId region (0x100 + sensor) := ⟨_, rfl⟩
  have hsmall : id < 0x12000000 := by rw [hid]; unfold fuId pid; omega
  have h0 : id ≠ timeId 0 := by rw [hid]; unfold fuId timeId pid; omega
  have hwake := (SameBelowSpoke.refl hw).wakeFor id
  obtain ⟨u, hu⟩ : ∃ u, u = ((s.wakeFor id).madeGood id).setWord id (mergeWrite fs (s.word id) v) := ⟨_, rfl⟩
  have huw : Sparse.wf resetWord u.regs = true := hu ▸ State.wf_setWord hwake.wf id _
  have hstored : u.fld id 16 2 = if out then 1 else 2 := by
    rw [State.fld, hu, State.word_setWord_same (s := (s.wakeFor id).madeGood id) hwake.wf, ← hforce]
    exact Field.get_mergeWrite_writable (fieldsWf_of_lookup hl).1 hf _ v (.inl rfl)
  have hput : s.putWord id v = u.forceSensor region sensor := by
    rw [State.putWord_of_lookup (hid ▸ hl) h0, hwake.word id hsmall, ← hu, hid, State.written_force hr hj]
    exact hnew
  obtain ⟨hout, hmem⟩ := State.forceSensor_out huw (hid ▸ hstored)
  refine ⟨{ s.putWord id v with lastStatus := .ok }, ?_, rfl, ?_, ?_⟩
  · show onInstance _ s (s.wordWrite (fuId region (0x100 + sensor)) v) = _
    rw [decide_eq_true hr, decide_eq_true hj, Bool.and_self, onInstance, if_pos rfl, State.wordWrite_ok hs hok, hid]
  · exact hput ▸ hout
  · exact (congrArg State.mem hput).trans (hmem.trans ((congrArg State.mem hu).trans hwake.mem))

end

end Sys2Proof.Machine
end

section
/-!
PROOF. Trackers, their mirror, voters and refinement (O26).
-/

namespace Sys2Proof

/-- A run of writes at consecutive keys: each key written reads as what was written there. -/
theorem Sparse.get_foldl_set {α : Type} [DecidableEq α] {d : Nat → α} (base : Nat) (f : Nat → α) (i : Nat) :
    ∀ (xs : List Nat) {m : Sparse α}, Sparse.wf d m = true →
      Sparse.get d (xs.foldl (fun m j => Sparse.set d m (base + j) (f j)) m) (base + i) =
        if i ∈ xs then f i else Sparse.get d m (base + i)
  | [], _, _ => rfl
  | x :: xs, m, hw => by
    rw [List.foldl_cons, Sparse.get_foldl_set base f i xs (Sparse.set_wf _ _ hw), Sparse.get_set d _ _ _ hw]
    by_cases hx : i = x
    · subst hx
      simp
    · simp [hx]

end Sys2Proof

namespace Sys2Proof.Machine

/-! ### The mirror's store (R183) -/

section

variable {s : State} {region : Nat}

/-- What the mirror's store holds once the tracker's slots of the region have been copied to it. -/
def State.mirroredSlots (s : State) (region : Nat) : Sparse (Option Slot) :=
  (upTo 2048).foldl (fun m i => Sparse.set (fun _ => none) m (region * 2048 + i) (s.slot region i)) s.trk.mirror

/-- What the mirror's words are once those of the voter of the region have been copied to them. -/
def State.mirroredWords (s : State) (region : Nat) : Sparse Word :=
  (voterWords region).foldl (fun m id => Sparse.set resetWord m id (s.word id)) s.trk.mirrorWords

/-- The state with another mirror. -/
def State.withMirror (s : State) (slots : Sparse (Option Slot)) (words : Sparse Word) : State :=
  { s with trk := { s.trk with mirror := slots, mirrorWords := words } }

theorem State.get_mirroredSlots (hw : Sparse.wf (fun _ => none) s.trk.mirror = true) {i : Nat} (hi : i < 2048) :
    Sparse.get (fun _ => none) (s.mirroredSlots region) (region * 2048 + i) = s.slot region i := by
  have hmem : i ∈ upTo 2048 := List.mem_range.2 hi
  rw [State.mirroredSlots, Sparse.get_foldl_set (region * 2048) (s.slot region) i _ hw, if_pos hmem]

/-- A copy to the mirror leaves the tracker, the memory and the words, but for the flag of a late copy. -/
theorem State.withMirror_flagIf (hw : Sparse.wf resetWord s.regs = true) (slots : Sparse (Option Slot)) (words : Sparse Word)
    (late : Bool) {t : State} (ht : t = (s.withMirror slots words).flagIf late (tkId region 5) 2) :
    t.trk.mirror = slots ∧ t.trk.slots = s.trk.slots ∧ t.mem = s.mem ∧ (late = true → t.bitAt (tkId region 5) 2 = true) ∧
      (late = false → t.regs = s.regs) := by
  have htrk : t.trk = (s.withMirror slots words).trk := ht ▸ State.flagIf_trk _ _ _ _
  refine ⟨htrk ▸ rfl, htrk ▸ rfl, ht ▸ State.flagIf_mem (s.withMirror slots words) _ _ _, ?_, ?_⟩
  · rintro rfl
    exact ht ▸ State.bitAt_flag_same (s := s.withMirror slots words) hw (by decide)
  · rintro rfl
    exact ht ▸ rfl

end

/-! ### The rows of a region that is there -/

section

variable {s : State} {region : Nat} (hr : region < 8)

include hr

theorem exec_trackerStepProcess_due {st : StepInfo} {rest : List StepInfo} (htodo : (s.tracker region).todo = st :: rest)
    (hstep : s.stepMode = true) (hheld : s.recordsHeld region st.ssn = false) {u : State}
    (hu : u = s.onTracker region fun x => { x with todo := rest, inbox := x.inbox.filter (·.ssn != st.ssn % 2 ^ 24) }) :
    exec (.trackerStepProcess region) s = .next
      (if u.bitAt (tkId region 0) 0 then
        (u.trackStep region st ((s.tracker region).inbox.filter (·.ssn == st.ssn % 2 ^ 24))).trackerFeeds region
       else u) := by
  subst hu
  show execTrackerStepProcess region s = _
  rw [execTrackerStepProcess, onUnit_present (decide_eq_true hr)]
  simp only [htodo]
  rw [whenDue_of_due (by simp [hstep, hheld])]

theorem exec_mirrorCopy_due (hrun : s.running = true) (late : Bool) :
    exec (.mirrorCopy region late) s = .next
      ((s.withMirror (s.mirroredSlots region) (s.mirroredWords region)).flagIf late (tkId region 5) 2) := by
  show execMirrorCopy region late s = _
  rw [execMirrorCopy, onUnit_present (decide_eq_true hr), whenDue_of_due hrun]
  rfl

/-! ### The vote's command (R194, R198, R266) -/

section

variable {object : Word} {r : Scored} {u : State} {e : PendVerdict} {t : Slot} {cls conf : Nat}
  (hscored : s.postedOf region object.toNat = some r) (hu : u = s.dropScored region r.id)
  (hpend : u.pendOf r.id = some e) (hslot : u.slot region r.slot = some t) (hposted : r.posted = some (cls, conf))

include hscored hu hpend hslot hposted

theorem exec_fusionVote_late (hlate : u.deadline e ≤ u.dev) :
    exec (.fusionVote region object) s = .next (u.bump (tkId region 0x405)) := by
  subst hu
  show execFusionVote region object s = _
  rw [execFusionVote, onUnit_present (decide_eq_true hr)]
  simp only [hscored, hpend, hslot, hposted, decide_eq_true hlate, Bool.true_or, if_true]

theorem exec_fusionVote_inTime (hdue : u.dev < u.deadline e) (hid : t.id = r.id) {ss : List Source} {v : VoteResult}
    (hss : ss = u.takeFree.2.sources region u.free t cls conf) (hv : v = u.takeFree.2.voteOf region u.free e.home ss) :
    exec (.fusionVote region object) s = .next
      (((((u.takeFree.2.bump (fuId region 0x51)).bumpIf v.conflict (fuId region 0x50)).judgeSensors region u.free t
        ss v).takeVote region t v.cls v.conf v.conflict v.uncertain r.boxes)) := by
  have hcond : ¬ (decide (u.deadline e ≤ u.dev) || t.id != r.id) = true := by simp [hdue, hid]
  subst hu hss hv
  show execFusionVote region object s = _
  rw [execFusionVote, onUnit_present (decide_eq_true hr)]
  simp only [hscored, hpend, hslot, hposted, if_neg hcond]
  rfl

end

end

/-! ### Refinement (R207) -/

theorem exec_refineApply_due {s : State} (hrun : s.running = true) (hrestart : s.restarting = false)
    (hsec : s.trk.refineSec ≠ some (s.dev.fdiv 1000000000)) (unfinished : BitVec 4) :
    exec (.refineApply unfinished) s = .next (forEach (upTo 4) (fun s p => s.refinePort p (bitOf unfinished.toNat p))
      { s with trk := { s.trk with refineSec := some (s.dev.fdiv 1000000000) } }) := by
  show execRefineApply unfinished s = _
  rw [execRefineApply, whenDue_of_due (by simp [hrun, hrestart, hsec])]

/-- Settles O26: each row that is due, and what the mirror and the word of FORCE then read. -/
theorem trackerAndVoterCommands : Obligations.TrackerAndVoterCommands := by
  intro s region hc hr
  refine ⟨fun st rest htodo hstep hheld u hu => ?step, fun hrun late => ?mirror,
    fun object r u e t cls conf hscored hu hpend hslot hposted =>
      ⟨exec_fusionVote_late hr hscored hu hpend hslot hposted,
        fun hdue hid ss v hss hv => exec_fusionVote_inTime hr hscored hu hpend hslot hposted hdue hid hss hv⟩,
    fun sensor v hj hs hok hnew => ⟨fun hout => ?_, fun hin => ?_⟩,
    fun unfinished hrun hrestart hsec => exec_refineApply_due hrun hrestart hsec unfinished⟩
  case step =>
    have hbit : u.bitAt (tkId region 0) 0 = s.bitAt (tkId region 0) 0 := hu ▸ rfl
    rw [exec_trackerStepProcess_due hr htodo hstep hheld hu, hbit]
    exact ⟨fun hon => by rw [if_pos hon], fun hoff => by rw [if_neg (Bool.eq_false_iff.1 hoff)]⟩
  case mirror =>
    obtain ⟨hmirror, hframe⟩ := State.withMirror_flagIf (region := region) hc.regs (s.mirroredSlots region)
      (s.mirroredWords region) late rfl
    refine ⟨_, exec_mirrorCopy_due hr hrun late, fun i hi => ?_, hframe⟩
    rw [hmirror, State.get_mirroredSlots hc.trk_mirror hi]
  · exact exec_fusionForceWrite_changed hr hj hc.regs hs hok hnew (out := true) hout
  · exact exec_fusionForceWrite_changed hr hj hc.regs hs hok hnew (out := false) hin

end Sys2Proof.Machine
end

section
/-!
PROOF. Tiles: the start of a build, a tile that becomes READY, and an uncorrectable error in one (O29).
-/

namespace Sys2Proof.Machine

/-! ### Track slots through reports and counters (R24, R224) -/

@[simp] theorem State.report_trk (s : State) (block inst code detail : Nat) : (s.report block inst code detail).trk = s.trk := by
  obtain (⟨f, e⟩ | ⟨rs, e⟩) | e | e := State.report_cases s block inst code detail <;> simp [e]

@[simp] theorem State.countUe_trk (s : State) (code : Nat) : (s.countUe code).trk = s.trk := by
  rw [State.countUe, State.bumpIf_trk, State.bumpIf_trk]

/-- A track's failures stand in its slot alone. -/
theorem State.tileFailures_of_trk {s t : State} (h : t.trk = s.trk) (lr i id : Nat) :
    t.tileFailures lr i id = s.tileFailures lr i id := by
  rw [State.tileFailures, State.slot, h]
  rfl

/-! ### A unit of the module -/

theorem tile_present {region d : Nat} (hr : region < 8) (hd : d < 256) :
    (decide (region < 8) && decide (d < 256)) = true := by
  rw [decide_eq_true hr, decide_eq_true hd]
  rfl

/-! ### The start of a build (R210, R220, R398) -/

section

variable {s : State} {region : Nat} {r : TileReq} {rest : List TileReq} (hr : region < 8)
  (hreqs : (s.dense region).reqs = r :: rest) (hroom : s.tileRoom region r.lr = true)
  (hold : r.gen ≠ s.obj.gen ∨ s.oldWork = false)

include hroom hold

/-- A request with room for its tile that waits for no tile of a replaced plan. -/
theorem buildRequest_due : (s.tileRoom region r.lr && !(r.gen == s.obj.gen && s.oldWork)) = true := by
  obtain h | h := hold <;> simp [hroom, h]

include hr hreqs

theorem exec_tileBuildStart_held {t : Slot} (hslot : s.slot r.lr r.slot = some t) (hid : t.id = r.id) :
    exec (.tileBuildStart region) s = .next (s.takeFree.2.startTile region r s.free t) := by
  show execTileBuildStart region s = _
  rw [execTileBuildStart, onUnit_present (decide_eq_true hr)]
  simp only [hreqs, whenDue_of_due (buildRequest_due hroom hold), hslot, if_pos hid, State.takeFree]

theorem exec_tileBuildStart_gone (hgone : ∀ t, s.slot r.lr r.slot = some t → t.id ≠ r.id) :
    exec (.tileBuildStart region) s = .next (s.onDense region fun x => { x with reqs := x.reqs.drop 1 }) := by
  show execTileBuildStart region s = _
  rw [execTileBuildStart, onUnit_present (decide_eq_true hr)]
  simp only [hreqs, whenDue_of_due (buildRequest_due hroom hold)]
  cases hslot : s.slot r.lr r.slot with
  | none => rfl
  | some t => simp only [if_neg (hgone t hslot)]

end

/-! ### The rows of a tile -/

section

variable {s : State} {region d : Nat} {t : Tile} (hr : region < 8) (hd : d < 256)
  (htile : (s.dense region).tile d = some t)

include hr hd htile

/-- The side vector takes its decoder values when the tile becomes READY, from the track if its slot is still held (R218). -/
theorem exec_tileReady_building (hready : t.ready = false) {side : List Nat}
    (hheld : ∀ k, s.slot t.lr t.slot = some k →
      side = t.side.take 8 ++ ((s.sideVector t.lr t.feats t.origin.x k).drop 8).take 4 ++ t.side.drop 12)
    (hfree : s.slot t.lr t.slot = none → side = t.side) :
    exec (.tileReady region d) s = .next
      ((((s.onDense region fun x => x.onTile d fun t => { t with ready := true, refs := 1, side := side }).bump
        (tileId region 0x100)).kickEdge region).sample 0xC region (locDiff s.loc t.asked)) := by
  show execTileReady region d s = _
  rw [execTileReady, onUnit_present (tile_present hr hd)]
  simp only [htile, whenDue_of_due (show (!t.ready) = true by rw [hready]; rfl)]
  cases hslot : s.slot t.lr t.slot with
  | none => rw [hfree hslot]
  | some k => rw [hheld k hslot]

/-- A tile that fails goes; one that had not failed before, and is not cancelled, is asked for again (R224). -/
theorem exec_tileUe_live {u : State}
    (hu : u = ((((((s.bump (tileId region 0x103)).flag (tileId region 0x40) 2).countUe 1).report 0x08 region 1 d).onDense region
      fun x => (x.abortTile d).setTile d none).onSlot t.lr t.slot fun k =>
        if k.id = t.id then { k with tileFails := k.tileFails + 1 } else k)) :
    exec (.tileUe region d) s = .next
      ((if s.tileFailures t.lr t.slot t.id = 0 ∧ t.cancelled = false then
          (u.bump (tileId region 0x104)).onDense region fun x =>
            { x with reqs := ⟨t.lr, t.slot, t.id, t.matureSsn, t.gen, t.feats, some t.origin, t.asked⟩ :: x.reqs }
        else u).kickEdge region) := by
  have hfails : (((((s.bump (tileId region 0x103)).flag (tileId region 0x40) 2).countUe 1).report 0x08 region 1 d).onDense region
      fun x => (x.abortTile d).setTile d none).tileFailures t.lr t.slot t.id = s.tileFailures t.lr t.slot t.id :=
    State.tileFailures_of_trk (by simp) _ _ _
  subst hu
  show execTileUe region d s = _
  rw [execTileUe, onUnit_present (tile_present hr hd)]
  simp only [htile, hfails]

end

/-- Settles O29: the start of a build by the request's track, READY by the tile's slot, and a failed tile by what failed before. -/
theorem tileCommands : Obligations.TileCommands := by
  intro s region hr
  refine ⟨fun r rest hreqs hroom hold => ⟨fun t => exec_tileBuildStart_held hr hreqs hroom hold,
      exec_tileBuildStart_gone hr hreqs hroom hold⟩,
    fun d t hd htile hready side hheld hfree => exec_tileReady_building hr hd htile hready hheld hfree,
    fun d t hd htile u hu => ⟨fun hlast => ?last, fun hfirst hlive => ?first⟩⟩
  case last =>
    have hnot : ¬ (s.tileFailures t.lr t.slot t.id = 0 ∧ t.cancelled = false) := fun ⟨hzero, hlive⟩ =>
      hlast.elim (fun h => h hzero) fun h => Bool.false_ne_true (hlive.symm.trans h)
    rw [exec_tileUe_live hr hd htile hu, if_neg hnot]
  case first => rw [exec_tileUe_live hr hd htile hu, if_pos ⟨hfirst, hlive⟩]

end Sys2Proof.Machine
end

section
/-!
PROOF. The array and the edge engine: modes, stripes, aborts, layer groups and streamed batches (O30).
-/

namespace Sys2Proof.Machine

/-! ### The array's mode (R240) -/

theorem exec_quernModeSwitch_due {s : State} {region mode : Nat} (hr : region < 8) (hm : mode < 3)
    (hidle : (s.dense region).subs = []) (hnew : (s.dense region).mode ≠ mode) (hnext : s.nextMode region = some mode) :
    exec (.quernModeSwitch region mode) s =
      .next ((s.onDense region fun x => { x with mode := mode }).bump (pid 9 region 0x105)) := by
  have hdue : ((s.dense region).subs.isEmpty && (s.dense region).mode != mode && s.nextMode region == some mode) = true := by
    simp [hidle, hnew, hnext]
  show execQuernModeSwitch region mode s = _
  rw [execQuernModeSwitch, onUnit_present (by rw [decide_eq_true hr, decide_eq_true hm]; rfl), whenDue_of_due hdue]

/-! ### Stripes (R222, R241, R246, R247) -/

theorem subArray_present {region sub : Nat} (hr : region < 8) (hs : sub < 4) :
    (decide (region < 8) && decide (sub < 4)) = true := by
  rw [decide_eq_true hr, decide_eq_true hs]
  rfl

section

variable {s : State} {region sub : Nat} {j : RunJob} (hr : region < 8) (hs : sub < 4)

include hr hs

theorem exec_stripeStart_due (hnext : s.nextJob region arrayKind = some j) (hin : sub < 2 ^ (s.dense region).mode)
    (hfree : (s.dense region).sub sub = none) (hmode : s.jobMode region j = some (s.dense region).mode) :
    exec (.stripeStart region sub) s =
      .next (s.onDense region fun x => (x.onTile j.tile (·.start j)).setSub sub (some j)) := by
  have hdue : (decide (sub < 2 ^ (s.dense region).mode) && ((s.dense region).sub sub).isNone &&
      s.jobMode region j == some (s.dense region).mode) = true := by
    simp [hin, hfree, hmode]
  show execStripeStart region sub s = _
  rw [execStripeStart, onUnit_present (subArray_present hr hs)]
  simp only [hnext, whenDue_of_due hdue]

variable {u : State} {t : Tile} (hsub : (s.dense region).sub sub = some j)

include hsub

theorem exec_stripeDone_running {l : Layer} {p : Plane} {c : ConvCount}
    (hu : u = (s.onDense region fun x => x.setSub sub none)) (htile : (u.dense region).tile j.tile = some t)
    (hlayer : (u.tilePlan t).layers[j.layer]? = some l)
    (hrun : l.runStripe u.free (t.srcPlane l) (((t.layers[j.layer]?).bind (·.plane)).getD l.emptyPlane)
      (l.stripes.getD j.stripe ⟨0, 0⟩) = (p, c)) :
    exec (.stripeDone region sub) s =
      .next ((((u.takeFree.2.bump (pid 9 region 0x103)).bump (pid 9 region 0x104) (l.haloRows j.stripe)).countConv 9 region
        c).jobDone region j fun t => t.onLayer j.layer fun r => { r with plane := some p }) := by
  subst hu
  show execStripeDone region sub s = _
  rw [execStripeDone, onUnit_present (subArray_present hr hs)]
  simp only [hsub, htile, hlayer, State.takeFree, hrun]

variable (hu : u = (((s.onDense region fun x => x.setSub sub none).bump (pid 9 region 0x106)).countUe 1).report 0x09 region 1
    j.layer)
  (htile : (u.dense region).tile j.tile = some t)

include hu htile

/-- The second abort of a stripe, or a stripe of a cancelled tile: whichever plane was bad, nothing runs again. -/
theorem exec_stripeAbort_again
    (hlast : t.cancelled = true ∨ ∃ r, t.layers[j.layer]? = some r ∧ r.aborted.contains j.stripe = true) (planeBad : Bool) :
    exec (.stripeAbort region sub planeBad) s =
      .next ((u.onDense region fun x => x.onTile j.tile fun t =>
        (t.setJob j.layer j.stripe .done).give.cancel).kickEdge region) := by
  have hagain : (t.cancelled || (t.layers[j.layer]?).all (·.aborted.contains j.stripe)) = true := by
    obtain h | ⟨r, hlayer, h⟩ := hlast
    · rw [h, Bool.true_or]
    · rw [hlayer, Option.all_some, h, Bool.or_true]
  subst hu
  show execStripeAbort region sub planeBad s = _
  rw [execStripeAbort, onUnit_present (subArray_present hr hs)]
  simp only [hsub, htile, ← Bool.or_assoc, hagain, Bool.true_or, if_true]

/-- The first abort of a stripe whose input is good. -/
theorem exec_stripeAbort_first {r : LayerRun} (hlive : t.cancelled = false) (hlayer : t.layers[j.layer]? = some r)
    (hfirst : r.aborted.contains j.stripe = false) :
    exec (.stripeAbort region sub false) s =
      .next ((u.onDense region fun x => x.onTile j.tile fun t =>
        (t.setJob j.layer j.stripe .again).onLayer j.layer fun r =>
          { r with aborted := r.aborted ++ [j.stripe] }).kickEdge region) := by
  subst hu
  show execStripeAbort region sub false s = _
  rw [execStripeAbort, onUnit_present (subArray_present hr hs)]
  simp only [hsub, htile, hlive, hlayer, Option.all_some, hfirst, Bool.false_eq_true, if_false, Bool.or_false]

end

/-! ### The edge engine (R250 to R252) -/

theorem exec_edgeLayerGroupDone_running {s : State} {region : Nat} {j : RunJob} (hr : region < 8)
    (hedge : (s.dense region).edge = some j) :
    exec (.edgeLayerGroupDone region) s =
      .next (((s.onDense region fun x => { x with edge := none }).edgeDone region j).kickEdge region) := by
  show execEdgeLayerGroupDone region s = _
  rw [execEdgeLayerGroupDone, onUnit_present (decide_eq_true hr)]
  simp only [hedge]

theorem exec_fcBatchStream_due {s : State} {region : Nat} (hr : region < 8) (hready : s.fcBatch region ≠ [])
    (hidle : (s.dense region).edge = none) :
    exec (.fcBatchStream region) s =
      .next ((forEach (s.fcBatch region) (fun s j => s.edgeDone region j) ((s.onDense region fun x =>
        (s.fcBatch region).foldl (fun x j => x.onTile j.tile (·.start j))
          { x with lastBatch := (s.fcBatch region).length }).bump (pid 0x0A region 0x104))).kickEdge region) := by
  have hdue : (!(s.fcBatch region).isEmpty && (s.dense region).edge.isNone) = true := by simp [hready, hidle]
  show execFcBatchStream region s = _
  rw [execFcBatchStream, onUnit_present (decide_eq_true hr)]
  exact congrArg _ (whenDue_of_due hdue _ s)

/-- Settles O30: each row by what the array, the sub-array or the edge engine of the region meets. -/
theorem arrayAndEdgeCommands : Obligations.ArrayAndEdgeCommands := by
  intro s region hr
  refine ⟨fun mode hm hidle hnew hnext => exec_quernModeSwitch_due hr hm hidle hnew hnext,
    fun sub j hs hnext hin hfree hmode => exec_stripeStart_due hr hs hnext hin hfree hmode,
    fun sub j u t l p c hs hsub hu htile hlayer hrun => exec_stripeDone_running hr hs hsub hu htile hlayer hrun,
    fun sub j u t hs hsub hu htile => ⟨fun hlast planeBad => exec_stripeAbort_again hr hs hsub hu htile hlast planeBad,
      fun r hlive hlayer hfirst => exec_stripeAbort_first hr hs hsub hu htile hlive hlayer hfirst⟩,
    fun j hedge => exec_edgeLayerGroupDone_running hr hedge, ?_⟩
  rintro js rfl hready hidle
  exact exec_fcBatchStream_due hr hready hidle

end Sys2Proof.Machine
end

section
/-!
PROOF. The post unit: the class of a result, the request for its boxes and their decoding (O31).
-/

namespace Sys2Proof.Machine

/-! ### Class and confidence (R253) -/

theorem exec_postClassify_due {s : State} {region : Nat} {object : Word} {r : Scored} (hr : region < 8)
    (hfind : (s.dense region).done.find? (fun r => r.id == object.toNat && r.posted.isNone) = some r)
    (hready : r.maps = none ∨ r.boxes.isSome = true) :
    exec (.postClassify region object) s =
      .next ((s.bumpIf (s.classify r.lr r.scores).isNone (postId region 0x100)).onDense region fun x =>
        { x with done := x.done.map fun q =>
            if q = r then { r with posted := some ((s.classify r.lr r.scores).getD (0, 0)) } else q }) := by
  have hdue : (r.maps.isNone || r.boxes.isSome) = true := by
    obtain hmaps | hboxes := hready
    · rw [hmaps, Option.isNone_none, Bool.true_or]
    · rw [hboxes, Bool.or_true]
  show execPostClassify region object s = _
  rw [execPostClassify, onUnit_present (decide_eq_true hr)]
  simp only [hfind, whenDue_of_due hdue]

/-! ### Boxes (R254 to R257) -/

theorem exec_boxRequest_found {s : State} {region : Nat} {object : Word} {r : Scored} (hr : region < 8)
    (hfind : (s.dense region).done.find? (fun r => r.id == object.toNat && r.maps.isSome && !r.boxAsked) = some r)
    {u : State} (hu : u = (s.onDense region fun x =>
      { x with done := x.done.map fun q => if q = r then { r with boxAsked := true } else q })) :
    exec (.boxRequest region object) s =
      .next (u.onDense (u.boxServer region) fun x => { x with boxReqs := x.boxReqs ++ [(region, r.id)] }) := by
  subst hu
  show execBoxRequest region object s = _
  rw [execBoxRequest, onUnit_present (decide_eq_true hr)]
  simp only [hfind]

/-- Region 0 and region 4 have the post units that decode boxes. -/
theorem boxDecoder_present {region : Nat} (hserves : region = 0 ∨ region = 4) : (region == 0 || region == 4) = true := by
  obtain rfl | rfl := hserves <;> rfl

/-- The oldest request of a serving unit, at its result with the maps `sm`, `rm` and `sb`: the boxes `out` that suppression
emits are counted, written and set at the result. -/
theorem exec_boxDecodeDone_oldest {s v : State} {region u id : Nat} {rest : List (Nat × Nat)} {r : Scored} {sm rm : Plane}
    {sb : BoxMaps} {out : List Box} (hserves : region = 0 ∨ region = 4)
    (holdest : (s.dense region).boxReqs = (u, id) :: rest)
    (hv : v = (s.onDense region fun x => { x with boxReqs := rest }))
    (hfind : (v.dense u).done.find? (fun r => r.id == id) = some r) (hmaps : r.maps = some (sm, rm, sb))
    (hout : out = v.takeFree.2.suppress region (v.takeFree.2.candidates region v.free sm rm sb))
    (pointers : PtrCheck) {w t : State}
    (hw : w = ((v.takeFree.2.bump (postId region 0x101)).bump (postId region 0x102)
      ((v.takeFree.2.candidates region v.free sm rm sb).length - 256)))
    (ht : t = (w.writeBoxes region (out.zipIdx.map fun b => boxRecord id r.tileW r.tileH b.2 b.1) pointers)) :
    exec (.boxDecodeDone ⟨region, pointers⟩) s = .next (t.onDense u fun x =>
      { x with done := x.done.map fun q => if q = r then { r with boxes := some out.length } else q }) := by
  subst hv
  rw [ht, hw, hout]
  show execBoxDecodeDone ⟨region, pointers⟩ s = _
  rw [execBoxDecodeDone, onUnit_present (boxDecoder_present hserves)]
  simp only [holdest, hfind, hmaps, State.takeFree]

/-- Settles O31: each row by the result it finds at its region, and the decoding by the oldest request of its unit. -/
theorem postUnitCommands : Obligations.PostUnitCommands := by
  intro s region object hr
  refine ⟨fun r hfind hready => exec_postClassify_due hr hfind hready,
    fun r hfind u hu => exec_boxRequest_found hr hfind hu, ?_⟩
  intro u id rest v r sm rm sb out hserves holdest hv hfind hmaps hout pointers w t hw ht
  exact exec_boxDecodeDone_oldest hserves holdest hv hfind hmaps hout pointers hw ht

end Sys2Proof.Machine
end

section
/-!
PROOF. The records of a frame, and the column of an across centre (O33).
-/

namespace Sys2Proof.Machine

/-! ### Sorting: the same elements, in the order of a key -/

theorem insertBy_perm {α : Type} (le : α → α → Bool) (x : α) (ys : List α) : (insertBy le x ys).Perm (x :: ys) := by
  induction ys with
  | nil => exact .refl _
  | cons y ys ih =>
    rw [insertBy]
    split
    · exact (ih.cons y).trans (.swap x y ys)
    · exact .refl _

theorem sortBy_perm {α : Type} (le : α → α → Bool) (xs : List α) : (sortBy le xs).Perm xs := by
  suffices h : ∀ acc, (xs.foldl (fun acc x => insertBy le x acc) acc).Perm (xs ++ acc) by
    simpa [sortBy] using h []
  induction xs with
  | nil => exact fun _ => .refl _
  | cons x xs ih => exact fun acc => ((ih _).trans ((insertBy_perm le x acc).append_left xs)).trans List.perm_middle

section

variable {α : Type} {le : α → α → Bool} {key : α → Int} (hle : ∀ x y, le x y = true → key x ≤ key y)
  (hgt : ∀ x y, le x y = false → key y ≤ key x)

include hle hgt

/-- An order that refines a key keeps a list sorted by that key as an element goes in. -/
theorem insertBy_sorted (x : α) {ys : List α} (h : ys.Pairwise (key · ≤ key ·)) :
    (insertBy le x ys).Pairwise (key · ≤ key ·) := by
  induction ys with
  | nil => exact List.pairwise_singleton _ x
  | cons y ys ih =>
    obtain ⟨hy, hys⟩ := List.pairwise_cons.1 h
    rw [insertBy]
    split
    case isTrue hyx =>
      refine List.pairwise_cons.2 ⟨fun z hz => ?_, ih hys⟩
      obtain rfl | hz := List.mem_cons.1 ((insertBy_perm le x ys).mem_iff.1 hz)
      · exact hle _ _ hyx
      · exact hy z hz
    case isFalse hyx =>
      have hxy : key x ≤ key y := hgt _ _ (Bool.eq_false_iff.2 hyx)
      refine List.pairwise_cons.2 ⟨fun z hz => ?_, h⟩
      obtain rfl | hz := List.mem_cons.1 hz
      · exact hxy
      · exact hxy.trans (hy z hz)

theorem sortBy_sorted (xs : List α) : (sortBy le xs).Pairwise (key · ≤ key ·) :=
  List.foldlRecOn xs _ .nil fun _ h x _ => insertBy_sorted hle hgt x h

end

/-! ### The records of a frame (R271, R272) -/

theorem State.mem_readyRecs {s : State} {g : Nat} {x : VerdictRec} : x ∈ s.readyRecs g ↔ x ∈ s.tail.recs ∧ x.group = g := by
  rw [State.readyRecs, (sortBy_perm _ _).mem_iff, List.mem_filter, beq_iff_eq]

/-- The order of launch time, lane and OBJECT_ID is one of launch times first. -/
theorem State.readyRecs_sorted (s : State) (g : Nat) : (s.readyRecs g).Pairwise (·.launch ≤ ·.launch) := by
  refine sortBy_sorted (key := VerdictRec.launch) (fun x y h => ?_) (fun x y h => ?_) _
  · simp only [Bool.or_eq_true, Bool.and_eq_true, decide_eq_true_eq, beq_iff_eq] at h
    obtain hlt | ⟨heq, -⟩ := h
    · exact hlt.le
    · exact heq.le
  · simp only [Bool.or_eq_false_iff, decide_eq_false_iff_not] at h
    exact not_lt.1 h.1

section

variable {s : State} {g : Nat} {r : VerdictRec} {rest : List VerdictRec} (h : s.batchOf g = r :: rest)

include h

/-- A frame starts with the earliest ready record, and goes on with the later ones of its window and its module. -/
theorem State.batchOf_cons : ∃ later, s.readyRecs g = r :: later ∧
    rest = (later.filter fun x => decide (x.launch ≤ r.launch + s.fld (tailId 0) 12 5 * 1000) && x.src == r.src).take
      (s.fld (tailId 0) 17 5) := by
  rw [State.batchOf] at h
  split at h
  · simp at h
  case h_2 first later hready =>
    rw [List.take_succ_cons, List.cons.injEq] at h
    obtain ⟨rfl, hrest⟩ := h
    exact ⟨later, hready, hrest.symm⟩

theorem State.length_batchOf_le : (s.batchOf g).length ≤ s.fld (tailId 0) 17 5 + 1 := by
  obtain ⟨later, -, hrest⟩ := State.batchOf_cons h
  rw [h, hrest, List.length_cons]
  exact Nat.succ_le_succ (List.length_take_le _ _)

theorem State.mem_batchOf {x : VerdictRec} (hx : x ∈ s.batchOf g) : x ∈ s.readyRecs g ∧ x.src = r.src ∧
    r.launch ≤ x.launch ∧ x.launch ≤ r.launch + s.fld (tailId 0) 12 5 * 1000 := by
  obtain ⟨later, hready, hrest⟩ := State.batchOf_cons h
  have hearliest := (List.pairwise_cons.1 (hready ▸ s.readyRecs_sorted g)).1
  rw [h] at hx
  obtain rfl | hx := List.mem_cons.1 hx
  · exact ⟨hready ▸ List.mem_cons_self, rfl, le_rfl, by omega⟩
  · rw [hrest] at hx
    obtain ⟨hlater, hkept⟩ := List.mem_filter.1 (List.mem_of_mem_take hx)
    rw [Bool.and_eq_true, decide_eq_true_iff, beq_iff_eq] at hkept
    exact ⟨hready ▸ List.mem_cons_of_mem r hlater, hkept.2, hearliest x hlater, hkept.1⟩

end

/-! ### Columns (R260) -/

theorem State.column_le (s : State) (across : Int) : (s.column across).1 ≤ s.fld (tailId 3) 0 6 :=
  Int.toNat_le.2 (clampInt_mem (Int.natCast_nonneg _) _).2

theorem State.column_unclamped {s : State} {across : Int} (h : (s.column across).2 = false) :
    ((s.column across).1 : Int) = (across - s.fld (tailId 2) 0 16).fdiv (s.fld (tailId 2) 16 12 : Nat) := by
  simp only [State.column, Bool.or_eq_false_iff, decide_eq_false_iff_not, not_lt] at h ⊢
  rw [clampInt_of_mem h.1 h.2, Int.toNat_of_nonneg h.1]

/-- Settles O33: a frame is cut from the ready records, which are sorted by launch time, and a column from a clamped quotient. -/
theorem framesAndColumnsAreBounded : Obligations.FramesAndColumnsAreBounded := by
  refine fun s => ⟨fun g r rest h => ⟨State.length_batchOf_le h, fun x hx => ?_⟩,
    fun across => ⟨s.column_le across, State.column_unclamped⟩⟩
  obtain ⟨hready, hsrc, hfrom, huntil⟩ := State.mem_batchOf h hx
  obtain ⟨hrec, hgroup⟩ := State.mem_readyRecs.1 hready
  exact ⟨hgroup, hsrc, hfrom, huntil, hrec⟩

end Sys2Proof.Machine
end

section
/-!
PROOF. A step runs the command in front of the queue on the state with the rest of the queue, and no queue stops the machine
(O1, O6).
-/

namespace Sys2Proof.Machine

/-- Settles O1: the step of a queue that is not empty, by its definition. -/
theorem stepRunsFrontCommand : Obligations.StepRunsFrontCommand := by
  intro c rest s h
  rw [step, h]

/-- Settles O6: a command and a tick each carry the queue and the counter of free values over (`exec_carries`,
`State.tick_carries`), so a step takes from the queue exactly what it runs. -/
theorem stepsTakeCommandsInOrder : Obligations.StepsTakeCommandsInOrder := by
  intro s
  cases hq : s.pending with
  | nil =>
    have carried := State.tick_carries (Carries.refl s)
    exact ⟨s.tick, by rw [step, hq], carried.pending.trans hq, carried.free⟩
  | cons c rest =>
    obtain ⟨t, hexec⟩ := exec_next c { s with pending := rest }
    have carried := exec_carries (Carries.refl _) c t hexec
    exact ⟨t, (stepRunsFrontCommand c rest s hq).trans hexec, carried.pending, carried.free⟩

end Sys2Proof.Machine
end

section
/-!
PROOF. Queues are first in, first out (O36).
-/

namespace Sys2Proof.Machine

/-! ### Queues through reports and counters -/

section

variable (s : State)

@[simp] theorem State.report_que (block inst code detail : Nat) : (s.report block inst code detail).que = s.que := by
  obtain (⟨f, e⟩ | ⟨rs, e⟩) | e | e := State.report_cases s block inst code detail <;> simp [e]

@[simp] theorem State.dataCorrected_que (q : Nat) : (s.dataCorrected q).que = s.que := by simp [State.dataCorrected]

theorem State.queue_of_que {s t : State} (h : t.que = s.que) (q : Nat) : t.queue q = s.queue q := by
  rw [State.queue, State.queue, h]

end

/-! ### Words written -/

/-- The words of a packet as a queue holds them: the last one carries the end mark when the packet ends (R299). -/
def markedWords (ws : List (BitVec 64)) (eop : Bool) : List QWord :=
  ws.zipIdx.map fun w => ⟨w.1, eop && w.2 + 1 == ws.length⟩

theorem markedWords_data (ws : List (BitVec 64)) (eop : Bool) : (markedWords ws eop).map (·.data) = ws := by
  simp only [markedWords, List.map_map]
  exact List.zipIdx_map_fst 0 ws

theorem markedWords_append (ws : List (BitVec 64)) (w : BitVec 64) (eop : Bool) :
    markedWords (ws ++ [w]) eop = ws.map (fun x => ⟨x, false⟩) ++ [⟨w, eop⟩] := by
  have hbefore : ∀ x ∈ ws.zipIdx, (x.2 + 1 == ws.length + 1) = false := fun x hx => by
    have := List.snd_lt_of_mem_zipIdx hx
    simp only [beq_eq_false_iff_ne, ne_eq]
    omega
  have hfront : ws.zipIdx.map (fun x => (⟨x.1, eop && x.2 + 1 == ws.length + 1⟩ : QWord)) = ws.map fun x => ⟨x, false⟩ := by
    conv_rhs => rw [← List.zipIdx_map_fst 0 ws, List.map_map]
    exact List.map_congr_left fun x hx => by rw [hbefore x hx, Bool.and_false]; rfl
  rw [markedWords, List.zipIdx_append, List.map_append, List.length_append, List.length_singleton, hfront]
  simp

section

variable {s : State} {q : Nat} (h : Sparse.wf (fun _ => Queue.empty) s.que.queues = true)

include h

theorem State.queue_pushWords_other {p : Nat} (hp : p ≠ q) (ws : List (BitVec 64)) (eop : Bool) :
    (s.pushWords q ws eop).queue p = s.queue p := by
  rw [State.pushWords, State.queue_onQueue h, if_neg hp]

/-- A queue that discards no packet takes the words behind those it holds (R299). -/
theorem State.words_pushWords (hd : (s.queue q).discarding = false) {ws : List (BitVec 64)} (hws : ws ≠ []) (eop : Bool) :
    ((s.pushWords q ws eop).queue q).words = (s.queue q).words ++ markedWords ws eop := by
  rw [State.pushWords, State.queue_onQueue h, if_pos rfl]
  simp [hws, hd, markedWords]

end

/-! ### Words read -/

section

variable {s : State} {q : Nat} (h : Sparse.wf (fun _ => Queue.empty) s.que.queues = true)

include h

/-- The oldest word is taken, with its end mark and what SECDED found in it; the others keep their order (R300, R303). -/
theorem State.popWord_cons {w : QWord} {rest : List QWord} (hq : (s.queue q).words = w :: rest) (ecc : EccCheck) :
    (s.popWord q ecc).1 = w ∧ ((s.popWord q ecc).2.2.queue q).words = rest ∧
      ((s.popWord q ecc).2.2.queue q).last = some w ∧
      ∃ bad, (ecc = .uncorrectable → bad = true) ∧ (s.popWord q ecc).2.1 = bit w.eop + 4 * bit bad := by
  have hpop : ∀ t : State, t.que = (s.onQueue q fun x =>
      { x with words := rest, last := some w, bad := (x.bad.filter (0 < ·)).map (· - 1) }).que →
      (t.queue q).words = rest ∧ (t.queue q).last = some w := fun t ht => by
    rw [State.queue_of_que ht, State.queue_onQueue h, if_pos rfl]
    exact ⟨rfl, rfl⟩
  simp only [State.popWord, hq]
  refine ⟨trivial, (hpop _ ?_).1, (hpop _ ?_).2, _, ?_, rfl⟩
  · (repeat' split) <;> simp
  · (repeat' split) <;> simp
  · rintro rfl
    simp

end

/-- An empty queue gives its last word again with UNDERRUN, which it counts (R303). -/
theorem State.popWord_nil {s : State} {q : Nat} (hq : (s.queue q).words = []) (ecc : EccCheck) :
    s.popWord q ecc =
      ((s.queue q).last.getD ⟨0, false⟩, bit ((s.queue q).last.getD ⟨0, false⟩).eop + 2,
        (s.flag (queId q 1) 2).bump (queId q 6)) := by
  rw [State.popWord, hq]

theorem underrun_status (b : Bool) : bitOf (bit b + 2) 1 = true := by cases b <;> rfl

theorem queId_ne {i j : Nat} (q : Nat) (h : i ≠ j) : queId q i ≠ queId q j := by
  unfold queId pid
  omega

/-- Settles O36: a push appends to the words held, a pop takes the first of them. -/
theorem queuesAreFirstInFirstOut : Obligations.QueuesAreFirstInFirstOut := by
  intro s q c
  have hwf := c.que_queues
  refine ⟨fun ws eop hd hws => ?_, fun w rest ecc hq => ?_, fun ecc hq => ?_⟩
  · obtain ⟨ws, w, rfl⟩ := List.eq_nil_or_concat'  ws |>.resolve_left hws
    rw [State.words_pushWords hwf hd hws]
    refine ⟨by rw [List.map_append, markedWords_data], List.take_left' rfl, ?_, ?_,
      fun p hp => State.queue_pushWords_other hwf hp _ _⟩
    · simp [markedWords_append]
    · simp [markedWords_append]
  · obtain ⟨hfirst, hrest, hlast, bad, hbad, hstatus⟩ := State.popWord_cons hwf hq ecc
    refine ⟨hfirst, ?_, ?_, fun hecc => ?_, hrest, hlast⟩
    · rw [hstatus]
      cases w.eop <;> cases bad <;> rfl
    · rw [hstatus]
      cases w.eop <;> cases bad <;> rfl
    · rw [hstatus, hbad hecc]
      cases w.eop <;> rfl
  · rw [State.popWord_nil hq]
    refine ⟨underrun_status _, rfl, State.queue_of_que (by simp) q, ?_⟩
    have hflag : (s.flag (queId q 1) 2).word (queId q 6) = s.word (queId q 6) :=
      State.word_setFld_other c.regs (queId_ne q (by decide)) _ _ _
    have hcount := State.word_bump (State.wf_flag c.regs (queId q 1) 2) (queId q 6) (queId q 6) 1
    rw [if_pos rfl, if_neg (by decide), hflag] at hcount
    rw [hcount, BitVec.toNat_ofNat, satAdd32]
    omega

end Sys2Proof.Machine
end

section
/-!
PROOF. The operations on counters and flags (O37).
-/

namespace Sys2Proof.Machine

section

variable {s : State} {n : Nat}

/-- An operation that the object's kind takes leaves its value and gives the old one (R306). -/
theorem State.soOp_some {op a b v : Nat}
    (h : soApply (s.fld (soCfgId n) 0 2) (s.bitAt (soCfgId n) 2) op (s.word (soValId n)).toNat a b = some v) :
    s.soOp n op a b = (.ok, s.word (soValId n), s.setWord (soValId n) (BitVec.ofNat 32 v)) := by
  simp only [State.soOp, h]

/-- One that it does not take is refused (R306). -/
theorem State.soOp_none {op a b : Nat}
    (h : soApply (s.fld (soCfgId n) 0 2) (s.bitAt (soCfgId n) 2) op (s.word (soValId n)).toNat a b = none) :
    s.soOp n op a b = (.badParam, 0, s) := by
  simp only [State.soOp, h]

variable (hn : n < 12288) (hr : s.running = true)

include hn hr

theorem soRow_some {op a b v : Nat}
    (h : soApply (s.fld (soCfgId n) 0 2) (s.bitAt (soCfgId n) 2) op (s.word (soValId n)).toNat a b = some v) :
    soRow n op a b s = .next { s.setWord (soValId n) (BitVec.ofNat 32 v) with
      que := { s.que with soOld := s.word (soValId n), soStatus := .ok } } := by
  simp only [soRow, whenDue_of_due hr, if_pos hn, State.soOp_some h]
  rfl

theorem soRow_none {op a b : Nat}
    (h : soApply (s.fld (soCfgId n) 0 2) (s.bitAt (soCfgId n) 2) op (s.word (soValId n)).toNat a b = none) :
    soRow n op a b s = .next { s with que := { s.que with soOld := 0, soStatus := .badParam } } := by
  simp only [soRow, whenDue_of_due hr, if_pos hn, State.soOp_none h]

end

/-! ### Which kinds take an operation (R306) -/

section

variable {kind : Nat} (sat : Bool) (old a b : Nat)

theorem soApply_counter (h : kind ≠ 1) {op : Nat} (hop : op = 2 ∨ op = 3) : soApply kind sat op old a b = none := by
  unfold soApply
  obtain rfl | rfl := hop <;> split <;> simp_all

theorem soApply_flag (h : kind ≠ 2) {op : Nat} (hop : op = 4 ∨ op = 5 ∨ op = 6) : soApply kind sat op old a b = none := by
  unfold soApply
  obtain rfl | rfl | rfl := hop <;> split <;> simp_all

theorem soApply_either (h1 : kind ≠ 1) (h2 : kind ≠ 2) {op : Nat} (hop : op = 0 ∨ op = 1) :
    soApply kind sat op old a b = none := by
  unfold soApply
  obtain rfl | rfl := hop <;> split <;> simp_all

theorem soApply_unknown {op : Nat} (hop : 7 ≤ op) : soApply kind sat op old a b = none := by
  unfold soApply
  split <;> simp_all

end

theorem signedOf_toNat32 (x : Word) : signedOf 32 x.toNat = x.toInt := by
  have h := x.isLt
  rw [BitVec.toInt, signedOf, Nat.mod_eq_of_lt h]
  split <;> split <;> omega

/-- Settles O37: each operation by what it leaves in a counter or in a flag, and the refusals of the other kinds. -/
theorem counterAndFlagOperations : Obligations.CounterAndFlagOperations := by
  rintro s n kind old hn hr hkind rfl done rfl
  refine ⟨fun hk => ?_, fun v hk => ?_, fun hk v e => ⟨fun hsat => ?_, fun hsat => ?_, ?_⟩, fun hk => ⟨?_, ?_, ?_⟩,
    fun hk v e => ⟨?_, ?_⟩, fun hk => ⟨?_, ?_, ?_⟩, fun h1 h2 v => ⟨?_, ?_⟩, fun op a b hop => ?_⟩
  · refine soRow_some hn hr ?_
    rw [← hkind]
    obtain rfl | rfl := hk <;> rfl
  · refine soRow_some hn hr ?_
    rw [← hkind]
    obtain rfl | ⟨rfl, hv⟩ := hk
    · rfl
    · exact if_pos hv
  · refine soRow_some hn hr ?_
    rw [← hkind, hk, hsat]
    rfl
  · refine soRow_some hn hr ?_
    rw [← hkind, hk, hsat, ← signedOf_toNat32]
    rfl
  · refine soRow_some hn hr ?_
    rw [← hkind, hk]
    show some (if (s.word (soValId n)).toNat = e.toNat then v.toNat else (s.word (soValId n)).toNat) = _
    simp only [← BitVec.toNat_inj, apply_ite BitVec.toNat]
  · exact soRow_some hn hr (by rw [← hkind, hk]; rfl)
  · exact soRow_some hn hr (by rw [← hkind, hk]; rfl)
  · exact soRow_some hn hr (by rw [← hkind, hk]; rfl)
  · exact soRow_none hn hr (soApply_counter _ _ _ _ (hkind ▸ hk) (by decide))
  · exact soRow_none hn hr (soApply_counter _ _ _ _ (hkind ▸ hk) (by decide))
  · exact soRow_none hn hr (soApply_flag _ _ _ _ (hkind ▸ hk) (by decide))
  · exact soRow_none hn hr (soApply_flag _ _ _ _ (hkind ▸ hk) (by decide))
  · exact soRow_none hn hr (soApply_flag _ _ _ _ (hkind ▸ hk) (by decide))
  · exact soRow_none hn hr (soApply_either _ _ _ _ (hkind ▸ h1) (hkind ▸ h2) (by decide))
  · exact soRow_none hn hr (soApply_either _ _ _ _ (hkind ▸ h1) (hkind ▸ h2) (by decide))
  · exact State.soOp_none (soApply_unknown _ _ _ _ hop)

end Sys2Proof.Machine
end

section
/-!
PROOF. Check values: feeds compose and registers keep the width of their algorithm (O39), and a write of a context's word also
makes that word good again where it was in error, which the statement on the commands leaves out (O38).
-/

namespace Sys2Proof

/-! ### Registers within their width (R312) -/

theorem reverseBits_lt : ∀ (n x : Nat), reverseBits n x < 2 ^ n
  | 0, _ => Nat.one_pos
  | n + 1, x => by
    have hrest := reverseBits_lt n (x / 2)
    have hbit : x % 2 = 0 ∨ x % 2 = 1 := by omega
    rw [reverseBits, Nat.pow_succ]
    obtain h | h := hbit <;> rw [h] <;> omega

section

variable {w poly : Nat}

theorem crcShiftRight_lt (hpoly : poly < 2 ^ w) : ∀ (n : Nat) {st : Nat}, st < 2 ^ w → crcShiftRight poly n st < 2 ^ w
  | 0, _, h => h
  | n + 1, st, h => by
    have hhalf : st / 2 < 2 ^ w := (Nat.div_le_self st 2).trans_lt h
    rw [crcShiftRight]
    refine crcShiftRight_lt hpoly n ?_
    split
    · exact Nat.xor_lt_two_pow hhalf hpoly
    · exact hhalf

theorem crcShiftLeft_lt (hpoly : poly < 2 ^ w) : ∀ (n : Nat) {st : Nat}, st < 2 ^ w → crcShiftLeft w poly n st < 2 ^ w
  | 0, _, h => h
  | n + 1, st, _ => by
    have hshifted : 2 * st % 2 ^ w < 2 ^ w := Nat.mod_lt _ (Nat.two_pow_pos w)
    rw [crcShiftLeft]
    refine crcShiftLeft_lt hpoly n ?_
    split
    · exact Nat.xor_lt_two_pow hshifted hpoly
    · exact hshifted

end

/-- A row of R312 whose polynomial and final value fit the register, which holds at least a byte. -/
structure CrcAlg.Fits (a : CrcAlg) : Prop where
  poly : a.poly < 2 ^ a.width
  xorOut : a.xorOut < 2 ^ a.width
  width : 8 ≤ a.width

theorem crcAlg_fits (k : Nat) : (crcAlg k).Fits := by
  unfold crcAlg
  split <;> exact ⟨by decide, by decide, by decide⟩

section

variable {a : CrcAlg} (ha : a.Fits)

include ha

theorem crcByte_lt {st : Nat} (h : st < 2 ^ a.width) (b : Byte) : crcByte a st b < 2 ^ a.width := by
  have hbyte : b.toNat < 2 ^ 8 := b.isLt
  unfold crcByte
  split
  · exact crcShiftRight_lt (reverseBits_lt _ _) 8
      (Nat.xor_lt_two_pow h (hbyte.trans_le (Nat.pow_le_pow_right Nat.two_pos ha.width)))
  · refine crcShiftLeft_lt ha.poly 8 (Nat.xor_lt_two_pow h ?_)
    calc b.toNat * 2 ^ (a.width - 8) < 2 ^ 8 * 2 ^ (a.width - 8) := Nat.mul_lt_mul_of_pos_right hbyte (Nat.two_pow_pos _)
      _ = 2 ^ a.width := by rw [← Nat.pow_add, Nat.add_sub_cancel' ha.width]

theorem crcFeed_lt (bs : List Byte) {st : Nat} (h : st < 2 ^ a.width) : crcFeed a st bs < 2 ^ a.width :=
  List.foldlRecOn bs (crcByte a) (motive := (· < 2 ^ a.width)) h fun _ hst b _ => crcByte_lt ha hst b

theorem crcResult_lt {st : Nat} (h : st < 2 ^ a.width) : crcResult a st < 2 ^ a.width := Nat.xor_lt_two_pow h ha.xorOut

end

theorem crcFeed_append (a : CrcAlg) (st : Nat) (xs ys : List Byte) :
    crcFeed a st (xs ++ ys) = crcFeed a (crcFeed a st xs) ys := List.foldl_append

end Sys2Proof

namespace Sys2Proof.Machine

/-! ### A context fed (R314) -/

theorem State.cvOf_cvFeed {s : State} (h : Sparse.wf (fun _ => CvContext.reset) s.cv = true) (c : Nat) (bs : List Byte) :
    (s.cvFeed c bs).cvOf c =
      { s.cvOf c with state := crcFeed (s.cvAlg c) ((s.cvOf c).state % 2 ^ (s.cvAlg c).width) bs } := by
  rw [State.cvFeed, State.cvOf_onCv h, if_pos rfl]

theorem State.wf_onCv {s : State} (h : Sparse.wf (fun _ => CvContext.reset) s.cv = true) (c : Nat)
    (f : CvContext → CvContext) : Sparse.wf (fun _ => CvContext.reset) (s.onCv c f).cv = true := Sparse.modify_wf c f h

theorem State.wf_cvFeed {s : State} (h : Sparse.wf (fun _ => CvContext.reset) s.cv = true) (c : Nat) (bs : List Byte) :
    Sparse.wf (fun _ => CvContext.reset) (s.cvFeed c bs).cv = true := State.wf_onCv h c _

/-- Settles O39: a fold over a list in two parts; the register stays within its width at every byte. -/
theorem checkValueFeedsCompose : Obligations.CheckValueFeedsCompose := by
  refine ⟨fun k st xs ys => ⟨crcFeed_append _ _ _ _, fun h => ?_⟩, fun s c xs ys hc => ?_⟩
  · have hfed := crcFeed_lt (crcAlg_fits k) xs h
    exact ⟨hfed, crcResult_lt (crcAlg_fits k) hfed⟩
  · have hfed : crcFeed (s.cvAlg c) ((s.cvOf c).state % 2 ^ (s.cvAlg c).width) xs < 2 ^ (s.cvAlg c).width :=
      crcFeed_lt (a := s.cvAlg c) (crcAlg_fits _) xs (Nat.mod_lt _ (Nat.two_pow_pos _))
    have halg : (s.cvFeed c xs).cvAlg c = s.cvAlg c := rfl
    rw [State.cvOf_cvFeed (State.wf_cvFeed hc.cv c xs), State.cvOf_cvFeed hc.cv, State.cvOf_cvFeed hc.cv, halg, crcFeed_append]
    dsimp only
    rw [Nat.mod_eq_of_lt hfed]

/-! ### A START of a context whose START word is in error -/

/-- A module that has claimed context 0 and has found its START word in error (R24, R308). -/
def startWordBad : State :=
  { State.reset with
    que := { State.reset.que with claims := [(0, some ⟨false, 7, 0, 1, 0⟩)] }
    mgmt := { State.reset.mgmt with fault := { State.reset.mgmt.fault with badIds := [cvId 0 3] } } }

theorem startWordBad_canonical : startWordBad.canonical := ⟨rfl, rfl, rfl, rfl, rfl⟩

/-- The write makes the word good again. -/
theorem startWordBad_started :
    ∃ t, exec (.checkvalStart 0 1) startWordBad = .next t ∧ t.mgmt.fault.badIds = [] := ⟨_, rfl, by decide⟩

/-- Refutes O38: a START of a context leaves more than the context changed. Where the START word was in error, the write makes
it good again, so the state is not that of `State.cvStart`. -/
theorem not_checkValueCommands : ¬ Obligations.CheckValueCommands := by
  intro h
  obtain ⟨hclaimed, -⟩ := h startWordBad 0 startWordBad_canonical (by decide)
  obtain ⟨hstart, -⟩ := hclaimed (by decide) (by decide) (by decide)
  obtain ⟨t, ht, hgood⟩ := startWordBad_started
  obtain rfl := Host.Outcome.next.inj (ht.symm.trans hstart)
  exact absurd hgood (by decide)

end Sys2Proof.Machine
end

section
/-!
PROOF. Queues: a write of the configuration or of FLUSH, the hardware's writes, the check of the pointers, and the timeout of a
waiting write (O35).
-/

namespace Sys2Proof.Machine

/-! ### Queues as they are emptied -/

section

variable {s : State} (h : Sparse.wf (fun _ => Queue.empty) s.que.queues = true) (q : Nat)

include h

theorem State.queue_onQueue_same (f : Queue → Queue) : (s.onQueue q f).queue q = f (s.queue q) := by
  rw [State.queue_onQueue h, if_pos rfl]

theorem State.queue_onQueue_other {q p : Nat} (hp : p ≠ q) (f : Queue → Queue) : (s.onQueue q f).queue p = s.queue p := by
  rw [State.queue_onQueue h, if_neg hp]

/-- A pointer mismatch empties the queue (R304). -/
theorem State.words_pointerCheck_mismatch : ((s.pointerCheck q .mismatch).queue q).words = [] := by
  have hque : (s.pointerCheck q .mismatch).que = (s.onQueue q Queue.flush).que := by
    simp [State.pointerCheck, State.queueReset]
  rw [State.queue_of_que hque, State.queue_onQueue_same h]
  rfl

end

/-! ### The words of a queue -/

section

variable {q : Nat} (hq : q < 4096)

include hq

/-- Where word `k` of a queue stands, and what it means there. -/
theorem queId_block {k : Nat} (hk : k < 16) :
    queId q k / 0x1000000 = 0x10 ∧ queId q k / 0x10000 % 256 = q / 64 ∧ queId q k % 0x10000 = 16 * (q % 64) + k := by
  unfold queId pid
  omega

theorem idDomain_queId {k : Nat} (hk : k < 16) : idDomain (queId q k) = none := by
  obtain ⟨hblock, -, -⟩ := queId_block hq hk
  rw [idDomain, hblock]
  rfl

theorem queId_ne_timeId {k : Nat} (hk : k < 16) : queId q k ≠ timeId 0 := by
  unfold queId timeId pid
  omega

/-- A write of QCFG that changes enable, protection, region or pages empties the queue (R296). -/
theorem State.written_qcfg {s : State} {old v : Word} (h : bitsOf v.toNat 0 11 ≠ bitsOf old.toNat 0 11) :
    s.written (queId q 0) old v = s.onQueue q fun _ => Queue.empty := by
  obtain ⟨hblock, hunit, hindex⟩ := queId_block hq (k := 0) (by decide)
  have hqueue : q / 64 * 64 + 16 * (q % 64) / 16 = q := by omega
  have hkind : 16 * (q % 64) % 16 = 0 := by omega
  simp only [State.written, hblock, hunit, hindex, State.queueWritten, if_pos (show q / 64 < 0x40 by omega), Nat.add_zero, hqueue,
    hkind, if_neg h]

/-- FLUSH discards the words held (R305). -/
theorem State.written_qflush {s : State} {old v : Word} (h : bitOf v.toNat 0 = true) :
    s.written (queId q 3) old v = s.onQueue q Queue.flush := by
  obtain ⟨hblock, hunit, hindex⟩ := queId_block hq (k := 3) (by decide)
  have hqueue : q / 64 * 64 + (16 * (q % 64) + 3) / 16 = q := by omega
  have hkind : (16 * (q % 64) + 3) % 16 = 3 := by omega
  simp only [State.written, hblock, hunit, hindex, State.queueWritten, if_pos (show q / 64 < 0x40 by omega), hqueue,
    hkind, if_pos h]

/-- A queue that no claim covers is not configured (R295). -/
theorem State.refusesWrite_unclaimed {s : State} {v : Word} (h : s.writeRefuses (queId q 0) v = none)
    (hc : s.claimed 5 q = false) : s.refusesWrite (queId q 0) v = some .wrongState := by
  obtain ⟨hblock, hunit, hindex⟩ := queId_block hq (k := 0) (by decide)
  have hqueue : q / 64 * 64 + 16 * (q % 64) / 16 = q := by omega
  have hkind : 16 * (q % 64) % 16 = 0 := by omega
  simp only [State.refusesWrite, h, State.ownerRefuses, hblock, hunit, hindex, State.queueRefuses,
    if_pos (show q / 64 < 0x40 by omega), Nat.add_zero, hqueue, hkind, refusal, hc, Bool.not_false, if_true]

variable {s : State} (hs : s.wordService = true)

include hs

/-- An accepted write of a queue's word stores it and has its effect on the queue alone. -/
theorem State.wordWrite_queue (c : s.canonical) {k : Nat} (hk : k < 16) {v : Word} {f : Queue → Queue}
    (hok : s.refusesWrite (queId q k) v = none)
    (heffect : ∀ t : State, t.written (queId q k) (s.word (queId q k)) v = t.onQueue q f) :
    (s.wordWrite (queId q k) v).lastStatus = .ok ∧ (s.wordWrite (queId q k) v).queue q = f (s.queue q) ∧
      (s.wordWrite (queId q k) v).mem = s.mem ∧ ∀ p, p ≠ q → (s.wordWrite (queId q k) v).queue p = s.queue p := by
  obtain ⟨fs, hl⟩ := State.lookup_of_accepted hok
  rw [State.wordWrite_ok hs hok, State.putWord_alwaysOn hl (idDomain_queId hq hk), if_neg (queId_ne_timeId hq hk), heffect]
  exact ⟨rfl, State.queue_onQueue_same (s := (s.madeGood _).setWord _ _) c.que_queues q f, rfl,
    fun p hp => State.queue_onQueue_other (s := (s.madeGood _).setWord _ _) c.que_queues hp f⟩

omit hs in
theorem exec_queueEnableWrite (v : Word) : exec (.queueEnableWrite q v) s = .next (s.wordWrite (queId q 0) v) := by
  show onInstance _ s (s.wordWrite (queId q 0) v) = _
  rw [decide_eq_true hq]
  rfl

omit hs in
theorem exec_qflushWrite (v : Word) : exec (.qflushWrite q v) s = .next (s.wordWrite (queId q 3) v) := by
  show onInstance _ s (s.wordWrite (queId q 3) v) = _
  rw [decide_eq_true hq]
  rfl

omit hs in
/-- A whole packet of the queue's own writer, or one of firmware, is written behind the words held if it fits (R301, R302). -/
theorem exec_queueHwWrite_due {producer : Producer} {eop : Bool} (henabled : s.qEnabled q = true)
    (hproducer : s.qProducer q = producerCode producer) (hwhole : eop = true ∨ producer = .firmware)
    (words : List (BitVec 64)) (pointers : PtrCheck) :
    exec (.queueHwWrite q producer words eop pointers) s =
      .next (if (s.queueAccess q pointers).packetFits q words.length then (s.queueAccess q pointers).pushWords q words eop
        else (s.queueAccess q pointers).countDiscard q producer) := by
  have hdue : (s.qEnabled q && s.qProducer q == producerCode producer && (eop || producer == .firmware)) = true := by
    simp only [henabled, hproducer, beq_self_eq_true, Bool.true_and, Bool.or_eq_true, beq_iff_eq]
    exact hwhole
  show onUnit _ s (whenDue _ _ s) = _
  rw [onUnit_present (decide_eq_true hq), whenDue_of_due hdue]

end

/-- A write that has waited 100 ms without room is answered TIMEOUT (R302, R316). -/
theorem exec_queueWriteTimeout_due {s : State} {tag : BitVec 12} {r : Running}
    (hfind : s.host.running.find? (fun r => r.opcode == 0x0305 && r.req.tag == tag) = some r) (hawake : s.awake = true)
    (hlong : 100000000 ≤ locDiff s.loc r.start) (hfits : s.queueWriteFits r = false) :
    exec (.queueWriteTimeout tag) s = .next ((s.bump (pid 0x10 0x41 0x102)).finish r .timeout []) := by
  show execQueueWriteTimeout tag s = _
  have hdue : (s.awake && decide (100000000 ≤ locDiff s.loc r.start) && !s.queueWriteFits r) = true := by
    rw [hawake, decide_eq_true hlong, hfits]
    rfl
  simp only [execQueueWriteTimeout, hfind, whenDue_of_due hdue]

/-- Settles O35: each row by what its write, its producer or its waiting command meets. -/
theorem queueCommands : Obligations.QueueCommands := by
  intro s q c hq
  refine ⟨fun v hs hok hnew => ?_, fun v hs hok hunclaimed => ?_, fun v hs hok hflush => ?_,
    fun producer words eop pointers henabled hproducer hwhole u hu => ?_,
    ⟨rfl, congrArg QueState.queues (State.bumpIf_que _ _ _), State.words_pointerCheck_mismatch c.que_queues q⟩,
    fun tag r hfind hawake hlong hfits => exec_queueWriteTimeout_due hfind hawake hlong hfits⟩
  · exact ⟨_, exec_queueEnableWrite hq v,
      State.wordWrite_queue hq hs c (by decide) hok fun t => State.written_qcfg hq hnew⟩
  · rw [exec_queueEnableWrite hq, State.wordWrite_status hs (State.refusesWrite_unclaimed hq hok hunclaimed)]
  · obtain ⟨hstatus, hwords, hmem, hothers⟩ :=
      State.wordWrite_queue hq hs c (by decide) hok fun t => State.written_qflush hq hflush
    exact ⟨_, exec_qflushWrite hq v, hstatus, congrArg Queue.words hwords, hmem, hothers⟩
  · subst hu
    have hexec := exec_queueHwWrite_due hq henabled hproducer hwhole words pointers
    exact ⟨fun hfits => hexec.trans (by rw [hfits]; rfl), fun hfits => hexec.trans (by rw [hfits]; rfl)⟩

end Sys2Proof.Machine
end

section
/-!
PROOF. How an accepted command is answered, and how a payload made of fields reads back.
-/

namespace Sys2Proof

/-! ### Fields of a payload -/

@[simp] theorem length_leBytes (n : Nat) : ∀ x, (leBytes n x).length = n := by
  induction n with
  | zero => exact fun _ => rfl
  | succ n ih => exact fun x => congrArg (· + 1) (ih (x / 256))

theorem ofLe_leBytes (n : Nat) : ∀ x, ofLe (leBytes n x) = x % 256 ^ n := by
  induction n with
  | zero => exact fun x => (Nat.mod_one x).symm
  | succ n ih =>
    intro x
    rw [leBytes, ofLe, ih, BitVec.toNat_ofNat, show 256 ^ (n + 1) = 256 * 256 ^ n from Nat.pow_succ', Nat.mod_mul]

theorem ofLe_lt : ∀ bs : List Byte, ofLe bs < 256 ^ bs.length
  | [] => Nat.one_pos
  | b :: bs => by
    have hrest := ofLe_lt bs
    have hbyte : b.toNat < 256 := b.isLt
    rw [ofLe, List.length_cons, Nat.pow_succ']
    omega

theorem leAt_lt (bs : List Byte) (off n : Nat) : leAt bs off n < 256 ^ n :=
  (ofLe_lt _).trans_le (Nat.pow_le_pow_right (by decide) (List.length_take_le _ _))

/-- A field at the front. -/
theorem leAt_leBytes {n x : Nat} (hx : x < 256 ^ n) (rest : List Byte) : leAt (leBytes n x ++ rest) 0 n = x := by
  rw [leAt, List.drop_zero, List.take_left' (length_leBytes n x), ofLe_leBytes, Nat.mod_eq_of_lt hx]

/-- A field behind others. -/
theorem leAt_append {front : List Byte} {m : Nat} (hm : front.length = m) (rest : List Byte) (off n : Nat) :
    leAt (front ++ rest) (m + off) n = leAt rest off n := by
  rw [leAt, leAt, ← List.drop_drop, List.drop_left' hm]

theorem leAt_leBytes_whole {n x : Nat} (hx : x < 256 ^ n) : leAt (leBytes n x) 0 n = x := by
  rw [← List.append_nil (leBytes n x), leAt_leBytes hx]

/-- Two fields of two bytes. -/
theorem leAt_pair {a b : Nat} (ha : a < 65536) (hb : b < 65536) :
    leAt (leBytes 2 a ++ leBytes 2 b) 0 2 = a ∧ leAt (leBytes 2 a ++ leBytes 2 b) 2 2 = b :=
  ⟨leAt_leBytes ha _, (leAt_append (length_leBytes 2 a) _ 0 2).trans (leAt_leBytes_whole hb)⟩

end Sys2Proof

namespace Sys2Proof.Machine

/-! ### An accepted command (R355 to R358) -/

section

variable {s : State} {op : Nat} {r : Req} (h : s.accepts op r = true) {body : Body}

include h

theorem State.accepts_host : s.host.accepted = [] := (State.accepts_iff.1 h).2.1

/-- A command whose work is done at once is answered on the state that its work leaves. -/
theorem State.commandRow_replies {st : Status} {p : List Byte} {t : State}
    (hb : body r (s.taken op r) = (some (st, p), t)) : s.commandRow op r body = (t.released op r).answer op r st p := by
  rw [State.commandRow_accepts h, hb]

/-- One that goes on leaves the state of its start, and is answered later. -/
theorem State.commandRow_goesOn {t : State} (hb : body r (s.taken op r) = (none, t)) :
    s.commandRow op r body = t.released op r := by
  rw [State.commandRow_accepts h, hb]

/-- One that only reports, or is refused by its own checks, changes nothing. -/
theorem State.commandRow_reports {st : Status} {p : List Byte}
    (hb : body r (s.taken op r) = (some (st, p), s.taken op r)) : s.commandRow op r body = s.answer op r st p := by
  rw [State.commandRow_replies h hb, State.released_accepted h]

/-- One that starts where its packet was accepted counts from there. -/
theorem State.commandRow_starts {t : State} {status : Status} {note : List Byte}
    (ht : t.host.accepted = [⟨op, r, t.loc⟩]) (hb : body r (s.taken op r) = (none, t.startRunning op r status note)) :
    s.commandRow op r body = (t.released op r).startRunning op r status note := by
  rw [State.commandRow_goesOn h hb, State.released_startRunning t op r ht]

/-- The start of a command that does nothing else meanwhile. -/
theorem State.commandRow_waits {status : Status} {note : List Byte}
    (hb : body r (s.taken op r) = (none, (s.taken op r).startRunning op r status note)) :
    s.commandRow op r body = s.startRunning op r status note := by
  rw [State.commandRow_starts h rfl hb, State.released_accepted h]

end

end Sys2Proof.Machine
end

section
/-!
PROOF. A command that the service refuses is answered with its status and changes nothing else (O47).
-/

namespace Sys2Proof.Machine

/-- Every command packet's row is one shape around its own work. -/
theorem exec_commandRow {c : Instr} {op : Nat} {r : Req} (h : cmdOf c = some (op, r)) (s : State) :
    ∃ body : Body, exec c s = .next (s.commandRow op r body) := by
  unfold cmdOf at h
  split at h
  case h_46 => cases h
  all_goals
    obtain ⟨rfl, rfl⟩ := Prod.mk.inj (Option.some.inj h)
    exact ⟨_, rfl⟩

/-- Settles O47: of the shape of its row, before its own work. -/
theorem refusedCommandsAreAnswered : Obligations.RefusedCommandsAreAnswered := by
  intro c op r s hc
  obtain ⟨body, hrow⟩ := exec_commandRow hc s
  refine ⟨fun hp => ?_, fun e hp ha hr => ?_⟩
  · rw [hrow, State.commandRow_unpowered hp]
  · rw [hrow, State.commandRow_refused hp ha hr]

end Sys2Proof.Machine
end

section
/-!
PROOF. Short commands with an effect: claims, queues, synchronisation objects, camera buses and supplies, retraining, monitors and
the module reset (O54).
-/

namespace Sys2Proof.Machine

/-! ### Claims (R308, R309, R311, R326) -/

section

variable {s : State} {r : Req}

theorem State.released_creditsChanged (t : State) (op kind unit : Nat) :
    (t.creditsChanged kind unit).released op r = (t.released op r).creditsChanged kind unit := by
  unfold State.creditsChanged
  split
  · exact (State.released_startRetrain t op r _).trans (if_pos ‹_›).symm
  · exact (if_neg ‹_›).symm

section

variable (h : s.accepts 0x0303 r = true) (hlen : r.payload.length = 16)

include h hlen

theorem exec_claim_armed (harmed : s.armed = true) : exec (.claim r) s = .next (s.answer 0x0303 r .locked []) := by
  refine congrArg _ (State.commandRow_reports h ?_)
  rw [claimBody, withLength_eq _ hlen]
  exact if_pos harmed

/-- A resource that is free takes the lowest free entry. -/
theorem exec_claim_granted {kind unit amount base e : Nat} (harmed : s.armed = false) (hkind : leAt r.payload 0 1 = kind)
    (hres : leAt r.payload 1 1 = 0) (hunit : leAt r.payload 2 2 = unit) (hamount : leAt r.payload 4 4 = amount)
    (hbase : leAt r.payload 8 8 = base) (hrange : claimRange kind unit amount base = true)
    (hheld : s.claimHeld kind unit amount base = false) (hpool : s.poolLacks kind unit amount = false)
    (hentry : s.freeEntry = some e) :
    exec (.claim r) s =
      .next (((s.setClaim e (some ⟨false, kind, unit, amount, base⟩)).creditsChanged kind unit).answer 0x0303 r .ok
        (leBytes 2 e)) := by
  refine congrArg _ ((State.commandRow_replies h (st := .ok) (p := leBytes 2 e)
    (t := ((s.taken 0x0303 r).setClaim e (some ⟨false, kind, unit, amount, base⟩)).creditsChanged kind unit) ?_).trans ?_)
  · rw [claimBody, withLength_eq _ hlen]
    simp [harmed, hkind, hres, hunit, hamount, hbase, hrange, hheld, hpool, hentry, replyWith]
  · rw [State.released_creditsChanged, State.released_setClaim, State.released_accepted h]

end

section

variable (h : s.accepts 0x0304 r = true) (hlen : r.payload.length = 2)

include h hlen

theorem exec_release_armed (harmed : s.armed = true) : exec (.release r) s = .next (s.answer 0x0304 r .locked []) := by
  refine congrArg _ (State.commandRow_reports h ?_)
  rw [releaseBody, withLength_eq _ hlen]
  exact if_pos harmed

/-- A claim of the host whose resource nothing uses frees its entry. -/
theorem exec_release_granted {c : Claim} (harmed : s.armed = false) (hentry : leAt r.payload 0 2 < 1024)
    (hc : s.claim (leAt r.payload 0 2) = some c) (himage : c.image = false) (hused : s.claimUsed c = false) :
    exec (.release r) s =
      .next (((s.setClaim (leAt r.payload 0 2) none).creditsChanged c.kind c.unit).answer 0x0304 r .ok []) := by
  refine congrArg _ ((State.commandRow_replies h (st := .ok) (p := [])
    (t := ((s.taken 0x0304 r).setClaim (leAt r.payload 0 2) none).creditsChanged c.kind c.unit) ?_).trans ?_)
  · rw [releaseBody, withLength_eq _ hlen]
    simp [harmed, hentry, hc, himage, hused, reply]
  · rw [State.released_creditsChanged, State.released_setClaim, State.released_accepted h]

end

end

/-! ### Queues and objects (R302, R306, R366) -/

section

variable {s : State} {r : Req} {q n : Nat} (pointers : PtrCheck) (ecc : List EccCheck)

section

variable {more : Bool} (h : s.accepts 0x0305 r = true) (hq : q < 4096) (h1 : 1 ≤ n) (hn : n ≤ 509) (hproducer : s.qProducer q = 0)
  (hlen : r.payload.length = 4 + 8 * n) (hqueue : leAt r.payload 0 2 = q)
  (hcount : leAt r.payload 2 2 = n + bit more * 2 ^ 15)

/-- COUNT and OPEN of a QUEUE_WRITE. -/
theorem queueWrite_fields (hn : n ≤ 509) (more : Bool) : (n + bit more * 2 ^ 15) % 1024 = n ∧
    bitsOf (n + bit more * 2 ^ 15) 10 5 = 0 ∧ bitOf (n + bit more * 2 ^ 15) 15 = more := by
  cases more
  · refine ⟨?_, ?_, ?_⟩
    · simp only [bit_false]; omega
    · simp only [bit_false, bitsOf]; omega
    · simp only [bit_false, bitOf, beq_eq_false_iff_ne, ne_eq]; omega
  · refine ⟨?_, ?_, ?_⟩
    · simp only [bit_true]; omega
    · simp only [bit_true, bitsOf]; omega
    · simp only [bit_true, bitOf, beq_iff_eq]; omega

include hq h1 hn hproducer hlen hqueue hcount

theorem queueWriteBody_checked :
    queueWriteBody pointers r (s.taken 0x0305 r) =
      if ((s.taken 0x0305 r).queueAccess q pointers).packetFits q n &&
          !(((s.taken 0x0305 r).queueAccess q pointers).host.running.any fun x => x.queue == some q)
      then reply .ok (((s.taken 0x0305 r).queueAccess q pointers).pushWords q (queueWords r.payload) (!more))
      else (none, ((s.taken 0x0305 r).queueAccess q pointers).startRunning 0x0305 r .ok []) := by
  obtain ⟨hmod, hreserved, hopen⟩ := queueWrite_fields hn more
  have hlength : (r.payload.length < 4 || r.payload.length != 4 + 8 * n) = false := by simp [hlen]
  have hfields : (decide (4096 ≤ q) || n == 0 || decide (509 < n) || false) = false := by
    simp only [Bool.or_eq_false_iff, decide_eq_false_iff_not, beq_eq_false_iff_ne, ne_eq, and_true]
    omega
  rw [queueWriteBody]
  simp only [hqueue, hcount, hmod, hreserved, hopen, hlength, hfields, State.taken_qProducer, hproducer, bne_self_eq_false,
    Bool.false_eq_true, if_false]

include h

theorem exec_queueWrite_fits (hfits : ((s.taken 0x0305 r).queueAccess q pointers).packetFits q n = true)
    (hfirst : ∀ x ∈ ((s.taken 0x0305 r).queueAccess q pointers).host.running, x.queue ≠ some q) :
    exec (.queueWrite ⟨r, pointers, ecc⟩) s =
      .next (((((s.taken 0x0305 r).queueAccess q pointers).pushWords q (queueWords r.payload) (!more)).released 0x0305 r).answer
        0x0305 r .ok []) := by
  refine congrArg _ (State.commandRow_replies h ?_)
  have hfree : (((s.taken 0x0305 r).queueAccess q pointers).host.running.any fun x => x.queue == some q) = false := by
    simpa using hfirst
  rw [queueWriteBody_checked pointers hq h1 hn hproducer hlen hqueue hcount, hfits, hfree]
  rfl

theorem exec_queueWrite_waits (hfits : ((s.taken 0x0305 r).queueAccess q pointers).packetFits q n = false) :
    exec (.queueWrite ⟨r, pointers, ecc⟩) s =
      .next ((((s.taken 0x0305 r).queueAccess q pointers).startRunning 0x0305 r .ok []).released 0x0305 r) := by
  refine congrArg _ (State.commandRow_goesOn h ?_)
  rw [queueWriteBody_checked pointers hq h1 hn hproducer hlen hqueue hcount, hfits]
  rfl

end

theorem exec_queueRead_accepted (h : s.accepts 0x0306 r = true) (hpayload : r.payload = leBytes 2 q ++ leBytes 2 n) (hq : q < 4096)
    (h1 : 1 ≤ n) (hn : n ≤ 452) (hconsumer : s.qConsumer q = 0) {u : State} (hu : u = (s.taken 0x0306 r).queueAccess q pointers)
    {k : Nat} (hk : k = readCountOf (u.queue q) n false) :
    exec (.queueRead ⟨r, pointers, ecc⟩) s =
      .next (((u.popWords q ecc k).2.2.released 0x0306 r).answer 0x0306 r .ok
        (leBytes 2 k ++ leBytes 2 0 ++ (u.popWords q ecc k).1 ++ (u.popWords q ecc k).2.1)) := by
  subst hu hk
  refine congrArg _ (State.commandRow_replies h ?_)
  obtain ⟨hqueue, hcount⟩ := leAt_pair (show q < 65536 by omega) (show n < 65536 by omega)
  have hmod : n % 1024 = n := Nat.mod_eq_of_lt (by omega)
  have hreserved : bitsOf n 10 5 = 0 := by unfold bitsOf; omega
  have hwhole : bitOf n 15 = false := by simp only [bitOf, beq_eq_false_iff_ne, ne_eq]; omega
  have hfields : (decide (4096 ≤ q) || n == 0 || decide (452 < n) || false) = false := by
    simp only [Bool.or_eq_false_iff, decide_eq_false_iff_not, beq_eq_false_iff_ne, ne_eq, and_true]
    omega
  rw [queueReadBody, withLength_eq _ (by rw [hpayload]; rfl)]
  simp only [hpayload, hqueue, hcount, hmod, hreserved, hwhole, hfields, State.taken_qConsumer, hconsumer, bne_self_eq_false,
    Bool.false_eq_true, if_false, replyWith]

theorem exec_syncobjOp_done {old : Word} {u : State} (h : s.accepts 0x0307 r = true) (hlen : r.payload.length = 12)
    (hobject : leAt r.payload 0 2 < 12288) (hop : leAt r.payload 2 1 < 16) (hres : leAt r.payload 3 1 = 0)
    (hdone : (s.taken 0x0307 r).soOp (leAt r.payload 0 2) (leAt r.payload 2 1) (leAt r.payload 4 4) (leAt r.payload 8 4) =
      (.ok, old, u)) :
    exec (.syncobjOp r) s = .next ((u.released 0x0307 r).answer 0x0307 r .ok (leBytes 4 old.toNat)) := by
  refine congrArg _ (State.commandRow_replies h ?_)
  have hfields : (decide (12288 ≤ leAt r.payload 0 2) || decide (16 ≤ leAt r.payload 2 1) || leAt r.payload 3 1 != 0) = false := by
    simp only [hres, Bool.or_eq_false_iff, decide_eq_false_iff_not, bne_self_eq_false, and_true]
    omega
  rw [syncobjOpBody, withLength_eq _ hlen]
  simp only [hfields, hdone, Bool.false_eq_true, if_false]
  rfl

end

/-! ### Camera buses and supplies (R369, R471, R472) -/

section

variable {s : State} {r : Req}

theorem exec_camI2c_accepted (h : s.accepts 0x0600 r = true) (hlen : r.payload.length = 8 + leAt r.payload 2 2)
    (hport : leAt r.payload 0 1 < 4) (haddr : leAt r.payload 1 1 < 128) (hwrite : leAt r.payload 2 2 ≤ 256)
    (hread : leAt r.payload 4 2 ≤ 256) (hres : leAt r.payload 6 2 = 0) (hsome : leAt r.payload 2 2 + leAt r.payload 4 2 ≠ 0)
    (hon : s.bitAt camId (leAt r.payload 0 1) = true) :
    exec (.camI2c r) s = .next (s.startRunning 0x0600 r .ok []) := by
  refine congrArg _ (State.commandRow_waits h ?_)
  have hlength : (r.payload.length < 8 || r.payload.length != 8 + leAt r.payload 2 2) = false := by simp [hlen]
  have hfields : (decide (4 ≤ leAt r.payload 0 1) || decide (128 ≤ leAt r.payload 1 1) || decide (256 < leAt r.payload 2 2) ||
      decide (256 < leAt r.payload 4 2) || leAt r.payload 6 2 != 0 || leAt r.payload 2 2 + leAt r.payload 4 2 == 0) = false := by
    simp only [hres, Bool.or_eq_false_iff, decide_eq_false_iff_not, beq_eq_false_iff_ne, bne_self_eq_false, and_true]
    omega
  have hsupplied : (s.taken 0x0600 r).bitAt (pid 1 0 0x150) (leAt r.payload 0 1) = true := hon
  rw [camI2cBody]
  simp only [hlength, hfields, hsupplied, Bool.not_true, Bool.false_eq_true, if_false]

/-- The outputs are set as CAM_SUPPLY asks; `new` are the ones it turns on. -/
def State.suppliesSet (s : State) (w new : Nat) : State :=
  (s.setFld camId 0 4 w).onBoard fun b =>
    { b with softStart := (b.softStart ||| new) &&& w, tripped := b.tripped - (b.tripped &&& new) }

theorem State.released_suppliesSet {op w new : Nat} (h : s.accepts op r = true) :
    ((s.taken op r).suppliesSet w new).released op r = s.suppliesSet w new := by
  rw [State.suppliesSet, State.released_onBoard, State.released_setFld, State.released_accepted h]
  rfl

section

variable {w : Nat} (h : s.accepts 0x0601 r = true) (hlen : r.payload.length = 4) (hword : leAt r.payload 0 4 = w) (hw : w < 16)
  (hports : ∀ p, p < 4 → bitOf (s.fld camId 0 4) p = true → bitOf w p = false → s.bitAt (hpId p 0) 0 = false)

include hlen hword hw hports

theorem camSupplyBody_checked :
    camSupplyBody r (s.taken 0x0601 r) =
      if w - (w &&& s.fld camId 0 4) = 0 then
        reply .ok ((s.taken 0x0601 r).suppliesSet w (w - (w &&& s.fld camId 0 4)))
      else (none, ((s.taken 0x0601 r).suppliesSet w (w - (w &&& s.fld camId 0 4))).startRunning 0x0601 r .ok
        (leBytes 1 (w - (w &&& s.fld camId 0 4)) ++ leBytes 1 0)) := by
  have hstopped : ((upTo 4).any fun p => bitOf (s.fld camId 0 4) p && !bitOf w p && s.bitAt (hpId p 0) 0) = false := by
    simp only [List.any_eq_false, upTo, List.mem_range, Bool.and_eq_true, Bool.not_eq_true', not_and, Bool.not_eq_true]
    exact fun p hp hb => hports p hp hb.1 hb.2
  rw [camSupplyBody, withLength_eq _ hlen]
  simp only [hword, if_neg (Nat.not_le.2 hw), State.taken_fld, State.taken_bitAt, hstopped, Bool.false_eq_true, if_false]
  rfl

include h

theorem exec_camSupply_nothingNew (hnew : w - (w &&& s.fld camId 0 4) = 0) :
    exec (.camSupply r) s = .next ((s.suppliesSet w (w - (w &&& s.fld camId 0 4))).answer 0x0601 r .ok []) := by
  rw [← State.released_suppliesSet h]
  refine congrArg _ (State.commandRow_replies h ?_)
  rw [camSupplyBody_checked hlen hword hw hports, if_pos hnew]
  rfl

theorem exec_camSupply_softStart (hnew : w - (w &&& s.fld camId 0 4) ≠ 0) :
    exec (.camSupply r) s = .next ((s.suppliesSet w (w - (w &&& s.fld camId 0 4))).startRunning 0x0601 r .ok
      (leBytes 1 (w - (w &&& s.fld camId 0 4)) ++ leBytes 1 0)) := by
  rw [← State.released_suppliesSet h]
  refine congrArg _ (State.commandRow_starts h rfl ?_)
  rw [camSupplyBody_checked hlen hword hw hports, if_neg hnew]

end

end

/-! ### Retraining, monitors and the module reset (R329, R375, R433) -/

section

variable {s : State} {r : Req}

theorem exec_retrain_up (h : s.accepts 0x0901 r = true) (hlen : r.payload.length = 1) (hport : leAt r.payload 0 1 < 4)
    (hup : s.spkUp (leAt r.payload 0 1) = true) :
    exec (.retrain r) s = .next ((s.startRetrain (leAt r.payload 0 1)).answer 0x0901 r .ok []) := by
  refine congrArg _ ((State.commandRow_replies h (st := .ok) (p := [])
    (t := (s.taken 0x0901 r).startRetrain (leAt r.payload 0 1)) ?_).trans ?_)
  · have hup' : (s.taken 0x0901 r).spkUp (leAt r.payload 0 1) = true := hup
    rw [retrainBody, withLength_eq _ hlen]
    simp [hup', Nat.not_le.2 hport, reply]
  · rw [State.released_startRetrain, State.released_accepted h]

theorem exec_monClear_accepted (h : s.accepts 0x0701 r = true) (hlen : r.payload.length = 8) :
    exec (.monClear r) s =
      .next (((forEach (upTo 64) (fun s n =>
        if bitOf (leAt r.payload 0 8) n then s.onMon n fun c => { c with live := .empty } else s)
          (s.taken 0x0701 r)).released 0x0701 r).answer 0x0701 r .ok []) := by
  refine congrArg _ (State.commandRow_replies h ?_)
  exact withLength_eq _ hlen

/-- The reply that the reset waits for: one to the own host, or one that has left. -/
def State.resetReplyFor (s : State) (r : Req) : List Byte :=
  if r.src.toNat = s.addr then s.replyBytes 0x0302 r.tag.toNat s.addr .ok [] else []

theorem exec_moduleReset_prepared (h : s.accepts 0x0302 r = true) (hlen : r.payload = []) (hfree : s.host.resetReply = none) :
    exec (.moduleReset r) s =
      .next ((s.onHost fun h => { h with resetReply := some (s.resetReplyFor r), resetAt := s.loc }).answer 0x0302 r .ok []) := by
  refine congrArg _ ((State.commandRow_replies h (st := .ok) (p := [])
    (t := (s.taken 0x0302 r).onHost fun h => { h with resetReply := some (s.resetReplyFor r), resetAt := s.loc }) ?_).trans ?_)
  · have hfree' : (s.taken 0x0302 r).host.resetReply = none := hfree
    rw [moduleResetBody, withLength_eq _ (by rw [hlen]; rfl)]
    simp only [hfree', reply, State.resetReplyFor, decide_eq_true_eq, Option.isSome_none, Bool.false_eq_true, if_false]
    rfl
  · conv_rhs => rw [← State.released_accepted h]
    rfl

theorem exec_moduleReset_again (h : s.accepts 0x0302 r = true) (hlen : r.payload = []) (hheld : s.host.resetReply.isSome = true) :
    exec (.moduleReset r) s = .next (s.answer 0x0302 r .ok []) := by
  refine congrArg _ (State.commandRow_reports h ?_)
  have hheld' : (s.taken 0x0302 r).host.resetReply.isSome = true := hheld
  rw [moduleResetBody, withLength_eq _ (by rw [hlen]; rfl)]
  simp [hheld', reply]

end

/-- Settles O54: each command by its own row, of the work its body does on the accepted packet. -/
theorem claimsQueuesAndSupplies : Obligations.ClaimsQueuesAndSupplies := by
  intro s r
  refine ⟨fun h hlen => ⟨exec_claim_armed h hlen, fun _ _ _ _ _ => exec_claim_granted h hlen⟩,
    fun h hlen => ⟨exec_release_armed h hlen, fun _ => exec_release_granted h hlen⟩, ?_, ?_,
    fun _ _ => exec_syncobjOp_done, exec_camI2c_accepted, ?_, exec_retrain_up, exec_monClear_accepted, fun h hlen => ⟨?_, ?_, ?_⟩⟩
  · rintro q n more h hq h1 hn hproducer hlen hqueue hcount ecc pointers _ rfl
    exact ⟨exec_queueWrite_fits pointers ecc h hq h1 hn hproducer hlen hqueue hcount,
      exec_queueWrite_waits pointers ecc h hq h1 hn hproducer hlen hqueue hcount⟩
  · intro q n h hpayload hq h1 hn hconsumer ecc pointers u k hu hk
    exact exec_queueRead_accepted pointers ecc h hpayload hq h1 hn hconsumer hu hk
  · rintro w h hlen hword hw hports _ _ rfl rfl
    exact ⟨exec_camSupply_nothingNew h hlen hword hw hports, exec_camSupply_softStart h hlen hword hw hports⟩
  · intro hfree hown
    rw [exec_moduleReset_prepared h hlen hfree, State.resetReplyFor, if_pos hown]
  · intro hfree hother
    rw [exec_moduleReset_prepared h hlen hfree, State.resetReplyFor, if_neg hother]
  · exact exec_moduleReset_again h hlen

end Sys2Proof.Machine
end

section
/-!
PROOF. Commands that report (O48).
-/

namespace Sys2Proof.Machine

/-! ### Reading the position leaves device time -/

/-- A value a word does not reset to changes no other word, whatever the list. -/
theorem State.word_setWord_of_ne {id q : Nat} {w : Word} (hw : w ≠ resetWord id) (h : q ≠ id) (s : State) :
    (s.setWord id w).word q = s.word q := by
  rw [State.setWord, State.word, Sparse.set, if_neg hw]
  exact Sparse.get_put_other resetWord _ h s.regs

/-- A status bit whose reset value is 0 is set, and no other word changes. -/
theorem State.word_flag_of_clear {id q n : Nat} (hn : n < 32) (hr : bitOf (resetWord id).toNat n = false) (h : q ≠ id) (s : State) :
    (s.flag id n).word q = s.word q := by
  refine State.word_setWord_of_ne (fun e => ?_) h s
  have hset := congrArg (fun w : Word => bitOf w.toNat n) e
  simp only [hr] at hset
  rw [BitVec.toNat_ofNat, Nat.mod_eq_of_lt (withBits_lt (s.word id).isLt (by omega)), bitOf_eq_bitsOf, bitsOf_withBits] at hset
  exact absurd hset (by decide)

theorem State.word_posNow {q : Nat} (h1 : q ≠ posId 0x11) (h2 : q ≠ posId 0x0F) (s : State) : s.posNow.2.word q = s.word q := by
  rw [State.posNow_state]
  split
  · rw [State.word_flag_of_clear (by decide) (by decide) h2, State.word_bump_of_zero (by decide) h1]
  · rfl

@[simp] theorem State.posNow_loc (s : State) : s.posNow.2.loc = s.loc := by
  rw [State.posNow_state]
  split <;> simp

@[simp] theorem State.posNow_time (s : State) : s.posNow.2.time = s.time := by
  rw [State.posNow_state]
  split <;> simp

/-- Device time is told by the local counter, the time unit and one parameter word. -/
theorem State.dev_of_word {s t : State} (hl : t.loc = s.loc) (hr : t.word (pid 0x0D 0 0) = s.word (pid 0x0D 0 0))
    (ht : t.time = s.time) : t.dev = s.dev := by
  have hlocal : t.localOnly = s.localOnly := by rw [State.localOnly, State.localOnly, State.bitAt, State.bitAt, hr]
  have hslew : t.slewPpm = s.slewPpm := by rw [State.slewPpm, State.slewPpm, State.fld, State.fld, hr]
  have hdomain : t.domain = s.domain := by
    unfold State.domain
    rw [ht]
  rw [State.dev, State.dev, State.devAt, State.devAt, State.domainTimeAt, State.domainTimeAt, hl, ht, hlocal, hslew, hdomain]

@[simp] theorem State.posNow_dev (s : State) : s.posNow.2.dev = s.dev :=
  State.dev_of_word s.posNow_loc (State.word_posNow (by decide) (by decide) s) s.posNow_time

/-! ### The commands -/

section

variable {s : State} {r : Req}

/-- An empty payload. -/
theorem length_of_nil (hp : r.payload = []) : r.payload.length = 0 := congrArg List.length hp

theorem State.taken_tags_accepted {op : Nat} (h : s.accepts op r = true) : (s.taken op r).tags.length = s.tags.length + 1 := by
  rw [State.taken_tags, State.accepts_host h]
  rfl

theorem State.taken_posNow (op : Nat) : (s.taken op r).posNow.1 = s.posNow.1 := by
  have hconvert : (s.taken op r).convert (s.taken op r).dev = s.convert s.dev := rfl
  rw [State.posNow_fst, State.posNow_fst, hconvert, State.taken_pos]

theorem State.released_posNow {op : Nat} (h : s.accepts op r = true) : (s.taken op r).posNow.2.released op r = s.posNow.2 := by
  have hstale : ((s.taken op r).convert (s.taken op r).dev).2 = (s.convert s.dev).2 := rfl
  rw [State.posNow_state, State.posNow_state, hstale]
  split
  · rw [State.flag, State.released_setFld, State.released_bump, State.released_accepted h]
    rfl
  · exact State.released_accepted h

theorem exec_powerStatus_accepted (h : s.accepts 0x0401 r = true) (hlen : r.payload.length = 1) (hd : leAt r.payload 0 1 < 44) :
    exec (.powerStatus r) s = .next (s.answer 0x0401 r .ok (leBytes 4 (s.domainStatus (leAt r.payload 0 1)).toNat)) := by
  refine congrArg _ (State.commandRow_reports h ?_)
  rw [powerStatusBody, withLength_eq _ hlen]
  exact if_pos hd

theorem exec_timeSnapshot_accepted (h : s.accepts 0x0500 r = true) (hp : r.payload = []) :
    exec (.timeSnapshot r) s =
      .next (s.posNow.2.answer 0x0500 r .ok
        (leBytes 4 (nsOf s.dev) ++ leBytes 8 (secOf s.dev) ++ leBytes 8 s.loc ++ leBytes 8 s.posNow.1)) := by
  rw [← State.released_posNow h]
  refine congrArg _ (State.commandRow_replies h ?_)
  rw [withLength_eq _ (length_of_nil hp)]
  simp only [replyWith, State.posNow_dev, State.posNow_loc, State.taken_dev, State.taken_loc, State.taken_posNow]

theorem exec_monRead_accepted {first n : Nat} (h : s.accepts 0x0700 r = true) (hpayload : r.payload = leBytes 2 first ++ leBytes 2 n)
    (h1 : 1 ≤ n) (hn : n ≤ 25) (hlast : first + n ≤ 64) :
    exec (.monRead r) s =
      .next (s.answer 0x0700 r .ok (leBytes 2 n ++ leBytes 2 0 ++ (upTo n).flatMap fun i => s.snapRecord (first + i))) := by
  refine congrArg _ (State.commandRow_reports h ?_)
  obtain ⟨hfirst, hcount⟩ := leAt_pair (show first < 65536 by omega) (show n < 65536 by omega)
  have hfields : (n == 0 || decide (25 < n) || decide (64 < first + n)) = false := by
    simp only [Bool.or_eq_false_iff, decide_eq_false_iff_not, beq_eq_false_iff_ne, ne_eq]
    omega
  rw [monReadBody, withLength_eq _ (by rw [hpayload]; rfl)]
  simp only [hpayload, hfirst, hcount, hfields, Bool.false_eq_true, if_false]
  rfl

theorem exec_logRead_accepted {log first n : Nat} (h : s.accepts 0x0705 r = true) (hlog : log < 3) (hfirst : first < 2 ^ 32) (h1 : 1 ≤ n)
    (hn : n ≤ 25 ∨ (log < 2 ∧ n ≤ 127))
    (hpayload : r.payload = leBytes 1 log ++ leBytes 3 0 ++ leBytes 4 first ++ leBytes 2 n) :
    exec (.logRead r) s =
      .next (s.answer 0x0705 r .ok (leBytes 4 (logSlice (s.logOf log) first n).1 ++
        leBytes 2 (logSlice (s.logOf log) first n).2.length ++ leBytes 2 0 ++ (logSlice (s.logOf log) first n).2.flatten)) := by
  refine congrArg _ (State.commandRow_reports h ?_)
  rw [List.append_assoc, List.append_assoc] at hpayload
  have hat (m k : Nat) : leAt r.payload (1 + m) k = leAt (leBytes 3 0 ++ (leBytes 4 first ++ leBytes 2 n)) m k := by
    rw [hpayload, leAt_append (length_leBytes 1 log)]
  have hat0 : leAt r.payload 0 1 = log := by rw [hpayload, leAt_leBytes (by omega)]
  have hat1 : leAt r.payload 1 3 = 0 := (hat 0 3).trans (leAt_leBytes (by decide) _)
  have hat4 : leAt r.payload 4 4 = first :=
    ((hat 3 4).trans (leAt_append (length_leBytes 3 0) _ 0 4)).trans (leAt_leBytes (by omega) _)
  have hat8 : leAt r.payload 8 2 = n :=
    ((hat 7 2).trans (leAt_append (length_leBytes 3 0) _ 4 2)).trans
      ((leAt_append (length_leBytes 4 first) _ 0 2).trans (leAt_leBytes_whole (by omega)))
  have hmost : ¬ (if log = 2 then 25 else 127) < n := by split <;> omega
  have hfields : (decide (3 ≤ log) || 0 != 0 || n == 0 || decide ((if log = 2 then 25 else 127) < n)) = false := by
    simp only [Bool.or_eq_false_iff, decide_eq_false_iff_not, beq_eq_false_iff_ne, bne_self_eq_false, hmost, not_false_iff, and_true]
    omega
  have hslice : logSlice ((s.taken 0x0705 r).logOf (leAt r.payload 0 1)) (leAt r.payload 4 4) (leAt r.payload 8 2) =
      logSlice (s.logOf log) first n := by rw [hat0, hat4, hat8, State.taken_logOf]
  rw [logReadBody, withLength_eq _ (by rw [hpayload]; rfl)]
  refine (if_neg ?_).trans ?_
  · rw [hat0, hat1, hat8]
    exact Bool.eq_false_iff.1 hfields
  · rw [hslice]
    obtain ⟨start, entries⟩ := logSlice (s.logOf log) first n
    rfl

theorem exec_imageInfo_accepted {w d : Nat} (h : s.accepts 0x0203 r = true) (hlen : r.payload.length = 4)
    (hwhich : selectorOf r.payload = some w) (hd : s.imageDigest w = some d) :
    exec (.imageInfo r) s = .next (s.answer 0x0203 r .ok ((Config.imageSummary d).take 4076)) := by
  refine congrArg _ (State.commandRow_reports h ?_)
  rw [imageInfoBody, withLength_eq _ hlen, hwhich]
  simp only [State.taken_imageDigest, hd]
  rfl

theorem exec_lifecycleGet_accepted (h : s.accepts 0x0802 r = true) (hp : r.payload = []) :
    exec (.lifecycleGet r) s = .next (s.newNonce.answer 0x0802 r .ok
      (leBytes 1 s.mgmt.sec.lc ++ leBytes 1 (bit s.ownerPresent + 2 * bit s.mgmt.sec.erasePending) ++ leBytes 2 0 ++
        s.newNonce.nonce)) := by
  refine congrArg _ ((State.commandRow_replies h (withLength_eq _ (length_of_nil hp))).trans ?_)
  rw [State.released_newNonce, State.released_accepted h]
  rfl

/-- A read of units of one target, in its domain if that is not off. -/
theorem exec_testRead_accepted {i n : Nat} {tt : TestTarget} (h : s.accepts 0x0A01 r = true) (hlen : r.payload.length = 10)
    (hplace : leAt r.payload 0 1 < 2 → leAt r.payload 1 1 < 8 ∧ leAt r.payload 2 1 < 16)
    (hslot : leAt r.payload 0 1 = 4 → leAt r.payload 1 1 < 8) (hres : leAt r.payload 3 1 = 0) (hi : leAt r.payload 4 4 = i)
    (hn : leAt r.payload 8 2 = n)
    (htt : testTarget (leAt r.payload 0 1) (leAt r.payload 1 1 % 8) (leAt r.payload 2 1 % 16) = some tt) (h1 : 1 ≤ n)
    (hmost : n ≤ tt.most) (hlast : i + n ≤ tt.units) (hoff : s.domOff tt.dom = false) {u : State}
    (hu : u = (s.taken 0x0A01 r).accessWake tt.dom) :
    exec (.testRead r) s =
      .next (({ u with free := u.free + 1 }.released 0x0A01 r).answer 0x0A01 r .ok
        ((upTo n).flatMap fun j => tt.read u (i + j))) := by
  subst hu
  refine congrArg _ (State.commandRow_replies h ?_)
  have htarget : leAt r.payload 0 1 < 5 := by
    by_contra hbig
    obtain ⟨m, hm⟩ : ∃ m, leAt r.payload 0 1 = m + 5 := ⟨leAt r.payload 0 1 - 5, by omega⟩
    rw [hm] at htt
    cases htt
  have hplaced : (!(leAt r.payload 0 1 == 2 || leAt r.payload 0 1 == 3) && (decide (8 ≤ leAt r.payload 1 1) ||
      (decide (leAt r.payload 0 1 < 2) && decide (16 ≤ leAt r.payload 2 1)))) = false := by
    rw [Bool.eq_false_iff]
    intro hbad
    simp only [Bool.and_eq_true, Bool.not_eq_true', Bool.or_eq_false_iff, Bool.or_eq_true, beq_eq_false_iff_ne, ne_eq,
      decide_eq_true_eq] at hbad
    omega
  have hfields : (n == 0 || decide (tt.most < n) || decide (tt.units < i + n)) = false := by
    simp only [Bool.or_eq_false_iff, decide_eq_false_iff_not, beq_eq_false_iff_ne, ne_eq]
    omega
  simp only [Bool.or_eq_false_iff] at hfields
  obtain ⟨⟨hzero, htoo⟩, hpast⟩ := hfields
  rw [testReadBody, withLength_eq _ hlen]
  simp only [hres, hi, hn, htt, hplaced, hzero, htoo, hpast, State.taken_domOff, hoff, bne_self_eq_false, Bool.or_self,
    Bool.false_eq_true, if_false]
  rfl

end

/-- Settles O48: each command reports on the accepted packet's state, which reads as the state before it. -/
theorem informationCommands : Obligations.InformationCommands := by
  intro s r
  refine ⟨fun h hp => ?_, fun h hp => ?_, fun h => congrArg _ (State.commandRow_reports h rfl), fun h hp => ?_,
    exec_powerStatus_accepted, exec_timeSnapshot_accepted, fun _ _ => exec_monRead_accepted, fun _ _ _ => exec_logRead_accepted,
    fun _ _ => exec_imageInfo_accepted, fun h hp => ?_, exec_lifecycleGet_accepted, fun h hp => ?_,
    fun _ _ _ h hlen hplace hslot hres hi hn htt h1 hmost hlast hoff _ hu =>
      exec_testRead_accepted h hlen hplace hslot hres hi hn htt h1 hmost hlast hoff hu⟩
  · exact congrArg _ (State.commandRow_reports h (withLength_eq _ (length_of_nil hp)))
  · exact congrArg _ (State.commandRow_reports h (withLength_eq _ (length_of_nil hp)))
  · rw [← State.taken_tags_accepted h]
    exact congrArg _ (State.commandRow_reports h (withLength_eq _ (length_of_nil hp)))
  · exact congrArg _ (State.commandRow_reports h (withLength_eq _ (length_of_nil hp)))
  · exact congrArg _ (State.commandRow_reports h (withLength_eq _ (length_of_nil hp)))

end Sys2Proof.Machine
end

section
/-!
PROOF. Commands and single words that read and write parameters (O49).
-/

namespace Sys2Proof

/-! ### Records of a payload -/

/-- A field of the first record. -/
theorem leAt_front {front : List Byte} {off n : Nat} (h : off + n ≤ front.length) (rest : List Byte) :
    leAt (front ++ rest) off n = leAt front off n := by
  rw [leAt, leAt, List.drop_append_of_le_length (by omega), List.take_append_of_le_length (by rw [List.length_drop]; omega)]

/-- A field of one of equally long records. -/
theorem leAt_flatMap {α : Type} {enc : α → List Byte} {m : Nat} (hm : ∀ x, (enc x).length = m) {off n : Nat} (h : off + n ≤ m) :
    ∀ (xs : List α) (i : Nat) (hi : i < xs.length), leAt (xs.flatMap enc) (m * i + off) n = leAt (enc xs[i]) off n
  | x :: xs, 0, _ => by
    rw [List.flatMap_cons, Nat.mul_zero, Nat.zero_add, leAt_front (by rw [hm]; exact h)]
    rfl
  | x :: xs, i + 1, hi => by
    rw [List.flatMap_cons, show m * (i + 1) + off = m + (m * i + off) by rw [Nat.mul_succ]; omega, leAt_append (hm x)]
    exact leAt_flatMap hm h xs i (Nat.lt_of_succ_lt_succ hi)

theorem length_flatMap_of_length {α : Type} {enc : α → List Byte} {m : Nat} (hm : ∀ x, (enc x).length = m) (xs : List α) :
    (xs.flatMap enc).length = m * xs.length := by
  simp [List.length_flatMap, hm, Nat.mul_comm]

/-- A list read field by field. -/
theorem map_upTo_eq {α : Type} {f : Nat → α} {xs : List α} (h : ∀ (i : Nat) (hi : i < xs.length), f i = xs[i]) :
    (upTo xs.length).map f = xs := by
  refine List.ext_getElem (by simp [upTo]) fun i hi hj => ?_
  simpa [upTo] using h i hj

end Sys2Proof

namespace Sys2Proof.Machine

/-! ### Lists of words (R364, R365) -/

section

variable (s : State) (op : Nat) (r : Req)

theorem State.taken_readRefuses : (s.taken op r).readRefuses = s.readRefuses := rfl

theorem State.taken_writeRefuses : (s.taken op r).writeRefuses = s.writeRefuses := rfl

end

section

variable {s : State} {op : Nat} {r : Req} (h : s.accepts op r = true) {body : Body}

include h

theorem State.commandRow_readList_ok {ids : List Nat} (hb : body r (s.taken op r) = (s.taken op r).readList ids)
    (hids : firstRefused s.readRefuses 0 ids = none) :
    s.commandRow op r body = (((s.taken op r).readWords ids).2.released op r).answer op r .ok ((s.taken op r).readWords ids).1 := by
  refine State.commandRow_replies h (hb.trans ?_)
  rw [State.readList, State.taken_readRefuses, hids]
  rfl

theorem State.commandRow_readList_refused {ids : List Nat} {e : Status} {n : Nat}
    (hb : body r (s.taken op r) = (s.taken op r).readList ids) (hids : firstRefused s.readRefuses 0 ids = some (e, n)) :
    s.commandRow op r body = s.answer op r e (leBytes 2 n) := by
  refine State.commandRow_reports h (hb.trans ?_)
  rw [State.readList, State.taken_readRefuses, hids]
  rfl

variable {ws : List (Nat × Word)} (hb : body r (s.taken op r) = (s.taken op r).writeList ws)

include hb

theorem State.commandRow_writeList_refused {e : Status} {n : Nat}
    (hws : firstRefused (fun w => s.writeRefuses w.1 w.2) 0 ws = some (e, n)) :
    s.commandRow op r body = s.answer op r e (leBytes 2 n) := by
  refine State.commandRow_reports h (hb.trans ?_)
  rw [State.writeList, State.taken_writeRefuses, hws]
  rfl

variable (hws : firstRefused (fun w => s.writeRefuses w.1 w.2) 0 ws = none)

include hws

theorem State.commandRow_writeList_ok {t : State}
    (ht : (forEach ws (fun t w => t.setWord w.1 w.2) (s.taken op r)).writeWords (s.taken op r) 0 ws = .ok t) :
    s.commandRow op r body = (t.released op r).answer op r .ok [] := by
  refine State.commandRow_replies h (hb.trans ?_)
  rw [State.writeList, State.taken_writeRefuses, hws]
  simp only [ht, reply]

theorem State.commandRow_writeList_owner {e : Status} {n : Nat}
    (ht : (forEach ws (fun t w => t.setWord w.1 w.2) (s.taken op r)).writeWords (s.taken op r) 0 ws = .error (e, n)) :
    s.commandRow op r body = s.answer op r e (leBytes 2 n) := by
  refine State.commandRow_reports h (hb.trans ?_)
  rw [State.writeList, State.taken_writeRefuses, hws]
  simp only [ht, replyWith]

end

/-! ### The payloads -/

section

variable {r : Req}

/-- The body of a list command whose payload holds a list of equal records. -/
theorem listChecks_records {α : Type} {enc : α → List Byte} {size limit : Nat} (hsize : ∀ x, (enc x).length = size) {xs : List α}
    (hlimit : xs.length ≤ limit) (hlarge : limit < 65536) (hsome : xs ≠ [])
    (hpayload : r.payload = leBytes 2 xs.length ++ leBytes 2 0 ++ xs.flatMap enc) (go : Nat → Body) (s : State) :
    listChecks size limit go r s = go xs.length r s := by
  have hlen : r.payload.length = 4 + size * xs.length := by
    rw [hpayload, List.length_append, length_flatMap_of_length hsize]
    rfl
  have hcount : leAt r.payload 0 2 = xs.length := by
    rw [hpayload, List.append_assoc, leAt_leBytes (by omega)]
  have hzero : leAt r.payload 2 2 = 0 := by
    rw [hpayload, List.append_assoc]
    exact (leAt_append (length_leBytes 2 _) _ 0 2).trans (leAt_leBytes (by decide) _)
  have hpos : 0 < xs.length := List.length_pos_iff.2 hsome
  have hlength : (decide (r.payload.length < 4) || r.payload.length != 4 + size * xs.length) = false := by simp [hlen]
  have hheader : (xs.length == 0 || decide (limit < xs.length) || false) = false := by
    simp only [Bool.or_eq_false_iff, decide_eq_false_iff_not, beq_eq_false_iff_ne, ne_eq, and_true]
    omega
  simp only [listChecks, hcount, hzero, hlength, hheader, bne_self_eq_false, Bool.false_eq_true, if_false]

variable {α : Type} {enc : α → List Byte} {size : Nat} (hsize : ∀ x, (enc x).length = size) {xs : List α}
  (hpayload : r.payload = leBytes 2 xs.length ++ leBytes 2 0 ++ xs.flatMap enc)

include hsize hpayload

/-- A field of a record of a list command. -/
theorem leAt_record {i off n : Nat} (hi : i < xs.length) (hoff : off + n ≤ size) :
    leAt r.payload (4 + (size * i + off)) n = leAt (enc xs[i]) off n := by
  rw [hpayload, leAt_append (show (leBytes 2 xs.length ++ leBytes 2 0).length = 4 from rfl), leAt_flatMap hsize hoff]

end

theorem paramReadList_ids {r : Req} {ids : List Nat} (hids : ∀ i ∈ ids, i < 2 ^ 32)
    (hpayload : r.payload = leBytes 2 ids.length ++ leBytes 2 0 ++ ids.flatMap (leBytes 4)) :
    ((upTo ids.length).map fun i => leAt r.payload (4 + 4 * i) 4) = ids := by
  refine map_upTo_eq fun i hi => ?_
  have hfield := leAt_record (length_leBytes 4) hpayload (n := 4) (off := 0) hi (by decide)
  rw [Nat.add_zero] at hfield
  rw [hfield, leAt_leBytes_whole (hids _ (List.getElem_mem hi))]

/-- The record of one word of PARAM_WRITE_LIST. -/
def writeRecord (w : Nat × Word) : List Byte := leBytes 4 w.1 ++ leBytes 4 w.2.toNat

theorem paramWriteList_words {r : Req} {ws : List (Nat × Word)} (hws : ∀ w ∈ ws, w.1 < 2 ^ 32)
    (hpayload : r.payload = leBytes 2 ws.length ++ leBytes 2 0 ++ ws.flatMap writeRecord) :
    ((upTo ws.length).map fun i =>
      (leAt r.payload (4 + 8 * i) 4, BitVec.ofNat 32 (leAt r.payload (8 + 8 * i) 4))) = ws := by
  refine map_upTo_eq fun i hi => ?_
  have hlength : ∀ w, (writeRecord w).length = 8 := fun _ => rfl
  have hid := leAt_record hlength hpayload (n := 4) (off := 0) hi (by decide)
  have hvalue := leAt_record hlength hpayload (n := 4) (off := 4) hi (by decide)
  rw [Nat.add_zero, writeRecord, leAt_leBytes (hws _ (List.getElem_mem hi))] at hid
  have hlast : leAt (writeRecord ws[i]) 4 4 = ws[i].2.toNat :=
    (leAt_append (length_leBytes 4 _) _ 0 4).trans (leAt_leBytes_whole ws[i].2.isLt)
  rw [hid, show 8 + 8 * i = 4 + (8 * i + 4) by omega, hvalue, hlast, BitVec.ofNat_toNat, BitVec.setWidth_eq]

/-! ### The commands -/

section

variable {s : State} {r : Req}

theorem paramReadBody_checked (hlen : r.payload.length = 8) (hrange : rangeBad r.payload 1019 = false) (s : State) :
    withLength 8 (fun r s =>
      let p := r.payload
      if rangeBad p 1019 then reply .badParam s else s.readList (idRange (leAt p 0 4) (leAt p 4 2))) r s =
      s.readList (idRange (leAt r.payload 0 4) (leAt r.payload 4 2)) := by
  rw [withLength_eq _ hlen]
  simp only [hrange, Bool.false_eq_true, if_false]

theorem paramReadListBody_checked {ids : List Nat} (hlimit : ids.length ≤ 1018) (hsome : ids ≠ []) (hids : ∀ i ∈ ids, i < 2 ^ 32)
    (hpayload : r.payload = leBytes 2 ids.length ++ leBytes 2 0 ++ ids.flatMap (leBytes 4)) (s : State) :
    listChecks 4 1018 (fun n r s => s.readList ((upTo n).map fun i => leAt r.payload (4 + 4 * i) 4)) r s = s.readList ids := by
  rw [listChecks_records (length_leBytes 4) hlimit (by decide) hsome hpayload, paramReadList_ids hids hpayload]

theorem paramWriteBody_checked (hlen : r.payload.length = 8 + 4 * leAt r.payload 4 2) (hrange : rangeBad r.payload 1017 = false)
    {ws : List (Nat × Word)}
    (hws : ws = ((upTo (leAt r.payload 4 2)).map fun i =>
      (leAt r.payload 0 4 + i, BitVec.ofNat 32 (leAt r.payload (8 + 4 * i) 4)))) (s : State) :
    paramWriteBody r s = s.writeList ws := by
  have hlength : (r.payload.length < 8 || r.payload.length != 8 + 4 * leAt r.payload 4 2) = false := by simp [hlen]
  simp only [paramWriteBody, hlength, hrange, Bool.false_eq_true, if_false, hws]

theorem paramWriteListBody_checked {ws : List (Nat × Word)} (hlimit : ws.length ≤ 509) (hsome : ws ≠ []) (hws : ∀ w ∈ ws, w.1 < 2 ^ 32)
    (hpayload : r.payload = leBytes 2 ws.length ++ leBytes 2 0 ++ ws.flatMap writeRecord) (s : State) :
    listChecks 8 509 (fun n r s => s.writeList ((upTo n).map fun i =>
      (leAt r.payload (4 + 8 * i) 4, BitVec.ofNat 32 (leAt r.payload (8 + 8 * i) 4)))) r s = s.writeList ws := by
  rw [listChecks_records (enc := writeRecord) (fun _ => rfl) hlimit (by decide) hsome hpayload, paramWriteList_words hws hpayload]

end

/-! ### Single words -/

theorem exec_fmtDescriptorWrite {p d w : Nat} (hp : p < 4) (hd : d < 8) (hw : w < 8) (v : Word) (s : State) :
    exec (.fmtDescriptorWrite p d w v) s = .next (s.wordWrite (hpId p (0x10 + 8 * d + w)) v) := by
  have hwhere : (decide (p < 4) && decide (d < 8) && decide (w < 8)) = true := by simp [hp, hd, hw]
  exact congrArg Host.Outcome.next (if_pos hwhere)

theorem exec_monitorCfgWrite {n : Nat} (hn : n < 65) (w : Nat) (v : Word) (s : State) :
    exec (.monitorCfgWrite n w v) s = .next (s.wordWrite (pid 0x15 n w) v) :=
  congrArg Host.Outcome.next (if_pos (decide_eq_true hn))

theorem exec_paramWordWrite {id : Nat} (hid : id < 2 ^ 32) (v : Word) (s : State) :
    exec (.paramWordWrite (BitVec.ofNat 32 id) v) s = .next (s.wordWrite id v) := by
  refine congrArg Host.Outcome.next (congrArg (s.wordWrite · v) ?_)
  rw [BitVec.toNat_ofNat, Nat.mod_eq_of_lt hid]

/-- The rows that write a word: each is the access of that word. -/
theorem exec_wordRows {s : State} {id : Nat} {v : Word} {t : State} (ht : s.wordWrite id v = t) :
    (id < 2 ^ 32 → exec (.paramWordWrite (BitVec.ofNat 32 id) v) s = .next t) ∧
    (∀ p d w, p < 4 → d < 8 → w < 8 → id = hpId p (0x10 + 8 * d + w) → exec (.fmtDescriptorWrite p d w v) s = .next t) ∧
    (∀ n w, n < 65 → id = pid 0x15 n w → exec (.monitorCfgWrite n w v) s = .next t) ∧
    (id = pid 1 0 0x132 → exec (.regionRetestWrite v) s = .next t) := by
  subst ht
  refine ⟨fun hid => exec_paramWordWrite hid v s, ?_, ?_, ?_⟩
  · rintro p d w hp hd hw rfl
    exact exec_fmtDescriptorWrite hp hd hw v s
  · rintro n w hn rfl
    exact exec_monitorCfgWrite hn w v s
  · rintro rfl
    rfl

/-! ### Monitor channels and the retest of a region (R98, R420, R433) -/

/-- A channel that has changed is not at its reset, so the update stands whatever the list. -/
theorem State.mon_onMon_changed (s : State) (n : Nat) {f : MonChan → MonChan} (h : (f (s.mon n)).changed = true) :
    (s.onMon n f).mon n = f (s.mon n) :=
  Sparse.get_set_new _ _ fun e => Bool.false_ne_true ((congrArg MonChan.changed e).symm.trans h)

section

variable {n w : Nat} (hn : n < 64) (hw : w < 2)

include hn hw

theorem monitorId_block : pid 0x15 n w / 0x1000000 = 0x15 ∧ pid 0x15 n w / 0x10000 % 256 = n ∧ pid 0x15 n w % 0x10000 = w := by
  unfold pid
  omega

theorem lookup_monitorId : ∃ fs, lookup (pid 0x15 n w) = .word fs := by
  obtain ⟨hblock, hunit, hindex⟩ := monitorId_block hn hw
  have hword : ∃ fs, monitorWord w = some fs := by
    obtain rfl | rfl : w = 0 ∨ w = 1 := by omega
    · exact ⟨_, rfl⟩
    · exact ⟨_, rfl⟩
  obtain ⟨fs, hfs⟩ := hword
  refine ⟨fs, ?_⟩
  simp only [lookup, hblock, hunit, hindex, if_pos hn, hfs, Lookup.pick]

theorem State.written_monitor (s : State) (old v : Word) :
    s.written (pid 0x15 n w) old v = s.onMon n fun c => { c with live := .empty, changed := true } := by
  obtain ⟨hblock, hunit, hindex⟩ := monitorId_block hn hw
  have hhere : (decide (n < 64) && decide (w < 2)) = true := by simp [hn, hw]
  simp only [State.written, hblock, hunit, hindex, monitorWritten, hhere, if_true]

/-- A write of a channel's CFG or LO clears its live buffer and notes the change. -/
theorem State.mon_putWord (s : State) (v : Word) :
    ((s.putWord (pid 0x15 n w) v).mon n).live = .empty ∧ ((s.putWord (pid 0x15 n w) v).mon n).changed = true := by
  obtain ⟨hblock, hunit, -⟩ := monitorId_block hn hw
  obtain ⟨fs, hfs⟩ := lookup_monitorId hn hw
  have hd : idDomain (pid 0x15 n w) = none := by
    rw [idDomain, hblock]
    rfl
  rw [State.putWord_alwaysOn hfs hd, State.written_monitor hn hw, State.mon_onMon_changed _ n rfl]
  exact ⟨rfl, rfl⟩

end

/-- START of REGION_RETEST. -/
theorem State.putWord_regionRetest {v : Word} (hv : bitOf v.toNat 3 = true) (s : State) :
    ∃ t : State, s.putWord (pid 1 0 0x132) v = t.startRetest (bitsOf v.toNat 0 3) := by
  obtain ⟨fs, hfs⟩ : ∃ fs, lookup (pid 1 0 0x132) = .word fs := ⟨_, rfl⟩
  rw [State.putWord_alwaysOn hfs rfl]
  refine ⟨_, if_pos ?_⟩
  rw [hv]
  rfl

/-- Settles O49: lists of words by their shared checks, single words by the access of the word. -/
theorem parameterCommands : Obligations.ParameterCommands := by
  intro s r
  refine ⟨fun h hlen hrange => ?_, fun ids h hlimit hsome hids hpayload => ?_, fun ws h hlen hrange hws => ?_,
    fun ws h hlimit hsome hws hpayload => ?_, ?_, fun hs id v e he => exec_wordRows (State.wordWrite_status hs he),
    fun n w v hn hw => ?_, fun v hv => ?_⟩
  · have hb := paramReadBody_checked hlen hrange (s.taken 0x0100 r)
    exact ⟨fun hids => congrArg _ (State.commandRow_readList_ok h hb hids),
      fun e n hids => congrArg _ (State.commandRow_readList_refused h hb hids)⟩
  · have hb := paramReadListBody_checked hlimit hsome hids hpayload (s.taken 0x0102 r)
    exact ⟨fun hok => congrArg _ (State.commandRow_readList_ok h hb hok),
      fun e n hbad => congrArg _ (State.commandRow_readList_refused h hb hbad)⟩
  · have hb := paramWriteBody_checked hlen hrange hws (s.taken 0x0101 r)
    refine ⟨?_, fun e n hbad => congrArg _ (State.commandRow_writeList_refused h hb hbad)⟩
    rintro _ rfl hok
    exact ⟨fun t ht => congrArg _ (State.commandRow_writeList_ok h hb hok ht),
      fun e n ht => congrArg _ (State.commandRow_writeList_owner h hb hok ht)⟩
  · have hb := paramWriteListBody_checked hlimit hsome hws hpayload (s.taken 0x0103 r)
    refine ⟨?_, fun e n hbad => congrArg _ (State.commandRow_writeList_refused h hb hbad)⟩
    rintro _ rfl hok
    exact ⟨fun t ht => congrArg _ (State.commandRow_writeList_ok h hb hok ht),
      fun e n ht => congrArg _ (State.commandRow_writeList_owner h hb hok ht)⟩
  · rintro hs id v hok _ rfl
    exact exec_wordRows (State.wordWrite_ok hs hok)
  · exact State.mon_putWord hn hw s v
  · obtain ⟨t, ht⟩ := State.putWord_regionRetest hv s
    rw [ht]
    exact ⟨rfl, State.region_startRetest t _⟩

end Sys2Proof.Machine
end

section
/-!
PROOF. The dump area: its commands and its blocks (O52).
-/

namespace Sys2Proof.Machine

/-! ### Bytes written in a row -/

/-- Bytes written change memory alone. -/
theorem State.writeBytes_eq (bs : List Byte) : ∀ (s : State) (a : Nat), s.writeBytes a bs = { s with mem := (s.writeBytes a bs).mem } := by
  induction bs with
  | nil => exact fun _ _ => rfl
  | cons b bs ih =>
    intro s a
    rw [State.writeBytes_cons, ih]
    rfl

@[simp] theorem State.writeBytes_regs (s : State) (a : Nat) (bs : List Byte) : (s.writeBytes a bs).regs = s.regs := by
  rw [State.writeBytes_eq]

@[simp] theorem State.writeBytes_host (s : State) (a : Nat) (bs : List Byte) : (s.writeBytes a bs).host = s.host := by
  rw [State.writeBytes_eq]

theorem State.released_writeBytes (op : Nat) (r : Req) (bs : List Byte) :
    ∀ (s : State) (a : Nat), (s.writeBytes a bs).released op r = (s.released op r).writeBytes a bs := by
  induction bs with
  | nil => exact fun _ _ => rfl
  | cons b bs ih =>
    intro s a
    rw [State.writeBytes_cons, ih, State.released_writeByte, State.writeBytes_cons]

/-- Bytes outside the range written read as before. -/
theorem State.readByte_writeBytes_other {s : State} (h : Memory.wf s.mem = true) {a q : Nat} {bs : List Byte}
    (hq : q < a ∨ a + bs.length ≤ q) : (s.writeBytes a bs).readByte q = s.readByte q := by
  rw [State.readByte_writeBytes bs a q h, if_neg (by omega)]

theorem State.readBytes_congr {s t : State} {a n : Nat} (h : ∀ i, i < n → t.readByte (a + i) = s.readByte (a + i)) :
    t.readBytes a n = s.readBytes a n :=
  List.map_congr_left fun i hi => h i (List.mem_range.1 hi)

/-! ### The header of a dump (R431) -/

theorem State.released_editHeader (op : Nat) (r : Req) (s : State) (off : Nat) (bs : List Byte) :
    (s.editHeader off bs).released op r = (s.released op r).editHeader off bs := by
  have hread : ∀ t : State, (t.released op r).readBytes dumpBase 60 = t.readBytes dumpBase 60 := fun _ => rfl
  simp only [State.editHeader, State.released_writeBytes]
  rw [← State.released_writeBytes, hread]

@[simp] theorem State.editHeader_regs (s : State) (off : Nat) (bs : List Byte) : (s.editHeader off bs).regs = s.regs := by
  simp [State.editHeader]

@[simp] theorem State.editHeader_host (s : State) (off : Nat) (bs : List Byte) : (s.editHeader off bs).host = s.host := by
  simp [State.editHeader]

section

variable {s : State} (h : Memory.wf s.mem = true) {off : Nat} {bs : List Byte}

include h

/-- A byte that is neither among those written nor of HCRC stands. -/
theorem State.readByte_editHeader_other {a : Nat} (hfields : a < dumpBase + off ∨ dumpBase + off + bs.length ≤ a)
    (hcrc : a < dumpBase + 60 ∨ dumpBase + 64 ≤ a) : (s.editHeader off bs).readByte a = s.readByte a := by
  rw [State.editHeader, State.readByte_writeBytes_other (Memory.wf_writeBytes bs _ h) (by rw [length_leBytes]; omega),
    State.readByte_writeBytes_other h hfields]

/-- The fields before HCRC read as written. -/
theorem State.readBytes_editHeader (hoff : off + bs.length ≤ 60) :
    (s.editHeader off bs).readBytes (dumpBase + off) bs.length = bs := by
  refine (State.readBytes_congr fun i hi => ?_).trans (State.readBytes_writeBytes h _ bs)
  exact State.readByte_writeBytes_other (Memory.wf_writeBytes bs _ h) (Or.inl (by omega))

end

/-- What DUMP_CLEAR leaves. -/
def State.dumpCleared (s : State) : State :=
  (s.writeByte (dumpBase + 7) (BitVec.ofNat 8 ((s.readByte (dumpBase + 7)).toNat / 2 * 2))).editHeader 52 (leBytes 4 0)

theorem State.released_dumpCleared (op : Nat) (r : Req) (s : State) : s.dumpCleared.released op r = (s.released op r).dumpCleared := by
  rw [State.dumpCleared, State.released_editHeader, State.released_writeByte]
  rfl

section

variable {s : State} (h : Memory.wf s.mem = true)

include h

theorem State.dumpCleared_dumpHeld : s.dumpCleared.dumpHeld = false := by
  rw [State.dumpHeld, State.dumpCleared, State.readByte_editHeader_other (Memory.wf_writeByte h _ _)
    (by rw [length_leBytes]; omega) (by omega), State.readByte_writeByte h, if_pos rfl, BitVec.toNat_ofNat, bitOf, beq_eq_false_iff_ne]
  omega

theorem State.dumpCleared_laterFatals : s.dumpCleared.readBytes (dumpBase + 52) 4 = [0, 0, 0, 0] :=
  State.readBytes_editHeader (Memory.wf_writeByte h _ _) (bs := leBytes 4 0) (by rw [length_leBytes]; omega)

theorem State.readByte_dumpCleared {a : Nat} (ha : inRange dumpBase 256 a = false) : s.dumpCleared.readByte a = s.readByte a := by
  have hout : a < dumpBase ∨ dumpBase + 256 ≤ a := by
    simp only [inRange, Bool.and_eq_false_iff, decide_eq_false_iff_not] at ha
    omega
  rw [State.dumpCleared, State.readByte_editHeader_other (Memory.wf_writeByte h _ _) (by rw [length_leBytes]; omega) (by omega),
    State.readByte_writeByte h, if_neg (by omega)]

end

/-! ### The commands (R371, R431) -/

section

variable {s : State} {r : Req}

section

variable {off n : Nat} (h : s.accepts 0x0703 r = true) (hlen : r.payload.length = 12) (hoff : leAt r.payload 0 8 = off)
  (hn : leAt r.payload 8 4 = n)

/-- An open bulk-out session stands in the way of DUMP_READ. -/
def State.dumpReadHeld (s : State) (r : Req) : Bool :=
  s.dumping || (s.host.bulkOut.any fun b => r.src.toNat == s.addr || b.dest == s.addr)

include h hlen hoff hn

theorem exec_dumpRead_bad (hbad : n = 0 ∨ 256 * 1048576 < off + n) :
    exec (.dumpRead r) s = .next (s.answer 0x0703 r .badParam []) := by
  refine congrArg _ (State.commandRow_reports h ?_)
  have hfields : (n == 0 || decide (256 * 1048576 < off + n)) = true := by simpa using hbad
  rw [dumpReadBody, withLength_eq _ hlen]
  simp only [hoff, hn, hfields, if_true]
  rfl

variable (h1 : n ≠ 0) (hlast : off + n ≤ 256 * 1048576)

include h1 hlast

omit h in
theorem dumpReadBody_checked :
    dumpReadBody r (s.taken 0x0703 r) =
      if s.dumpReadHeld r then reply .resourceHeld (s.taken 0x0703 r)
      else if r.src.toNat = s.addr then
        reply .ok ((s.taken 0x0703 r).onHost fun h => { h with bulkOut := some ⟨r.tag.toNat, s.addr, off, n, 0, []⟩ })
      else
        reply .ok (((s.taken 0x0703 r).sendDump r.src.toNat r.tag.toNat 0 (s.readBytes (dumpBase + off) n)).onHost fun h =>
          { h with remoteOut := some r.src.toNat }) := by
  have hfields : (n == 0 || decide (256 * 1048576 < off + n)) = false := by
    simp only [Bool.or_eq_false_iff, decide_eq_false_iff_not, beq_eq_false_iff_ne, ne_eq]
    omega
  rw [dumpReadBody, withLength_eq _ hlen]
  simp only [hoff, hn, hfields, Bool.false_eq_true, if_false]
  rfl

theorem exec_dumpRead_held (hheld : s.dumpReadHeld r = true) :
    exec (.dumpRead r) s = .next (s.answer 0x0703 r .resourceHeld []) := by
  refine congrArg _ (State.commandRow_reports h ?_)
  rw [dumpReadBody_checked hlen hoff hn h1 hlast, if_pos hheld]
  rfl

theorem exec_dumpRead_own (hheld : s.dumpReadHeld r = false) (hown : r.src.toNat = s.addr) :
    exec (.dumpRead r) s =
      .next ((s.onHost fun h => { h with bulkOut := some ⟨r.tag.toNat, s.addr, off, n, 0, []⟩ }).answer 0x0703 r .ok []) := by
  refine congrArg _ ((State.commandRow_replies h (st := .ok) (p := []) ?_).trans
    (congrArg (State.answer · 0x0703 r .ok []) (?_ :
      ((s.taken 0x0703 r).onHost fun h => { h with bulkOut := some ⟨r.tag.toNat, s.addr, off, n, 0, []⟩ }).released 0x0703 r = _)))
  · rw [dumpReadBody_checked hlen hoff hn h1 hlast, if_neg (Bool.eq_false_iff.1 hheld), if_pos hown]
    rfl
  · conv_rhs => rw [← State.released_accepted h]
    rfl

theorem exec_dumpRead_other (hheld : s.dumpReadHeld r = false) (hother : r.src.toNat ≠ s.addr) :
    exec (.dumpRead r) s =
      .next (((((s.taken 0x0703 r).sendDump r.src.toNat r.tag.toNat 0 (s.readBytes (dumpBase + off) n)).onHost fun h =>
        { h with remoteOut := some r.src.toNat }).released 0x0703 r).answer 0x0703 r .ok []) := by
  refine congrArg _ (State.commandRow_replies h ?_)
  rw [dumpReadBody_checked hlen hoff hn h1 hlast, if_neg (Bool.eq_false_iff.1 hheld), if_neg hother]
  rfl

end

/-- An own bulk-out session never waits. -/
theorem State.bulkWaits_own {b : BulkOut} (hb : s.host.bulkOut = some b) (hdest : b.dest = s.addr) (n : Nat) : s.bulkWaits n = false := by
  simp [State.bulkWaits, hb, hdest]

/-- A block of an own session is the next part of the dump area. -/
theorem State.bulkRead_own {b : BulkOut} (hb : s.host.bulkOut = some b) (hdest : b.dest = s.addr) :
    s.bulkRead.host.sdio.readData = padTo 512 (s.readBytes (dumpBase + b.offset + b.pos) (min 512 (b.length - b.pos))) ∧
      s.bulkRead.mem = s.mem := by
  unfold State.bulkRead
  simp [hb, hdest]

section

variable (h : s.accepts 0x0704 r = true) (hp : r.payload = [])

include h hp

theorem exec_dumpClear_held {b : BulkOut} (hb : s.host.bulkOut = some b) (hdest : b.dest = s.addr) :
    exec (.dumpClear r) s = .next (s.answer 0x0704 r .resourceHeld []) := by
  refine congrArg _ (State.commandRow_reports h ?_)
  have hheld : (s.host.bulkOut.any fun b => b.dest == s.addr) = true := by simp [hb, hdest]
  rw [withLength_eq _ (length_of_nil hp)]
  exact if_pos hheld

theorem exec_dumpClear_free (hb : ∀ b, s.host.bulkOut = some b → b.dest ≠ s.addr) :
    exec (.dumpClear r) s = .next (s.dumpCleared.answer 0x0704 r .ok []) := by
  refine congrArg _ ((State.commandRow_replies h (t := (s.taken 0x0704 r).dumpCleared) (st := .ok) (p := []) ?_).trans ?_)
  · have hfree : (s.host.bulkOut.any fun b => b.dest == s.addr) = false := by
      cases hout : s.host.bulkOut with
      | none => rfl
      | some b => simpa using hb b hout
    rw [withLength_eq _ (length_of_nil hp)]
    exact if_neg (Bool.eq_false_iff.1 hfree)
  · rw [State.released_dumpCleared, State.released_accepted h]

end

end

/-- Settles O52: each command by its own row, and the bytes of the area by the writes to its header. -/
theorem dumpCommands : Obligations.DumpCommands := by
  intro s r c
  have hmem : Memory.wf s.mem = true := c.mem
  refine ⟨fun h hp => congrArg _ (State.commandRow_reports h (withLength_eq _ (length_of_nil hp))), ?_, ?_, fun h hp => ⟨?_, fun hb => ?_⟩⟩
  · intro off n h hlen hoff hn
    refine ⟨exec_dumpRead_bad h hlen hoff hn, fun h1 hlast hheld => exec_dumpRead_held h hlen hoff hn h1 hlast ?_,
      fun h1 hlast hown hidle hout => exec_dumpRead_own h hlen hoff hn h1 hlast ?_ hown,
      fun h1 hlast hother hidle hout => exec_dumpRead_other h hlen hoff hn h1 hlast ?_ hother⟩
    · obtain hd | ⟨b, hb, hbusy⟩ := hheld
      · simp [State.dumpReadHeld, hd]
      · simp [State.dumpReadHeld, hb, hbusy]
    · simp [State.dumpReadHeld, hidle, hout]
    · cases hb : s.host.bulkOut with
      | none => simp [State.dumpReadHeld, hidle, hb]
      | some b => simp [State.dumpReadHeld, hidle, hb, hother, hout b hb]
  · intro b hready hb hdest
    have hdue : (s.fnReady 2 && !s.bulkWaits 512) = true := by simp [hready, State.bulkWaits_own hb hdest]
    exact ⟨_, congrArg Host.Outcome.next (whenDue_of_due hdue _ s), State.bulkRead_own hb hdest⟩
  · rintro ⟨b, hb, hdest⟩
    exact exec_dumpClear_held h hp hb hdest
  · exact ⟨_, exec_dumpClear_free h hp hb, State.dumpCleared_dumpHeld hmem, State.dumpCleared_laterFatals hmem,
      fun a ha => State.readByte_dumpCleared hmem ha, State.editHeader_regs _ _ _, State.editHeader_host _ _ _⟩

end Sys2Proof.Machine
end

section
/-!
PROOF. What the words of a domain read after a restore, and while it is OFF (O57).
-/

namespace Sys2Proof.Machine

/-! ### Stored words -/

/-- The keys of a canonical list are distinct. -/
theorem Sparse.nodup_keys {α : Type} [DecidableEq α] {d : Nat → α} : ∀ {m : Sparse α}, Sparse.wf d m = true → (Sparse.keys m).Nodup
  | [], _ => List.nodup_nil
  | e :: m, h => by
    obtain ⟨habove, -, hm⟩ := Sparse.wf_cons.1 h
    refine List.nodup_cons.2 ⟨fun hmem => ?_, Sparse.nodup_keys hm⟩
    obtain ⟨x, hx, hkey⟩ := List.mem_map.1 hmem
    simp only [Sparse.above, List.all_eq_true, decide_eq_true_eq] at habove
    exact absurd hkey (habove x hx).ne'

/-- One word replaced by what `f` makes of it, for each of distinct words. -/
theorem State.word_forEach_setWord (f : Nat → Word → Word) (q : Nat) : ∀ {ids : List Nat} {s : State}, ids.Nodup →
    Sparse.wf resetWord s.regs = true →
    (forEach ids (fun s id => s.setWord id (f id (s.word id))) s).word q = if q ∈ ids then f q (s.word q) else s.word q
  | [], _, _, _ => rfl
  | id :: ids, s, hnodup, hw => by
    obtain ⟨hid, hids⟩ := List.nodup_cons.1 hnodup
    refine (State.word_forEach_setWord f q hids (State.wf_setWord hw _ _)).trans ?_
    rw [State.word_setWord hw]
    by_cases hq : q = id
    · subst hq
      simp [hid]
    · simp [hq]

/-! ### A restored word (R404) -/

/-- What a restore puts into a field. -/
def Field.restored (f : Field) : Option Nat :=
  match f.acc with
  | .ro | .w1c => some f.rst
  | .rw | .rwl | .wo => none

section

variable {id : Nat} {fs : List Field} (hl : lookup id = .word fs)

include hl

theorem restoredWord_counter (hk : keptCounter id fs = true) (w : Word) : restoredWord id w = w := by
  simp only [restoredWord, hl, hk, if_true]

theorem restoredWord_fields (hk : keptCounter id fs = false) (w : Word) :
    restoredWord id w = BitVec.ofNat 32 (fs.foldl (placed Field.restored) w.toNat) := by
  simp only [restoredWord, hl, hk, Bool.false_eq_true, if_false]
  congr 2
  funext a ⟨lsb, width, acc, rst, ok⟩
  cases acc <;> rfl

variable (hwf : fieldsWf fs = true) (hk : keptCounter id fs = false) {f : Field} (hf : f ∈ fs) (w : Word)

include hwf hk hf

theorem Field.get_restoredWord_kept (h : f.acc = .rw ∨ f.acc = .rwl) : f.get (restoredWord id w) = f.get w := by
  have hnone : f.restored = none := by
    unfold Field.restored
    rcases h with h | h <;> rw [h]
  rw [restoredWord_fields hl hk, Field.get_foldl_placed _ hwf hf, hnone]
  rfl

theorem Field.get_restoredWord_reset (h : f.acc = .w1c ∨ f.acc = .ro) (hr : f.rst < 2 ^ f.width) :
    f.get (restoredWord id w) = f.rst := by
  have hsome : f.restored = some f.rst := by
    unfold Field.restored
    rcases h with h | h <;> rw [h]
  rw [restoredWord_fields hl hk, Field.get_foldl_placed _ hwf hf, hsome]
  exact Nat.mod_eq_of_lt hr

end

section

variable {s : State} (hw : Sparse.wf resetWord s.regs = true) (d : Nat)

include hw

/-- Of a domain the stored words are restored; every other word stands. -/
theorem State.word_restoreWords (q : Nat) :
    (s.restoreWords d).word q =
      if q ∈ Sparse.keys s.regs ∧ idDomain q = some d then restoredWord q (s.word q) else s.word q := by
  rw [State.restoreWords, State.word_forEach_setWord restoredWord q ((Sparse.nodup_keys hw).filter _) hw]
  simp only [List.mem_filter, beq_iff_eq]

end

theorem State.restoreWords_mem (s : State) (d : Nat) : (s.restoreWords d).mem = s.mem :=
  forEach_keeps (·.mem) (f := fun s id => s.setWord id (restoredWord id (s.word id))) (fun _ _ => rfl) _ _

/-! ### An OFF domain (R405) -/

section

variable {s : State} {id d : Nat} {fs : List Field} (hl : lookup id = .word fs) (hd : idDomain id = some d) (hoff : s.domOff d = true)

include hl hd hoff

theorem State.absent_off : s.absent id = some .wrongState := by
  simp [State.absent, hl, hd, hoff]

theorem State.wordWrite_off (hs : s.wordService = true) (v : Word) : s.wordWrite id v = { s with lastStatus := .wrongState } := by
  refine State.wordWrite_refused hs ?_
  rw [State.writeRefuses, State.absent_off hl hd hoff]

theorem State.wordRead_off (hs : s.wordService = true) :
    s.wordRead id = { s with lastStatus := .wrongState, lastWord := 0 } := by
  have hrefused : s.readRefuses id = some .wrongState := by rw [State.readRefuses, State.absent_off hl hd hoff]
  rw [State.wordRead, hs, State.readWord, hrefused]
  rfl

end

/-- Settles O57: by what a restore places in the fields of each stored word of the domain. -/
theorem restoredWordsKeepParameters : Obligations.RestoredWordsKeepParameters := by
  intro s d id fs c hl hwf
  refine ⟨fun hd => ⟨fun hk => ?_, fun hk hid f hf => ?_, fun hoff hs v => ⟨State.wordWrite_off hl hd hoff hs v,
    State.wordRead_off hl hd hoff hs⟩⟩, fun hd => ?_, State.restoreWords_mem s d⟩
  · rw [State.word_restoreWords c.regs, restoredWord_counter hl hk, ite_self]
  · rw [State.word_restoreWords c.regs, if_pos ⟨hid, hd⟩]
    exact ⟨Field.get_restoredWord_kept hl hwf hk hf _, Field.get_restoredWord_reset hl hwf hk hf _⟩
  · rw [State.word_restoreWords c.regs, if_neg fun h => hd h.2]

end Sys2Proof.Machine
end

section
/-!
PROOF. What sending flits and replies changes, and the transitions of a power domain with it: counters from SPOKE on, the host's
queues, the sending half of the ports, and the power domains but not their states.
-/

namespace Sys2Proof.Machine

/-- `y` is `x` but for its sending half: what goes out on a link, its credits, and the acknowledgements and credits it owes. -/
def SpokePort.SameLink (x y : SpokePort) : Prop :=
  y = { x with
    seqTx := y.seqTx, ackOwed := y.ackOwed, retry := y.retry, sentAt := y.sentAt, progressAt := y.progressAt, credits := y.credits,
    shared := y.shared, owed := y.owed, waiting := y.waiting, owner := y.owner, served := y.served, turn := y.turn,
    grants := y.grants, sent := y.sent }

theorem SpokePort.SameLink.refl (x : SpokePort) : x.SameLink x := rfl

theorem SpokePort.SameLink.trans {x y z : SpokePort} (hxy : x.SameLink y) (hyz : y.SameLink z) : x.SameLink z := by
  unfold SpokePort.SameLink at *
  rw [hyz, hxy]

@[simp] theorem State.spk_bump (s : State) (id n q : Nat) : (s.bump id n).spk q = s.spk q := by
  rw [State.spk, State.bump_spoke]
  rfl

theorem State.onPower_doms {f : PowerState → PowerState} (hf : ∀ x, (f x).doms = x.doms) {s : State} :
    (s.onPower f).mgmt.power.doms = s.mgmt.power.doms := hf _

/-- `t` is reached from `s` by sends and, with `domains`, by the bookkeeping of transitions. -/
inductive Upkeep (domains : Bool) (s : State) : State → Prop
  | refl : Upkeep domains s s
  | bump {t : State} (h : Upkeep domains s t) {id : Nat} (hid : 0x12000000 ≤ id) (n : Nat) : Upkeep domains s (t.bump id n)
  | onSpk {t : State} (h : Upkeep domains s t) (p : Nat) (f : SpokePort → SpokePort)
    (hf : ∀ x : SpokePort, x.SameLink (f x) := by exact fun _ => rfl) :
    Upkeep domains s (t.onSpk p f)
  | onHost {t : State} (h : Upkeep domains s t) (f : HostState → HostState) : Upkeep domains s (t.onHost f)
  | onPower {t : State} (h : Upkeep domains s t) (hd : domains = true) (f : PowerState → PowerState)
    (hf : ∀ x, (f x).doms = x.doms := by exact fun _ => rfl) : Upkeep domains s (t.onPower f)
  | onPdom {t : State} (h : Upkeep domains s t) (hd : domains = true) (d : Nat) (f : PowerDom → PowerDom)
    (hf : ∀ x, (f x).st = x.st := by exact fun _ => rfl) : Upkeep domains s (t.onPdom d f)

namespace Upkeep

theorem trans {domains : Bool} {s t u : State} (hst : Upkeep domains s t) (htu : Upkeep domains t u) : Upkeep domains s u := by
  induction htu with
  | refl => exact hst
  | bump _ hid n ih => exact ih.bump hid n
  | onSpk _ p f hf ih => exact ih.onSpk p f hf
  | onHost _ f ih => exact ih.onHost f
  | onPower _ hd f hf ih => exact ih.onPower hd f hf
  | onPdom _ hd d f hf ih => exact ih.onPdom hd d f hf

/-! ### Flits and replies (R324 to R327, R350) -/

section

variable {domains : Bool} {s t : State} (h : Upkeep domains s t)

theorem seal_sameLink (x : SpokePort) (f : SpokeFlit) (resend : Bool) : x.SameLink (x.seal f resend).2 := by
  cases resend with
  | true => rfl
  | false =>
    unfold SpokePort.seal
    cases (upTo 4).find? fun v => x.owed.getD v 0 != 0 with
    | none => rfl
    | some v => rfl

theorem takeCredit_sameLink (x : SpokePort) (v : Nat) : x.SameLink (x.takeCredit v) := by
  unfold SpokePort.takeCredit
  split <;> rfl

include h

theorem bumpFlits (p n : Nat) : Upkeep domains s (t.bump (spkId p 0x100) n) := h.bump (by unfold spkId pid; omega) n

theorem sendPlain (p : Nat) (f : SpokeFlit) : Upkeep domains s (t.sendPlain p f) :=
  (h.onSpk p _ fun x => seal_sameLink x _ false).bumpFlits p 1

theorem freeWaiting (w : Waiting) : Upkeep domains s (t.freeWaiting w) := by
  unfold State.freeWaiting
  split
  · exact h
  · split
    · exact h.onSpk _ _
    · exact h

theorem sendWaiting (p v : Nat) (w : Waiting) : Upkeep domains s (t.sendWaiting p v w) := by
  unfold State.sendWaiting
  refine ((h.onSpk p _ fun x => ?_).bumpFlits p 1).freeWaiting w
  refine (takeCredit_sameLink x v).trans ?_
  exact SpokePort.SameLink.trans (seal_sameLink (x.takeCredit v) _ false) rfl

theorem pump (p : Nat) : Upkeep domains s (t.pump p) := by
  refine forEach_induction (Upkeep domains s) (fun u _ k => ?_) _ h
  split
  · split
    · exact k.sendWaiting p _ _
    · exact k
  · exact k

theorem flushLink (p : Nat) : Upkeep domains s (t.flushLink p) := by
  refine forEach_induction (Upkeep domains s) (fun u _ k => ?_) _ h
  dsimp only
  split
  · exact k.sendPlain p _
  · exact k

theorem pumpAll : Upkeep domains s t.pumpAll :=
  forEach_induction (Upkeep domains s) (fun _ p k => k.flushLink p) _
    (forEach_induction (Upkeep domains s) (fun _ p k => k.pump p) _ h)

theorem sendTo {dest vc mtype sub : Nat} {body : List Byte} {u : State} (hsend : t.sendTo dest vc mtype sub body = some u) :
    Upkeep domains s u := by
  unfold State.sendTo at hsend
  split at hsend
  · split at hsend
    · obtain rfl := Option.some.inj hsend
      exact Upkeep.pumpAll (h.onSpk _ _)
    · cases hsend
  · cases hsend

theorem sendTo_getD (dest vc mtype sub : Nat) (body : List Byte) : Upkeep domains s ((t.sendTo dest vc mtype sub body).getD t) := by
  cases hsend : t.sendTo dest vc mtype sub body with
  | none => exact h
  | some u => exact h.sendTo hsend

theorem outboxHead : Upkeep domains s t.outboxHead := by
  unfold State.outboxHead
  split
  · split
    · exact h.onHost _
    · exact h
  · exact h

theorem pushReply (tag : Nat) (b : List Byte) : Upkeep domains s (t.pushReply tag b) := by
  unfold State.pushReply
  dsimp only
  split
  · split
    · exact (h.onHost _).outboxHead
    · exact h.onHost _
  · exact h.onHost _

theorem sendReplyAs (held opcode tag dest : Nat) (st : Status) (payload : List Byte) :
    Upkeep domains s (t.sendReplyAs held opcode tag dest st payload) := by
  unfold State.sendReplyAs
  dsimp only
  split
  · exact h.pushReply held _
  · split
    · exact h.sendTo ‹_›
    · exact h.bump (by decide) 1

theorem answer (opcode : Nat) (r : Req) (st : Status) (payload : List Byte) : Upkeep domains s (t.answer opcode r st payload) :=
  h.sendReplyAs _ _ _ _ _ _

theorem finish (x : Running) (st : Status) (payload : List Byte) : Upkeep domains s (t.finish x st payload) :=
  Upkeep.answer (h.onHost _) _ _ _ _

theorem finishOpt (r : Option Running) (st : Status) (payload : List Byte) : Upkeep domains s (t.finishOpt r st payload) := by
  unfold State.finishOpt
  split
  · split
    · exact h
    · exact h.finish _ _ _
  · exact h

end

/-! ### Transitions (R407 to R414) -/

section

variable {s t : State} (h : Upkeep true s t)

include h

theorem startPending (d : Nat) : Upkeep true s (t.startPending d) := by
  unfold State.startPending
  split
  · exact h
  · split
    · exact h
    · exact h.onPdom rfl d _

theorem endMove (d : Nat) (st : Status) : Upkeep true s (t.endMove d st) := (h.onPdom rfl d _).startPending d

theorem startMove (d : Nat) (g : PwrState) : Upkeep true s (t.startMove d g) := h.onPdom rfl d _

theorem parkNext : Upkeep true s t.parkNext := by
  unfold State.parkNext
  split
  · split
    · exact h
    · dsimp only
      split
      · exact (h.onPower rfl _).finishOpt _ _ _
      · split
        · exact h.onPower rfl _
        · exact ((h.onPower rfl _).onPdom rfl _ _).onPdom rfl _ _
  · exact h

theorem parkStep (st : Option Status) : Upkeep true s (t.parkStep st) := by
  unfold State.parkStep
  dsimp only
  split
  · exact ((h.onHost _).onPower rfl _).parkNext
  · exact (h.onPower rfl _).parkNext

theorem parkAfter (own : Bool) (st : Option Status) : Upkeep true s (t.parkAfter own st) := by
  unfold State.parkAfter
  split
  · exact h.parkStep st
  · exact h.parkNext

theorem parkRefused (own : Bool) (st : Status) (payload : List Byte) : Upkeep true s (t.parkRefused own st payload) := by
  unfold State.parkRefused
  split
  · exact (h.onPower rfl _).finishOpt _ _ _
  · exact h.parkNext

theorem refuseHeld (d : Nat) : Upkeep true s (t.refuseHeld d) :=
  (((h.onPdom rfl d _).endMove d .resourceHeld).finishOpt _ .resourceHeld []).parkRefused _ _ _

theorem wakeEntry (d : Nat) : Upkeep true s (t.wakeEntry d) :=
  (((h.onPdom rfl d _).endMove d .pending).finishOpt _ .pending []).parkAfter _ _

theorem endEntry (d : Nat) : Upkeep true s (t.endEntry d) := by
  unfold State.endEntry
  dsimp only
  split
  · exact (h.wakeEntry d).wakeEntry d
  · exact h.wakeEntry d

theorem startWake (d : Nat) : Upkeep true s (t.startWake d) :=
  Upkeep.bump (h.startMove d .on) (by unfold pwId pid; omega) 1

theorem accessWake (d : Nat) : Upkeep true s (t.accessWake d) := by
  unfold State.accessWake
  split
  · split
    · exact h
    · split
      · exact h.onPdom rfl d _
      · dsimp only
        split
        · exact (h.endEntry d).startWake d
        · exact h.endEntry d
  · split
    · split
      · exact h.onPdom rfl d _
      · exact h
    · exact h.startWake d
    · exact h

theorem wakeFor (id : Nat) : Upkeep true s (t.wakeFor id) := by
  unfold State.wakeFor
  split
  · exact h.accessWake _
  · exact h

end

/-! ### What it leaves -/

section

variable {domains : Bool} {s t : State} (h : Upkeep domains s t)

include h

/-- Only words, ports, the host's state and the power domains change. -/
theorem frame :
    t = { s with
      regs := t.regs, spoke := { s.spoke with ports := t.spoke.ports }, host := t.host,
      mgmt := { s.mgmt with power := t.mgmt.power } } := by
  induction h with
  | refl => rfl
  | bump _ hid n ih =>
    unfold State.bump
    split
    · exact ih
    · conv_lhs => rw [ih]
      rfl
  | onSpk _ _ _ _ ih | onHost _ _ ih | onPower _ _ _ _ ih | onPdom _ _ _ _ _ ih =>
    conv_lhs => rw [ih]
    rfl

theorem mem : t.mem = s.mem := by rw [h.frame]
theorem aux : t.aux = s.aux := by rw [h.frame]
theorem loc : t.loc = s.loc := by rw [h.frame]
theorem order : t.spoke.order = s.spoke.order := by rw [h.frame]
theorem chain : t.chain = s.chain := by rw [h.frame]

theorem wf_regs (hw : Sparse.wf resetWord s.regs = true) : Sparse.wf resetWord t.regs = true := by
  induction h with
  | refl => exact hw
  | bump _ _ n ih => exact State.wf_bump ih _ n
  | onSpk _ _ _ _ ih | onHost _ _ ih | onPower _ _ _ _ ih | onPdom _ _ _ _ _ ih => exact ih

/-- The words of the blocks below SPOKE stand. -/
theorem word (hw : Sparse.wf resetWord s.regs = true) {q : Nat} (hq : q < 0x12000000) : t.word q = s.word q := by
  induction h with
  | refl => rfl
  | bump k hid n ih => exact (State.word_bump_other (k.wf_regs hw) (by omega) n).trans ih
  | onSpk _ _ _ _ ih | onHost _ _ ih | onPower _ _ _ _ ih | onPdom _ _ _ _ _ ih => exact ih

theorem wf_ports (hw : Sparse.wf (fun _ => SpokePort.reset) s.spoke.ports = true) :
    Sparse.wf (fun _ => SpokePort.reset) t.spoke.ports = true := by
  induction h with
  | refl => exact hw
  | bump _ _ n ih => rwa [State.bump_spoke]
  | onSpk _ p _ _ ih => exact Sparse.modify_wf p _ ih
  | onHost _ _ ih | onPower _ _ _ _ ih | onPdom _ _ _ _ _ ih => exact ih

/-- A port changes in its sending half alone. -/
theorem spk (hw : Sparse.wf (fun _ => SpokePort.reset) s.spoke.ports = true) (q : Nat) : (s.spk q).SameLink (t.spk q) := by
  induction h with
  | refl => exact .refl _
  | bump _ _ n ih =>
    rwa [State.spk_bump]
  | onSpk k p _ hf ih =>
    rw [State.spk_onSpk (k.wf_ports hw)]
    split
    · rename_i e
      subst e
      exact ih.trans (hf _)
    · exact ih
  | onHost _ _ ih | onPower _ _ _ _ ih | onPdom _ _ _ _ _ ih => exact ih

theorem wf_doms (hw : Sparse.wf (fun _ => PowerDom.reset) s.mgmt.power.doms = true) :
    Sparse.wf (fun _ => PowerDom.reset) t.mgmt.power.doms = true := by
  induction h with
  | refl => exact hw
  | bump _ _ n ih => rwa [State.bump_mgmt]
  | onPower _ _ _ hf ih =>
    rwa [State.onPower_doms hf]
  | onPdom _ _ d _ _ ih => exact Sparse.modify_wf d _ ih
  | onSpk _ _ _ _ ih | onHost _ _ ih => exact ih

/-- A domain stays in its state. -/
theorem st (hw : Sparse.wf (fun _ => PowerDom.reset) s.mgmt.power.doms = true) (q : Nat) : (t.pdom q).st = (s.pdom q).st := by
  induction h with
  | refl => rfl
  | bump _ _ n ih =>
    rwa [State.pdom, State.bump_mgmt]
  | onPower _ _ _ hf ih =>
    rwa [State.pdom, State.onPower_doms hf]
  | onPdom k _ d _ hf ih =>
    rw [State.pdom_onPdom (k.wf_doms hw)]
    split
    · rename_i e
      subst e
      exact (hf _).trans ih
    · exact ih
  | onSpk _ _ _ _ ih | onHost _ _ ih => exact ih

end

/-- Sends leave the power domains too. -/
theorem mgmt {s t : State} (h : Upkeep false s t) : t.mgmt = s.mgmt := by
  induction h with
  | refl => rfl
  | bump _ _ n ih => rwa [State.bump_mgmt]
  | onSpk _ _ _ _ ih | onHost _ _ ih => exact ih
  | onPower _ hd => cases hd
  | onPdom _ hd => cases hd

end Upkeep

end Sys2Proof.Machine
end

section
/-!
PROOF. Events of a power domain (O56).
-/

namespace Sys2Proof.Machine

section

variable {s : State} {d : Nat} (hd : d < 44)

/-! ### The rows -/

include hd

theorem exec_powerAccessWake : exec (.powerAccessWake d) s = .next (s.accessWake d) := onUnit_present (decide_eq_true hd) _ _

theorem exec_powerRetHoldExpiry {at_ : Nat} (hretry : (s.pdom d).retry = some at_) (hmove : (s.pdom d).move = none)
    (htarget : (s.pdom d).target ≠ .on) (hwarm : s.restarting = false) (hlate : s.fld (pwId d 0) 0 16 * 1000 ≤ locDiff s.loc at_) :
    exec (.powerRetHoldExpiry d) s = .next (s.startMove d (s.pdom d).target) := by
  refine (onUnit_present (decide_eq_true hd) _ _).trans (congrArg _ ?_)
  simp only [hretry]
  refine whenDue_of_due ?_ _ _
  simp [hmove, htarget, hwarm, hlate]

variable {m : PwrMove} (hm : (s.pdom d).move = some m)

include hm

theorem exec_powerTransitionDone {ok : Bool} (hready : m.goal = .on ∨ m.committed = true) :
    exec (.powerTransitionDone d ok) s =
      .next (if !ok then s.restoreFailed d else if m.goal == .on then s.wokeUp d else s.entered d m) := by
  have hpassed : (m.goal != .on && !m.committed) = false := by
    rcases hready with h | h <;> simp [h]
  refine (onUnit_present (decide_eq_true hd) _ _).trans (congrArg _ ?_)
  simp only [hm, hpassed, Bool.false_eq_true, if_false]

/-! ### An entry before its commit (R298, R404, R408, R409) -/

section

variable (hgoal : m.goal ≠ .on) (hfresh : m.committed = false)

include hgoal hfresh

/-- The entry commits: it is counted. -/
def State.entryCommitted (s : State) (d : Nat) (m : PwrMove) : State :=
  (s.onPdom d fun x => { x with move := some { m with committed := true } }).bump (pwId d 0x100)

theorem exec_powerEntryCommit (hon : s.domOff d = false) (hidle : s.domBusy d = false) (hwarm : s.restarting = false) :
    exec (.powerEntryCommit d) s =
      .next (if m.goal == .off && decide (d < 32) && d % 4 == 3 && s.queueIn (d / 4) then s.refuseHeld d
        else if m.goal == .off then (s.entryCommitted d m).loseDomain d else s.entryCommitted d m) := by
  refine (onUnit_present (decide_eq_true hd) _ _).trans (congrArg _ ?_)
  simp only [hm]
  refine whenDue_of_due ?_ _ _
  simp [hgoal, hfresh, hon, hidle, hwarm]

theorem exec_powerBlockStopTimeout {code unit : Nat} (hblock : domainOf code unit = some d) (hmay : s.mayRefuse d code = true)
    (hwarm : s.restarting = false) : exec (.powerBlockStopTimeout d code unit) s = .next (s.refuseEntry d code unit) := by
  refine (onUnit_present (decide_eq_true hd) _ _).trans (congrArg _ ?_)
  simp only [hm]
  refine whenDue_of_due ?_ _ _
  simp [hgoal, hfresh, hblock, hmay, hwarm]

omit hd in
theorem State.accessWake_entering :
    s.accessWake d =
      if ((s.endEntry d).pdom d).st == .ret && ((s.endEntry d).pdom d).move.isNone then (s.endEntry d).startWake d
      else s.endEntry d := by
  rw [State.accessWake]
  simp only [hm, beq_eq_false_iff_ne.2 hgoal, hfresh, Bool.false_eq_true, if_false]

end

omit hd in
theorem State.accessWake_committed (hgoal : m.goal ≠ .on) (hcommitted : m.committed = true) :
    s.accessWake d = s.onPdom d fun x => { x with move := some { m with wake := true } } := by
  rw [State.accessWake]
  simp only [hm, beq_eq_false_iff_ne.2 hgoal, hcommitted, Bool.false_eq_true, if_false, if_true]

end

/-! ### The wake of a domain in RET (R409, R410) -/

section

variable (s : State) (d : Nat)

theorem State.accessWake_ret {s : State} {d : Nat} (hmove : (s.pdom d).move = none) (hret : (s.pdom d).st = .ret) :
    s.accessWake d = s.startWake d := by
  rw [State.accessWake]
  simp only [hmove, hret]

/-- A domain in transition is not at its reset, so the update stands whatever the list. -/
theorem State.pdom_startWake :
    (s.startWake d).pdom d = { s.pdom d with move := some ⟨.on, false, false⟩, retry := none } := by
  rw [State.startWake, State.pdom, State.bump_mgmt]
  exact Sparse.get_set_new _ _ fun e => Option.some_ne_none _ (congrArg PowerDom.move e)

theorem State.startWake_mem : (s.startWake d).mem = s.mem := State.bump_mem _ _ _

theorem State.word_startWake (hw : Sparse.wf resetWord s.regs = true) :
    ((s.startWake d).word (pwId d 0x104)).toNat = min ((s.word (pwId d 0x104)).toNat + 1) 0xFFFFFFFF := by
  have hsame : (s.startMove d .on).word (pwId d 0x104) = s.word (pwId d 0x104) := rfl
  rw [State.startWake, State.word_bump (s := s.startMove d .on) hw, if_pos rfl, if_neg Nat.one_ne_zero, hsame, BitVec.toNat_ofNat, satAdd32]
  omega

end

/-- Settles O56: each row on the state its conditions name; a refused entry leaves the domain's state by `Upkeep.st`. -/
theorem powerDomainEvents : Obligations.PowerDomainEvents := by
  intro s d hd
  refine ⟨fun m hm hgoal hfresh => ⟨?_, fun code unit hblock hmay hwarm => exec_powerBlockStopTimeout hd hm hgoal hfresh hblock hmay hwarm,
    fun hno => ?_, fun hret hnone => ?_⟩, fun m hm hgoal hcommitted => ?_, fun hmove hret => ?_,
    fun at_ hretry hmove htarget hwarm hlate => exec_powerRetHoldExpiry hd hretry hmove htarget hwarm hlate,
    fun m hm hready => ⟨fun hgoal => ?_, fun hgoal => ?_, ?_⟩⟩
  · rintro hon hidle hwarm _ rfl
    rw [exec_powerEntryCommit hd hm hgoal hfresh hon hidle hwarm]
    refine ⟨fun hret => ?_, fun hoff hfree => ?_, fun hoff hshared hstore hheld => ⟨?_, fun c => ?_⟩⟩
    · simp [hret, State.entryCommitted]
    · have hnot : ¬ (d < 32 ∧ d % 4 = 3 ∧ s.queueIn (d / 4) = true) := fun h => by
        rw [hfree h.1 h.2.1] at h
        exact Bool.false_ne_true h.2.2
      simp [hoff, State.entryCommitted, and_assoc, hnot]
    · simp [hoff, hshared, hstore, hheld]
    · exact (Upkeep.refl.refuseHeld d).st c.mgmt_power_doms d
  · rw [exec_powerAccessWake hd, State.accessWake_entering hm hgoal hfresh, if_neg]
    simpa [Option.isNone_iff_eq_none] using hno
  · rw [exec_powerAccessWake hd, State.accessWake_entering hm hgoal hfresh, hret, hnone]
    rfl
  · rw [exec_powerAccessWake hd, State.accessWake_committed hm hgoal hcommitted]
  · rw [exec_powerAccessWake hd, State.accessWake_ret hmove hret]
    refine ⟨_, rfl, ?_, ?_, s.startWake_mem d, fun c => s.word_startWake d c.regs⟩
    · rw [State.pdom_startWake]
      rfl
    · rw [State.pdom_startWake]
  · rw [exec_powerTransitionDone hd hm hready]
    simp [hgoal]
  · rw [exec_powerTransitionDone hd hm hready]
    simp [hgoal]
  · rw [exec_powerTransitionDone hd hm hready]
    rfl

end Sys2Proof.Machine
end

section
/-!
PROOF. Auxiliary channels: sampled bits, the words SYNC, CFG and LAST, and the coefficient rows (O34).
-/

namespace Sys2Proof.Machine

/-! ### Coefficients (R280, R283) -/

/-- A row is its side, the middle tap that makes the sum 2^17, and the side again. -/
theorem sum_romRow (preset stage taps : Nat) : (romRow preset stage taps).sum = 131072 := by
  simp only [romRow, List.sum_append, List.sum_reverse, List.sum_singleton]
  omega

theorem reverse_romRow (preset stage taps : Nat) : (romRow preset stage taps).reverse = romRow preset stage taps := by
  simp [romRow]

/-! ### Sampled bits (R279, R288) -/

section

variable {s : State} {c : Nat} (hc : c < 16)

include hc

theorem exec_auxSampleOutput {bits : List Bool} (hruns : s.auxRuns c bits.length = true) (rom : Option Nat) :
    exec (.auxSampleOutput c bits rom) s =
      .next ((match rom with | some k => s.romError c k | none => s).auxBits c bits) :=
  (onUnit_present (decide_eq_true hc) _ _).trans (congrArg _ (whenDue_of_due hruns _ _))

theorem exec_auxStuck {bits : List Bool} (hruns : s.auxRuns c bits.length = true) (hfree : (s.chan c).stuck = false)
    (hstuck : ((s.auxBits c bits).chan c).stuck = true) : exec (.auxStuck c bits) s = .next (s.auxBits c bits) :=
  (onUnit_present (decide_eq_true hc) _ _).trans (congrArg _ (whenDue_of_due (by rw [hruns, hfree, hstuck]; rfl) _ _))

theorem exec_auxStuckRecover {b : Bool} (hruns : s.auxRuns c 1 = true) (hstuck : (s.chan c).stuck = true)
    (hdiffers : (s.chan c).last ≠ some b) : exec (.auxStuckRecover c b) s = .next (s.auxBit c b) :=
  (onUnit_present (decide_eq_true hc) _ _).trans (congrArg _ (whenDue_of_due (by simp [hruns, hstuck, hdiffers]) _ _))

end

/-! ### Resets asked for (R285) -/

section

variable {s : State} (hw : Sparse.wf (fun _ => AuxChan.empty) s.aux = true)

include hw

theorem State.chan_onChan (c q : Nat) (f : AuxChan → AuxChan) :
    (s.onChan c f).chan q = if q = c then f (s.chan c) else s.chan q := Sparse.get_modify _ c q f hw

theorem State.wf_onChan (c : Nat) (f : AuxChan → AuxChan) : Sparse.wf (fun _ => AuxChan.empty) (s.onChan c f).aux = true :=
  Sparse.modify_wf c f hw

theorem State.mem_resets_auxReset_same (c l : Nat) : l ∈ ((s.auxReset c l).chan c).resets := by
  rw [State.auxReset, State.chan_onChan hw, if_pos rfl]
  exact List.mem_cons_self

theorem State.mem_resets_auxReset {q l : Nat} (h : l ∈ (s.chan q).resets) (c k : Nat) :
    l ∈ ((s.auxReset c k).chan q).resets := by
  rw [State.auxReset, State.chan_onChan hw]
  split
  · rename_i e
    subst e
    exact List.mem_cons_of_mem _ h
  · exact h

end

/-- One channel of an AUXFILT SYNC write. -/
def State.syncChannel (v : Word) (s : State) (c : Nat) : State :=
  if bitOf v.toNat c && cfgEnable (s.word (auxId c 0)).toNat then s.auxReset c (s.loc + 1) else s

section

variable (v : Word) {s : State} (hw : Sparse.wf (fun _ => AuxChan.empty) s.aux = true)

theorem State.syncChannel_eq (s : State) (c : Nat) : s.syncChannel v c = { s with aux := (s.syncChannel v c).aux } := by
  unfold State.syncChannel
  split <;> rfl

include hw

theorem State.wf_syncChannel (c : Nat) : Sparse.wf (fun _ => AuxChan.empty) (s.syncChannel v c).aux = true := by
  unfold State.syncChannel
  split
  · exact State.wf_onChan hw _ _
  · exact hw

theorem State.mem_resets_syncChannel {q l : Nat} (h : l ∈ (s.chan q).resets) (c : Nat) :
    l ∈ ((s.syncChannel v c).chan q).resets := by
  unfold State.syncChannel
  split
  · exact State.mem_resets_auxReset hw h c _
  · exact h

theorem State.mem_resets_syncChannels {q l : Nat} (h : l ∈ (s.chan q).resets) (cs : List Nat) :
    l ∈ ((forEach cs (State.syncChannel v) s).chan q).resets :=
  (forEach_induction (fun t => Sparse.wf (fun _ => AuxChan.empty) t.aux = true ∧ l ∈ (t.chan q).resets)
    (fun _ c k => ⟨State.wf_syncChannel v k.1 c, State.mem_resets_syncChannel v k.1 k.2 c⟩) cs ⟨hw, h⟩).2

end

/-- A channel that SYNC names and that is enabled is asked for a reset, whatever the others are. -/
theorem State.sync_asks {v : Word} {c : Nat} (hbit : bitOf v.toNat c = true) {cs : List Nat} (hmem : c ∈ cs) {s : State}
    (hw : Sparse.wf (fun _ => AuxChan.empty) s.aux = true) (hon : cfgEnable (s.word (auxId c 0)).toNat = true) :
    s.loc + 1 ∈ ((forEach cs (State.syncChannel v) s).chan c).resets := by
  induction cs generalizing s with
  | nil => cases hmem
  | cons k cs ih =>
    rcases List.mem_cons.1 hmem with rfl | hrest
    · refine State.mem_resets_syncChannels v (State.wf_syncChannel v hw c) ?_ cs
      rw [State.syncChannel, hbit, hon]
      exact State.mem_resets_auxReset_same hw c _
    · have hloc : (s.syncChannel v k).loc = s.loc := by rw [State.syncChannel_eq]
      have hword : (s.syncChannel v k).word (auxId c 0) = s.word (auxId c 0) := by
        rw [State.syncChannel_eq]
        rfl
      rw [← hloc]
      exact ih hrest (State.wf_syncChannel v hw k) (by rw [hword]; exact hon)

/-! ### The words SYNC, CFG and LAST -/

theorem auxModId_block {i : Nat} (hi : i < 0x10000) :
    auxModId i / 0x1000000 = 0x0F ∧ auxModId i / 0x10000 % 256 = 16 ∧ auxModId i % 0x10000 = i := by
  unfold auxModId pid
  omega

theorem auxId_block {c i : Nat} (hc : c < 16) (hi : i < 0x10000) :
    auxId c i / 0x1000000 = 0x0F ∧ auxId c i / 0x10000 % 256 = c ∧ auxId c i % 0x10000 = i := by
  unfold auxId pid
  omega

/-- The effect of a SYNC write. -/
theorem State.written_sync (s : State) (old v : Word) :
    s.written (auxModId 4) old v = forEach (upTo 16) (State.syncChannel v) s := by
  obtain ⟨hblock, hunit, hindex⟩ := auxModId_block (i := 4) (by decide)
  simp only [State.written, hblock, hunit, hindex]
  rfl

/-- What a CFG write that changes the word asks of its channel. -/
def State.cfgChanged (s : State) (c : Nat) (old : Word) : State :=
  let t := if bitOf (s.word (auxId c 0)).toNat 3 != bitOf old.toNat 3 || !cfgEnable old.toNat then
    s.onChan c fun a => { a with edge := s.edgeAfter (s.word (auxId c 0)).toNat s.loc } else s
  t.auxReset c (t.loc + 1)

/-- The effect of a CFG write. -/
theorem State.written_auxCfg (s : State) {c : Nat} (hc : c < 16) (old v : Word) :
    s.written (auxId c 0) old v = if s.word (auxId c 0) ≠ old then s.cfgChanged c old else s := by
  obtain ⟨hblock, hunit, hindex⟩ := auxId_block hc (i := 0) (by decide)
  have hunit16 : (decide (c = 16)) = false := decide_eq_false (by omega)
  simp only [State.written, hblock, hunit, hindex, State.auxWritten, hunit16, Bool.false_and, Bool.false_eq_true, if_false, hc,
    decide_true, Bool.true_and, bne_iff_ne]
  rfl

theorem State.cfgChanged_eq (s : State) (c : Nat) (old : Word) : s.cfgChanged c old = { s with aux := (s.cfgChanged c old).aux } := by
  rw [State.cfgChanged]
  split <;> rfl

section

variable {s : State} (hw : Sparse.wf (fun _ => AuxChan.empty) s.aux = true) (c : Nat) (old : Word)

include hw

theorem State.mem_resets_cfgChanged : s.loc + 1 ∈ ((s.cfgChanged c old).chan c).resets := by
  rw [State.cfgChanged]
  split
  · exact State.mem_resets_auxReset_same (State.wf_onChan hw _ _) c _
  · exact State.mem_resets_auxReset_same hw c _

theorem State.chan_cfgChanged_other {q : Nat} (hq : q ≠ c) : (s.cfgChanged c old).chan q = s.chan q := by
  rw [State.cfgChanged]
  split
  · rw [State.auxReset, State.chan_onChan (State.wf_onChan hw _ _), if_neg hq, State.chan_onChan hw, if_neg hq]
  · rw [State.auxReset, State.chan_onChan hw, if_neg hq]

end

/-- A CFG write leaves the memory and the other channels, and asks its channel for a reset where it changes the word. -/
theorem State.written_auxCfg_effect {s : State} (hw : Sparse.wf (fun _ => AuxChan.empty) s.aux = true) {c : Nat} (hc : c < 16)
    (old v : Word) :
    (s.written (auxId c 0) old v).mem = s.mem ∧
      ((s.written (auxId c 0) old v).word (auxId c 0) ≠ old → s.loc + 1 ∈ ((s.written (auxId c 0) old v).chan c).resets) ∧
      ∀ q, q ≠ c → (s.written (auxId c 0) old v).chan q = s.chan q := by
  rw [State.written_auxCfg s hc]
  split
  · refine ⟨?_, fun _ => State.mem_resets_cfgChanged hw c old, fun q hq => State.chan_cfgChanged_other hw c old hq⟩
    rw [State.cfgChanged_eq]
  · rename_i hsame
    exact ⟨rfl, fun h => absurd h hsame, fun _ _ => rfl⟩

theorem auxModId_ne_timeId (i : Nat) (hi : i < 0x10000) : auxModId i ≠ timeId 0 := by
  unfold auxModId timeId pid
  omega

theorem auxId_ne_timeId {c i : Nat} (hc : c < 16) (hi : i < 0x10000) : auxId c i ≠ timeId 0 := by
  unfold auxId timeId pid
  omega

section

variable {s : State} (can : s.canonical) (hs : s.wordService = true)

include can hs

theorem exec_auxfiltSyncWrite {c : Nat} (hc : c < 16) {v : Word} (hok : s.refusesWrite (auxModId 4) v = none)
    (hbit : bitOf v.toNat c = true) (hon : cfgEnable (s.word (auxId c 0)).toNat = true) :
    ∃ t, exec (.auxfiltSyncWrite v) s = .next t ∧ t.lastStatus = .ok ∧ s.loc + 1 ∈ (t.chan c).resets ∧ t.mem = s.mem := by
  obtain ⟨fs, hl⟩ := State.lookup_of_accepted hok
  have hwake : Upkeep true s (s.wakeFor (auxModId 4)) := Upkeep.refl.wakeFor _
  refine ⟨_, congrArg Host.Outcome.next (State.wordWrite_ok hs hok), rfl, ?_, ?_⟩
  all_goals rw [State.putWord_of_lookup hl (auxModId_ne_timeId 4 (by decide)), State.written_sync]
  · rw [← hwake.loc]
    refine State.sync_asks hbit (List.mem_range.2 hc) (s := State.setWord _ _ _) ?_ ?_
    · exact (congrArg (Sparse.wf _) hwake.aux).trans can.aux
    · rw [State.word_setWord_other (s := State.madeGood _ _) (hwake.wf_regs can.regs) _ (by unfold auxId auxModId pid; omega)]
      exact (congrArg (fun w : Word => cfgEnable w.toNat)
        (hwake.word can.regs (q := auxId c 0) (by unfold auxId pid; omega))).trans hon
  · refine (forEach_keeps (·.mem) (fun s k => ?_) _ _).trans hwake.mem
    rw [State.syncChannel_eq]

theorem exec_auxfiltCfgWrite {c : Nat} (hc : c < 16) {v : Word} (hok : s.refusesWrite (auxId c 0) v = none) :
    ∃ t, exec (.auxfiltCfgWrite c v) s = .next t ∧ t.lastStatus = .ok ∧ t.mem = s.mem ∧
      (t.word (auxId c 0) ≠ s.word (auxId c 0) → s.loc + 1 ∈ (t.chan c).resets) ∧ ∀ q, q ≠ c → t.chan q = s.chan q := by
  obtain ⟨fs, hl⟩ := State.lookup_of_accepted hok
  have hwake : Upkeep true s (s.wakeFor (auxId c 0)) := Upkeep.refl.wakeFor _
  have hold : (s.wakeFor (auxId c 0)).word (auxId c 0) = s.word (auxId c 0) :=
    hwake.word can.regs (by unfold auxId pid; omega)
  have hchan (q : Nat) : (s.wakeFor (auxId c 0)).chan q = s.chan q := congrArg (Sparse.get _ · q) hwake.aux
  have haux : Sparse.wf (fun _ => AuxChan.empty) (s.wakeFor (auxId c 0)).aux = true :=
    (congrArg (Sparse.wf _) hwake.aux).trans can.aux
  refine ⟨_, congrArg Host.Outcome.next ((if_pos (decide_eq_true (by omega))).trans (State.wordWrite_ok hs hok)), rfl, ?_⟩
  rw [State.putWord_of_lookup hl (auxId_ne_timeId hc (by decide)), hold]
  obtain ⟨hmem, hreset, hothers⟩ := State.written_auxCfg_effect (s := State.setWord (State.madeGood _ (auxId c 0)) (auxId c 0)
    (mergeWrite fs (s.word (auxId c 0)) v)) haux hc (s.word (auxId c 0)) v
  exact ⟨hmem.trans hwake.mem, fun hne => hwake.loc ▸ hreset hne, fun q hq => (hothers q hq).trans (hchan q)⟩

/-- LAST answers the low word of the record, and the whole is snapshot. -/
theorem exec_auxfiltLastRead {c : Nat} (hc : c < 16) (hok : s.readRefuses (auxId c 4) = none) :
    ∃ t, exec (.auxfiltLastRead c) s = .next t ∧ t.lastStatus = .ok ∧ t.lastWord = BitVec.ofNat 32 (s.chan c).record ∧
      (t.chan c).snap = (s.chan c).record ∧ t.mem = s.mem := by
  have hwake : Upkeep true s (s.wakeFor (auxId c 4)) := Upkeep.refl.wakeFor _
  have hchan : (s.wakeFor (auxId c 4)).chan c = s.chan c := congrArg (Sparse.get _ · c) hwake.aux
  obtain ⟨hblock, hunit, hindex⟩ := auxId_block hc (i := 4) (by decide)
  have hvalue : (s.wakeFor (auxId c 4)).valueOf (auxId c 4) =
      (BitVec.ofNat 32 (s.chan c).record, (s.wakeFor (auxId c 4)).onChan c fun a => { a with snap := a.record }) := by
    rw [← hchan]
    simp only [State.valueOf, hblock, hunit, hindex, State.auxRead, if_neg (Nat.not_le.2 hc)]
    rfl
  have hread : s.wordRead (auxId c 4) =
      { (s.wakeFor (auxId c 4)).onChan c fun a => { a with snap := a.record } with
        lastWord := BitVec.ofNat 32 (s.chan c).record, lastStatus := .ok } := by
    simp only [State.wordRead, hs, State.readWord, hok, hvalue]
    rfl
  have hsnap : (((s.wakeFor (auxId c 4)).onChan c fun a => { a with snap := a.record }).chan c).snap = (s.chan c).record := by
    rw [State.chan_onChan ((congrArg (Sparse.wf _) hwake.aux).trans can.aux), if_pos rfl, hchan]
  exact ⟨_, congrArg Host.Outcome.next ((if_pos (decide_eq_true hc)).trans hread), rfl, rfl, hsnap, hwake.mem⟩

end

/-- Settles O34: bits by their own rows, the words by the access that wakes the domain and leaves the channels. -/
theorem auxiliaryFilterCommands : Obligations.AuxiliaryFilterCommands := by
  intro s c can hc
  exact ⟨fun bits hruns => ⟨exec_auxSampleOutput hc hruns none, fun k => exec_auxSampleOutput hc hruns (some k)⟩,
    fun bits hruns hfree hstuck => exec_auxStuck hc hruns hfree hstuck,
    fun b hruns hstuck hdiffers => exec_auxStuckRecover hc hruns hstuck hdiffers,
    fun v hs hok hbit hon _ => exec_auxfiltSyncWrite can hs hc hok hbit hon, fun v hs hok _ => exec_auxfiltCfgWrite can hs hc hok,
    fun preset stage taps => ⟨sum_romRow preset stage taps, reverse_romRow preset stage taps⟩,
    fun hs _ hok => exec_auxfiltLastRead can hs hc hok⟩

end Sys2Proof.Machine
end

section
/-!
PROOF. The end of a port's drain while its power domain is OFF (O41).
-/

namespace Sys2Proof.Machine

/-- A module whose port 0 is enabled and drains with nothing to send again, and whose link domain is OFF. -/
def drainedOff : State :=
  { State.reset with
    spoke := { State.reset.spoke with order := [], ports := [(0, { SpokePort.reset with state := .up, drain := some 0 })] }
    mgmt := { State.reset.mgmt with
      power := { State.reset.mgmt.power with doms := [(36, { PowerDom.reset with st := .off, target := .off })] } } }

theorem drainedOff_canonical : drainedOff.canonical := ⟨rfl, rfl, rfl, rfl, rfl⟩

/-- The port waits in DISABLED for its domain. -/
theorem drainedOff_waits : ∃ t, exec (.retrainDrainDone 0) drainedOff = .next t ∧ (t.spk 0).state = .disabled := ⟨_, rfl, by decide⟩

/-- Refutes O41: a drained port of an OFF domain starts no attempt, though nothing else trains or waits. -/
theorem not_linkLossEmptiesThePort : ¬ Obligations.LinkLossEmptiesThePort := by
  intro h
  obtain ⟨-, hdrain, -⟩ := h drainedOff 0 (by decide) drainedOff_canonical
  obtain ⟨hempty, -⟩ := hdrain 0 (by decide)
  obtain ⟨t, ht, -, -, -, -, -, -, -, -, hattempt⟩ := hempty (by decide)
  obtain ⟨hdetect, -⟩ := hattempt (by decide) rfl (by decide)
  obtain ⟨u, hu, hwaits⟩ := drainedOff_waits
  obtain rfl := Host.Outcome.next.inj (ht.symm.trans hu)
  exact absurd (hwaits.symm.trans hdetect) (by decide)

end Sys2Proof.Machine
end

section
/-!
PROOF. A spoke port trains (O40).
-/

namespace Sys2Proof.Machine

/-! ### A port that has nothing to send -/

/-- `y` is `x` but for the acknowledgements and credits it owes and what it has sent. -/
def SpokePort.OnlyOwes (x y : SpokePort) : Prop := y = { x with ackOwed := y.ackOwed, owed := y.owed, sent := y.sent }

theorem SpokePort.OnlyOwes.trans {x y z : SpokePort} (hxy : x.OnlyOwes y) (hyz : y.OnlyOwes z) : x.OnlyOwes z := by
  unfold SpokePort.OnlyOwes at *
  rw [hyz, hxy]

theorem SpokePort.OnlyOwes.waiting {x y : SpokePort} (h : x.OnlyOwes y) : y.waiting = x.waiting := by rw [h]

theorem SpokePort.seal_onlyOwes (x : SpokePort) (f : SpokeFlit) : x.OnlyOwes (x.seal f false).2 := by
  unfold SpokePort.seal
  cases (upTo 4).find? fun v => x.owed.getD v 0 != 0 with
  | none => rfl
  | some v => rfl

/-- Port `p` of `t` is that of `s` but for what it owes. -/
structure IdlePort (s : State) (p : Nat) (t : State) : Prop where
  wf : Sparse.wf (fun _ => SpokePort.reset) t.spoke.ports = true
  owes : (s.spk p).OnlyOwes (t.spk p)

namespace IdlePort

theorem refl {s : State} (hw : Sparse.wf (fun _ => SpokePort.reset) s.spoke.ports = true) (p : Nat) : IdlePort s p s := ⟨hw, rfl⟩

section

variable {s t : State} {p : Nat} (h : IdlePort s p t)

include h

theorem bump (id n : Nat) : IdlePort s p (t.bump id n) where
  wf := (congrArg (fun x : SpokeState => Sparse.wf _ x.ports) (State.bump_spoke t id n)).trans h.wf
  owes := by
    rw [State.spk_bump]
    exact h.owes

theorem onSpk (q : Nat) (f : SpokePort → SpokePort) (hf : q = p → ∀ x : SpokePort, x.OnlyOwes (f x)) :
    IdlePort s p (t.onSpk q f) where
  wf := Sparse.modify_wf q f h.wf
  owes := by
    rw [State.spk_onSpk h.wf]
    split
    · rename_i e
      subst e
      exact h.owes.trans (hf rfl _)
    · exact h.owes

theorem sendPlain (q : Nat) (f : SpokeFlit) : IdlePort s p (t.sendPlain q f) :=
  (h.onSpk q _ fun _ x => x.seal_onlyOwes _).bump _ _

theorem freeWaiting (w : Waiting) : IdlePort s p (t.freeWaiting w) := by
  unfold State.freeWaiting
  split
  · exact h
  · split
    · exact h.onSpk _ _ fun _ _ => rfl
    · exact h

theorem sendWaiting {q : Nat} (hq : q ≠ p) (v : Nat) (w : Waiting) : IdlePort s p (t.sendWaiting q v w) :=
  ((h.onSpk q _ fun e => absurd e hq).bump _ _).freeWaiting w

theorem pump_other {q : Nat} (hq : q ≠ p) : IdlePort s p (t.pump q) := by
  refine forEach_induction (IdlePort s p) (fun u _ k => ?_) _ h
  split
  · split
    · exact k.sendWaiting hq _ _
    · exact k
  · exact k

theorem pump (hidle : (s.spk p).waiting = []) (q : Nat) : IdlePort s p (t.pump q) := by
  by_cases hq : q = p
  · subst hq
    rw [State.pump, h.owes.waiting, hidle]
    exact h
  · exact h.pump_other hq

theorem flushLink (q : Nat) : IdlePort s p (t.flushLink q) := by
  refine forEach_induction (IdlePort s p) (fun u _ k => ?_) _ h
  dsimp only
  split
  · exact k.sendPlain q _
  · exact k

theorem pumpAll (hidle : (s.spk p).waiting = []) : IdlePort s p t.pumpAll :=
  forEach_induction (IdlePort s p) (fun _ q k => k.flushLink q) _
    (forEach_induction (IdlePort s p) (fun _ q k => k.pump hidle q) _ h)

end

end IdlePort

/-! ### Turns (R318, R320) -/

theorem State.wf_onSpk {s : State} (hw : Sparse.wf (fun _ => SpokePort.reset) s.spoke.ports = true) (p : Nat)
    (f : SpokePort → SpokePort) : Sparse.wf (fun _ => SpokePort.reset) (s.onSpk p f).spoke.ports = true := Sparse.modify_wf p f hw

/-- The port as its attempt starts at local count `l`. -/
def SpokePort.attempted (x : SpokePort) (l : Nat) : SpokePort := { x with state := .detect, attemptAt := l }

/-- The port as it enters HOLD at local count `l`. -/
def SpokePort.held (x : SpokePort) (l : Nat) : SpokePort := { x with state := .hold, holdAt := l }

section

variable {s : State} {p : Nat}

theorem State.startAttempt_mem (s : State) (p : Nat) : (s.startAttempt p).mem = s.mem := rfl

theorem State.trainNext_mem (s : State) : s.trainNext.mem = s.mem := by
  unfold State.trainNext
  split <;> rfl

/-- The port whose turn it is waits in DISABLED, or has been in HOLD for 1 ms. -/
theorem State.trainTurn_waits (h : s.trainTurn = some p) :
    (s.spk p).state = .disabled ∨ ((s.spk p).state = .hold ∧ 1000000 ≤ locDiff s.loc (s.spk p).holdAt) := by
  unfold State.trainTurn at h
  split at h
  · cases h
  · have hfound := List.find?_some h
    simp only [Bool.and_eq_true, Bool.or_eq_true, beq_iff_eq, decide_eq_true_eq] at hfound
    exact hfound.2

variable (hw : Sparse.wf (fun _ => SpokePort.reset) s.spoke.ports = true)

include hw

theorem State.spk_startAttempt (p q : Nat) :
    (s.startAttempt p).spk q = if q = p then (s.spk p).attempted s.loc else s.spk q :=
  State.spk_onSpk hw p q (·.attempted s.loc)

theorem State.spk_trainNext (h : s.trainTurn ≠ some p) : s.trainNext.spk p = s.spk p := by
  unfold State.trainNext
  split
  · rename_i q hq
    rw [State.spk_startAttempt hw, if_neg]
    rintro rfl
    exact h hq
  · rfl

theorem State.spk_trainNext_up (h : (s.spk p).state = .up) : s.trainNext.spk p = s.spk p := by
  refine State.spk_trainNext hw fun hturn => ?_
  rcases State.trainTurn_waits hturn with hd | ⟨hh, -⟩
  · exact absurd (h.symm.trans hd) (by decide)
  · exact absurd (h.symm.trans hh) (by decide)

/-- A port that has just entered HOLD stays there. -/
theorem State.spk_trainNext_held (h : (s.spk p).state = .hold) (hat : (s.spk p).holdAt = s.loc) : s.trainNext.spk p = s.spk p := by
  refine State.spk_trainNext hw fun hturn => ?_
  rcases State.trainTurn_waits hturn with hd | ⟨-, hlate⟩
  · exact absurd (h.symm.trans hd) (by decide)
  · rw [hat, locDiff_self] at hlate
    exact absurd hlate (by decide)

/-- A port that goes to HOLD stays there when the next one in turn starts. -/
theorem State.enterHold_trainNext (p : Nat) :
    ((s.enterHold p).trainNext.spk p).state = .hold ∧ ((s.enterHold p).trainNext.spk p).holdAt = s.loc ∧
      (s.enterHold p).trainNext.mem = s.mem := by
  have hport : (s.enterHold p).spk p = (s.spk p).held s.loc := (State.spk_onSpk hw p p (·.held s.loc)).trans (if_pos rfl)
  have hwf : Sparse.wf (fun _ => SpokePort.reset) (s.enterHold p).spoke.ports = true := State.wf_onSpk hw p (·.held s.loc)
  have hkept := State.spk_trainNext_held hwf (p := p) (by rw [hport]; rfl) (by rw [hport]; rfl)
  rw [hkept, hport]
  exact ⟨rfl, rfl, State.trainNext_mem _⟩

end

/-! ### A port comes UP (R318, R323, R326) -/

/-- The port as it comes UP. -/
def SpokePort.cameUp (x : SpokePort) (t : Ts2) (l : Nat) : SpokePort :=
  { x with
    state := .up, rxEpoch := t.epoch % 64, seqTx := 0, seqRx := 0, accepted := none, ackOwed := false, nakSent := false,
    retry := [], sentAt := [], resends := 0, progressAt := l, dedicated := t.dedicated.take 4,
    credits := t.dedicated.take 4, shared := t.shared, owed := [0, 0, 0, 0], hbRx := l, hbTx := l,
    partnerHost := t.hostAttached, drain := none }

/-- Outside a chain nobody is told of a port. -/
theorem State.notifyRoot_alone {s : State} (h : s.chain = none) (p st : Nat) : s.notifyRoot p st = s := by
  rw [State.notifyRoot, h]

theorem State.haloShed_spoke (s : State) : s.haloShed.spoke = s.spoke := by
  obtain ⟨marks, h⟩ := State.haloShed_cases s
  rw [h]

theorem State.haloShed_chain (s : State) : s.haloShed.chain = s.chain := by
  obtain ⟨marks, h⟩ := State.haloShed_cases s
  rw [h]

/-- What LINK_UP leaves before the root is told and waiting flits are sent. -/
theorem State.linkUp_eq (s : State) (p : Nat) (t : Ts2) :
    ∃ u : State, s.linkUp p t = ((u.notifyRoot p 5).pumpAll).trainNext ∧
      u.spoke = (s.haloShed.onSpk p (·.cameUp t s.loc)).spoke ∧ u.chain = s.haloShed.chain := by
  unfold State.linkUp
  dsimp only
  refine ⟨_, rfl, ?_, ?_⟩
  · rw [State.setFld_spoke, State.setFld_spoke, State.setWord_spoke]
    rfl
  · rw [State.setFld_chain, State.setFld_chain, State.setWord_chain, State.onSpk_chain]

/-- Outside a chain, a port with nothing waiting is as it came UP, but for what it owes. -/
theorem State.spk_linkUp {s : State} (hw : Sparse.wf (fun _ => SpokePort.reset) s.spoke.ports = true) (hchain : s.chain = none)
    {p : Nat} (hidle : (s.spk p).waiting = []) (t : Ts2) : ((s.spk p).cameUp t s.loc).OnlyOwes ((s.linkUp p t).spk p) := by
  obtain ⟨u, hu, hspoke, halone⟩ := s.linkUp_eq p t
  rw [State.haloShed_chain, hchain] at halone
  have hwshed : Sparse.wf (fun _ => SpokePort.reset) s.haloShed.spoke.ports = true := by
    rw [State.haloShed_spoke]
    exact hw
  have hshed : s.haloShed.spk p = s.spk p := by
    rw [State.spk, State.haloShed_spoke]
    rfl
  have hport : u.spk p = (s.spk p).cameUp t s.loc := by
    rw [State.spk, hspoke, ← hshed]
    exact (State.spk_onSpk hwshed p p (·.cameUp t s.loc)).trans (if_pos rfl)
  have hwf : Sparse.wf (fun _ => SpokePort.reset) u.spoke.ports = true := by
    rw [hspoke]
    exact State.wf_onSpk hwshed p _
  have hpumped : IdlePort u p u.pumpAll := (IdlePort.refl hwf p).pumpAll (by rw [hport]; exact hidle)
  rw [hu, State.notifyRoot_alone halone, State.spk_trainNext_up hpumped.wf (by rw [hpumped.owes, hport]; rfl), ← hport]
  exact hpumped.owes

/-! ### The rows (R317 to R320) -/

section

variable {s : State} {p : Nat} (hp : p < 4)

include hp

theorem exec_spokeSignalDetect (hrun : s.running = true) (hon : s.domOff (36 + p) = false) :
    exec (.spokeSignalDetect p) s =
      .next (if (s.spk p).state == .detect then s.setLink p .lock
        else whenDue ((s.spk p).state == .disabled && s.trainTurn == some p) (fun s => (s.startAttempt p).setLink p .lock) s) := by
  refine (onUnit_present (decide_eq_true hp) _ _).trans (congrArg _ ?_)
  rw [hrun, hon]
  rfl

omit hp in
/-- The port is in link state `x` and has power. -/
theorem State.linkIn_eq {x : LinkState} (hstate : (s.spk p).state = x) (hon : s.domOff (36 + p) = false) : s.linkIn p x = true := by
  rw [State.linkIn, hstate, hon, beq_self_eq_true]
  rfl

theorem exec_spokeTs2ExchangeDone (hin : s.linkIn p .exchange = true) (t : Ts2) :
    exec (.spokeTs2ExchangeDone p t) s = .next (s.linkUp p t) :=
  (onUnit_present (decide_eq_true hp) _ _).trans (congrArg _ (whenDue_of_due hin _ _))

theorem exec_spokeHoldExpiry (hhold : (s.spk p).state = .hold) (hturn : s.trainTurn = some p) :
    exec (.spokeHoldExpiry p) s = .next (s.startAttempt p) :=
  (onUnit_present (decide_eq_true hp) _ _).trans (congrArg _ (whenDue_of_due (by simp [hhold, hturn]) _ _))

theorem exec_spokeTrainingTimeout (htrain : (s.spk p).state.training = true) (hon : s.domOff (36 + p) = false)
    (hlate : 10000000 ≤ locDiff s.loc (s.spk p).attemptAt) :
    exec (.spokeTrainingTimeout p) s = .next (s.enterHold p).trainNext :=
  (onUnit_present (decide_eq_true hp) _ _).trans (congrArg _ (whenDue_of_due (by simp [htrain, hon, hlate]) _ _))

variable (c : s.canonical)

include c

theorem exec_spokeLockDone (hin : s.linkIn p .lock = true) (inverted : BitVec 4) :
    ∃ t, exec (.spokeLockDone p inverted) s = .next t ∧ (t.spk p).state = .align ∧
      t.fld (spkId p 4) 7 4 = inverted.toNat ∧ t.mem = s.mem := by
  refine ⟨_, (onUnit_present (decide_eq_true hp) _ _).trans (congrArg Host.Outcome.next (whenDue_of_due hin _ _)), ?_, ?_, rfl⟩
  · exact congrArg SpokePort.state ((State.spk_onSpk c.spoke_ports p p _).trans (if_pos rfl))
  · refine (State.fld_setFld_same (s := s.setLink p .align) c.regs inverted.toNat (by decide)).trans ?_
    exact Nat.mod_eq_of_lt inverted.isLt

/-- The port as it goes on to EXCHANGE. -/
def SpokePort.exchanging (x : SpokePort) : SpokePort := { x with state := .exchange, epoch := (x.epoch + 1) % 64 }

theorem exec_spokeAlignDone_good (hin : s.linkIn p .align = true) {lanes : List Nat} {skew : Nat}
    (horder : lanes = [0, 1, 2, 3] ∨ lanes = [3, 2, 1, 0]) (hskew : skew ≤ 8) :
    ∃ t, exec (.spokeAlignDone p lanes skew) s = .next t ∧ (t.spk p).state = .exchange ∧
      (t.spk p).epoch = ((s.spk p).epoch + 1) % 64 ∧ (t.spk p).ts2 = some (t.ownTs2 p) ∧
      t.bitAt (spkId p 4) 6 = (lanes == [3, 2, 1, 0]) ∧ t.mem = s.mem := by
  have hgood : ((lanes == [0, 1, 2, 3] || lanes == [3, 2, 1, 0]) && decide (skew ≤ 8)) = true := by simpa [hskew] using horder
  have hwu : Sparse.wf (fun _ => SpokePort.reset) (s.onSpk p SpokePort.exchanging).spoke.ports = true :=
    State.wf_onSpk c.spoke_ports p _
  have hfirst : (s.onSpk p SpokePort.exchanging).spk p = (s.spk p).exchanging :=
    (State.spk_onSpk c.spoke_ports p p _).trans (if_pos rfl)
  let u := (s.onSpk p SpokePort.exchanging).onSpk p fun x => { x with ts2 := some ((s.onSpk p SpokePort.exchanging).ownTs2 p) }
  have hport : u.spk p = { (s.spk p).exchanging with ts2 := some ((s.onSpk p SpokePort.exchanging).ownTs2 p) } := by
    rw [← hfirst]
    exact (State.spk_onSpk hwu p p _).trans (if_pos rfl)
  have hown : u.ownTs2 p = (s.onSpk p SpokePort.exchanging).ownTs2 p := by
    rw [State.ownTs2, State.ownTs2, hport, hfirst]
    rfl
  refine ⟨(u.setFld (spkId p 4) 6 1 (bit (lanes == [3, 2, 1, 0]))).bump (spkId p 0x106), ?_, ?_, ?_, ?_, ?_, ?_⟩
  · refine (onUnit_present (decide_eq_true hp) _ _).trans (congrArg Host.Outcome.next ((whenDue_of_due hin _ _).trans ?_))
    exact if_pos hgood
  · exact congrArg SpokePort.state hport
  · exact congrArg SpokePort.epoch hport
  · exact (congrArg SpokePort.ts2 hport).trans (congrArg some hown.symm)
  · have hother : spkId p 4 ≠ spkId p 0x106 := by unfold spkId pid; omega
    rw [State.bitAt, State.word_bump_other (s := u.setFld _ _ _ _) (State.wf_setFld c.regs _ _ _ _) hother]
    exact State.bitAt_setFld_bit (s := u) c.regs (by decide) _ _
  · rfl

theorem exec_spokeAlignDone_bad (hin : s.linkIn p .align = true) {lanes : List Nat} {skew : Nat}
    (hbad : (lanes ≠ [0, 1, 2, 3] ∧ lanes ≠ [3, 2, 1, 0]) ∨ 8 < skew) :
    ∃ t, exec (.spokeAlignDone p lanes skew) s = .next t ∧ (t.spk p).state = .hold ∧ (t.spk p).holdAt = s.loc ∧
      t.mem = s.mem := by
  have hno : ((lanes == [0, 1, 2, 3] || lanes == [3, 2, 1, 0]) && decide (skew ≤ 8)) = false := by
    rcases hbad with ⟨h1, h2⟩ | h
    · simp [h1, h2]
    · simp [Nat.not_le.2 h]
  refine ⟨_, (onUnit_present (decide_eq_true hp) _ _).trans (congrArg Host.Outcome.next ((whenDue_of_due hin _ _).trans
    (if_neg (Bool.eq_false_iff.1 hno)))), ?_⟩
  have hflag (b : Bool) : (s.flagIf b (spkId p 4) 13).spoke = s.spoke ∧ (s.flagIf b (spkId p 4) 13).loc = s.loc ∧
      (s.flagIf b (spkId p 4) 13).mem = s.mem := by simp
  obtain ⟨hspoke, hloc, hmem⟩ := hflag (!(lanes == [0, 1, 2, 3] || lanes == [3, 2, 1, 0]))
  have hheld := State.enterHold_trainNext (s := s.flagIf (!(lanes == [0, 1, 2, 3] || lanes == [3, 2, 1, 0])) (spkId p 4) 13)
    (by rw [hspoke]; exact c.spoke_ports) p
  rwa [hloc, hmem] at hheld

end

/-- Settles O40: each row by the state of the port it finds; a port just UP, or just in HOLD, is not the next in turn. -/
theorem spokePortsTrain : Obligations.SpokePortsTrain := by
  intro s p hp c
  have hw := c.spoke_ports
  refine ⟨fun hrun hon => ⟨fun hdetect => ?_, fun hdisabled hturn => ?_⟩,
    fun hstate hon inverted => exec_spokeLockDone hp c (State.linkIn_eq hstate hon) inverted,
    fun hstate hon lanes skew => ⟨fun horder hskew => exec_spokeAlignDone_good hp c (State.linkIn_eq hstate hon) horder hskew,
      fun hbad => exec_spokeAlignDone_bad hp c (State.linkIn_eq hstate hon) hbad⟩,
    fun hstate hon ts2 => ⟨exec_spokeTs2ExchangeDone hp (State.linkIn_eq hstate hon) ts2, fun hchain hidle => ?_⟩,
    fun hturn hdisabled => ?_, fun htrain hon hlate => ?_, fun hhold hturn => ⟨exec_spokeHoldExpiry hp hhold hturn, ?_⟩,
    fun v hs hok => ?_⟩
  · rw [exec_spokeSignalDetect hp hrun hon, hdetect]
    rfl
  · rw [exec_spokeSignalDetect hp hrun hon, hdisabled, hturn, whenDue_of_due (by simp)]
    rfl
  · rw [State.spk_linkUp hw hchain hidle ts2]
    exact ⟨rfl, rfl, rfl, rfl, rfl, rfl, rfl⟩
  · rw [State.trainKick, hturn]
    simp only [hdisabled, beq_self_eq_true, if_true]
  · rw [exec_spokeTrainingTimeout hp htrain hon hlate]
    exact ⟨_, rfl, State.enterHold_trainNext hw p⟩
  · rw [State.spk_startAttempt hw, if_pos rfl]
    exact ⟨rfl, rfl⟩
  · exact congrArg Host.Outcome.next ((if_pos (decide_eq_true hp)).trans (State.wordWrite_ok hs hok))

end Sys2Proof.Machine
end

section
/-!
PROOF. The sequence of a link: what receipt of a flit does to the expected and the acknowledged SEQ (O42).
-/

namespace Sys2Proof.Machine

/-! ### The receiving half of a port -/

/-- `y` expects, has accepted and has refused what `x` has. -/
structure SpokePort.SameReceipt (x y : SpokePort) : Prop where
  seqRx : y.seqRx = x.seqRx
  accepted : y.accepted = x.accepted
  nakSent : y.nakSent = x.nakSent

theorem SpokePort.SameReceipt.refl (x : SpokePort) : x.SameReceipt x := ⟨rfl, rfl, rfl⟩

theorem SpokePort.SameReceipt.trans {x y z : SpokePort} (hxy : x.SameReceipt y) (hyz : y.SameReceipt z) : x.SameReceipt z :=
  ⟨hyz.seqRx.trans hxy.seqRx, hyz.accepted.trans hxy.accepted, hyz.nakSent.trans hxy.nakSent⟩

theorem SpokePort.giveCredit_sameReceipt (x : SpokePort) (v : Nat) : x.SameReceipt (x.giveCredit v) := by
  unfold SpokePort.giveCredit
  split <;> exact ⟨rfl, rfl, rfl⟩

theorem SpokePort.SameLink.sameReceipt {x y : SpokePort} (h : x.SameLink y) : x.SameReceipt y := by
  rw [h]
  exact ⟨rfl, rfl, rfl⟩

/-- The port while the message of flit `f` goes where `w` says. -/
def SpokePort.flowing (x : SpokePort) (f : SpokeFlit) (w : Flow) : SpokePort :=
  { x with flow := updateAt x.flow f.vc fun _ => if f.last then none else some w }

/-- Port `p` of `t` has received what that of `s` has. -/
structure KeepsReceipt (s : State) (p : Nat) (t : State) : Prop where
  wf : Sparse.wf (fun _ => SpokePort.reset) t.spoke.ports = true
  port : (s.spk p).SameReceipt (t.spk p)

namespace KeepsReceipt

theorem refl {s : State} (hw : Sparse.wf (fun _ => SpokePort.reset) s.spoke.ports = true) (p : Nat) : KeepsReceipt s p s :=
  ⟨hw, .refl _⟩

section

variable {s t : State} {p : Nat} (h : KeepsReceipt s p t)

include h

theorem of_ports {u : State} (hu : u.spoke.ports = t.spoke.ports) : KeepsReceipt s p u where
  wf := hu ▸ h.wf
  port := by
    have hport : u.spk p = t.spk p := by
      rw [State.spk, hu]
      rfl
    rw [hport]
    exact h.port

theorem bump (id n : Nat) : KeepsReceipt s p (t.bump id n) := h.of_ports (by rw [State.bump_spoke])

theorem bumpIf (b : Bool) (id : Nat) : KeepsReceipt s p (t.bumpIf b id) := h.of_ports (by rw [State.bumpIf_spoke])

theorem onSpk (q : Nat) (f : SpokePort → SpokePort) (hf : ∀ x : SpokePort, x.SameReceipt (f x) := by exact fun _ => ⟨rfl, rfl, rfl⟩) :
    KeepsReceipt s p (t.onSpk q f) where
  wf := State.wf_onSpk h.wf q f
  port := by
    rw [State.spk_onSpk h.wf]
    split
    · rename_i e
      subst e
      exact h.port.trans (hf _)
    · exact h.port

theorem sendPlain (q : Nat) (f : SpokeFlit) : KeepsReceipt s p (t.sendPlain q f) :=
  (h.onSpk q _ fun x => (Upkeep.seal_sameLink x _ false).sameReceipt).bump _ _

theorem takeCredits (q : Nat) (f : SpokeFlit) : KeepsReceipt s p (t.takeCredits q f) := by
  refine h.onSpk q _ fun x => ?_
  exact List.foldlRecOn (motive := fun y => x.SameReceipt y) _ _ (.refl x) fun y hy _ _ => hy.trans (y.giveCredit_sameReceipt _)

theorem sample (quantity inst : Nat) (v : Int) : KeepsReceipt s p (t.sample quantity inst v) :=
  h.of_ports (forEach_keeps (·.spoke.ports) (f := fun s n => s.sampleOn n v) (fun _ _ => rfl) _ _)

theorem takeAck (q : Nat) (f : SpokeFlit) : KeepsReceipt s p (t.takeAck q f) := by
  unfold State.takeAck
  split
  · exact h
  · dsimp only
    split
    · exact h
    · exact (h.sample _ _ _).onSpk q _

/-! ### Flits that go on -/

theorem freeEntryOf (q v : Nat) : KeepsReceipt s p (t.freeEntryOf q v) := h.onSpk q _

theorem setRoute (a v : Nat) : KeepsReceipt s p (t.setRoute a v) := h.of_ports rfl

theorem forwardFlit (q : Nat) (qs : List Nat) (f : SpokeFlit) : KeepsReceipt s p (t.forwardFlit q qs f) := by
  unfold State.forwardFlit
  dsimp only
  split
  · exact h.freeEntryOf q _
  · exact forEach_induction (KeepsReceipt s p) (fun _ r k => k.onSpk r _) _ h

theorem assemble (q : Nat) (f : SpokeFlit) : KeepsReceipt s p (t.assemble q f).2 := by
  unfold State.assemble
  dsimp only
  split
  · dsimp only
    exact (h.onSpk q _).bump _ _
  · split
    · dsimp only
      exact h.onSpk q _
    · dsimp only
      exact h.onSpk q _

theorem routeFlit (q : Nat) (f : SpokeFlit) : KeepsReceipt s p (t.routeFlit q f).2 := by
  unfold State.routeFlit
  have hflow := h.onSpk q (·.flowing f (((t.spk q).flow.getD f.vc none).getD (t.flowOf q f)))
  dsimp only
  split
  · exact (hflow.bump _ _).freeEntryOf q _
  · split
    · exact (hflow.bumpIf _ _).freeEntryOf q _
    · dsimp only
      split
      · exact (hflow.setRoute _ _).forwardFlit q _ f
      · exact hflow.forwardFlit q _ f
    · exact (hflow.freeEntryOf q _).assemble q f
    · exact (hflow.forwardFlit q _ f).assemble q f

end

end KeepsReceipt

/-! ### Receipt (R324, R325, R328, R330) -/

section

variable {s : State} {p : Nat} {f : SpokeFlit}

theorem State.rx_bad_unsequenced (hbad : f.check ≠ flitCheck (s.spk p).rxEpoch f) (hseq : sequenced f = false) :
    s.rx p f = (none, s.bump (spkId p 0x102)) := by
  simp only [State.rx, bne_iff_ne.2 hbad, hseq, if_true, Bool.false_eq_true, if_false]

variable (hgood : f.check = flitCheck (s.spk p).rxEpoch f)

include hgood

theorem State.rx_illegal (hlegal : flitLegal f = false) : s.rx p f = (none, (s.flag (spkId p 4) 13).linkDown p .hold) := by
  rw [State.rx, if_neg (by simpa using hgood), if_pos (by rw [hlegal]; rfl)]

variable (hlegal : flitLegal f = true)

include hlegal

theorem State.rx_legal :
    s.rx p f =
      if !sequenced f then
        (none, if f.mtype == 0 && bitOf (leAt f.payload 0 1) 0 then ((s.takeAck p f).takeCredits p f).resend p
          else (s.takeAck p f).takeCredits p f)
      else if f.seq.toNat != ((s.takeAck p f).spk p).seqRx then (none, (s.takeAck p f).sendNak p)
      else ((((s.takeAck p f).takeCredits p f).onSpk p fun x =>
        { x with seqRx := (x.seqRx + 1) % 1024, accepted := some f.seq.toNat, ackOwed := true, nakSent := false }).bump
          (spkId p 0x101)).routeFlit p f := by
  rw [State.rx, if_neg (by simpa using hgood), if_neg (by simp [hlegal])]

variable (hw : Sparse.wf (fun _ => SpokePort.reset) s.spoke.ports = true)

include hw

/-- A flit out of order is refused: nothing of it is taken but its acknowledgement. -/
theorem State.rx_out_of_order (hseq : sequenced f = true) (hnot : f.seq.toNat ≠ (s.spk p).seqRx) :
    (s.rx p f).1 = none ∧ ((s.rx p f).2.spk p).seqRx = (s.spk p).seqRx ∧
      ((s.rx p f).2.spk p).accepted = (s.spk p).accepted := by
  have hack : KeepsReceipt s p (s.takeAck p f) := (KeepsReceipt.refl hw p).takeAck p f
  rw [State.rx_legal hgood hlegal, hseq, hack.port.seqRx]
  simp only [Bool.not_true, Bool.false_eq_true, if_false, bne_iff_ne.2 hnot, if_true, true_and]
  unfold State.sendNak
  split
  · exact ⟨hack.port.seqRx, hack.port.accepted⟩
  · have hrefused : ((s.takeAck p f).onSpk p fun x => { x with nakSent := true }).spk p =
        { (s.takeAck p f).spk p with nakSent := true } := (State.spk_onSpk hack.wf p p _).trans (if_pos rfl)
    have hsent := (KeepsReceipt.refl (State.wf_onSpk hack.wf p fun x => { x with nakSent := true }) p).sendPlain p (linkFlit true)
    rw [hsent.port.seqRx, hsent.port.accepted, hrefused]
    exact ⟨hack.port.seqRx, hack.port.accepted⟩

/-- The next flit is accepted. -/
theorem State.rx_next (hseq : sequenced f = true) (hnext : f.seq.toNat = (s.spk p).seqRx) :
    ((s.rx p f).2.spk p).seqRx = ((s.spk p).seqRx + 1) % 1024 ∧ ((s.rx p f).2.spk p).accepted = some f.seq.toNat ∧
      ((s.rx p f).2.spk p).nakSent = false := by
  have hack : KeepsReceipt s p (s.takeAck p f) := (KeepsReceipt.refl hw p).takeAck p f
  have hcredit : KeepsReceipt s p ((s.takeAck p f).takeCredits p f) := hack.takeCredits p f
  let accept : SpokePort → SpokePort := fun x =>
    { x with seqRx := (x.seqRx + 1) % 1024, accepted := some f.seq.toNat, ackOwed := true, nakSent := false }
  have hport : (((s.takeAck p f).takeCredits p f).onSpk p accept).spk p = accept (((s.takeAck p f).takeCredits p f).spk p) :=
    (State.spk_onSpk hcredit.wf p p _).trans (if_pos rfl)
  have hrouted := (((KeepsReceipt.refl (State.wf_onSpk hcredit.wf p accept) p).bump (spkId p 0x101) 1).routeFlit p f).port
  rw [State.rx_legal hgood hlegal, hseq, hack.port.seqRx]
  simp only [Bool.not_true, Bool.false_eq_true, if_false, hnext, bne_self_eq_false]
  rw [← hnext]
  refine ⟨hrouted.seqRx.trans ?_, hrouted.accepted.trans (by rw [hport]), hrouted.nakSent.trans (by rw [hport])⟩
  rw [hport, hnext]
  exact congrArg (fun n => (n + 1) % 1024) hcredit.port.seqRx

end

/-! ### Acknowledged flits (R325) -/

theorem SpokePort.giveCredit_retry (x : SpokePort) (v : Nat) :
    (x.giveCredit v).retry = x.retry ∧ (x.giveCredit v).resends = x.resends := by
  unfold SpokePort.giveCredit
  split <;> exact ⟨rfl, rfl⟩

section

variable {s : State} {p : Nat} (hw : Sparse.wf (fun _ => SpokePort.reset) s.spoke.ports = true) (f : SpokeFlit)

include hw

theorem State.retry_takeCredits :
    ((s.takeCredits p f).spk p).retry = (s.spk p).retry ∧ ((s.takeCredits p f).spk p).resends = (s.spk p).resends := by
  rw [State.takeCredits, State.spk_onSpk hw, if_pos rfl]
  refine List.foldlRecOn (motive := fun y => SpokePort.retry y = _ ∧ SpokePort.resends y = _) _ _ ⟨rfl, rfl⟩ fun y hy _ _ => ?_
  obtain ⟨hretry, hresends⟩ := y.giveCredit_retry f.credVc
  exact ⟨hretry.trans hy.1, hresends.trans hy.2⟩

/-- The flit named and all older ones leave the retry buffer. -/
theorem State.retry_takeAck {i : Nat} (hvalid : f.ackValid = true)
    (hi : (s.spk p).retry.findIdx? (fun g => g.seq == f.ack) = some i) :
    ((s.takeAck p f).spk p).retry = (s.spk p).retry.drop (i + 1) ∧ ((s.takeAck p f).spk p).resends = 0 := by
  have hwf : Sparse.wf (fun _ => SpokePort.reset)
      (s.sample 0xD p (locDiff s.loc ((s.spk p).sentAt.getD i s.loc))).spoke.ports = true :=
    ((KeepsReceipt.refl hw p).sample _ _ _).wf
  unfold State.takeAck
  simp only [hvalid, Bool.not_true, Bool.false_eq_true, if_false, hi]
  rw [State.spk_onSpk hwf, if_pos rfl]
  exact ⟨rfl, rfl⟩

/-- A LINK flit without NAK. -/
theorem State.retry_rx {i : Nat} (hgood : f.check = flitCheck (s.spk p).rxEpoch f) (hkind : f.mtype = 0) (hvc : f.vc = 0)
    (hnak : bitOf (leAt f.payload 0 1) 0 = false) (hvalid : f.ackValid = true)
    (hi : (s.spk p).retry.findIdx? (fun g => g.seq == f.ack) = some i) :
    ((s.rx p f).2.spk p).retry = (s.spk p).retry.drop (i + 1) ∧ ((s.rx p f).2.spk p).resends = 0 := by
  have hlegal : flitLegal f = true := by simp [flitLegal, hkind, hvc]
  have hseq : sequenced f = false := by simp [sequenced, hkind]
  have hack : KeepsReceipt s p (s.takeAck p f) := (KeepsReceipt.refl hw p).takeAck p f
  obtain ⟨hretry, hresends⟩ := State.retry_takeCredits (p := p) hack.wf f
  rw [State.rx_legal hgood hlegal, hseq]
  simp only [Bool.not_false, if_true, hnak, Bool.and_false, Bool.false_eq_true, if_false]
  rw [hretry, hresends]
  exact State.retry_takeAck hw f hvalid hi

end

/-- A row that takes no message sends what can be sent. -/
theorem flitRow_sends {p : Nat} {f : SpokeFlit} {kind : Bool} {s : State} (hp : p < 4) (hup : s.spkUp p = true) (hkind : kind = true) :
    flitRow p f kind (fun _ s => s) s = .next (s.rx p f).2.pumpAll := by
  rw [flitRow, onUnit_present (decide_eq_true hp), whenDue_of_due (by rw [hup, hkind]; rfl)]
  dsimp only
  obtain ⟨m, u⟩ := s.rx p f
  cases m <;> rfl

theorem exec_linkRx (p : Nat) (f : SpokeFlit) (s : State) :
    exec (.linkRx p f) s = flitRow p f (f.mtype == 0) (fun _ s => s) s := rfl

theorem exec_spokeFlitDiscard (p : Nat) (f : SpokeFlit) (s : State) :
    exec (.spokeFlitDiscard p f) s = flitRow p f (f.check != flitCheck (s.spk p).rxEpoch f ||
      (sequenced f && f.seq.toNat != (s.spk p).seqRx) || decide (6 < f.mtype)) (fun _ s => s) s := rfl

/-- Settles O42: receipt case by case, by what each of its steps leaves of the port's receiving half. -/
theorem flitsAreNumberedAndAcknowledged : Obligations.FlitsAreNumberedAndAcknowledged := by
  intro s p f c hp hup
  have hw := c.spoke_ports
  refine ⟨State.rx_bad_unsequenced, fun hgood hlegal hseq hnot => State.rx_out_of_order hgood hlegal hw hseq hnot,
    fun hgood hlegal hseq hnext => State.rx_next hgood hlegal hw hseq hnext,
    fun i hgood hkind hvc hnak hvalid hi => State.retry_rx hw f hgood hkind hvc hnak hvalid hi, fun hkind => ?_,
    State.rx_illegal, fun hbad => ?_⟩
  · rw [exec_linkRx, flitRow_sends hp hup (by rw [hkind]; rfl)]
  · rw [exec_spokeFlitDiscard, flitRow_sends hp hup (by simpa [or_assoc] using hbad)]

end Sys2Proof.Machine
end

section
/-!
PROOF. The ENUM messages, and the host's acceptance of a changed module (O44).
-/

namespace Sys2Proof.Machine

/-! ### ENUM messages (R338 to R344, R425) -/

section

variable {p : Nat} {f : SpokeFlit} {m : Message} {s u : State} (hp : p < 4) (hup : s.spkUp p = true) (hkind : f.mtype = 2)
  (hrx : s.rx p f = (some m, u)) (hsub : leAt f.payload 2 1 = m.sub)

include hp hup hkind hrx hsub

theorem enumRow_message :
    enumRow m.sub p f s =
      .next (if u.restarting then { u with spoke := { u.spoke with deferred := u.spoke.deferred ++ [m] } } else u.takeEnum m).pumpAll :=
  flitRow_message hp hup (by simp [enumFlit, hkind, hsub]) _ hrx

/-- Outside a warm restart a row of its SUB takes the message. -/
theorem enumRow_taken (hwarm : u.restarting = false) {sub : Nat} (h : m.sub = sub) :
    enumRow sub p f s = .next (u.takeEnum m).pumpAll := by
  subst h
  rw [enumRow_message hp hup hkind hrx hsub, hwarm]
  rfl

/-- During one the message waits. -/
theorem enumRow_deferred (hwarm : u.restarting = true) {sub : Nat} (h : m.sub = sub) :
    enumRow sub p f s = .next { u with spoke := { u.spoke with deferred := u.spoke.deferred ++ [m] } }.pumpAll := by
  subst h
  rw [enumRow_message hp hup hkind hrx hsub, hwarm]
  rfl

end

/-! ### ACCEPT (R343) -/

theorem chainId_block : chainId 2 / 0x1000000 = 0x12 ∧ chainId 2 / 0x10000 % 256 = 0x10 ∧ chainId 2 % 0x10000 = 2 := by decide

theorem State.written_accept (s : State) (old v : Word) : s.written (chainId 2) old v = s.acceptWritten v := by
  obtain ⟨hblock, hunit, hindex⟩ := chainId_block
  simp only [State.written, hblock, hunit, hindex]
  rfl

/-- An entry of the node table that names a module reads back as set, whatever the table. -/
theorem State.chainNode_setNode (s : State) (a : Nat) (n : ChainNode) : (s.setNode a (some n)).chainNode a = some n :=
  Sparse.get_set_new (fun _ => none) s.spoke.nodes (Option.some_ne_none n)

theorem exec_spokeAcceptWrite {s : State} {v : Word} {n : ChainNode} (hs : s.wordService = true)
    (hok : s.refusesWrite (chainId 2) v = none) (hgo : bitOf v.toNat 8 = true) (hn : s.chainNode (bitsOf v.toNat 0 8) = some n) :
    ∃ t, exec (.spokeAcceptWrite v) s = .next t ∧ t.lastStatus = .ok ∧
      t.chainNode (bitsOf v.toNat 0 8) = some { n with state := 1, digest := n.found } ∧ t.mem = s.mem := by
  obtain ⟨fs, hl⟩ := State.lookup_of_accepted hok
  have hput : s.putWord (chainId 2) v = ((s.madeGood (chainId 2)).setWord (chainId 2)
      (mergeWrite fs (s.word (chainId 2)) v)).setNode (bitsOf v.toNat 0 8) (some { n with state := 1, digest := n.found }) := by
    rw [State.putWord_alwaysOn hl rfl, State.written_accept, State.acceptWritten, if_pos hgo]
    have hnode : (State.setWord (if chainId 2 = timeId 0 then (s.madeGood (chainId 2)).reanchor else s.madeGood (chainId 2))
      (chainId 2) (mergeWrite fs (s.word (chainId 2)) v)).chainNode (bitsOf v.toNat 0 8) = some n := hn
    rw [hnode]
    rfl
  refine ⟨_, congrArg Host.Outcome.next (State.wordWrite_ok hs hok), rfl, ?_, ?_⟩
  · show (s.putWord (chainId 2) v).chainNode _ = _
    rw [hput, State.chainNode_setNode]
  · show (s.putWord (chainId 2) v).mem = _
    rw [hput]
    rfl

/-- Settles O44: each message by the row of its SUB, ACCEPT by the effect of its write. -/
theorem enumerationMessages : Obligations.EnumerationMessages := by
  intro s
  refine ⟨fun p f m u hp hup hkind hrx hsub => ⟨fun hwarm => ?_, ?_⟩, fun v n hs hok hgo hn => exec_spokeAcceptWrite hs hok hgo hn⟩
  · have take {sub : Nat} (h : m.sub = sub) := enumRow_taken hp hup hkind hrx hsub hwarm h
    refine ⟨fun h => (take h).trans ?_, fun h => (take h).trans ?_, fun h => (take h).trans ?_, fun h => (take h).trans ?_,
      fun h => (take h).trans ?_, fun h => (take h).trans ?_, fun h hroot => (take h).trans ?_⟩
    case refine_7 => simp only [State.takeEnum, h, hroot, if_true]
    all_goals simp only [State.takeEnum, h]
  · intro hwarm w hw
    have wait {sub : Nat} (h : m.sub = sub) : enumRow sub p f s = .next w := by
      rw [hw]
      exact enumRow_deferred hp hup hkind hrx hsub hwarm h
    exact ⟨wait (sub := 1), wait (sub := 2), wait (sub := 3), wait (sub := 4), wait (sub := 5), wait (sub := 6), wait (sub := 7)⟩

end Sys2Proof.Machine
end

section
/-!
PROOF. The SDIO card: its commands, and the accesses to its functions (O45).
-/

namespace Sys2Proof.Machine

/-! ### Commands (R347, R348) -/

section

variable {s : State} (h : s.cardReady 2000000 = true)

include h

theorem exec_sdioCmd0 : exec .sdioCmd0 s = .next (s.onSdio fun d => { d with readError := false }) :=
  congrArg Host.Outcome.next (whenDue_of_due h _ s)

theorem exec_sdioCmd3 :
    exec .sdioCmd3 s =
      .next ({ s with free := s.free + 1 }.onSdio fun d =>
        { d with rca := Config.cardAddress s.free % 65536, readError := false }) :=
  congrArg Host.Outcome.next (whenDue_of_due h _ s)

theorem exec_sdioCmd5 (arg : Word) :
    ∃ t, exec (.sdioCmd5 arg) s = .next t ∧ t.host.sdio.readData.length = 4 ∧
      t.host.sdio.readError = false ∧ t.host.sdio.selected = s.host.sdio.selected ∧ t.regs = s.regs ∧ t.mem = s.mem :=
  ⟨_, congrArg Host.Outcome.next (whenDue_of_due h _ s), length_leBytes 4 _, rfl, rfl, rfl, rfl⟩

theorem exec_sdioCmd7 (rca : BitVec 16) :
    ∃ t, exec (.sdioCmd7 rca) s = .next t ∧
      t.hostAttached = (rca.toNat == s.host.sdio.rca && s.host.sdio.rca != 0) ∧ t.regs = s.regs ∧ t.mem = s.mem :=
  ⟨_, congrArg Host.Outcome.next (whenDue_of_due h _ s), rfl, rfl, rfl⟩

theorem exec_sdioCmd11 : exec .sdioCmd11 s = .next (s.onSdio fun d => { d with switched := true, readError := false }) :=
  congrArg Host.Outcome.next (whenDue_of_due h _ s)

theorem exec_sdioCmd19 (hhost : s.hostAttached = true) :
    exec .sdioCmd19 s = .next (s.onSdio fun d => { d with tuned := true, readData := Config.tuningBlock, readError := false }) :=
  congrArg Host.Outcome.next (whenDue_of_due (by rw [h, hhost]; rfl) _ s)

theorem exec_sdioIllegalCommand {index : Nat} (hnot : index ∉ [0, 3, 5, 7, 11, 19, 52, 53]) :
    exec (.sdioIllegalCommand index) s = .next (s.onSdio fun d => { d with illegal := some index, readError := true }) :=
  congrArg Host.Outcome.next (whenDue_of_due (by rw [h, List.contains_eq_mem, decide_eq_false hnot]; rfl) _ s)

end

/-! ### Accesses (R347, R349, R352) -/

/-- An access begins with no error. -/
def State.accessBegun (s : State) : State := s.onSdio fun d => { d with readError := false }

/-- What F0 and F1 read does not show the error of the last access. -/
theorem State.readFn_accessBegun (s : State) (fn : Nat) (as : List Nat) : s.accessBegun.readFn fn as = s.readFn fn as := rfl

section

variable {s : State} {fn : Nat} (h : s.fnReady fn = true)

include h

theorem exec_sdioCmd52 (w raw : Bool) (a : Nat) (b : Byte) :
    exec (.sdioCmd52 w raw fn a b) s =
      .next (if 1 < fn then s.accessError
        else
          let t := if w then s.accessBegun.writeFn fn [(a, b)] else s.accessBegun
          if w && !raw then t.onSdio fun d => { d with readData := [b] }
          else t.onSdio fun d => { d with readData := t.readFn fn [a] }) :=
  congrArg Host.Outcome.next (whenDue_of_due h _ s)

/-- Bytes of F0 or F1. -/
theorem exec_sdioCmd53_bytes (hfn : fn ≤ 1) (w up : Bool) (a : Nat) {n : Nat} (h1 : 1 ≤ n) (hn : n ≤ 512) (bs : List Byte) :
    exec (.sdioCmd53 w false up fn a n bs) s =
      .next (if w then s.accessBegun.writeFn fn (((upTo n).map fun i => if up then a + i else a).zip (padTo n bs))
        else s.accessBegun.onSdio fun d =>
          { d with readData := s.accessBegun.readFn fn ((upTo n).map fun i => if up then a + i else a) }) := by
  refine congrArg Host.Outcome.next ((whenDue_of_due h _ s).trans ?_)
  have hok : (!(decide (1 ≤ n) && decide (n ≤ 512)) || decide (2 < fn)) = false := by
    simp only [Bool.or_eq_false_iff, Bool.not_eq_false', Bool.and_eq_true, decide_eq_true_eq, decide_eq_false_iff_not]
    omega
  simp only [Bool.false_eq_true, if_false, hok, if_neg (show ¬ fn = 2 by omega)]
  rfl

/-- An access to a function that the card does not have. -/
theorem exec_sdioCmd53_absent (hfn : 2 < fn) (w x up : Bool) (a n : Nat) (bs : List Byte) :
    exec (.sdioCmd53 w x up fn a n bs) s = .next s.accessError := by
  refine congrArg Host.Outcome.next ((whenDue_of_due h _ s).trans ?_)
  simp only [hfn, decide_true, Bool.or_true, if_true]

end

/-- Blocks written to the data port. -/
theorem exec_sdioCmd53_blocks {s : State} (h : s.fnReady 2 = true) {n : Nat} (h1 : 1 ≤ n) (hn : n ≤ 511) (bs : List Byte) :
    exec (.sdioCmd53 true true false 2 0 n bs) s =
      .next (if s.bulkHeld then s.accessBegun
        else forEach (chunksOf 512 (padTo (512 * n) bs)) (fun s b => s.bulkWrite b) s.accessBegun) := by
  refine congrArg Host.Outcome.next ((whenDue_of_due h _ s).trans ?_)
  simp only [h1, hn, decide_true, Bool.true_and, if_true]
  rfl

/-- Settles O45: each command and access by its own row. -/
theorem cardCommands : Obligations.CardCommands := by
  intro s
  refine ⟨fun h => ⟨exec_sdioCmd0 h, exec_sdioCmd3 h, exec_sdioCmd5 h, exec_sdioCmd7 h, exec_sdioCmd11 h, exec_sdioCmd19 h,
    fun _ => exec_sdioIllegalCommand h⟩, fun fn h _ => ⟨fun hfn a b raw => ⟨?_, ?_⟩, fun hfn a n up bs h1 hn => ⟨?_, ?_⟩, ?_,
    fun hfn a n b w x up bs => ⟨?_, exec_sdioCmd53_absent h hfn w x up a n bs⟩⟩⟩
  · rw [exec_sdioCmd52 h, if_neg (Nat.not_lt.2 hfn)]
    rfl
  · rw [exec_sdioCmd52 h, if_neg (Nat.not_lt.2 hfn)]
    rfl
  · rw [exec_sdioCmd53_bytes h hfn false up a h1 hn]
    rfl
  · rw [exec_sdioCmd53_bytes h hfn true up a h1 hn]
    rfl
  · rintro rfl n bs h1 hn
    refine ⟨fun hfree => ?_, fun hheld => ?_⟩
    · rw [exec_sdioCmd53_blocks h h1 hn, hfree]
      rfl
    · rw [exec_sdioCmd53_blocks h h1 hn, hheld]
      rfl
  · rw [exec_sdioCmd52 h, if_pos (by omega)]

end Sys2Proof.Machine
end

section
/-!
PROOF. The mailbox, the blocks of bulk sessions, and the end of a wait for a forwarded command (O46).
-/

namespace Sys2Proof.Machine

/-! ### Mailbox (R349, R350, R355) -/

section

variable {s : State}

theorem exec_inDoorbellWrite (h : s.fnReady 1 = true) (n : BitVec 16) :
    exec (.inDoorbellWrite n) s =
      .next (if s.host.sdio.busy then s.overrun else s.onSdio fun d => { d with busy := true, doorbell := n.toNat }) :=
  congrArg Host.Outcome.next (whenDue_of_due h _ s)

theorem exec_commandPacketAccept (hpower : s.powered = true) (hbusy : s.host.sdio.busy = true) :
    exec .commandPacketAccept s =
      .next ((s.onSdio fun d => { d with busy := false }).takePacket true s.addr s.host.sdio.doorbell
        ((upTo 4096).map fun i => Sparse.get (fun _ => 0) s.host.sdio.inbox i)) :=
  congrArg Host.Outcome.next (whenDue_of_due (by rw [hpower, hbusy]; rfl) _ s)

/-- With no reset under way, the head leaves, and the oldest reply that waited follows. -/
theorem State.outAck_replies {b : List Byte} {rest : List (List Byte)} (hreplies : s.host.replies = b :: rest)
    (hreset : s.host.resetReply = none) :
    s.outAck = s.onHost fun h => { h with
      replies := rest ++ (h.stalled.take 1).map (·.2), stalled := h.stalled.drop 1 } := by
  simp only [State.outAck, hreplies, hreset, Option.any_none, Bool.false_eq_true, if_false]
  have houtbox : ∀ u : State, u.host.resetReply = none → u.outboxHead = u := fun u hu => by
    rw [State.outboxHead, hu]
    cases u.host.replies.head? <;> rfl
  exact houtbox _ hreset

theorem exec_outAckWrite (h : s.fnReady 1 = true) {v : Byte} (hv : bitOf v.toNat 0 = true) :
    exec (.outAckWrite v) s = .next s.outAck := congrArg Host.Outcome.next (whenDue_of_due (by rw [h, hv]; rfl) _ s)

end

/-! ### Bulk sessions (R352) -/

theorem padTo_of_length {n : Nat} {bs : List Byte} (h : bs.length = n) : padTo n bs = bs := by
  subst h
  simp [padTo]

@[simp] theorem State.length_readBytes (s : State) (a n : Nat) : (s.readBytes a n).length = n := by simp [State.readBytes, upTo]

section

variable {s : State}

/-- An own bulk-in session is never held. -/
theorem State.bulkHeld_own {b : BulkIn} (hb : s.host.bulkIn = some b) (hdest : b.dest = s.addr) : s.bulkHeld = false := by
  simp [State.bulkHeld, hb, hdest]

theorem State.bulkHeld_none (hb : s.host.bulkIn = none) : s.bulkHeld = false := by simp [State.bulkHeld, hb]

theorem exec_bulkBlockWrite (h : s.fnReady 2 = true) (hfree : s.bulkHeld = false) (data : List Byte) :
    exec (.bulkBlockWrite data) s = .next (s.bulkWrite data) :=
  congrArg Host.Outcome.next (whenDue_of_due (by rw [h, hfree]; rfl) _ s)

/-- A block that does not end an own session is stored behind those before it. -/
theorem State.bulkWrite_own {b : BulkIn} (hb : s.host.bulkIn = some b) (hdest : b.dest = s.addr) {data : List Byte}
    (hlen : data.length = 512) (hmore : b.got + 512 < b.length) :
    s.bulkWrite data =
      (s.onHost fun h => { h with bulkIn := some { b with got := b.got + 512 } }).writeBytes (stagingBase + b.got) data := by
  have hpart : (padTo 512 data).take (b.length - b.got) = data := by
    rw [padTo_of_length hlen, List.take_of_length_le (by omega)]
  simp only [State.bulkWrite, hb, hpart, hlen, hdest, if_pos hmore, if_true]

/-- A block of an own session that does not end it. -/
theorem State.bulkRead_more {b : BulkOut} (hb : s.host.bulkOut = some b) (hdest : b.dest = s.addr) (hmore : b.pos + 512 < b.length) :
    s.bulkRead.host.sdio.readData = s.readBytes (dumpBase + b.offset + b.pos) 512 ∧
      (s.bulkRead.host.bulkOut.map (·.pos)) = some (b.pos + 512) ∧ s.bulkRead.regs = s.regs ∧ s.bulkRead.mem = s.mem := by
  obtain ⟨hdata, hmem⟩ := State.bulkRead_own hb hdest
  have hblock : min 512 (b.length - b.pos) = 512 := by omega
  rw [hblock, padTo_of_length (s.length_readBytes _ _)] at hdata
  refine ⟨hdata, ?_, ?_, hmem⟩
  · simp only [State.bulkRead, hb, hdest, decide_true, Bool.not_true, Bool.false_and, Bool.false_eq_true, if_false, hblock,
      if_pos hmore, State.onSdio_host, State.onHost_host, Option.map_some]
  · simp only [State.bulkRead, hb, hdest, decide_true, Bool.not_true, Bool.false_and, Bool.false_eq_true, if_false]
    rfl

theorem exec_bulkInComplete {x : Staged} (hpower : s.powered = true) (hx : s.mgmt.model.staged = some x)
    (harrived : x.arrived = true) (hfresh : x.complete = false) :
    exec .bulkInComplete s = .next (s.onModel fun m => { m with staged := some { x with complete := true } }) := by
  have hdue : (s.powered && s.mgmt.model.staged.any fun x => x.arrived && !x.complete) = true := by
    rw [hpower, hx]
    simp [harrived, hfresh]
  refine congrArg Host.Outcome.next ((whenDue_of_due hdue _ s).trans ?_)
  simp only [State.onModel, hx, Option.map_some]

end

/-! ### Forwarded commands (R359) -/

section

variable {s : State}

/-- A reply that finds room is the last of the queue. -/
theorem State.pushReply_room (hroom : s.host.replies.length < 256) (tag : Nat) (b : List Byte) :
    (s.pushReply tag b).host.replies = s.host.replies ++ [b] ∧ (s.pushReply tag b).host.forwarded = s.host.forwarded ∧
      (s.pushReply tag b).host.running = s.host.running ∧ (s.pushReply tag b).regs = s.regs ∧ (s.pushReply tag b).mem = s.mem := by
  rw [State.pushReply, if_pos hroom]
  dsimp only
  split
  · unfold State.outboxHead
    split
    · split <;> exact ⟨rfl, rfl, rfl, rfl, rfl⟩
    · exact ⟨rfl, rfl, rfl, rfl, rfl⟩
  · exact ⟨rfl, rfl, rfl, rfl, rfl⟩

/-- The form of a reply does not depend on the counter of forwarded commands without answer. -/
theorem State.replyBytes_bump_timeouts (s : State) (op tag dest : Nat) (st : Status) (p : List Byte) :
    (s.bump (sdioId 0x103)).replyBytes op tag dest st p = s.replyBytes op tag dest st p := by
  have hchain : (s.bump (sdioId 0x103)).addr = s.addr := congrArg (fun c : Option (BitVec 8) => (c.getD 0).toNat) (State.bump_chain _ _ _)
  have hversion : (s.bump (sdioId 0x103)).packetVersion = s.packetVersion := by
    have hconfig : (s.bump (sdioId 0x103)).word (pid 1 0 0x100) = s.word (pid 1 0 0x100) :=
      State.word_bump_of_zero (by decide) (by decide) s
    rw [State.packetVersion, State.packetVersion, State.compat, State.compat, State.bitAt, State.bitAt, hconfig]
  rw [State.replyBytes, State.replyBytes, hchain, hversion]

theorem exec_fwdTimeout {dest : Byte} {tag : BitVec 12} {f : Forwarded} (hpower : s.powered = true)
    (hf : s.host.forwarded.find? (fun f => f.dest == dest.toNat && f.tag == tag.toNat) = some f)
    (hlate : s.fld (sdioId 0) 0 16 * 1000000 + (if isLong f.opcode then 30000000000 else 0) ≤ locDiff s.loc f.start)
    (hroom : s.host.replies.length < 256) :
    ∃ t, exec (.fwdTimeout dest tag) s = .next t ∧ t.host.forwarded = s.host.forwarded.erase f ∧
      t.host.replies = s.host.replies ++ [s.replyBytes f.opcode f.tag s.addr .timeout []] ∧ t.mem = s.mem := by
  let u := (s.onHost fun h => { h with forwarded := h.forwarded.erase f }).bump (sdioId 0x103)
  have hhost : u.host = { s.host with forwarded := s.host.forwarded.erase f } := by rw [State.bump_host, State.onHost_host]
  have hreply : u.replyBytes f.opcode f.tag u.addr .timeout [] = s.replyBytes f.opcode f.tag s.addr .timeout [] := by
    rw [State.replyBytes_bump_timeouts]
    rfl
  obtain ⟨hreplies, hforwarded, -, -, hmem⟩ := State.pushReply_room (s := u) (by rw [hhost]; exact hroom) noTag
    (u.replyBytes f.opcode f.tag u.addr .timeout [])
  refine ⟨u.pushReply noTag (u.replyBytes f.opcode f.tag u.addr .timeout []), congrArg Host.Outcome.next ?_, ?_, ?_, ?_⟩
  · rw [hf]
    exact whenDue_of_due (by rw [hpower, decide_eq_true hlate]; rfl) _ s
  · rw [hforwarded, hhost]
  · rw [hreplies, hhost, hreply]
  · exact hmem.trans (State.bump_mem _ _ _)

end

/-- Settles O46: each row by the function it runs; the bytes of a block by the writes of memory. -/
theorem mailboxAndBulkData : Obligations.MailboxAndBulkData := by
  intro s c
  refine ⟨fun n h => ⟨fun hbusy => ?_, fun hbusy => ?_⟩, exec_commandPacketAccept, fun v b rest h hv hreplies hreset => ?_,
    fun data b h hb hdest hlen hmore => ?_, fun data h hb => ?_, fun b h hb hdest hmore => ?_,
    fun x hpower hx harrived hfresh => exec_bulkInComplete hpower hx harrived hfresh,
    fun dest tag f hpower hf hlate hroom => exec_fwdTimeout hpower hf hlate hroom⟩
  · rw [exec_inDoorbellWrite h, hbusy]
    rfl
  · rw [exec_inDoorbellWrite h, hbusy]
    rfl
  · rw [exec_outAckWrite h hv, State.outAck_replies hreplies hreset]
  · have hmem : Memory.wf (s.onHost fun h => { h with bulkIn := some { b with got := b.got + 512 } }).mem = true := c.mem
    rw [exec_bulkBlockWrite h (State.bulkHeld_own hb hdest), State.bulkWrite_own hb hdest hlen hmore]
    refine ⟨_, rfl, ?_, fun i hi => ?_, fun a ha => ?_, State.writeBytes_regs _ _ _⟩
    · rw [State.writeBytes_host, State.onHost_host]
    · rw [State.readByte_writeBytes data _ _ hmem, if_pos (by omega), Nat.add_sub_cancel_left]
    · refine State.readByte_writeBytes_other hmem ?_
      simp only [inRange, Bool.and_eq_false_iff, decide_eq_false_iff_not] at ha
      omega
  · rw [exec_bulkBlockWrite h (State.bulkHeld_none hb), State.bulkWrite, hb]
  · have hdue : (s.fnReady 2 && !s.bulkWaits 512) = true := by simp [h, State.bulkWaits_own hb hdest]
    exact ⟨_, congrArg Host.Outcome.next (whenDue_of_due hdue _ s), State.bulkRead_more hb hdest hmore⟩

end Sys2Proof.Machine
end

section
/-!
PROOF. The hot-swap controller and input power-good (O7).
-/

namespace Sys2Proof.Machine

/-! ### A word below every listed one -/

/-- Below every listed key nothing is listed, so nothing is removed. -/
theorem Sparse.drop_above {α : Type} {k : Nat} : ∀ {m : Sparse α}, Sparse.above k m = true → Sparse.drop k m = m
  | [], _ => rfl
  | (j, w) :: m, h => by
    have hj : k < j := (Sparse.above_cons.1 h).1
    simp [Sparse.drop, hj, hj.ne]

/-- A write below every listed key reads back, whatever the order of the other keys. -/
theorem Sparse.get_set_above {α : Type} [DecidableEq α] (d : Nat → α) {m : Sparse α} {k : Nat} (h : Sparse.above k m = true) (v : α) :
    Sparse.get d (Sparse.set d m k v) k = v := by
  unfold Sparse.set
  split
  · next hv => rw [Sparse.drop_above h, Sparse.get_above d h, hv]
  · exact Sparse.get_put_same d k v m

/-- COMPAT_SEL as sampled reads back in HW_CONFIG[25]. -/
theorem State.bitAt_sampleCompat {s : State} (h : Sparse.above (pid 1 0 0x100) s.regs = true) (compatSel : Bool) :
    (s.sampleCompat compatSel).bitAt (pid 1 0 0x100) 25 = compatSel := by
  have hword : (s.sampleCompat compatSel).word (pid 1 0 0x100) =
      BitVec.ofNat 32 (withBits (s.word (pid 1 0 0x100)).toNat 25 1 (bit compatSel)) := Sparse.get_set_above _ h _
  have hlt : withBits (s.word (pid 1 0 0x100)).toNat 25 1 (bit compatSel) < 2 ^ 32 :=
    withBits_lt (s.word (pid 1 0 0x100)).isLt (by omega)
  rw [State.bitAt, hword, BitVec.toNat_ofNat, Nat.mod_eq_of_lt hlt, bitOf_eq_bitsOf, bitsOf_withBits]
  cases compatSel <;> rfl

/-! ### The loss of input power (R461) -/

/-- Of the parameter words ATTEST_COUNT alone survives a loss of input power, and it lies above HW_CONFIG. -/
theorem State.unpowered_above (s : State) (next : Supply) (trips : Nat) :
    Sparse.above (pid 1 0 0x100) (s.unpowered next trips).regs = true := by
  simp only [State.unpowered, Sparse.above, List.all_eq_true, List.mem_filter, beq_iff_eq, decide_eq_true_eq]
  rintro e ⟨-, hkey⟩
  rw [hkey]
  decide

/-- What a module reads as while input power-good begins (R373 step 1, R428). -/
structure State.Starting (s : State) : Prop where
  supply : s.mgmt.board.supply = .on
  loc : s.loc = 0
  pos : s.pos.count = 0
  cmd : s.cmd = .boot
  faultN : s.mgmt.fault.faultN = true
  mem : s.mem = []
  regs : Sparse.above (pid 1 0 0x100) s.regs = true

theorem State.starting_unpowered (s : State) (trips : Nat) : (s.unpowered .on trips).Starting where
  supply := rfl
  loc := rfl
  pos := rfl
  cmd := rfl
  faultN := rfl
  mem := rfl
  regs := s.unpowered_above .on trips

theorem State.Starting.onSec {s : State} (h : s.Starting) (f : SecState → SecState) : (s.onSec f).Starting where
  supply := h.supply
  loc := h.loc
  pos := h.pos
  cmd := h.cmd
  faultN := h.faultN
  mem := h.mem
  regs := h.regs

/-- The erase of an entry into RETURNED changes only the security engine and the flash. -/
theorem State.Starting.finishErase {s : State} (h : s.Starting) : s.finishErase.Starting := by
  unfold State.finishErase
  split
  · exact ⟨h.supply, h.loc, h.pos, h.cmd, h.faultN, h.mem, h.regs⟩
  · exact h

theorem State.Starting.setFld {s : State} (h : s.Starting) (id lsb width v : Nat) :
    (s.setFld id lsb width v).mgmt.board.supply = .on ∧ (s.setFld id lsb width v).loc = 0 ∧
      (s.setFld id lsb width v).pos.count = 0 ∧ (s.setFld id lsb width v).cmd = .boot ∧
      (s.setFld id lsb width v).mgmt.fault.faultN = true ∧ (s.setFld id lsb width v).mem = [] :=
  ⟨h.supply, h.loc, h.pos, h.cmd, h.faultN, h.mem⟩

/-! ### The rows -/

section

variable {s : State}

theorem exec_powerGood (h : s.mgmt.board.supply = .charging) (compatSel : Bool) :
    exec (.powerGood compatSel) s =
      .next ((((s.unpowered .on s.mgmt.board.trips).onSec fun c =>
        { c with nonces := c.nonces + 1, powerUps := c.powerUps + 1 }).finishErase).sampleCompat compatSel) :=
  congrArg Host.Outcome.next (whenDue_of_due (by rw [h]; rfl) _ s)

/-- Start-up begins with the counters at 0, FAULT_N asserted and nothing in memory. -/
theorem powerGood_starts (h : s.mgmt.board.supply = .charging) (compatSel : Bool) :
    ∃ t, exec (.powerGood compatSel) s = .next t ∧ t.mgmt.board.supply = .on ∧ t.loc = 0 ∧ t.pos.count = 0 ∧
      t.cmd = .boot ∧ t.mgmt.fault.faultN = true ∧ t.mem = [] ∧ t.bitAt (pid 1 0 0x100) 25 = compatSel := by
  have hstart := ((State.starting_unpowered s s.mgmt.board.trips).onSec fun c =>
    { c with nonces := c.nonces + 1, powerUps := c.powerUps + 1 }).finishErase
  obtain ⟨hsupply, hloc, hpos, hcmd, hfaultN, hmem⟩ := hstart.setFld (pid 1 0 0x100) 25 1 (bit compatSel)
  exact ⟨_, exec_powerGood h compatSel, hsupply, hloc, hpos, hcmd, hfaultN, hmem, State.bitAt_sampleCompat hstart.regs compatSel⟩

theorem exec_vinOutOfRange_connected
    (h : s.mgmt.board.supply = .qualifying ∨ s.mgmt.board.supply = .charging ∨ s.mgmt.board.supply = .on) :
    exec .vinOutOfRange s = .next (s.unpowered .qualifying 0) := by
  rw [show exec .vinOutOfRange s = execVinOutOfRange s from rfl, execVinOutOfRange]
  rcases h with h | h | h <;> rw [h]

theorem exec_vinOutOfRange_lockedOut (h : s.mgmt.board.supply = .lockedOut) :
    exec .vinOutOfRange s =
      .next (if Config.vinRemoved s.free then State.unpowered { s with free := s.free + 1 } .qualifying 0
        else { s with free := s.free + 1 }) := by
  rw [show exec .vinOutOfRange s = execVinOutOfRange s from rfl, execVinOutOfRange, h]
  rfl

/-- An excursion of VIN disconnects the load, but for a lock-out that is no removal. -/
theorem vinOutOfRange_disconnects
    (h : s.mgmt.board.supply = .qualifying ∨ s.mgmt.board.supply = .charging ∨ s.mgmt.board.supply = .on ∨
      s.mgmt.board.supply = .lockedOut) :
    ∃ t, exec .vinOutOfRange s = .next t ∧ t.mgmt.sec = s.mgmt.sec ∧ t.mgmt.board.store = s.mgmt.board.store ∧
      (s.mgmt.board.supply ≠ .lockedOut ∨ Config.vinRemoved s.free = true →
        t.mgmt.board.supply = .qualifying ∧ t.mgmt.board.trips = 0 ∧ t.mgmt.fault.faultN = true ∧ t.mem = []) ∧
      (s.mgmt.board.supply = .lockedOut → Config.vinRemoved s.free = false → t = { s with free := s.free + 1 }) := by
  by_cases hlocked : s.mgmt.board.supply = .lockedOut
  · cases hremoved : Config.vinRemoved s.free with
    | true =>
      refine ⟨State.unpowered { s with free := s.free + 1 } .qualifying 0,
        by rw [exec_vinOutOfRange_lockedOut hlocked, hremoved]; rfl, rfl, rfl, fun _ => ⟨rfl, rfl, rfl, rfl⟩, ?_⟩
      exact fun _ hkept => absurd hkept (by decide)
    | false =>
      refine ⟨{ s with free := s.free + 1 }, by rw [exec_vinOutOfRange_lockedOut hlocked, hremoved]; rfl, rfl, rfl, ?_,
        fun _ _ => rfl⟩
      rintro (hne | htrue)
      · exact absurd hlocked hne
      · exact absurd htrue (by decide)
  · have hconnected : s.mgmt.board.supply = .qualifying ∨ s.mgmt.board.supply = .charging ∨ s.mgmt.board.supply = .on := by
      tauto
    exact ⟨_, exec_vinOutOfRange_connected hconnected, rfl, rfl, fun _ => ⟨rfl, rfl, rfl, rfl⟩, fun h => absurd h hlocked⟩

theorem exec_vinOutOfRange_waits (h : s.mgmt.board.supply = .absent ∨ s.mgmt.board.supply = .tripped) :
    exec .vinOutOfRange s = .next s := by
  rw [show exec .vinOutOfRange s = execVinOutOfRange s from rfl, execVinOutOfRange]
  rcases h with h | h <;> rw [h]

theorem exec_presentNOpen (h : s.mgmt.board.supply ≠ .absent) : exec .presentNOpen s = .next (s.unpowered .absent 0) :=
  congrArg Host.Outcome.next (whenDue_of_due (bne_iff_ne.2 h) _ s)

theorem exec_overcurrentTrip (h : s.powered = true) :
    exec .overcurrentTrip s =
      .next (s.unpowered (if s.mgmt.board.trips + 1 < 3 then .tripped else .lockedOut) (s.mgmt.board.trips + 1)) :=
  congrArg Host.Outcome.next (whenDue_of_due h _ s)

end

/-- Settles O7: each row is due in its state of the controller, and a loss of input power keeps the fuses and the flash alone. -/
theorem inputPowerSequence : Obligations.InputPowerSequence := by
  intro s
  refine ⟨fun h => ?_, fun h => ?_, fun h => ?_, powerGood_starts, vinOutOfRange_disconnects, exec_vinOutOfRange_waits,
    fun h => ⟨_, exec_presentNOpen h, rfl, rfl, rfl, rfl, rfl⟩, fun h => ⟨_, exec_overcurrentTrip h, rfl, rfl, rfl⟩⟩
  · exact congrArg Host.Outcome.next (whenDue_of_due (beq_iff_eq.2 h) _ s)
  · exact congrArg Host.Outcome.next (whenDue_of_due (beq_iff_eq.2 h) _ s)
  · exact congrArg Host.Outcome.next (whenDue_of_due (beq_iff_eq.2 h) _ s)

end Sys2Proof.Machine
end

section
/-!
PROOF. The start-up sequence, the reset of MODULE_RESET and the model store (O8).
-/

namespace Sys2Proof.Machine

section

variable {s : State}

/-! ### The boot slice set (R452, R453) -/

/-- Recording a run touches the self-test's own record and two words, nothing else. -/
theorem State.recordRun_frame (s : State) (rs : List SliceResult) (boot : Bool) :
    (s.recordRun rs boot).mgmt = (s.onTest fun t => { t with results := rs, bootRun := boot }).mgmt ∧
      (s.recordRun rs boot).cmd = s.cmd ∧ (s.recordRun rs boot).mem = s.mem := by
  unfold State.recordRun State.countSlices
  split
  · exact ⟨by rw [State.setFld_mgmt, State.bump_mgmt], by rw [State.setFld_cmd, State.bump_cmd]; rfl,
      by rw [State.setFld_mem, State.bump_mem]; rfl⟩
  · exact ⟨State.bump_mgmt _ _ _, State.bump_cmd _ _ _, State.bump_mem _ _ _⟩

/-- The state in which a boot run of `rs` has been recorded with its time. -/
def State.bootRecorded (s : State) (rs : List SliceResult) : State :=
  (s.recordRun rs true).setFld (pid 0x17 0 0) 16 14 (runTime rs / 10)

theorem State.bootRecorded_frame (s : State) (rs : List SliceResult) :
    (s.bootRecorded rs).mgmt = (s.onTest fun t => { t with results := rs, bootRun := true }).mgmt ∧
      (s.bootRecorded rs).cmd = s.cmd ∧ (s.bootRecorded rs).mem = s.mem := by
  rw [State.bootRecorded, State.setFld_mgmt, State.setFld_cmd, State.setFld_mem]
  exact s.recordRun_frame rs true

theorem exec_bootSliceSetDone {results : List SliceResult} (hboot : s.booting = true) (hfresh : s.mgmt.test.bootDone = false)
    (hcodes : results.map (·.code) = bootCodes) :
    exec (.bootSliceSetDone results) s =
      .next (if (failedOf results).isEmpty then
        ((s.bootRecorded results).onTest fun t => { t with bootDone := true }).onFault fun f => { f with faultN := false }
      else (s.bootRecorded results).enterSafe) :=
  congrArg Host.Outcome.next (whenDue_of_due (by rw [hboot, hfresh, hcodes]; exact beq_iff_eq.2 rfl) _ s)

theorem State.cmd_of_booting (h : s.booting = true) : s.cmd = .boot := by
  simp only [State.booting, Bool.and_eq_true, beq_iff_eq] at h
  exact h.1.1.2

/-- With every slice passed the module stays in BOOT and FAULT_N is released. -/
theorem bootSliceSetDone_passed {results : List SliceResult} (hboot : s.booting = true) (hfresh : s.mgmt.test.bootDone = false)
    (hcodes : results.map (·.code) = bootCodes) (hpass : failedOf results = []) :
    ∃ t, exec (.bootSliceSetDone results) s = .next t ∧ t.mgmt.fault.faultN = false ∧ t.mgmt.test.bootDone = true ∧
      t.cmd = .boot ∧ t.mgmt.test.results = results ∧ t.mem = s.mem := by
  have hrow := exec_bootSliceSetDone hboot hfresh hcodes
  obtain ⟨hmgmt, hcmd, hmem⟩ := s.bootRecorded_frame results
  rw [hpass] at hrow
  exact ⟨_, hrow, rfl, rfl, hcmd.trans (State.cmd_of_booting hboot), congrArg (fun m : MgmtState => m.test.results) hmgmt, hmem⟩

/-- With a failed slice the module enters SAFE, FAULT_N asserted. -/
theorem bootSliceSetDone_failed {results : List SliceResult} (hboot : s.booting = true) (hfresh : s.mgmt.test.bootDone = false)
    (hcodes : results.map (·.code) = bootCodes) (hfail : failedOf results ≠ []) :
    ∃ t, exec (.bootSliceSetDone results) s = .next t ∧ t.mgmt.fault.faultN = true ∧ t.cmd = .safe ∧
      t.mgmt.test.results = results ∧ t.mem = s.mem := by
  have hrow := exec_bootSliceSetDone hboot hfresh hcodes
  obtain ⟨hmgmt, -, hmem⟩ := s.bootRecorded_frame results
  rw [if_neg (by rw [List.isEmpty_iff]; exact hfail)] at hrow
  exact ⟨_, hrow, rfl, rfl, congrArg (fun m : MgmtState => m.test.results) hmgmt, hmem⟩

/-! ### The firmware copy (R446) -/

/-- The state after the copies have been tried. -/
def State.verified (s : State) (preferredOk otherOk : Bool) : State :=
  if s.copyAccepted s.mgmt.sec.preferred preferredOk then s.runCopy s.mgmt.sec.preferred 0
  else if s.copyAccepted (1 - s.mgmt.sec.preferred) otherOk then s.runCopy (1 - s.mgmt.sec.preferred) 1
  else (s.onTest fun t => { t with fwResult := 2 }).enterSafe

theorem exec_firmwareVerified (hboot : s.booting = true) (hdone : s.mgmt.test.bootDone = true) (preferredOk otherOk : Bool) :
    exec (.firmwareVerified preferredOk otherOk) s = .next (s.verified preferredOk otherOk) :=
  congrArg Host.Outcome.next (whenDue_of_due (by rw [hboot, hdone]; rfl) _ s)

theorem State.verified_frame (s : State) (preferredOk otherOk : Bool) :
    (s.verified preferredOk otherOk).regs = s.regs ∧ (s.verified preferredOk otherOk).mem = s.mem ∧
      (s.verified preferredOk otherOk).pos = s.pos := by
  unfold State.verified
  split
  · exact ⟨rfl, rfl, rfl⟩
  · split
    · exact ⟨rfl, rfl, rfl⟩
    · exact ⟨rfl, rfl, rfl⟩

/-- The preferred copy runs when it is accepted, else the other one, else the module enters SAFE. -/
theorem firmwareVerified_chooses (preferredOk otherOk : Bool) (hboot : s.booting = true) (hdone : s.mgmt.test.bootDone = true) :
    ∃ t, exec (.firmwareVerified preferredOk otherOk) s = .next t ∧ t.regs = s.regs ∧ t.mem = s.mem ∧ t.pos = s.pos ∧
      (s.copyAccepted s.mgmt.sec.preferred preferredOk = true → t.cmd = .early ∧ t.mgmt.sec.running = s.mgmt.sec.preferred) ∧
      (s.copyAccepted s.mgmt.sec.preferred preferredOk = false → s.copyAccepted (1 - s.mgmt.sec.preferred) otherOk = true →
        t.cmd = .early ∧ t.mgmt.sec.running = 1 - s.mgmt.sec.preferred) ∧
      (s.copyAccepted s.mgmt.sec.preferred preferredOk = false → s.copyAccepted (1 - s.mgmt.sec.preferred) otherOk = false →
        t.cmd = .safe ∧ t.mgmt.fault.faultN = true) := by
  obtain ⟨hregs, hmem, hpos⟩ := s.verified_frame preferredOk otherOk
  refine ⟨_, exec_firmwareVerified hboot hdone preferredOk otherOk, hregs, hmem, hpos, fun h => ?_, fun h h' => ?_, fun h h' => ?_⟩
  · rw [State.verified, h, if_pos rfl]
    exact ⟨rfl, rfl⟩
  · rw [State.verified, h, h', if_neg (by decide), if_pos rfl]
    exact ⟨rfl, rfl⟩
  · rw [State.verified, h, h', if_neg (by decide), if_neg (by decide)]
    exact ⟨rfl, rfl⟩

/-! ### READY (R373 step 10) -/

theorem exec_startupReady (hpower : s.powered = true) (hcmd : s.cmd = .early) (hports : s.portsTried = true) :
    exec .startupReady s = .next { s.fuseFirmware with cmd := .ready } :=
  congrArg Host.Outcome.next (whenDue_of_due (by rw [hpower, hcmd, hports]; rfl) _ s)

theorem State.fuseFirmware_of_copy {f : FwCopy} (h : s.copyOf s.mgmt.sec.running = some f) :
    s.fuseFirmware = s.onSec fun c => { c with fuseSvn := max c.fuseSvn f.svn, revoked := c.revoked ||| f.revoke % 16 } := by
  rw [State.fuseFirmware, h]

/-! ### The reset of MODULE_RESET (R375) -/

theorem exec_moduleResetExecute (h : s.resetDue = true) (compatSel : Bool) :
    exec (.moduleResetExecute compatSel) s = .next (s.rebooted compatSel false) :=
  congrArg Host.Outcome.next (whenDue_of_due h _ s)

/-- What a reset starts from and what it keeps. -/
theorem State.rebooted_frame (s : State) (compatSel hold : Bool) :
    (s.rebooted compatSel hold).cmd = .boot ∧ (s.rebooted compatSel hold).armed = false ∧ (s.rebooted compatSel hold).tags = [] ∧
      (s.rebooted compatSel hold).mgmt.fault = { FaultState.reset with faultN := true, thermalHold := hold } ∧
      (s.rebooted compatSel hold).loc = s.loc ∧ (s.rebooted compatSel hold).pos.count = s.pos.count ∧
      (s.rebooted compatSel hold).pos.log = s.pos.log ∧
      (s.rebooted compatSel hold).mem = s.mem.filter fun e => inRange dumpBase dumpSize e.1 := by
  obtain ⟨z, hz, hcmd, harmed, htags, hfault, hloc, hcount, hlog, hmem⟩ : ∃ z : State, s.rebooted compatSel hold = z.sampleCompat compatSel ∧
      z.cmd = .boot ∧ z.armed = false ∧ z.tags = [] ∧
      z.mgmt.fault = { FaultState.reset with faultN := true, thermalHold := hold } ∧ z.loc = s.loc ∧ z.pos.count = s.pos.count ∧
      z.pos.log = s.pos.log ∧ z.mem = s.mem.filter fun e => inRange dumpBase dumpSize e.1 :=
    ⟨_, rfl, rfl, rfl, rfl, rfl, rfl, rfl, rfl, rfl⟩
  rw [hz, State.sampleCompat, State.tags, State.setFld_cmd, State.setFld_armed, State.setFld_host, State.setFld_mgmt,
    State.setFld_loc, State.setFld_pos, State.setFld_mem]
  exact ⟨hcmd, harmed, htags, hfault, hloc, hcount, hlog, hmem⟩

/-- A reset keeps every byte of the dump area. -/
theorem State.readByte_rebooted (h : Memory.wf s.mem = true) (compatSel hold : Bool) {a : Nat}
    (ha : inRange dumpBase dumpSize a = true) : (s.rebooted compatSel hold).readByte a = s.readByte a := by
  obtain ⟨-, -, -, -, -, -, -, hmem⟩ := s.rebooted_frame compatSel hold
  rw [State.readByte, hmem, Sparse.get_filter memDefault (inRange dumpBase dumpSize) a h, if_pos ha]
  rfl

end

/-- Settles O8: each row by the function it runs; a reset filters memory to the dump area. -/
theorem startUpSequence : Obligations.StartUpSequence := by
  intro s
  refine ⟨fun results hboot hfresh hcodes => ⟨bootSliceSetDone_passed hboot hfresh hcodes,
      bootSliceSetDone_failed hboot hfresh hcodes⟩, firmwareVerified_chooses, fun hpower hcmd hports f hf => ?_,
    fun hdue compatSel => ?_, fun img himg hawake => ?_⟩
  · have hrow := exec_startupReady hpower hcmd hports
    rw [State.fuseFirmware_of_copy hf] at hrow
    exact ⟨_, hrow, rfl, rfl, rfl, rfl, rfl⟩
  · obtain ⟨hcmd, harmed, htags, hfault, hloc, hcount, hlog, -⟩ := s.rebooted_frame compatSel false
    exact ⟨_, exec_moduleResetExecute hdue compatSel, hcmd, harmed, htags, congrArg FaultState.faultN hfault, hloc, hcount, hlog,
      fun c a ha => State.readByte_rebooted c.mem compatSel false ha⟩
  · rw [show exec .modelStoreCopyDone s = execModelStoreCopyDone s from rfl, execModelStoreCopyDone, himg]
    exact congrArg Host.Outcome.next (whenDue_of_due hawake _ s)

end Sys2Proof.Machine
end

section
/-!
PROOF. Commands on model images, and the cut of a swap (O53).
-/

namespace Sys2Proof.Machine

/-! ### What installing and unloading an image leave alone (R386, R389) -/

/-- The records of management and memory of two states agree. -/
def State.sameMgmt (s t : State) : Prop := t.mgmt = s.mgmt ∧ t.mem = s.mem

theorem State.sameMgmt_self {s : State} : s.sameMgmt s := ⟨rfl, rfl⟩

theorem State.sameMgmt.trans {s t u : State} (h : s.sameMgmt t) (h' : t.sameMgmt u) : s.sameMgmt u :=
  ⟨h'.1.trans h.1, h'.2.trans h.2⟩

theorem State.sameMgmt_forEach {α : Type} {f : State → α → State} (h : ∀ (s : State) (x : α), s.sameMgmt (f s x)) (xs : List α) (s : State) :
    s.sameMgmt (forEach xs f s) :=
  ⟨forEach_keeps (·.mgmt) (fun s x => (h s x).1) xs s, forEach_keeps (·.mem) (fun s x => (h s x).2) xs s⟩

theorem State.sameMgmt_setMap (s : State) (router : RouterState) (m : Nat) :
    s.sameMgmt (({ s with rtr := router } : State).setMap m) := ⟨rfl, rfl⟩

theorem State.sameMgmt_clearBlock (s : State) (b : Nat) : s.sameMgmt (s.clearBlock b) := by
  unfold State.clearBlock State.sleepIdle
  split
  · exact ⟨rfl, rfl⟩
  · exact ⟨rfl, rfl⟩

theorem State.sameMgmt_loadBlock (s : State) (b : Nat) (ib : ImageBlock) : s.sameMgmt (s.loadBlock b ib) := by
  obtain ⟨hmgmt, hmem⟩ := (s.sameMgmt_clearBlock b).trans
    (State.sameMgmt_forEach (f := fun s (w : Nat × Nat) => s.setWord (pid 5 b w.1) (BitVec.ofNat 32 w.2)) (fun _ _ => ⟨rfl, rfl⟩)
      ib.words (s.clearBlock b))
  exact ⟨hmgmt, hmem⟩

theorem State.sameMgmt_forceSensor (s : State) (lr j : Nat) : s.sameMgmt (s.forceSensor lr j) := by
  unfold State.forceSensor
  split
  · exact ⟨rfl, rfl⟩
  · exact ⟨rfl, rfl⟩
  · exact State.sameMgmt_self

theorem State.sameMgmt_blankBlocks (s : State) : s.sameMgmt (forEach (upTo 128) (fun s b => s.blankBlock b) s) :=
  State.sameMgmt_forEach (f := fun s b => s.blankBlock b) (fun s b => s.sameMgmt_clearBlock b) (upTo 128) s

theorem State.sameMgmt_loadBlocks (s : State) (set : Nat) (ibs : List ImageBlock) :
    s.sameMgmt (forEach ibs (fun s ib => match s.physOf set ib.place with | some b => s.loadBlock b ib | none => s) s) := by
  refine State.sameMgmt_forEach
    (f := fun s (ib : ImageBlock) => match s.physOf set ib.place with | some b => s.loadBlock b ib | none => s) (fun s ib => ?_) ibs s
  split
  · exact s.sameMgmt_loadBlock _ _
  · exact State.sameMgmt_self

theorem State.sameMgmt_writeParams (s : State) (ws : List (Nat × Nat)) :
    s.sameMgmt (forEach ws (fun s w => match lookup w.1 with
      | .word fs => s.setWord w.1 (mergeWrite fs (s.word w.1) (BitVec.ofNat 32 w.2))
      | _ => s) s) := by
  refine State.sameMgmt_forEach (f := fun s (w : Nat × Nat) => match lookup w.1 with
      | .word fs => s.setWord w.1 (mergeWrite fs (s.word w.1) (BitVec.ofNat 32 w.2))
      | _ => s) (fun s w => ?_) ws s
  split
  · exact ⟨rfl, rfl⟩
  · exact State.sameMgmt_self

theorem State.sameMgmt_forceSensors (s : State) :
    s.sameMgmt (forEach (upTo 8) (fun s lr => forEach (upTo 32) (fun s j => s.forceSensor lr j) s) s) :=
  State.sameMgmt_forEach (f := fun s lr => forEach (upTo 32) (fun s j => s.forceSensor lr j) s) (fun s lr =>
    State.sameMgmt_forEach (f := fun s j => s.forceSensor lr j) (fun s j => s.sameMgmt_forceSensor lr j) (upTo 32) s) (upTo 8) s

/-- The stores of an image are filled, and it is the active one. -/
theorem State.installStores_mgmt (s : State) (m : Model) :
    (s.onModel fun x => { x with active := some m }).sameMgmt (s.installStores m) := by
  unfold State.installStores
  extract_lets set named subs router mapped blanked loaded written
  have hmapped : named.sameMgmt mapped := named.sameMgmt_setMap _ set
  have hblanked : mapped.sameMgmt blanked := mapped.sameMgmt_blankBlocks
  have hloaded : blanked.sameMgmt loaded := blanked.sameMgmt_loadBlocks set m.blocks
  have hwritten : loaded.sameMgmt written := loaded.sameMgmt_writeParams m.params
  exact (((hmapped.trans hblanked).trans hloaded).trans hwritten).trans written.sameMgmt_forceSensors

theorem State.sameMgmt_setRegionIf (s : State) (c : Bool) (r v : Nat) : s.sameMgmt (if c then s.setRegion r v else s) := by
  split
  · exact ⟨State.setRegion_mgmt _ _ _, State.setRegion_mem _ _ _⟩
  · exact State.sameMgmt_self

theorem State.sameMgmt_placeRegions (s : State) (m : Model) : s.sameMgmt (s.placeRegions m) :=
  ⟨forEach_keeps (·.mgmt) (fun s r => (s.sameMgmt_setRegionIf _ r _).1) (upTo 8) s,
    forEach_keeps (·.mem) (fun s r => (s.sameMgmt_setRegionIf _ r _).2) (upTo 8) s⟩

theorem State.installPlan_mgmt (s : State) (p : Plan) : (s.installPlan p).mgmt = s.mgmt := rfl

theorem State.installPlan_mem (s : State) (p : Plan) : (s.installPlan p).mem = s.mem := rfl

/-- An installed image is the active one, and memory is as before. -/
theorem State.installModel_frame (s : State) (m : Model) :
    (s.installModel m).mgmt.model.active = some m ∧ (s.installModel m).mem = s.mem := by
  obtain ⟨hmgmt, hmem⟩ := (s.installStores_mgmt m).trans ((s.installStores m).sameMgmt_placeRegions m)
  rw [State.installModel, State.installPlan_mgmt, State.installPlan_mem, hmgmt, hmem]
  exact ⟨rfl, rfl⟩

theorem State.sameMgmt_clearBlocks (s : State) : s.sameMgmt (forEach (upTo 128) (fun s b => s.clearBlock b) s) :=
  State.sameMgmt_forEach (f := fun s b => s.clearBlock b) (fun s b => s.sameMgmt_clearBlock b) (upTo 128) s

theorem State.sameMgmt_freeRegion (s : State) (r : Nat) : s.sameMgmt (if s.region r = 1 then s.setRegion r 0 else s) := by
  split
  · exact ⟨State.setRegion_mgmt _ _ _, State.setRegion_mem _ _ _⟩
  · exact State.sameMgmt_self

theorem State.sameMgmt_freeRegions (s : State) :
    s.sameMgmt (forEach (upTo 8) (fun s r => if s.region r = 1 then s.setRegion r 0 else s) s) :=
  ⟨forEach_keeps (·.mgmt) (fun s r => (s.sameMgmt_freeRegion r).1) (upTo 8) s,
    forEach_keeps (·.mem) (fun s r => (s.sameMgmt_freeRegion r).2) (upTo 8) s⟩

/-- An unloaded image leaves none active; the rest of management and memory are as before. -/
theorem State.unloadModel_frame (s : State) :
    s.unloadModel.mgmt = (s.onModel fun x => { x with active := none }).mgmt ∧ s.unloadModel.mem = s.mem := by
  unfold State.unloadModel
  extract_lets cleared freed router unmapped
  have hcleared : s.sameMgmt cleared := s.sameMgmt_clearBlocks
  obtain ⟨hmgmt, hmem⟩ : s.sameMgmt freed := hcleared.trans cleared.sameMgmt_freeRegions
  have hunmapped : freed.sameMgmt unmapped := freed.sameMgmt_setMap _ 0
  rw [State.onModel_mgmt, State.installPlan_mgmt, State.onModel_mem, State.installPlan_mem, hunmapped.1, hunmapped.2, hmgmt, hmem]
  exact ⟨rfl, rfl⟩

/-- Where installing fails no image is active, and the staged one stays. -/
theorem State.installFailed_model (s : State) :
    s.installFailed.mgmt.model.active = none ∧ s.installFailed.mgmt.model.staged = s.mgmt.model.staged := by
  obtain ⟨hmgmt, -⟩ := s.unloadModel_frame
  have hfailed : s.installFailed.mgmt = s.unloadModel.mgmt := rfl
  rw [hfailed, hmgmt]
  exact ⟨rfl, rfl⟩

/-! ### The commands -/

section

variable {s : State} {r : Req}

theorem exec_imageBegin_accepted {kind n : Nat} (h : s.accepts 0x0200 r = true) (hlen : r.payload.length = 12)
    (hkind : leAt r.payload 0 1 = kind) (hk : kind < 2) (hzero : leAt r.payload 1 3 = 0) (hsize : leAt r.payload 4 8 = n)
    (hn : n ≠ 0) (hmax : n ≤ 2 ^ 32) (hswap : s.swapping = false) (hin : s.host.bulkIn = none) (hremote : s.host.remoteIn = none)
    (hown : r.src.toNat = s.addr) :
    exec (.imageBegin r) s =
      .next (((s.onModel fun m => { m with staged := some ⟨kind, n, false, false⟩ }).onHost fun h =>
        { h with bulkIn := some ⟨r.tag.toNat, s.addr, kind, n, 0⟩ }).answer 0x0200 r .ok []) := by
  refine congrArg Host.Outcome.next ((State.commandRow_replies h (st := .ok) (p := [])
    (t := ((s.taken 0x0200 r).onModel fun m => { m with staged := some ⟨kind, n, false, false⟩ }).onHost fun h =>
      { h with bulkIn := some ⟨r.tag.toNat, s.addr, kind, n, 0⟩ }) ?_).trans ?_)
  · rw [imageBeginBody, withLength_eq _ hlen]
    subst hkind hsize
    rw [if_neg (by simp only [hzero, Nat.not_le.2 hk, decide_false, Nat.not_lt.2 hmax, beq_eq_false_iff_ne.2 hn]; decide), if_neg (by simp [hswap, hin, hremote])]
    have hown' : r.src.toNat = ((s.taken 0x0200 r).onModel fun m =>
      { m with staged := some ⟨leAt r.payload 0 1, leAt r.payload 4 8, false, false⟩ }).addr := hown
    simp only [← hown', if_true, reply, State.taken_addr, hown]
  · conv_rhs => rw [← State.released_accepted h]
    rfl

theorem selector_passes {p : List Byte} {n : Nat} (h : selectorOf p = some n) : (selectorOf p != some n) = false := by
  rw [h]
  exact bne_self_eq_false _

/-- An image that passes its checks and whose resources are free is installed, unless installing fails. -/
theorem exec_imageCommit_checked {m : Model} {o : Outcome} {t : State} (h : s.accepts 0x0201 r = true)
    (hsel : selectorOf r.payload = some 0) (hcheck : (s.taken 0x0201 r).checkModel (some r.payload) = .ok (m, o))
    (hclaim : (s.taken 0x0201 r).claimModel m o = .ok t) :
    exec (.imageCommit r) s = .next
      (if Config.installFails t.free then ((State.installFailed { t with free := t.free + 1 }).startRunning 0x0201 r .internal []).released 0x0201 r
       else ((((State.installModel { t with free := t.free + 1 } m).storeImage ((s.stagedModel.map s.stagedBytes).getD []) m).dropStaged.startRunning
         0x0201 r o.status o.bytes).released 0x0201 r)) := by
  cases hfails : Config.installFails t.free with
  | true =>
    refine congrArg Host.Outcome.next (State.commandRow_goesOn h ?_)
    rw [imageCommitBody, selector_passes hsel, hcheck, if_neg Bool.false_ne_true]
    simp only [hclaim, State.takeFree, hfails, if_true, later]
  | false =>
    refine congrArg Host.Outcome.next (State.commandRow_goesOn h ?_)
    rw [imageCommitBody, selector_passes hsel, hcheck, if_neg Bool.false_ne_true]
    simp only [hclaim, State.takeFree, hfails, Bool.false_eq_true, if_false, later]
    rfl

theorem exec_imageCommit_noRoom {m : Model} {o : Outcome} {e : Status} {b : List Byte} (h : s.accepts 0x0201 r = true)
    (hsel : selectorOf r.payload = some 0) (hcheck : (s.taken 0x0201 r).checkModel (some r.payload) = .ok (m, o))
    (hclaim : (s.taken 0x0201 r).claimModel m o = .error (e, b)) :
    exec (.imageCommit r) s = .next (s.answer 0x0201 r e b) := by
  refine congrArg Host.Outcome.next (State.commandRow_reports h ?_)
  rw [imageCommitBody, selector_passes hsel, hcheck, if_neg Bool.false_ne_true]
  simp only [hclaim, replyWith]

theorem exec_imageCommit_badImage {e : Status} {b : List Byte} (h : s.accepts 0x0201 r = true)
    (hsel : selectorOf r.payload = some 0) (hcheck : (s.taken 0x0201 r).checkModel (some r.payload) = .error (e, b)) :
    exec (.imageCommit r) s = .next ((s.countAuth e).answer 0x0201 r e b) := by
  refine congrArg Host.Outcome.next ((State.commandRow_replies h (st := e) (p := b) (t := (s.taken 0x0201 r).countAuth e) ?_).trans ?_)
  · rw [imageCommitBody, selector_passes hsel, hcheck, if_neg Bool.false_ne_true]
    rfl
  · rw [State.released_countAuth, State.released_accepted h]

theorem exec_imageUnload_active (h : s.accepts 0x0202 r = true) (hlen : r.payload.length = 4)
    (hsel : selectorOf r.payload = some 1) (hactive : s.mgmt.model.active.isSome = true) :
    exec (.imageUnload r) s =
      .next (((s.taken 0x0202 r).unloadModel.dropImageClaims.startRunning 0x0202 r .ok []).released 0x0202 r) := by
  refine congrArg Host.Outcome.next (State.commandRow_goesOn h ?_)
  have hsome : (s.taken 0x0202 r).mgmt.model.active.isNone = false := by
    rw [State.taken_mgmt, Option.isNone_eq_false_iff, hactive]
  rw [imageUnloadBody, withLength_eq _ hlen, hsel]
  simp only [hsome, Bool.false_eq_true, if_false, later]

theorem exec_imageUnload_staged {x : Staged} (h : s.accepts 0x0202 r = true) (hlen : r.payload.length = 4)
    (hsel : selectorOf r.payload = some 0) (hstaged : s.mgmt.model.staged = some x) (hkind : x.kind = 0) :
    exec (.imageUnload r) s = .next (s.closeModelSession.dropStaged.startRunning 0x0202 r .ok []) := by
  refine congrArg Host.Outcome.next ((State.commandRow_starts h (t := (s.taken 0x0202 r).closeModelSession.dropStaged)
    (status := .ok) (note := []) rfl ?_).trans ?_)
  · have hany : ((s.taken 0x0202 r).mgmt.model.staged.any fun x => x.kind == 0) = true := by
      rw [State.taken_mgmt, hstaged, Option.any_some, hkind]
      rfl
    rw [imageUnloadBody, withLength_eq _ hlen, hsel]
    simp only [hany, if_true, later]
  · rw [State.released_dropStaged, State.released_closeModelSession, State.released_accepted h]

theorem exec_bulkAbort_accepted (h : s.accepts 0x0204 r = true) (hlen : r.payload = []) :
    exec (.bulkAbort r) s = .next (s.bulkAbort.answer 0x0204 r .ok []) := by
  refine congrArg Host.Outcome.next ((State.commandRow_replies h (st := .ok) (p := []) (t := (s.taken 0x0204 r).bulkAbort) ?_).trans ?_)
  · rw [withLength_eq _ (by rw [hlen]; rfl)]
    rfl
  · rw [State.released_bulkAbort, State.released_accepted h]

/-- The body of IMAGE_SWAP on an image 0 while no swap is under way: the checks of the image decide. -/
theorem imageSwapBody_eq (hlen : r.payload.length = 10) (hsel : selectorOf r.payload = some 0) {u : State} (hswap : u.swapping = false) :
    imageSwapBody r u = match u.checkModel none with
      | .error (e, b) => replyWith e b (u.countAuth e)
      | .ok (m, o) => match u.swapRefuses m o with
        | some (e, b) => replyWith e b u
        | none => (none, (u.onModel fun x => { x with
            swap := some ⟨m, leAt r.payload 4 6, false, false, none, some r, o.bytes⟩ }).startRunning 0x0205 r .ok o.bytes) := by
  rw [imageSwapBody, withLength_eq _ hlen]
  simp only [selector_passes hsel, hswap, Bool.false_eq_true, if_false] <;> rfl

theorem exec_imageSwap_accepted {m : Model} {o : Outcome} (h : s.accepts 0x0205 r = true) (hlen : r.payload.length = 10)
    (hsel : selectorOf r.payload = some 0) (hswap : s.swapping = false)
    (hcheck : (s.taken 0x0205 r).checkModel none = .ok (m, o)) (hrefuses : (s.taken 0x0205 r).swapRefuses m o = none) :
    exec (.imageSwap r) s =
      .next ((s.onModel fun x => { x with
        swap := some ⟨m, leAt r.payload 4 6, false, false, none, some r, o.bytes⟩ }).startRunning 0x0205 r .ok o.bytes) := by
  refine congrArg Host.Outcome.next ((State.commandRow_starts h (t := (s.taken 0x0205 r).onModel fun x => { x with
    swap := some ⟨m, leAt r.payload 4 6, false, false, none, some r, o.bytes⟩ }) (status := .ok) (note := o.bytes) rfl ?_).trans ?_)
  · rw [imageSwapBody_eq (u := s.taken 0x0205 r) hlen hsel hswap, hcheck]
    simp only [hrefuses]
  · rw [State.released_onModel, State.released_accepted h]

theorem exec_imageSwap_refused {m : Model} {o : Outcome} {e : Status} {b : List Byte} (h : s.accepts 0x0205 r = true)
    (hlen : r.payload.length = 10) (hsel : selectorOf r.payload = some 0) (hswap : s.swapping = false)
    (hcheck : (s.taken 0x0205 r).checkModel none = .ok (m, o)) (hrefuses : (s.taken 0x0205 r).swapRefuses m o = some (e, b)) :
    exec (.imageSwap r) s = .next (s.answer 0x0205 r e b) := by
  refine congrArg Host.Outcome.next (State.commandRow_reports h ?_)
  rw [imageSwapBody_eq (u := s.taken 0x0205 r) hlen hsel hswap, hcheck]
  simp only [hrefuses, replyWith]

theorem exec_imageSwap_badImage {e : Status} {b : List Byte} (h : s.accepts 0x0205 r = true) (hlen : r.payload.length = 10)
    (hsel : selectorOf r.payload = some 0) (hswap : s.swapping = false)
    (hcheck : (s.taken 0x0205 r).checkModel none = .error (e, b)) :
    exec (.imageSwap r) s = .next ((s.countAuth e).answer 0x0205 r e b) := by
  refine congrArg Host.Outcome.next ((State.commandRow_replies h (st := e) (p := b) (t := (s.taken 0x0205 r).countAuth e) ?_).trans ?_)
  · rw [imageSwapBody_eq (u := s.taken 0x0205 r) hlen hsel hswap, hcheck]
    rfl
  · rw [State.released_countAuth, State.released_accepted h]

end

/-- Settles O53: each row by its own command, and the cut of a swap by the function it runs. -/
theorem modelImageCommands : Obligations.ModelImageCommands := by
  intro s r
  refine ⟨fun kind n => exec_imageBegin_accepted, ?_, fun u m => ⟨(u.installModel_frame m).1, (u.installModel_frame m).2, ?_, ?_⟩,
    fun h hlen => ⟨exec_imageUnload_active h hlen, fun x => exec_imageUnload_staged h hlen⟩, exec_bulkAbort_accepted, ?_, ?_⟩
  · rintro h hsel _ rfl
    refine ⟨?_, fun m o e b => exec_imageCommit_noRoom h hsel, fun e b => exec_imageCommit_badImage h hsel⟩
    rintro m o t hcheck hclaim _ rfl
    exact ⟨exec_imageCommit_checked h hsel hcheck hclaim, State.installFailed_model _⟩
  · rw [u.unloadModel_frame.1]
    rfl
  · exact u.unloadModel_frame.2
  · rintro h hlen hsel hswap _ rfl
    exact ⟨fun m o => exec_imageSwap_accepted h hlen hsel hswap, fun m o e b => exec_imageSwap_refused h hlen hsel hswap,
      fun e b => exec_imageSwap_badImage h hlen hsel hswap⟩
  · intro w hw hrun hcut
    rw [show exec .swapCut s = execSwapCut s from rfl, execSwapCut, hw]
    exact congrArg Host.Outcome.next (whenDue_of_due (by rw [hrun, hcut]; rfl) _ s)

end Sys2Proof.Machine
end

section
/-!
PROOF. Long commands, their ends, and the test port (O55).
-/

namespace Sys2Proof.Machine

section

variable {s : State} {r : Req}

/-! ### ARM and STOP (R482, R483) -/

theorem exec_arm_armed (h : s.accepts 0x0300 r = true) (hlen : r.payload = []) (hpass : (s.taken 0x0300 r).armRefuses = none) :
    exec (.arm r) s = .next (((s.taken 0x0300 r).armNow.startRunning 0x0300 r .ok []).released 0x0300 r) := by
  refine congrArg Host.Outcome.next (State.commandRow_goesOn h ?_)
  rw [armBody, withLength_eq _ (by rw [hlen]; rfl), hpass]
  rfl

theorem exec_arm_refused {e : Status} (h : s.accepts 0x0300 r = true) (hlen : r.payload = [])
    (hrefuses : (s.taken 0x0300 r).armRefuses = some e) : exec (.arm r) s = .next (s.answer 0x0300 r e []) := by
  refine congrArg Host.Outcome.next (State.commandRow_reports h ?_)
  rw [armBody, withLength_eq _ (by rw [hlen]; rfl), hrefuses]
  rfl

theorem exec_stop_accepted (h : s.accepts 0x0301 r = true) (hlen : r.payload = []) :
    exec (.stop r) s = .next (((s.taken 0x0301 r).stopNow.released 0x0301 r).answer 0x0301 r .ok []) := by
  refine congrArg Host.Outcome.next (State.commandRow_replies h ?_)
  rw [withLength_eq _ (by rw [hlen]; rfl)]
  rfl

/-! ### Power domains and regions (R406, R414, R415) -/

/-- POWER_SET's own work on a domain without a transition: done at once when the domain is there, a transition otherwise. -/
theorem powerSetBody_still {d t : Nat} (hpayload : r.payload = leBytes 1 d ++ leBytes 1 t ++ leBytes 2 0) (hd : d < 44) (ht : t < 3)
    {u : State} (hpass : u.powerRefuses d t = none) (hmove : (u.pdom d).move = none) :
    powerSetBody r u =
      (if (u.pdom d).st == pwrOf t then
        reply .ok ((u.onPdom d fun x => { x with target := pwrOf t, retry := none }).onPdom d fun x => { x with result := 0 })
       else (none, ((u.onPdom d fun x => { x with target := pwrOf t, retry := none }).startMove d (pwrOf t)).startRunning
        0x0400 r .ok [])) := by
  have hdom : leAt r.payload 0 1 = d := by
    rw [hpayload, List.append_assoc]
    exact leAt_leBytes (by omega) _
  have htarget : leAt r.payload 1 1 = t := by
    rw [hpayload, List.append_assoc]
    exact (leAt_append (length_leBytes 1 d) _ 0 1).trans (leAt_leBytes (by omega) _)
  have hzero : leAt r.payload 2 2 = 0 := by
    rw [hpayload]
    exact (leAt_append (m := 2) (by simp) _ 0 2).trans (leAt_leBytes_whole (by decide))
  rw [powerSetBody, withLength_eq _ (by rw [hpayload]; simp)]
  simp only [hdom, htarget, hzero, hpass, hmove]
  rfl

theorem exec_powerSet_there {d t : Nat} (h : s.accepts 0x0400 r = true)
    (hpayload : r.payload = leBytes 1 d ++ leBytes 1 t ++ leBytes 2 0) (hd : d < 44) (ht : t < 3)
    (hpass : s.powerRefuses d t = none) (hmove : (s.pdom d).move = none) (hst : (s.pdom d).st = pwrOf t) :
    exec (.powerSet r) s =
      .next (((s.onPdom d fun x => { x with target := pwrOf t, retry := none }).onPdom d fun x =>
        { x with result := 0 }).answer 0x0400 r .ok []) := by
  refine congrArg Host.Outcome.next ((State.commandRow_replies h (st := .ok) (p := [])
    (t := ((s.taken 0x0400 r).onPdom d fun x => { x with target := pwrOf t, retry := none }).onPdom d fun x => { x with result := 0 }) ?_).trans ?_)
  · rw [powerSetBody_still hpayload hd ht (by rw [State.taken_powerRefuses]; exact hpass) (by rw [State.taken_pdom]; exact hmove),
      State.taken_pdom, hst, if_pos (beq_iff_eq.2 rfl), reply]
  · rw [State.released_onPdom, State.released_onPdom, State.released_accepted h]

theorem exec_powerSet_moves {d t : Nat} (h : s.accepts 0x0400 r = true)
    (hpayload : r.payload = leBytes 1 d ++ leBytes 1 t ++ leBytes 2 0) (hd : d < 44) (ht : t < 3)
    (hpass : s.powerRefuses d t = none) (hmove : (s.pdom d).move = none) (hst : (s.pdom d).st ≠ pwrOf t) :
    exec (.powerSet r) s =
      .next (((s.onPdom d fun x => { x with target := pwrOf t, retry := none }).startMove d (pwrOf t)).startRunning
        0x0400 r .ok []) := by
  refine congrArg Host.Outcome.next ((State.commandRow_starts h (status := .ok) (note := [])
    (t := ((s.taken 0x0400 r).onPdom d fun x => { x with target := pwrOf t, retry := none }).startMove d (pwrOf t)) rfl ?_).trans ?_)
  · rw [powerSetBody_still hpayload hd ht (by rw [State.taken_powerRefuses]; exact hpass) (by rw [State.taken_pdom]; exact hmove),
      State.taken_pdom, if_neg (by rw [beq_iff_eq]; exact hst)]
  · rw [State.released_startMove, State.released_onPdom, State.released_accepted h]

theorem exec_regionPark_accepted {e t : Nat} (h : s.accepts 0x0402 r = true) (hpayload : r.payload = leBytes 1 e ++ leBytes 1 t)
    (he : e < 8) (ht : t = 1 ∨ t = 2) (hother : s.otherOut e = false) (hregion : s.region e = 1) (hswap : s.swapping = false)
    (harmed : s.armed = true) (hactive : s.mgmt.model.active.isSome = true)
    (hstill : ∀ i, i < 4 → (s.pdom (4 * e + i)).move = none ∧ (s.pdom (4 * e + i)).pend = none) (hqueue : t = 2 → s.queueIn e = false) :
    exec (.regionPark r) s =
      .next (((((s.taken 0x0402 r).onPower fun p => { p with
        park := some ⟨e, pwrOf t, false, [4 * e, 4 * e + 2, 4 * e + 1, 4 * e + 3]⟩,
        switches := p.switches ++ [.park e] }).startRunning 0x0402 r .ok []).settleSwitches).released 0x0402 r) := by
  have hregionOf : leAt r.payload 0 1 = e := by
    rw [hpayload]
    exact leAt_leBytes (by omega) _
  have htarget : leAt r.payload 1 1 = t := by
    rw [hpayload]
    exact (leAt_append (length_leBytes 1 e) _ 0 1).trans (leAt_leBytes_whole (by omega))
  have hmoves : ((upTo 4).any fun i => (s.pdom (4 * e + i)).move.isSome || (s.pdom (4 * e + i)).pend.isSome) = false := by
    rw [List.any_eq_false]
    intro i hi
    obtain ⟨hmove, hpend⟩ := hstill i (List.mem_range.1 hi)
    simp [hmove, hpend]
  have hheld : (t == 2 && s.queueIn e) = false := by
    rcases ht with rfl | rfl
    · rfl
    · rw [hqueue rfl]
      rfl
  have hform : (decide (8 ≤ e) || (t != 1 && t != 2)) = false := by
    rw [decide_eq_false (Nat.not_le.2 he)]
    rcases ht with rfl | rfl <;> rfl
  refine congrArg Host.Outcome.next (State.commandRow_goesOn h ?_)
  rw [regionParkBody, withLength_eq _ (by rw [hpayload]; simp)]
  simp only [hregionOf, htarget, State.taken_otherOut, State.taken_region, State.taken_swapping, State.taken_armed,
    State.taken_mgmt, State.taken_pdom, State.taken_queueIn, hother, hregion, hswap, harmed, hmoves, hheld, hform,
    Option.isNone_eq_false_iff.2 hactive, bne_self_eq_false, Bool.or_self, Bool.not_true, Bool.false_eq_true, if_false]

theorem exec_regionResume_accepted {e : Nat} (h : s.accepts 0x0403 r = true) (hpayload : r.payload = leBytes 1 e) (he : e < 8)
    (hswap : s.swapping = false) (hregion : s.region e = 3) :
    exec (.regionResume r) s =
      .next (((((s.taken 0x0403 r).startRunning 0x0403 r .ok []).startResume e).settleSwitches).released 0x0403 r) := by
  have hregionOf : leAt r.payload 0 1 = e := by
    rw [hpayload]
    exact leAt_leBytes_whole (by omega)
  refine congrArg Host.Outcome.next (State.commandRow_goesOn h ?_)
  rw [regionResumeBody, withLength_eq _ (by rw [hpayload]; simp)]
  simp only [hregionOf, State.taken_swapping, State.taken_region, hswap, hregion, Nat.not_le.2 he, bne_self_eq_false,
    Bool.false_eq_true, if_false]

/-! ### Attestation, life cycle, firmware and self-test (R440, R445, R448) -/

theorem State.taken_bump (op id : Nat) : (s.taken op r).bump id = (s.bump id).taken op r := by
  unfold State.bump State.taken
  split
  · rfl
  · rfl

theorem exec_attest_accepted (h : s.accepts 0x0801 r = true) (hlen : r.payload.length = 32) (hkey : s.keyTemporary = false) :
    exec (.attest r) s =
      .next ({ s.bump (pid 0x16 0 1) with free := s.free + 1 }.startRunning 0x0801 r .ok
        ((s.bump (pid 0x16 0 1)).attestBody r.payload ++
          (s.bump (pid 0x16 0 1)).signed ((s.bump (pid 0x16 0 1)).attestBody r.payload))) := by
  obtain ⟨u, hu⟩ : ∃ u, u = s.bump (pid 0x16 0 1) := ⟨_, rfl⟩
  have huloc : u.loc = s.loc := by rw [hu, State.bump_loc]
  have hufree : u.free = s.free := by rw [hu, State.bump_free]
  have huhost : u.host.accepted = [] := by rw [hu, State.bump_host]; exact State.accepts_host h
  rw [← hu, ← hufree]
  refine congrArg Host.Outcome.next ((State.commandRow_starts h (t := (u.taken 0x0801 r).takeFree.2) (status := .ok)
    (note := u.attestBody r.payload ++ u.signed (u.attestBody r.payload)) rfl ?_).trans ?_)
  · rw [attestBody, withLength_eq _ hlen, State.taken_keyTemporary, hkey, if_neg Bool.false_ne_true, State.taken_bump, ← hu]
    simp only [State.taken_attestBody, later]
    rfl
  · rw [State.released_takeFree, State.released_taken huhost]
    rfl

theorem State.host_blowFuse (target : Nat) (p : List Byte) : (s.blowFuse target p).host = s.host := by
  unfold State.blowFuse
  split <;> rfl

theorem State.loc_blowFuse (target : Nat) (p : List Byte) : (s.blowFuse target p).loc = s.loc := by
  unfold State.blowFuse
  split <;> rfl

theorem exec_lifecycleSet_passed (h : s.accepts 0x0803 r = true) (hpass : s.lifeRefuses r.payload = none) :
    exec (.lifecycleSet r) s = .next ((s.blowFuse (leAt r.payload 0 1) r.payload).startRunning 0x0803 r .ok []) := by
  refine congrArg Host.Outcome.next ((State.commandRow_starts h
    (t := (s.taken 0x0803 r).blowFuse (leAt r.payload 0 1) r.payload) (status := .ok) (note := []) ?_ ?_).trans ?_)
  · rw [State.host_blowFuse, State.loc_blowFuse]
    rfl
  · rw [lifecycleSetBody, State.taken_lifeRefuses, hpass]
    rfl
  · rw [State.released_blowFuse, State.released_accepted h]

theorem exec_lifecycleSet_refused {e : Status} (h : s.accepts 0x0803 r = true) (hrefuses : s.lifeRefuses r.payload = some e) :
    exec (.lifecycleSet r) s = .next (((s.countAuth e).bump (pid 0x16 0 0x101)).newNonce.answer 0x0803 r e []) := by
  refine congrArg Host.Outcome.next ((State.commandRow_replies h (st := e) (p := [])
    (t := (((s.taken 0x0803 r).countAuth e).bump (pid 0x16 0 0x101)).newNonce) ?_).trans ?_)
  · rw [lifecycleSetBody, State.taken_lifeRefuses, hrefuses]
    rfl
  · rw [State.released_newNonce, State.released_bump, State.released_countAuth, State.released_accepted h]

/-- FIRMWARE_ACTIVATE's own work on a staged image: its checks decide. -/
theorem firmwareActivateBody_staged {img : List Byte} (hlen : r.payload.length = 4) (hsel : selectorOf r.payload = some 0)
    {u : State} (hstaged : u.stagedFirmware = some img) :
    firmwareActivateBody r u = match u.firmwareRefuses img with
      | some e => reply e (u.countAuth e)
      | none => later 0x0804 .ok [] r u.firmwareWriting := by
  rw [firmwareActivateBody, withLength_eq _ hlen]
  simp only [selector_passes hsel, hstaged, Bool.false_eq_true, if_false] <;> rfl

theorem exec_firmwareActivate_passed {img : List Byte} (h : s.accepts 0x0804 r = true) (hlen : r.payload.length = 4)
    (hsel : selectorOf r.payload = some 0) (hstaged : s.stagedFirmware = some img) (hpass : s.firmwareRefuses img = none) :
    exec (.firmwareActivate r) s = .next (((s.taken 0x0804 r).firmwareWriting.startRunning 0x0804 r .ok []).released 0x0804 r) := by
  refine congrArg Host.Outcome.next (State.commandRow_goesOn h ?_)
  rw [firmwareActivateBody_staged hlen hsel (u := s.taken 0x0804 r) (by rw [State.taken_stagedFirmware]; exact hstaged),
    State.taken_firmwareRefuses, hpass]
  rfl

theorem exec_firmwareActivate_refused {img : List Byte} {e : Status} (h : s.accepts 0x0804 r = true) (hlen : r.payload.length = 4)
    (hsel : selectorOf r.payload = some 0) (hstaged : s.stagedFirmware = some img) (hrefuses : s.firmwareRefuses img = some e) :
    exec (.firmwareActivate r) s = .next ((s.countAuth e).answer 0x0804 r e []) := by
  refine congrArg Host.Outcome.next ((State.commandRow_replies h (st := e) (p := []) (t := (s.taken 0x0804 r).countAuth e) ?_).trans ?_)
  · rw [firmwareActivateBody_staged hlen hsel (u := s.taken 0x0804 r) (by rw [State.taken_stagedFirmware]; exact hstaged),
      State.taken_firmwareRefuses, hrefuses]
    rfl
  · rw [State.released_countAuth, State.released_accepted h]

theorem exec_bistRun_accepted {n : Nat} (h : s.accepts 0x0A02 r = true) (hcount : leAt r.payload 0 1 = n)
    (hzero : leAt r.payload 1 3 = 0) (h1 : 1 ≤ n) (hn : n ≤ 64) (hlen : r.payload.length = 4 + n)
    (hpass : s.bistRefuses (bistCodes r.payload) = none) : exec (.bistRun r) s = .next (s.startRunning 0x0A02 r .ok []) := by
  refine congrArg Host.Outcome.next (State.commandRow_waits h ?_)
  have hlength : (decide (r.payload.length < 4) || r.payload.length != 4 + n) = false := by
    rw [hlen, bne_self_eq_false, decide_eq_false (by omega)]
    rfl
  have hform : (n == 0 || decide (64 < n) || leAt r.payload 1 3 != 0) = false := by
    rw [hzero, decide_eq_false (by omega), beq_eq_false_iff_ne.2 (by omega)]
    rfl
  rw [bistRunBody]
  simp only [hcount, hlength, hform, State.taken_bistRefuses, hpass, Bool.false_eq_true, if_false, later]

/-! ### Enumeration (R338) -/

/-- What refuses ENUMERATE without asking of modules beyond the partners. -/
def State.enumerateBarred (s : State) (r : Req) : Bool := r.src.toNat != s.addr || s.armed || s.partnersArmed

theorem State.enumerateBarred_eq_true :
    s.enumerateBarred r = true ↔ r.src.toNat ≠ s.addr ∨ s.armed = true ∨ s.partnersArmed = true := by
  simp only [State.enumerateBarred, Bool.or_eq_true, bne_iff_ne, or_assoc]

theorem State.enumerateBarred_of_free (hown : r.src.toNat = s.addr) (harmed : s.armed = false) (hpartners : s.partnersArmed = false) :
    s.enumerateBarred r = false := by
  rw [State.enumerateBarred, harmed, hpartners, hown, bne_self_eq_false]
  rfl

/-- ENUMERATE's own work where the module knows of its partners only. -/
theorem enumerateBody_near (hlen : r.payload = []) {u : State} (hfar : u.farModules = false) :
    enumerateBody r u =
      if u.enumerateBarred r then reply .wrongState u
      else (none, (u.startEnumeration.pumpAll).startRunning 0x0900 r .ok []) := by
  rw [enumerateBody, withLength_eq _ (by rw [hlen]; rfl)]
  simp only [hfar, Bool.false_eq_true, if_false, Bool.false_and, Bool.or_false]
  rfl

/-- ENUMERATE's own work where modules lie beyond the partners: that none of them is armed is drawn. -/
theorem enumerateBody_far (hlen : r.payload = []) {u : State} (hfar : u.farModules = true) :
    enumerateBody r u =
      if u.enumerateBarred r || Config.farArmed u.free then reply .wrongState { u with free := u.free + 1 }
      else (none, ((State.startEnumeration { u with free := u.free + 1 }).pumpAll).startRunning 0x0900 r .ok []) := by
  have hfar' : State.farModules { u with free := u.free + 1 } = true := hfar
  rw [enumerateBody, withLength_eq _ (by rw [hlen]; rfl)]
  simp only [hfar, hfar', if_true, Bool.true_and, State.takeFree]
  rfl

theorem exec_enumerate_near (h : s.accepts 0x0900 r = true) (hlen : r.payload = []) (hfree : s.enumerateBarred r = false)
    (hfar : s.farModules = false) :
    exec (.enumerate r) s =
      .next ((((s.taken 0x0900 r).startEnumeration.pumpAll).startRunning 0x0900 r .ok []).released 0x0900 r) := by
  refine congrArg Host.Outcome.next (State.commandRow_goesOn h ?_)
  have hfree' : (s.taken 0x0900 r).enumerateBarred r = false := hfree
  rw [enumerateBody_near hlen (u := s.taken 0x0900 r) hfar, hfree', if_neg Bool.false_ne_true]

theorem exec_enumerate_far (h : s.accepts 0x0900 r = true) (hlen : r.payload = []) (hfree : s.enumerateBarred r = false)
    (hfar : s.farModules = true) {v : State} (hv : v = { s.taken 0x0900 r with free := s.free + 1 }) :
    exec (.enumerate r) s = .next
      (if Config.farArmed s.free then (v.released 0x0900 r).answer 0x0900 r .wrongState []
       else ((v.startEnumeration.pumpAll).startRunning 0x0900 r .ok []).released 0x0900 r) := by
  have hbody := enumerateBody_far hlen (u := s.taken 0x0900 r) hfar
  have hfree' : (s.taken 0x0900 r).enumerateBarred r = false := hfree
  rw [hfree', Bool.false_or, State.taken_free, ← hv] at hbody
  cases hdrawn : Config.farArmed s.free with
  | true =>
    rw [hdrawn, if_pos rfl] at hbody
    exact congrArg Host.Outcome.next (State.commandRow_replies h hbody)
  | false =>
    rw [hdrawn, if_neg Bool.false_ne_true] at hbody
    exact congrArg Host.Outcome.next (State.commandRow_goesOn h hbody)

/-- A refused ENUMERATE changes nothing, but that it may have drawn a free value. -/
theorem exec_enumerate_barred (h : s.accepts 0x0900 r = true) (hlen : r.payload = []) (hbarred : s.enumerateBarred r = true) :
    ∃ k, s.free ≤ k ∧ k ≤ s.free + 1 ∧ exec (.enumerate r) s = .next ({ s with free := k }.answer 0x0900 r .wrongState []) := by
  have hbarred' : (s.taken 0x0900 r).enumerateBarred r = true := hbarred
  cases hfar : s.farModules with
  | false =>
    have hbody := enumerateBody_near hlen (u := s.taken 0x0900 r) hfar
    rw [hbarred', if_pos rfl] at hbody
    exact ⟨s.free, le_refl _, Nat.le_succ _, congrArg Host.Outcome.next (State.commandRow_reports h hbody)⟩
  | true =>
    have hbody := enumerateBody_far hlen (u := s.taken 0x0900 r) hfar
    rw [hbarred', Bool.true_or, if_pos rfl] at hbody
    refine ⟨s.free + 1, Nat.le_succ _, le_refl _, congrArg Host.Outcome.next ((State.commandRow_replies h hbody).trans ?_)⟩
    conv_rhs => rw [← State.released_accepted h]
    rfl

/-! ### Completions (R357, R369) -/

theorem exec_commandCompletion {tag : BitVec 12} {x : Running} (hawake : s.awake = true)
    (hx : s.host.running.find? (fun x => x.req.tag == tag) = some x) (c : Completion) :
    exec (.commandCompletion tag c) s = .next (s.complete x c) := by
  rw [show exec (.commandCompletion tag c) s = execCommandCompletion tag c s from rfl, execCommandCompletion, hx]
  exact congrArg Host.Outcome.next (whenDue_of_due hawake _ s)

/-- Work installed or finished at its start is answered with what its start fixed. -/
theorem State.complete_stored {x : Running} (h : x.opcode ∈ [0x0201, 0x0202, 0x0300, 0x0801]) :
    s.complete x .done = s.finish x ((Status.ofCode x.status).getD .ok) x.note := by
  simp only [List.mem_cons, List.not_mem_nil, or_false] at h
  unfold State.complete
  rcases h with h | h | h | h <;> rw [h] <;> rfl

theorem State.complete_i2c {x : Running} {data : List Byte} (hop : x.opcode = 0x0600) (hfirst : s.i2cFirst x = true)
    (hlen : data.length = leAt x.req.payload 4 2) (hintime : locDiff s.loc x.took ≤ 50000000) :
    s.complete x (.i2cBytes data) = s.finish x .ok data := by
  unfold State.complete
  rw [hop]
  simp only [hfirst, if_true, i2cEnd, hlen, decide_eq_true hintime, Bool.and_true]
  rfl

theorem State.complete_firmware {x : Running} (hop : x.opcode = 0x0804) :
    s.complete x .done = s.firmwareWritten.finish x ((Status.ofCode x.status).getD .ok) x.note := by
  unfold State.complete
  rw [hop]
  rfl

/-- The end of a command of the own host enters the reply queue. -/
theorem State.finish_own {x : Running} (st : Status) (p : List Byte) (hown : x.req.src.toNat = s.addr)
    (hroom : s.host.replies.length < 256) :
    (s.finish x st p).host.running = s.host.running.erase x ∧
      (s.finish x st p).host.replies = s.host.replies ++ [s.replyBytes x.opcode x.req.tag.toNat s.addr st p] ∧
      (s.finish x st p).regs = s.regs ∧ (s.finish x st p).mem = s.mem := by
  have hanswer : s.finish x st p = (s.endRunning x).pushReply x.req.tag.toNat
      ((s.endRunning x).replyBytes x.opcode x.req.tag.toNat x.req.src.toNat st p) := if_pos hown
  obtain ⟨hreplies, -, hrunning, hregs, hmem⟩ := State.pushReply_room (s := s.endRunning x) hroom x.req.tag.toNat
    ((s.endRunning x).replyBytes x.opcode x.req.tag.toNat x.req.src.toNat st p)
  rw [hanswer]
  refine ⟨hrunning, hreplies.trans ?_, hregs, hmem⟩
  rw [hown]
  rfl

/-! ### The test port (R450) -/

theorem State.testPort_eq_none : s.testPort = none ↔ s.powered = false := by
  unfold State.testPort
  cases s.powered with
  | false => simp
  | true =>
    simp only [Bool.not_true, Bool.false_eq_true, if_false]
    split <;> simp

theorem State.testPort_powered (hpower : s.powered = true) :
    (s.testPort = some .active ↔ s.mgmt.sec.lc = 0 ∨ s.mgmt.sec.lc = 3) ∧
      (s.testPort = some .held ↔ s.mgmt.sec.lc ≠ 0 ∧ s.mgmt.sec.lc ≠ 3) := by
  unfold State.testPort
  rw [hpower]
  by_cases hopen : s.mgmt.sec.lc = 0 ∨ s.mgmt.sec.lc = 3
  · simp [hopen, ← not_or]
  · simp [hopen, ← not_or]

end

/-- Settles O55: each command by its own row, and each end by the completion of its opcode. -/
theorem longCommandsAndTheirReplies : Obligations.LongCommandsAndTheirReplies := by
  intro s r
  refine ⟨fun h hlen => ⟨fun hpass => ⟨exec_arm_armed h hlen hpass, rfl, rfl⟩, fun e => exec_arm_refused h hlen⟩, exec_stop_accepted,
    fun d t h hpayload hd ht hpass hmove => ⟨exec_powerSet_there h hpayload hd ht hpass hmove,
      exec_powerSet_moves h hpayload hd ht hpass hmove⟩,
    fun e t => exec_regionPark_accepted, fun e => exec_regionResume_accepted,
    fun h hlen hkey => ⟨_, rfl, exec_attest_accepted h hlen hkey⟩, State.testPort_eq_none, State.testPort_powered,
    fun h => ⟨exec_lifecycleSet_passed h, fun e => exec_lifecycleSet_refused h⟩,
    fun img h hlen hsel hstaged => ⟨exec_firmwareActivate_passed h hlen hsel hstaged,
      fun e => exec_firmwareActivate_refused h hlen hsel hstaged⟩,
    fun h hlen => ⟨fun hown harmed hpartners => ?_, fun hbarred => exec_enumerate_barred h hlen (State.enumerateBarred_eq_true.2 hbarred)⟩,
    fun n => exec_bistRun_accepted, fun tag x hawake hx => ?_, fun x st p => State.finish_own st p⟩
  · have hfree := State.enumerateBarred_of_free hown harmed hpartners
    exact ⟨exec_enumerate_near h hlen hfree, fun hfar v => exec_enumerate_far h hlen hfree hfar⟩
  · refine ⟨fun hop => ?_, fun data hop hfirst hlen hintime => ?_, fun hop => ?_⟩
    · rw [exec_commandCompletion hawake hx, State.complete_stored hop]
    · rw [exec_commandCompletion hawake hx, State.complete_i2c hop hfirst hlen hintime]
    · rw [exec_commandCompletion hawake hx, State.complete_firmware hop]

end Sys2Proof.Machine
end

section
/-!
PROOF. Fatal errors and their dump, warm restarts, and scrub (O59).
-/

namespace Sys2Proof.Machine

section

variable {s : State}

/-! ### Fatal errors (R426, R427) -/

theorem exec_fatalError {cause : Nat} (hpower : s.powered = true) (h1 : 1 ≤ cause) (h9 : cause ≤ 9) :
    exec (.fatalError cause) s = .next (s.fatal cause 0) := by
  refine congrArg Host.Outcome.next (whenDue_of_due ?_ _ s)
  rw [hpower, inRange, decide_eq_true h1, decide_eq_true (by omega)]
  rfl

theorem State.haltPipeline_halts (s : State) : s.haltPipeline.armed = false ∧ s.haltPipeline.cmd = .boot := ⟨rfl, rfl⟩

/-- A first fatal error stops the pipeline, and the boot ROM takes over. -/
theorem State.fatal_halts (h : s.mgmt.fault.fatal = none) (cause detail : Nat) :
    (s.fatal cause detail).armed = false ∧ (s.fatal cause detail).cmd = .boot := by
  have hnone : ¬ s.mgmt.fault.fatal.isSome = true := by simp [h]
  rw [State.fatal, if_neg hnone]
  dsimp only
  rw [State.onFault_armed, State.onFault_cmd, State.bump_armed, State.bump_cmd]
  exact State.haltPipeline_halts _

/-- One that comes while another is being handled only counts. -/
theorem State.fatal_again (h : s.mgmt.fault.fatal.isSome = true) (cause detail : Nat) :
    s.fatal cause detail = s.bump (pid 1 0 0x141) := if_pos h

/-! ### The dump (R429, R430) -/

theorem State.writeBytes_mgmt (s : State) (a : Nat) (bs : List Byte) : (s.writeBytes a bs).mgmt = s.mgmt := by
  rw [State.writeBytes_eq]

theorem State.editHeader_mgmt (s : State) (off : Nat) (bs : List Byte) : (s.editHeader off bs).mgmt = s.mgmt := by
  rw [State.editHeader, State.writeBytes_mgmt, State.writeBytes_mgmt]

theorem State.writeDump_mgmt (s : State) : s.writeDump.mgmt = s.mgmt := by
  rw [State.writeDump, State.writeBytes_mgmt, State.writeBytes_mgmt]

theorem exec_fatalDumpDone {c : Nat} (h : s.mgmt.fault.fatal = some c) (compatSel : Bool) :
    exec (.fatalDumpDone compatSel) s =
      .next (if s.dumpHeld then
        (s.editHeader 52 (leBytes 4 (leAt (s.readBytes (dumpBase + 52) 4) 0 4 + 1) ++ leBytes 1 c)).rebooted compatSel
          (c == 8 || s.mgmt.fault.thermalHold)
      else s.writeDump.rebooted compatSel (c == 8 || s.writeDump.mgmt.fault.thermalHold)) := by
  rw [show exec (.fatalDumpDone compatSel) s = execFatalDumpDone compatSel s from rfl, execFatalDumpDone, h]
  cases hheld : s.dumpHeld with
  | true =>
    dsimp only
    rw [if_pos rfl, if_pos rfl, State.editHeader_mgmt]
  | false =>
    dsimp only
    rw [if_neg Bool.false_ne_true, if_neg Bool.false_ne_true]

/-- The compute die stays in reset after THERMAL, and where it was held before. -/
theorem fatalDumpDone_thermalHold {c : Nat} (h : s.mgmt.fault.fatal = some c) (compatSel : Bool) :
    ∃ t, exec (.fatalDumpDone compatSel) s = .next t ∧ t.mgmt.fault.thermalHold = (c == 8 || s.mgmt.fault.thermalHold) := by
  have hthermal : ∀ (u : State) (hold : Bool), (u.rebooted compatSel hold).mgmt.fault.thermalHold = hold := fun u hold => by
    obtain ⟨-, -, -, hfault, -⟩ := u.rebooted_frame compatSel hold
    rw [hfault]
  refine ⟨_, exec_fatalDumpDone h compatSel, ?_⟩
  split
  · exact hthermal _ _
  · rw [hthermal, State.writeDump_mgmt]

/-- Byte 7 of a header just made: VALID, and whether a section was cut. -/
theorem State.dumpHeader_flags (s : State) (xs : List (Nat × Nat × List Byte)) :
    ∃ (cut : Bool) (rest : List Byte),
      s.dumpHeader xs = s.mgmt.fault.detect.take 7 ++ (BitVec.ofNat 8 (1 + 2 * bit cut) :: rest) := by
  refine ⟨xs.any fun x => decide (x.2.1 * 1024 < x.2.2.length), ?_, ?_⟩
  swap
  · rw [State.dumpHeader]
    simp only [List.append_assoc]
    rfl

/-- A dump that has been written reads as held. -/
theorem State.dumpHeld_writeDump (hmem : Memory.wf s.mem = true) (hdetect : 7 ≤ s.mgmt.fault.detect.length) :
    s.writeDump.dumpHeld = true := by
  obtain ⟨cut, rest, hheader⟩ := s.dumpHeader_flags s.dumpSections
  have hfront : (s.mgmt.fault.detect.take 7).length = 7 := by rw [List.length_take]; omega
  rw [State.dumpHeld, State.writeDump]
  rw [State.readByte_writeBytes _ _ _ (Memory.wf_writeBytes _ _ hmem), hheader, if_pos ⟨by omega, by simp; omega⟩,
    Nat.add_sub_cancel_left, List.getD_append_right _ _ _ _ (by omega), hfront, Nat.sub_self,
    List.getD_cons_zero]
  cases cut <;> decide

/-! ### Warm restarts (R424, R426) -/

/-- What a warm restart goes by, and what must stand through it, is the same in two states. -/
structure State.restartsLike (s t : State) : Prop where
  cmd : t.cmd = s.cmd
  loc : t.loc = s.loc
  fault : t.mgmt.fault = s.mgmt.fault
  mem : t.mem = s.mem
  armed : t.armed = s.armed

theorem State.restartsLike_self (s : State) : s.restartsLike s := ⟨rfl, rfl, rfl, rfl, rfl⟩

theorem State.restartsLike.trans {t u : State} (h : s.restartsLike t) (h' : t.restartsLike u) : s.restartsLike u :=
  ⟨h'.cmd.trans h.cmd, h'.loc.trans h.loc, h'.fault.trans h.fault, h'.mem.trans h.mem, h'.armed.trans h.armed⟩

theorem State.restartsLike_bump (s : State) (id n : Nat) : s.restartsLike (s.bump id n) :=
  ⟨State.bump_cmd _ _ _, State.bump_loc _ _ _, by rw [State.bump_mgmt], State.bump_mem _ _ _, State.bump_armed _ _ _⟩

theorem State.restartsLike_bumpIf (s : State) (c : Bool) (id : Nat) : s.restartsLike (s.bumpIf c id) := by
  unfold State.bumpIf
  split
  · exact s.restartsLike_bump id 1
  · exact s.restartsLike_self

theorem State.restartsLike_countUe (s : State) (code : Nat) : s.restartsLike (s.countUe code) :=
  (s.restartsLike_bumpIf _ _).trans (State.restartsLike_bumpIf _ _ _)

theorem State.restartsLike_logEntry (s : State) (level action : Nat) (rep : ErrorReport) :
    s.restartsLike (s.logEntry level action rep) := by
  obtain e | ⟨f, e⟩ := State.logEntry_cases s level action rep
  · rw [e]
    exact s.restartsLike_bump _ 1
  · rw [e]
    exact ⟨rfl, rfl, rfl, rfl, rfl⟩

/-- The last warm restart, if any, lies 60 s back. -/
def State.restartRested (s : State) : Prop := ∀ t, s.mgmt.fault.lastRestart = some t → 60000000000 ≤ locDiff s.loc t

/-- What the start of a warm restart leaves. -/
def State.restartBegun (s t : State) : Prop :=
  t.cmd = .restart ∧ t.mgmt.fault.restartFrom = s.cmd ∧ t.mgmt.fault.restartAt = some s.loc ∧ t.mem = s.mem ∧ t.armed = s.armed

/-- Where no restart is recent, one begins. -/
theorem State.warmRestart_rested (h : s.restartRested) : s.restartBegun s.warmRestart := by
  have hagain : (s.mgmt.fault.lastRestart.any fun t => decide (locDiff s.loc t < 60000000000)) = false := by
    cases hlast : s.mgmt.fault.lastRestart with
    | none => rw [Option.any_none]
    | some t => rw [Option.any_some, decide_eq_false (Nat.not_lt.2 (h t hlast))]
  rw [State.warmRestart]
  dsimp only
  rw [hagain, if_neg Bool.false_ne_true]
  exact ⟨rfl, rfl, rfl, rfl, rfl⟩

/-- One that comes too soon after another is fatal. -/
theorem State.warmRestart_again {t : Nat} (hlast : s.mgmt.fault.lastRestart = some t) (hsoon : locDiff s.loc t < 60000000000) :
    s.warmRestart = s.fatal 3 0 := by
  rw [State.warmRestart]
  dsimp only
  rw [hlast, Option.any_some, decide_eq_true hsoon, if_pos rfl]

theorem State.restartsLike.begun {t : State} (h : s.restartsLike t) (hrested : s.restartRested) : s.restartBegun t.warmRestart := by
  have hrested' : t.restartRested := fun at_ => by
    rw [h.fault, h.loc]
    exact hrested at_
  obtain ⟨hcmd, hfrom, hat, hmem, harmed⟩ := State.warmRestart_rested hrested'
  exact ⟨hcmd, hfrom.trans h.cmd, by rw [hat, h.loc], hmem.trans h.mem, harmed.trans h.armed⟩

theorem exec_watchdogTimeout (hrun : s.running = true) :
    exec .watchdogTimeout s = .next (s.logEntry 3 3 ⟨1, 0, 8, 0⟩).warmRestart :=
  congrArg Host.Outcome.next (whenDue_of_due hrun _ s)

theorem watchdogTimeout_restarts (hrun : s.running = true) (hrested : s.restartRested) :
    ∃ t, exec .watchdogTimeout s = .next t ∧ s.restartBegun t :=
  ⟨_, exec_watchdogTimeout hrun, (s.restartsLike_logEntry 3 3 _).begun hrested⟩

theorem watchdogTimeout_fatal (hrun : s.running = true)
    (hsoon : ∃ t, s.mgmt.fault.lastRestart = some t ∧ locDiff s.loc t < 60000000000) (hfatal : s.mgmt.fault.fatal = none) :
    ∃ t, exec .watchdogTimeout s = .next t ∧ t.mgmt.fault.fatal = some 3 := by
  obtain ⟨t, hlast, hlate⟩ := hsoon
  have hlike := s.restartsLike_logEntry 3 3 ⟨1, 0, 8, 0⟩
  refine ⟨_, exec_watchdogTimeout hrun, ?_⟩
  rw [State.warmRestart_again (t := t) (by rw [hlike.fault]; exact hlast) (by rw [hlike.loc]; exact hlate)]
  exact (State.fatal_fault (by rw [hlike.fault]; exact hfatal) 3 0).1

theorem millerWarmRestart_restarts (hrun : s.running = true) (hrested : s.restartRested) (cause : RestartCause) :
    ∃ t, exec (.millerWarmRestart cause) s = .next t ∧ s.restartBegun t := by
  cases cause with
  | memoryError =>
    exact ⟨((s.countUe 1).logEntry 3 3 ⟨1, 0, 1, 0⟩).warmRestart, congrArg Host.Outcome.next (whenDue_of_due hrun _ s),
      ((s.restartsLike_countUe 1).trans (State.restartsLike_logEntry _ 3 3 _)).begun hrested⟩
  | exception =>
    exact ⟨s.warmRestart, congrArg Host.Outcome.next (whenDue_of_due hrun _ s), s.restartsLike_self.begun hrested⟩

theorem exec_restartDone (hpower : s.powered = true) (hcmd : s.cmd = .restart) (tablesOk : Bool) :
    exec (.restartDone tablesOk) s = .next (if tablesOk then s.restartEnds else s.fatal 4 0) :=
  congrArg Host.Outcome.next (whenDue_of_due (by rw [hpower, State.restarting, hcmd]; rfl) _ s)

theorem exec_restartTimeout {t : Nat} (hpower : s.powered = true) (hcmd : s.cmd = .restart) (hat : s.mgmt.fault.restartAt = some t)
    (hlate : 10000000000 ≤ locDiff s.loc t) : exec .restartTimeout s = .next (s.fatal 2 0) := by
  rw [show exec .restartTimeout s = execRestartTimeout s from rfl, execRestartTimeout, hat]
  exact congrArg Host.Outcome.next (whenDue_of_due (by rw [hpower, State.restarting, hcmd, decide_eq_true hlate]; rfl) _ s)

/-! ### Scrub (R423) -/

/-- The walk of a bank moved on. -/
def State.scrubMoved (s : State) (bank : Nat) : State :=
  s.onFault fun f => { f with
    scrub := Sparse.set (fun _ => 0) f.scrub bank ((Sparse.get (fun _ => 0) s.mgmt.fault.scrub bank + 1) % 8192) }

/-- The word that the next scrub access of a bank reads, as an error report names it. -/
def State.scrubWord (s : State) (bank : Nat) : ErrorReport :=
  ⟨(Config.bankUnit bank).1, (Config.bankUnit bank).2, 1,
    BitVec.ofNat 64 (Config.bankWord bank (Sparse.get (fun _ => 0) s.mgmt.fault.scrub bank))⟩

/-- What a scrub access does with what the ECC finds. -/
def State.scrubFound (s : State) (rep : ErrorReport) : EccCheck → State
  | .clean => s
  | .corrected => s.wordCorrected rep
  | .uncorrectable => s.wordBad rep

theorem exec_scrubAccess {bank : Nat} {last : Bool} (hrun : s.running = true) (hbank : bank < 1536) (hon : s.bankOn bank = true)
    (hlast : last = true → Sparse.get (fun _ => 0) s.mgmt.fault.scrub bank = 8191) (ecc : EccCheck) :
    exec (.scrubAccess bank ecc last) s =
      .next (((s.scrubMoved bank).scrubFound (s.scrubWord bank) ecc).bumpIf last (pid 1 0 0x144)) := by
  have hdue : (s.running && s.bankOn bank && (!last || Sparse.get (fun _ => 0) s.mgmt.fault.scrub bank == 8191)) = true := by
    cases last with
    | false => rw [hrun, hon]; rfl
    | true => rw [hrun, hon, hlast rfl]; rfl
  rw [show exec (.scrubAccess bank ecc last) s = execScrubAccess bank ecc last s from rfl, execScrubAccess]
  dsimp only
  rw [onUnit_present (decide_eq_true hbank), whenDue_of_due hdue]
  cases ecc <;> rfl

theorem exec_scrubAccess_off {bank : Nat} (hoff : s.bankOn bank = false) (ecc : EccCheck) (last : Bool) :
    exec (.scrubAccess bank ecc last) s = .next s := by
  rw [show exec (.scrubAccess bank ecc last) s = execScrubAccess bank ecc last s from rfl, execScrubAccess]
  dsimp only
  rw [whenDue_of_not_due (by rw [hoff, Bool.and_false, Bool.false_and]), onUnit, ite_self]

theorem State.wordBad_reports {rep : ErrorReport} (hblock : rep.block ≠ 1) (hcode : rep.code = 1) :
    s.wordBad rep = ((s.countUe 1).ownRule rep).report rep.block rep.inst 1 rep.detail.toNat := by
  rw [State.wordBad, if_neg hblock, State.blockError, hcode]

theorem exec_patrolScrub {area : Nat} (hrun : s.running = true) (harea : area < 7) :
    exec (.patrolScrub area .clean) s = .next s ∧ exec (.patrolScrub area .corrected) s = .next (s.bump (pid 1 0 0x145)) ∧
      exec (.patrolScrub area .uncorrectable) s = .next ((s.countUe 0x0A).report 1 0 0x0A area) := by
  refine ⟨?_, ?_, ?_⟩ <;> rw [show ∀ ecc, exec (.patrolScrub area ecc) s = execPatrolScrub area ecc s from fun _ => rfl, execPatrolScrub, onUnit_present (decide_eq_true harea), whenDue_of_due hrun]

end

/-- Settles O59: each row by the function it runs; a written dump by its header's byte 7, written last. -/
theorem fatalErrorsAndRestarts : Obligations.FatalErrorsAndRestarts := by
  intro s
  refine ⟨fun cause hpower h1 h9 => ⟨fun hnone => ?_, fun hsome => ?_⟩, fun c compatSel hfatal => ⟨fun hheld => ?_, fun hheld => ?_,
      fatalDumpDone_thermalHold hfatal compatSel⟩, fun hc hdetect => State.dumpHeld_writeDump hc.mem hdetect,
    fun hrun => ⟨fun hrested => ⟨watchdogTimeout_restarts hrun hrested, millerWarmRestart_restarts hrun hrested⟩,
      watchdogTimeout_fatal hrun⟩,
    fun hpower hcmd => ⟨(exec_restartDone hpower hcmd true).trans (by rw [if_pos rfl]),
      (exec_restartDone hpower hcmd false).trans (by rw [if_neg Bool.false_ne_true]), fun t hat hlate => exec_restartTimeout hpower hcmd hat hlate⟩, ?_,
    fun bank ecc last hoff => exec_scrubAccess_off hoff ecc last, fun hrun area harea => exec_patrolScrub hrun harea⟩
  · obtain ⟨hcause, hfault⟩ := State.fatal_fault hnone cause 0
    obtain ⟨harmed, hcmd⟩ := State.fatal_halts hnone cause 0
    exact ⟨_, exec_fatalError hpower h1 h9, hcause, hfault, harmed, hcmd, State.fatal_mem s cause 0⟩
  · rw [exec_fatalError hpower h1 h9, State.fatal_again hsome]
  · rw [exec_fatalDumpDone hfatal, if_neg (by rw [hheld]; decide)]
  · rw [exec_fatalDumpDone hfatal, if_pos hheld]
  · rintro hrun bank a last hbank hon rfl hlast _ rfl _ rfl
    exact ⟨exec_scrubAccess hrun hbank hon hlast .clean, exec_scrubAccess hrun hbank hon hlast .corrected,
      exec_scrubAccess hrun hbank hon hlast .uncorrectable, fun hblock => State.wordBad_reports hblock rfl⟩

end Sys2Proof.Machine
end
